-- ==== Sys2Proof/Word.lean ====
section
/-! DEFINITION. The machine's words, and the canonical tables that hold sparse state. -/

namespace Sys2Proof

/-- A 64-bit register (03 R56) or a control-space register (01 R34). -/
abbrev Word := BitVec 64
/-- One byte of memory. -/
abbrev Byte := BitVec 8
/-- A world tag (04 R96). -/
abbrev Tag := BitVec 12
/-- The 64 bytes of a line, byte i in bits [8i+7:8i] (08: lines are 64 bytes at every level). -/
abbrev LineData := BitVec 512
/-- A hardware thread of the package (01 R18): thread ID = 2 · logical core + thread. -/
abbrev Thr := Fin 1024
/-- A logical core: 32 · die + local index (00 R3). -/
abbrev CoreId := Fin 512
/-- A general or floating-point register number. -/
abbrev RegNo := Fin 32

/-- A table with a default: pairs with strictly rising keys, none holding the default. -/
abbrev Tbl (β : Type) := List (Nat × β)

namespace Tbl

/-- The value at a key; an unlisted key holds the default. -/
def get {β : Type} (d : β) : Tbl β → Nat → β
  | [], _ => d
  | (k, v) :: r, a => if k = a then v else get d r a

/-- An entry placed before the first higher key, or in place of its own key's entry. -/
def put {β : Type} : Tbl β → Nat → β → Tbl β
  | [], a, x => [(a, x)]
  | (k, v) :: r, a, x => if k = a then (a, x) :: r else if a < k then (a, x) :: (k, v) :: r else (k, v) :: put r a x

/-- A write; writing the default removes the entry, so equal tables are equal data. -/
def set {β : Type} [DecidableEq β] (d : β) (t : Tbl β) (a : Nat) (x : β) : Tbl β :=
  if x = d then t.filter (fun p => p.1 != a) else put t a x

/-- Change the value at a key by a function. -/
def upd {β : Type} [DecidableEq β] (d : β) (t : Tbl β) (a : Nat) (f : β → β) : Tbl β :=
  set d t a (f (get d t a))

/-- Every key of the table lies above the bound. -/
def above {β : Type} (b : Nat) : Tbl β → Bool
  | [] => true
  | (k, _) :: _ => decide (b < k)

/-- The canonical form: keys strictly rising, and no entry equal to the default. -/
def wf {β : Type} [DecidableEq β] (d : β) : Tbl β → Bool
  | [] => true
  | (k, v) :: r => above k r && decide (v ≠ d) && wf d r

end Tbl

/-- Set a value at a position of a list; beyond its end the list is unchanged. -/
def listSet {α : Type} : List α → Nat → α → List α
  | [], _, _ => []
  | _ :: r, 0, x => x :: r
  | y :: r, n + 1, x => y :: listSet r n x

/-- Remove the entry at a position. -/
def listDrop {α : Type} : List α → Nat → List α
  | [], _ => []
  | _ :: r, 0 => r
  | y :: r, n + 1 => y :: listDrop r n

/-- The bits [hi:lo] of a word, as a number. -/
def fieldOf {n : Nat} (w : BitVec n) (hi lo : Nat) : Nat :=
  w.toNat / 2 ^ lo % 2 ^ (hi + 1 - lo)

/-- A word with the bits [hi:lo] replaced. -/
def setField {n : Nat} (w : BitVec n) (hi lo v : Nat) : BitVec n :=
  BitVec.ofNat n (w.toNat - fieldOf w hi lo * 2 ^ lo + v % 2 ^ (hi + 1 - lo) * 2 ^ lo)

/-- One bit of a word. -/
def bit {n : Nat} (w : BitVec n) (i : Nat) : Bool := w.getLsbD i

/-- A Boolean as a number. -/
def b2n (b : Bool) : Nat := if b then 1 else 0

end Sys2Proof
end

