-- ==== Sys2Proof/Syntax.lean ====
section
/-! DEFINITION. The commands of the package: every row of spec/opcode_table.json, with its operands. -/

namespace Sys2Proof

/-- What a partner's HELLO claims (13 R313). -/
structure HelloIn where
  pkgId : BitVec 12
  pairSide : Bool
  part : BitVec 8
  stepping : BitVec 4
  mode : BitVec 2
  encOffered : Bool
  encRequired : Bool
  ownerCert : Bool
deriving DecidableEq, Repr

/-- What the checks of a partner's AUTH find (13 R314): chain, owner certificate, signature. -/
structure AuthIn where
  chainOk : Bool
  ownerOk : Bool
  sigOk : Bool
deriving DecidableEq, Repr

/-- What a frame from a link asks for or answers (13 R315, R318, R321). -/
inductive FrameKind where
  | read | write | atomHome | atomMem
  | data | ack | error | heartbeat
  | other (opcode : BitVec 8)
deriving DecidableEq, Repr

/-- A frame as it arrives at a system-link port (13 R309): the link header, the flit's fields with the source node of its
header (11 R264), and whether CRC and GCM tag hold. -/
structure FrameIn where
  dstPkg : BitVec 12
  srcPkg : BitVec 12
  hopsLeft : BitVec 4
  kind : FrameKind
  addr : BitVec 57
  world : Tag
  tid : BitVec 12
  func : BitVec 8
  dword : Bool
  opA : Word
  opB : Word
  mask : BitVec 64
  data : LineData
  poison : Bool
  flags : BitVec 10
  stamp : Word
  node : BitVec 12
  crcOk : Bool
  tagOk : Bool
  seq : BitVec 16
deriving DecidableEq, Repr

/-- Who times an open transaction (11 R280): a thread; an L2 (its mirror writes and its victims); a memory controller (its mirror writes and its reads of the partner's copy); a
root port or a Data Mover instance (requests of theirs to another home or package); a link port (requests it serves for another package); a home slice (its writes and reads
of memory). -/
inductive Requester where
  | thread (t : Thr) | core (c : CoreId) | chan (ch : Fin 24) | port (p : Fin 10) | inst (i : Fin 512) | link (p : Fin 8) | home (n : Fin 576)
deriving DecidableEq, Repr

/-- An inbound PCIe or CXL.io request (16 R374). -/
inductive InboundKind where
  | read | write | atomicSwap | atomicAdd | atomicCas
deriving DecidableEq, Repr

/-- Whose snoop has found no answer: of a line, its home's, or a die's snoop filter's (11 R281). -/
structure SilentSnoop where
  line : Nat
  filter : Option (Fin 16)
deriving DecidableEq, Repr

/-- What a linked package says of the time root in an exchange (02 R45): whether the root it knows holds the root bit, the root, and its own hops to it. -/
structure TimeClaim where
  set : Bool
  root : BitVec 12
  hops : BitVec 4
deriving DecidableEq, Repr

/-- What a linked package says in an exchange: its stamp at this moment and what it claims of the root (02 R43, R45). -/
structure TimeSaid where
  stamp : Word
  claim : TimeClaim
deriving DecidableEq, Repr

/-- An inbound request: its stream, its address and its bytes within one line (16 R374, R375). -/
structure InboundReq where
  stream : BitVec 16
  kind : InboundKind
  iova : Word
  size : Fin 65
  data : LineData
  cmp : Word
  relaxed : Bool
  translated : Bool
deriving DecidableEq, Repr

/-- How an endpoint completes (16 R369). -/
inductive CplStatus where
  | success | unsupported | aborted | poisoned
deriving DecidableEq, Repr

/-- What a boot stage finds (18 R399): the MC images whose signatures verify and their security versions (21 R447), dies failing Proof, channels failing, the image placed. -/
structure StageIn where
  imageAOk : Bool
  imageBOk : Bool
  svnA : Nat
  svnB : Nat
  failDies : BitVec 17
  failTiles : List (Fin 576)
  failChannels : BitVec 24
  imageOk : Bool
  loadAddr : BitVec 57
  vector : BitVec 57
  words : List (BitVec 32)
deriving DecidableEq, Repr

/-- An error as a unit detects it (19 R410). -/
structure RecordIn where
  node : BitVec 12
  code : BitVec 16
  sev : BitVec 3
  world : Tag
  addr : Option (BitVec 57)
  thread : Option Thr
  synd : BitVec 256
deriving DecidableEq, Repr

/-- Who writes a register field that has no row of its own (19 R463, 20 R433, 00 R4). -/
inductive WritePath where
  | vendorForme | ownerForme | ephemeralForme | mc
  | secureWindow | normalWindow
deriving DecidableEq, Repr

/-- A TRN_PORT port (11 R285): tile t of a die, stop s of the hub, or the home share of a die. -/
inductive PortId where
  | tile (n : Fin 576)
  | hub (s : Fin 53)
  | homeShare (d : Fin 16)
deriving DecidableEq, Repr

/-- An instruction of the test access port (21 R446, R457). -/
inductive TestOp where
  | bypass | idcode | boundaryScan
  | stopThread (t : Thr)
  | stepThread (t : Thr)
  | resumeThread (t : Thr)
  | writeDebugReg (t : Thr) (idx : BitVec 10) (val : Word)
  | readMemory (addr : BitVec 57)
deriving DecidableEq, Repr

/-- The commands: one constructor per row of the table of operations and events (95). A thread's row names the thread;
the other operands are the instruction's fields, the written value, the place of a flit in flight, or what the outside decides. -/
inductive Instr where
  /-- ADD, R68. -/
  | add (t : Thr) (rd rs1 rs2 : RegNo)
  /-- SUB, R68. -/
  | sub (t : Thr) (rd rs1 rs2 : RegNo)
  /-- AND, R68. -/
  | and (t : Thr) (rd rs1 rs2 : RegNo)
  /-- OR, R68. -/
  | or (t : Thr) (rd rs1 rs2 : RegNo)
  /-- XOR, R68. -/
  | xor (t : Thr) (rd rs1 rs2 : RegNo)
  /-- ANDN, R68. -/
  | andn (t : Thr) (rd rs1 rs2 : RegNo)
  /-- SLL, R68. -/
  | sll (t : Thr) (rd rs1 rs2 : RegNo)
  /-- SRL, R68. -/
  | srl (t : Thr) (rd rs1 rs2 : RegNo)
  /-- SRA, R68. -/
  | sra (t : Thr) (rd rs1 rs2 : RegNo)
  /-- ROL, R68. -/
  | rol (t : Thr) (rd rs1 rs2 : RegNo)
  /-- ROR, R68. -/
  | ror (t : Thr) (rd rs1 rs2 : RegNo)
  /-- SLT, R68. -/
  | slt (t : Thr) (rd rs1 rs2 : RegNo)
  /-- SLTU, R68. -/
  | sltu (t : Thr) (rd rs1 rs2 : RegNo)
  /-- MIN, R68. -/
  | min (t : Thr) (rd rs1 rs2 : RegNo)
  /-- MAX, R68. -/
  | max (t : Thr) (rd rs1 rs2 : RegNo)
  /-- MINU, R68. -/
  | minu (t : Thr) (rd rs1 rs2 : RegNo)
  /-- MAXU, R68. -/
  | maxu (t : Thr) (rd rs1 rs2 : RegNo)
  /-- CLZ, R68. -/
  | clz (t : Thr) (rd rs1 : RegNo)
  /-- CTZ, R68. -/
  | ctz (t : Thr) (rd rs1 : RegNo)
  /-- POPC, R68. -/
  | popc (t : Thr) (rd rs1 : RegNo)
  /-- REV8, R68. -/
  | rev8 (t : Thr) (rd rs1 : RegNo)
  /-- SEXT_B, R68. -/
  | sextB (t : Thr) (rd rs1 : RegNo)
  /-- SEXT_H, R68. -/
  | sextH (t : Thr) (rd rs1 : RegNo)
  /-- SEXT_W, R68. -/
  | sextW (t : Thr) (rd rs1 : RegNo)
  /-- ZEXT_W, R68. -/
  | zextW (t : Thr) (rd rs1 : RegNo)
  /-- MUL, R69. -/
  | mul (t : Thr) (rd rs1 rs2 : RegNo)
  /-- MULH, R69. -/
  | mulh (t : Thr) (rd rs1 rs2 : RegNo)
  /-- MULHU, R69. -/
  | mulhu (t : Thr) (rd rs1 rs2 : RegNo)
  /-- MULHSU, R69. -/
  | mulhsu (t : Thr) (rd rs1 rs2 : RegNo)
  /-- DIV, R70. -/
  | div (t : Thr) (rd rs1 rs2 : RegNo)
  /-- DIVU, R70. -/
  | divu (t : Thr) (rd rs1 rs2 : RegNo)
  /-- REM, R70. -/
  | rem (t : Thr) (rd rs1 rs2 : RegNo)
  /-- REMU, R70. -/
  | remu (t : Thr) (rd rs1 rs2 : RegNo)
  /-- ADDW, R71. -/
  | addw (t : Thr) (rd rs1 rs2 : RegNo)
  /-- SUBW, R71. -/
  | subw (t : Thr) (rd rs1 rs2 : RegNo)
  /-- SLLW, R71. -/
  | sllw (t : Thr) (rd rs1 rs2 : RegNo)
  /-- SRLW, R71. -/
  | srlw (t : Thr) (rd rs1 rs2 : RegNo)
  /-- SRAW, R71. -/
  | sraw (t : Thr) (rd rs1 rs2 : RegNo)
  /-- MULW, R71. -/
  | mulw (t : Thr) (rd rs1 rs2 : RegNo)
  /-- DIVW, R70. -/
  | divw (t : Thr) (rd rs1 rs2 : RegNo)
  /-- DIVUW, R70. -/
  | divuw (t : Thr) (rd rs1 rs2 : RegNo)
  /-- REMW, R70. -/
  | remw (t : Thr) (rd rs1 rs2 : RegNo)
  /-- REMUW, R70. -/
  | remuw (t : Thr) (rd rs1 rs2 : RegNo)
  /-- ADDI, R72. -/
  | addi (t : Thr) (rd rs1 : RegNo) (imm : BitVec 16)
  /-- ANDI, R72. -/
  | andi (t : Thr) (rd rs1 : RegNo) (imm : BitVec 16)
  /-- ORI, R72. -/
  | ori (t : Thr) (rd rs1 : RegNo) (imm : BitVec 16)
  /-- XORI, R72. -/
  | xori (t : Thr) (rd rs1 : RegNo) (imm : BitVec 16)
  /-- SLTI, R72. -/
  | slti (t : Thr) (rd rs1 : RegNo) (imm : BitVec 16)
  /-- SLTIU, R72. -/
  | sltiu (t : Thr) (rd rs1 : RegNo) (imm : BitVec 16)
  /-- ADDIW, R72. -/
  | addiw (t : Thr) (rd rs1 : RegNo) (imm : BitVec 16)
  /-- SLLI, R72. -/
  | slli (t : Thr) (rd rs1 : RegNo) (amt : BitVec 6)
  /-- SRLI, R72. -/
  | srli (t : Thr) (rd rs1 : RegNo) (amt : BitVec 6)
  /-- SRAI, R72. -/
  | srai (t : Thr) (rd rs1 : RegNo) (amt : BitVec 6)
  /-- RORI, R72. -/
  | rori (t : Thr) (rd rs1 : RegNo) (amt : BitVec 6)
  /-- SLLIW, R72. -/
  | slliw (t : Thr) (rd rs1 : RegNo) (amt : BitVec 6)
  /-- SRLIW, R72. -/
  | srliw (t : Thr) (rd rs1 : RegNo) (amt : BitVec 6)
  /-- SRAIW, R72. -/
  | sraiw (t : Thr) (rd rs1 : RegNo) (amt : BitVec 6)
  /-- LUI, R73. -/
  | lui (t : Thr) (rd : RegNo) (imm : BitVec 21)
  /-- AUIPC, R73. -/
  | auipc (t : Thr) (rd : RegNo) (imm : BitVec 21)
  /-- J, R74. -/
  | j (t : Thr) (rd : RegNo) (imm : BitVec 21)
  /-- JR, R74. -/
  | jr (t : Thr) (rd rs1 : RegNo) (imm : BitVec 16)
  /-- BEQ, R74. -/
  | beq (t : Thr) (rs1 rs2 : RegNo) (off : BitVec 16)
  /-- BNE, R74. -/
  | bne (t : Thr) (rs1 rs2 : RegNo) (off : BitVec 16)
  /-- BLT, R74. -/
  | blt (t : Thr) (rs1 rs2 : RegNo) (off : BitVec 16)
  /-- BGE, R74. -/
  | bge (t : Thr) (rs1 rs2 : RegNo) (off : BitVec 16)
  /-- BLTU, R74. -/
  | bltu (t : Thr) (rs1 rs2 : RegNo) (off : BitVec 16)
  /-- BGEU, R74. -/
  | bgeu (t : Thr) (rs1 rs2 : RegNo) (off : BitVec 16)
  /-- LD_B, R77. -/
  | ldB (t : Thr) (rt base : RegNo) (imm : BitVec 16)
  /-- LD_BU, R77. -/
  | ldBu (t : Thr) (rt base : RegNo) (imm : BitVec 16)
  /-- LD_H, R77. -/
  | ldH (t : Thr) (rt base : RegNo) (imm : BitVec 16)
  /-- LD_HU, R77. -/
  | ldHu (t : Thr) (rt base : RegNo) (imm : BitVec 16)
  /-- LD_W, R77. -/
  | ldW (t : Thr) (rt base : RegNo) (imm : BitVec 16)
  /-- LD_WU, R77. -/
  | ldWu (t : Thr) (rt base : RegNo) (imm : BitVec 16)
  /-- LD_D, R77. -/
  | ldD (t : Thr) (rt base : RegNo) (imm : BitVec 16)
  /-- ST_B, R77. -/
  | stB (t : Thr) (rt base : RegNo) (imm : BitVec 16)
  /-- ST_H, R77. -/
  | stH (t : Thr) (rt base : RegNo) (imm : BitVec 16)
  /-- ST_W, R77. -/
  | stW (t : Thr) (rt base : RegNo) (imm : BitVec 16)
  /-- ST_D, R77. -/
  | stD (t : Thr) (rt base : RegNo) (imm : BitVec 16)
  /-- FLD_S, R80. -/
  | fldS (t : Thr) (rt base : RegNo) (imm : BitVec 16)
  /-- FLD_D, R80. -/
  | fldD (t : Thr) (rt base : RegNo) (imm : BitVec 16)
  /-- FST_S, R80. -/
  | fstS (t : Thr) (rt base : RegNo) (imm : BitVec 16)
  /-- FST_D, R80. -/
  | fstD (t : Thr) (rt base : RegNo) (imm : BitVec 16)
  /-- PREF_READ, R81. -/
  | prefRead (t : Thr) (base : RegNo) (imm : BitVec 16)
  /-- PREF_WRITE, R81. -/
  | prefWrite (t : Thr) (base : RegNo) (imm : BitVec 16)
  /-- PREF_HOME_L3, R81. -/
  | prefHomeL3 (t : Thr) (base : RegNo) (imm : BitVec 16)
  /-- PREF_GALLEY, R81. -/
  | prefGalley (t : Thr) (base : RegNo) (imm : BitVec 16)
  /-- LD_AQ, R82. -/
  | ldAq (t : Thr) (rd rs1 : RegNo) (width : BitVec 2)
  /-- LD_AQ_S, R82. -/
  | ldAqS (t : Thr) (rd rs1 : RegNo) (width : BitVec 2)
  /-- ST_RL, R82. -/
  | stRl (t : Thr) (rs2 rs1 : RegNo) (width : BitVec 2)
  /-- AMO_SWP, R83. -/
  | amoSwp (t : Thr) (rd rs1 rs2 : RegNo) (d aq rl : Bool)
  /-- AMO_ADD, R83. -/
  | amoAdd (t : Thr) (rd rs1 rs2 : RegNo) (d aq rl : Bool)
  /-- AMO_AND, R83. -/
  | amoAnd (t : Thr) (rd rs1 rs2 : RegNo) (d aq rl : Bool)
  /-- AMO_OR, R83. -/
  | amoOr (t : Thr) (rd rs1 rs2 : RegNo) (d aq rl : Bool)
  /-- AMO_XOR, R83. -/
  | amoXor (t : Thr) (rd rs1 rs2 : RegNo) (d aq rl : Bool)
  /-- AMO_SMIN, R83. -/
  | amoSmin (t : Thr) (rd rs1 rs2 : RegNo) (d aq rl : Bool)
  /-- AMO_SMAX, R83. -/
  | amoSmax (t : Thr) (rd rs1 rs2 : RegNo) (d aq rl : Bool)
  /-- AMO_UMIN, R83. -/
  | amoUmin (t : Thr) (rd rs1 rs2 : RegNo) (d aq rl : Bool)
  /-- AMO_UMAX, R83. -/
  | amoUmax (t : Thr) (rd rs1 rs2 : RegNo) (d aq rl : Bool)
  /-- CAS, R84. -/
  | cas (t : Thr) (rd rs1 rs2 rs3 : RegNo) (d aq rl : Bool)
  /-- FADD, R89. -/
  | fadd (t : Thr) (rd rs1 rs2 : RegNo) (p : Bool) (rm : BitVec 3)
  /-- FSUB, R89. -/
  | fsub (t : Thr) (rd rs1 rs2 : RegNo) (p : Bool) (rm : BitVec 3)
  /-- FMUL, R89. -/
  | fmul (t : Thr) (rd rs1 rs2 : RegNo) (p : Bool) (rm : BitVec 3)
  /-- FDIV, R89. -/
  | fdiv (t : Thr) (rd rs1 rs2 : RegNo) (p : Bool) (rm : BitVec 3)
  /-- FSQRT, R89. -/
  | fsqrt (t : Thr) (rd rs1 : RegNo) (p : Bool) (rm : BitVec 3)
  /-- FMIN, R89. -/
  | fmin (t : Thr) (rd rs1 rs2 : RegNo) (p : Bool)
  /-- FMAX, R89. -/
  | fmax (t : Thr) (rd rs1 rs2 : RegNo) (p : Bool)
  /-- FSIGN, R89. -/
  | fsign (t : Thr) (rd rs1 rs2 : RegNo) (p : Bool)
  /-- FSIGNN, R89. -/
  | fsignn (t : Thr) (rd rs1 rs2 : RegNo) (p : Bool)
  /-- FSIGNX, R89. -/
  | fsignx (t : Thr) (rd rs1 rs2 : RegNo) (p : Bool)
  /-- FEQ, R89. -/
  | feq (t : Thr) (rd rs1 rs2 : RegNo) (p : Bool)
  /-- FLT, R89. -/
  | flt (t : Thr) (rd rs1 rs2 : RegNo) (p : Bool)
  /-- FLE, R89. -/
  | fle (t : Thr) (rd rs1 rs2 : RegNo) (p : Bool)
  /-- FKIND, R94. -/
  | fkind (t : Thr) (rd rs1 : RegNo) (p : Bool)
  /-- FCVT_F_F, R89. -/
  | fcvtFF (t : Thr) (rd rs1 : RegNo) (p : Bool) (rm : BitVec 3)
  /-- FCVT_W_F, R93. -/
  | fcvtWF (t : Thr) (rd rs1 : RegNo) (p : Bool) (rm : BitVec 3)
  /-- FCVT_WU_F, R93. -/
  | fcvtWuF (t : Thr) (rd rs1 : RegNo) (p : Bool) (rm : BitVec 3)
  /-- FCVT_L_F, R93. -/
  | fcvtLF (t : Thr) (rd rs1 : RegNo) (p : Bool) (rm : BitVec 3)
  /-- FCVT_LU_F, R93. -/
  | fcvtLuF (t : Thr) (rd rs1 : RegNo) (p : Bool) (rm : BitVec 3)
  /-- FCVT_F_W, R89. -/
  | fcvtFW (t : Thr) (rd rs1 : RegNo) (p : Bool) (rm : BitVec 3)
  /-- FCVT_F_WU, R89. -/
  | fcvtFWu (t : Thr) (rd rs1 : RegNo) (p : Bool) (rm : BitVec 3)
  /-- FCVT_F_L, R89. -/
  | fcvtFL (t : Thr) (rd rs1 : RegNo) (p : Bool) (rm : BitVec 3)
  /-- FCVT_F_LU, R89. -/
  | fcvtFLu (t : Thr) (rd rs1 : RegNo) (p : Bool) (rm : BitVec 3)
  /-- FMV_G_F, R89. -/
  | fmvGF (t : Thr) (rd rs1 : RegNo) (p : Bool)
  /-- FMV_F_G, R89. -/
  | fmvFG (t : Thr) (rd rs1 : RegNo) (p : Bool)
  /-- FMADD, R90. -/
  | fmadd (t : Thr) (rd rs1 rs2 rs3 : RegNo) (p : Bool) (rm : BitVec 3)
  /-- FMSUB, R90. -/
  | fmsub (t : Thr) (rd rs1 rs2 rs3 : RegNo) (p : Bool) (rm : BitVec 3)
  /-- FNMADD, R90. -/
  | fnmadd (t : Thr) (rd rs1 rs2 rs3 : RegNo) (p : Bool) (rm : BitVec 3)
  /-- FNMSUB, R90. -/
  | fnmsub (t : Thr) (rd rs1 rs2 rs3 : RegNo) (p : Bool) (rm : BitVec 3)
  /-- SYSRD, R101. -/
  | sysrd (t : Thr) (rd : RegNo) (idx : BitVec 10)
  /-- SYSWR, R101. -/
  | syswr (t : Thr) (rs1 : RegNo) (idx : BitVec 10)
  /-- INT_ACK_READ, R118. -/
  | intAckRead (t : Thr) (rd : RegNo)
  /-- INT_EOI_WRITE, R118. -/
  | intEoiWrite (t : Thr) (rs1 : RegNo)
  /-- INT_SEND_WRITE, R119. -/
  | intSendWrite (t : Thr) (rs1 : RegNo)
  /-- MMU_ROOT_WRITE, R151. -/
  | mmuRootWrite (t : Thr) (rs1 : RegNo) (second : Bool)
  /-- PRED_FLUSH_WRITE, R136. -/
  | predFlushWrite (t : Thr) (rs1 : RegNo)
  /-- SMT_FIX_WRITE, R146. -/
  | smtFixWrite (t : Thr) (rs1 : RegNo)
  /-- CACHE_DISABLE_WRITE, R226. -/
  | cacheDisableWrite (t : Thr) (rs1 : RegNo)
  /-- CACHE_EMPTY_DONE, R226. -/
  | cacheEmptyDone (t : Thr)
  /-- UNLOCK_ALL_WRITE, R220. -/
  | unlockAllWrite (t : Thr) (rs1 : RegNo)
  /-- TRAP, R103. -/
  | trap (t : Thr) (code : BitVec 10)
  /-- RETX, R109. -/
  | retx (t : Thr)
  /-- WAITE, R127. -/
  | waite (t : Thr)
  /-- WAITE_WAKE, R127. -/
  | waiteWake (t : Thr)
  /-- SEVT, R127. -/
  | sevt (t : Thr)
  /-- TIME, R49. -/
  | time (t : Thr) (rd : RegNo)
  /-- FENCE_O, R188. -/
  | fenceO (t : Thr) (mask : BitVec 5)
  /-- FENCE_C, R190. -/
  | fenceC (t : Thr)
  /-- FENCE_C_COMPLETE, R190. -/
  | fenceCComplete (t : Thr)
  /-- IFENCE, R212. -/
  | ifence (t : Thr)
  /-- CMO_CLEAN_POC, R222. -/
  | cmoCleanPoc (t : Thr) (rs1 : RegNo)
  /-- CMO_INVAL_POC, R223. -/
  | cmoInvalPoc (t : Thr) (rs1 : RegNo)
  /-- CMO_CLEAN_INVAL_POC, R222. -/
  | cmoCleanInvalPoc (t : Thr) (rs1 : RegNo)
  /-- CMO_CLEAN_POU, R222. -/
  | cmoCleanPou (t : Thr) (rs1 : RegNo)
  /-- CMO_INVAL_POU, R222. -/
  | cmoInvalPou (t : Thr) (rs1 : RegNo)
  /-- CMO_CLEAN_INVAL_POU, R222. -/
  | cmoCleanInvalPou (t : Thr) (rs1 : RegNo)
  /-- CMO_CLEAN_SETWAY, R224. -/
  | cmoCleanSetway (t : Thr) (rs1 : RegNo)
  /-- CMO_INVAL_SETWAY, R224. -/
  | cmoInvalSetway (t : Thr) (rs1 : RegNo)
  /-- CMO_CLEAN_INVAL_SETWAY, R224. -/
  | cmoCleanInvalSetway (t : Thr) (rs1 : RegNo)
  /-- GAL_LOCK, R219. -/
  | galLock (t : Thr) (rs1 : RegNo)
  /-- GAL_UNLOCK, R220. -/
  | galUnlock (t : Thr) (rs1 : RegNo)
  /-- TLBI_VA, R175. -/
  | tlbiVa (t : Thr) (rs1 rx : RegNo) (domain : Bool)
  /-- TLBI_ASID, R175. -/
  | tlbiAsid (t : Thr) (rx : RegNo) (domain : Bool)
  /-- TLBI_VMID, R175. -/
  | tlbiVmid (t : Thr) (rx : RegNo) (domain : Bool)
  /-- TLBI_ALL, R175. -/
  | tlbiAll (t : Thr) (domain l : Bool)
  /-- TLB_LOCK, R171. -/
  | tlbLock (t : Thr) (rs1 : RegNo)
  /-- TLB_UNLOCK, R171. -/
  | tlbUnlock (t : Thr) (rs1 : RegNo)
  /-- ENCL_INIT, R346. -/
  | enclInit (t : Thr) (rd rs1 : RegNo)
  /-- ENCL_ADD, R346. -/
  | enclAdd (t : Thr) (rd rs1 : RegNo)
  /-- ENCL_SEAL, R346. -/
  | enclSeal (t : Thr) (rd rs1 : RegNo)
  /-- ENCL_DESTROY, R346. -/
  | enclDestroy (t : Thr) (rd rs1 : RegNo)
  /-- ENCL_ENTER, R346. -/
  | enclEnter (t : Thr) (rd rs1 : RegNo)
  /-- ENCL_EXIT, R346. -/
  | enclExit (t : Thr) (rd rs1 : RegNo)
  /-- ENCL_REPORT, R350. -/
  | enclReport (t : Thr) (rd rs1 : RegNo)
  /-- INTERRUPT_TAKE, R120. -/
  | interruptTake (t : Thr)
  /-- MACHINE_CHECK_TAKE, R114. -/
  | machineCheckTake (t : Thr)
  /-- TIMER_DEADLINE, R460. -/
  | timerDeadline (t : Thr) (secure : Bool)
  /-- INT_WORLD_BIT_WRITE, R126. -/
  | intWorldBitWrite (secure : Bool) (t : Thr) (intid : Fin 1024) (toSecure : Bool)
  /-- INT_DLV, R119. -/
  | intDlv (k : Nat)
  /-- SEVT_B, R127. -/
  | sevtB (k : Nat)
  /-- ROUTER_SOURCE_ASSERT, R125. -/
  | routerSourceAssert (src : Fin 4096)
  /-- ROUTER_SEND, R125. -/
  | routerSend (src : Fin 4096)
  /-- GPIO_EDGE, R126. -/
  | gpioEdge (pin : Fin 32) (level : Bool)
  /-- GPIO_LEVEL_DEASSERT, R126. -/
  | gpioLevelDeassert (pin : Fin 32)
  /-- STORE_BUFFER_DRAIN, R197. -/
  | storeBufferDrain (t : Thr) (n : Nat)
  /-- DEVICE_RESPONSE, R195. -/
  | deviceResponse (k : Nat)
  /-- ERROR_RESPONSE, R30. -/
  | errorResponse (k : Nat)
  /-- PENDING_ERROR_ARRIVE, R204. -/
  | pendingErrorArrive (k : Nat)
  /-- WALK_READ_RESPONSE, R161. -/
  | walkReadResponse (t : Thr)
  /-- PREFETCH_ISSUE, R221. -/
  | prefetchIssue (c : CoreId) (n : Nat)
  /-- RD_S, R243. -/
  | rdS (k : Nat)
  /-- RD_U, R243. -/
  | rdU (k : Nat)
  /-- UPG, R243. -/
  | upg (k : Nat)
  /-- RD_NC, R239. -/
  | rdNc (k : Nat)
  /-- WR_NC, R239. -/
  | wrNc (k : Nat)
  /-- ATOM_H, R251. -/
  | atomH (k : Nat)
  /-- ATOM_M, R251. -/
  | atomM (k : Nat)
  /-- CMO_P, R243. -/
  | cmoP (k : Nat)
  /-- TLBI_B, R177. -/
  | tlbiB (k : Nat)
  /-- WB_D, R244. -/
  | wbD (k : Nat)
  /-- EVICT_C, R244. -/
  | evictC (k : Nat)
  /-- SNP_S, R234. -/
  | snpS (k : Nat)
  /-- SNP_U, R234. -/
  | snpU (k : Nat)
  /-- SNP_I, R234. -/
  | snpI (k : Nat)
  /-- SNP_NEAR, R246. -/
  | snpNear (k : Nat)
  /-- DATA_S, R241. -/
  | dataS (k : Nat)
  /-- DATA_E, R241. -/
  | dataE (k : Nat)
  /-- DATA_M, R241. -/
  | dataM (k : Nat)
  /-- ACK, R239. -/
  | ack (k : Nat)
  /-- RETRY, R248. -/
  | retry (k : Nat)
  /-- RETRY_BACKOFF_EXPIRE, R248. -/
  | retryBackoffExpire (n : Nat)
  /-- RESERVATION_LAPSE, R248. -/
  | reservationLapse (slice : Fin 576)
  /-- FLIT_FORWARD, R268. -/
  | flitForward (k : Nat)
  /-- REPLAY_REQUEST, R269. -/
  | replayRequest (k : Nat) (flips : BitVec 864)
  /-- MER_SYNC_SEND, R43. -/
  | merSyncSend
  /-- MER_SYNC, R43. -/
  | merSync (k : Nat)
  /-- CONTAIN, R415. -/
  | contain (k : Nat)
  /-- HEART, R266. -/
  | heart (k : Nat)
  /-- REGULATOR_RELEASE, R275. -/
  | regulatorRelease (k : Nat)
  /-- TRANSACTION_TIMEOUT, R280. -/
  | transactionTimeout (r : Requester) (n : Nat)
  /-- SNOOP_TIMEOUT, R281: of the line's home, or of the snoop filter of a die. -/
  | snoopTimeout (snoop : SilentSnoop)
  /-- PORT_CLOSED, R283. -/
  | portClosed (port : PortId)
  /-- PORT_OPENED, R283. -/
  | portOpened (port : PortId)
  /-- DRAM_READ_RETURN, R291. -/
  | dramReadReturn (ch : Fin 24) (n : Nat) (flips : List (BitVec 40))
  /-- DRAM_VERIFY_RETURN, R294. -/
  | dramVerifyReturn (ch : Fin 24) (flips : List (BitVec 40))
  /-- PROBE_DONE, R295. -/
  | probeDone (ch : Fin 24) (reads : List (List (BitVec 40)))
  /-- SPPR_DONE, R300. -/
  | spprDone (ch : Fin 24) (reads : List (Nat × List (BitVec 40)))
  /-- SCRUB_READ, R298. -/
  | scrubRead (ch : Fin 24) (offset : Nat)
  /-- FILL_DONE, R299. -/
  | fillDone (ch : Fin 24)
  /-- DDR_ALERT_DURING_FILL, R299. -/
  | ddrAlertDuringFill (ch : Fin 24)
  /-- GRD_COMMIT_WRITE, R307. -/
  | grdCommitWrite (guard : Fin 24) (version : BitVec 32)
  /-- GRD_KEY_WRITE, R306. -/
  | grdKeyWrite (guard : Fin 24) (slot : Fin 64) (w : Fin 8) (val : Word)
  /-- SYL_EN_WRITE, R312. -/
  | sylEnWrite (port : Fin 8) (en : Bool)
  /-- LINK_TRAINED, R312. -/
  | linkTrained (port : Fin 8) (lanes : BitVec 4)
  /-- HELLO, R313. -/
  | hello (port : Fin 8) (h : HelloIn)
  /-- AUTH, R314. -/
  | auth (port : Fin 8) (a : AuthIn)
  /-- AUTH_TIMEOUT, R314. -/
  | authTimeout (port : Fin 8)
  /-- FRAME_RECEIVE, R318. -/
  | frameReceive (port : Fin 8) (f : FrameIn)
  /-- NAK, R310. -/
  | nak (port : Fin 8) (seq : BitVec 16)
  /-- HEARTBEAT_SEND, R315. -/
  | heartbeatSend (port : Fin 8)
  /-- LINK_LOST, R315. -/
  | linkLost (port : Fin 8)
  /-- REKEY, R311. -/
  | rekey (port : Fin 8)
  /-- LINK_TIME_EXCHANGE, R43. -/
  | linkTimeExchange (port : Fin 8) (said : TimeSaid)
  /-- MIRROR_FLUSH, R330. -/
  | mirrorFlush (c : CoreId) (n : Nat)
  /-- PARTNER_SCAN_DONE, R332. -/
  | partnerScanDone
  /-- PPS_EDGE, R48. -/
  | ppsEdge
  /-- PPS_LOST, R48. -/
  | ppsLost
  /-- MC_GPIO_WORLD_WRITE, R341. -/
  | mcGpioWorldWrite (sec : BitVec 32)
  /-- DMV_CH_WORLD_WRITE, R340. -/
  | dmvChWorldWrite (engine : Fin 4) (ch : Fin 16) (world : Tag)
  /-- SWD_START, R351. -/
  | swdStart
  /-- SWD_KICK, R351. -/
  | swdKick
  /-- SWD_EXPIRE, R351. -/
  | swdExpire
  /-- DMV_SLOT_WRITE, R355. -/
  | dmvSlotWrite (engine : Fin 4) (slot : Fin 64) (val : Word)
  /-- DB_TAIL_WRITE, R358. -/
  | dbTailWrite (secure : Bool) (inst : Fin 512) (tail : BitVec 16)
  /-- DMV_SEGMENT, R360. -/
  | dmvSegment (engine : Fin 4) (ch : Fin 16)
  /-- INST_FREEZE, R363. -/
  | instFreeze (secure : Bool) (inst : Fin 512)
  /-- INST_FREEZE_DONE, R363. -/
  | instFreezeDone (inst : Fin 512)
  /-- INST_THAW, R363. -/
  | instThaw (secure : Bool) (inst : Fin 512)
  /-- INST_SAVE, R363. -/
  | instSave (secure : Bool) (inst : Fin 512)
  /-- INST_SAVE_DONE, R363. -/
  | instSaveDone (inst : Fin 512)
  /-- INST_RESTORE, R365. -/
  | instRestore (secure : Bool) (inst : Fin 512)
  /-- INST_RESTORE_DONE, R365. -/
  | instRestoreDone (inst : Fin 512)
  /-- INST_RESET, R363. -/
  | instReset (secure : Bool) (inst : Fin 512)
  /-- H2G_DB, R362. -/
  | h2gDb (secure : Bool) (inst : Fin 512) (mask : BitVec 8)
  /-- G2H_DB, R362. -/
  | g2hDb (secure : Bool) (inst : Fin 512) (mask : BitVec 8)
  /-- PCIE_INBOUND_REQUEST, R374. -/
  | pcieInboundRequest (port : Fin 10) (sub : Fin 4) (r : InboundReq)
  /-- MSI_WRITE, R377. -/
  | msiWrite (port : Fin 10) (sub : Fin 4) (stream : BitVec 16) (secureView : Bool) (data : BitVec 32)
  /-- PCIE_COMPLETION, R369. -/
  | pcieCompletion (port : Fin 10) (n : Nat) (status : CplStatus) (data : Word)
  /-- ENDPT_TIMEOUT, R199. -/
  | endptTimeout (port : Fin 10) (n : Nat)
  /-- CONTAINED_WRITE, R370. -/
  | containedWrite (port : Fin 10) (mask : BitVec 4)
  /-- CONTAINMENT_RELEASE_DONE, R370. -/
  | containmentReleaseDone (port : Fin 10) (sub : Fin 4)
  /-- ATS_INVALIDATE_COMPLETION, R376. -/
  | atsInvalidateCompletion (stream : BitVec 16)
  /-- ATS_TIMEOUT, R376. -/
  | atsTimeout (stream : BitVec 16)
  /-- PRI_PAGE_REQUEST, R376. -/
  | priPageRequest (stream : BitVec 16) (w0 w1 : Word)
  /-- PRG_RESP_WRITE, R376. -/
  | prgRespWrite (val : Word)
  /-- TILE_STATE_ENTERED, R384. -/
  | tileStateEntered (tile : Fin 576)
  /-- TILE_WAKE_DONE, R384. -/
  | tileWakeDone (tile : Fin 576)
  /-- VERNIER_DROOP, R382. -/
  | vernierDroop (die : Fin 17) (island : Fin 47)
  /-- VERNIER_RELEASE, R382. -/
  | vernierRelease (die : Fin 17) (island : Fin 47)
  /-- POWER_LIMIT_TICK, R390. -/
  | powerLimitTick (limits : List (Fin 576 × Fin 40))
  /-- SLEW_SLOT, R392. -/
  | slewSlot
  /-- P1_ENTER, R388. -/
  | p1Enter
  /-- P1_EXIT, R388. -/
  | p1Exit
  /-- P5_ENTER, R389. -/
  | p5Enter
  /-- P5_EXIT, R389. -/
  | p5Exit
  /-- PROCHOT_ASSERT, R391. -/
  | prochotAssert
  /-- PROCHOT_DEASSERT, R391. -/
  | prochotDeassert
  /-- THERMTRIP, R391. -/
  | thermtrip
  /-- PMBUS_POLL, R395. -/
  | pmbusPoll (vout iout temp : BitVec 16)
  /-- PMB_ALERT, R395. -/
  | pmbAlert (status : BitVec 16)
  /-- STBY_PG_RISE, R396. -/
  | stbyPgRise
  /-- STBY_PG_FALL, R396. -/
  | stbyPgFall
  /-- POWER_GOOD_RISE, R399. -/
  | powerGoodRise (hub : Bool)
  /-- POWER_GOOD_FALL, R396. -/
  | powerGoodFall (hub : Bool)
  /-- RESET_N_ASSERT, R396. -/
  | resetNAssert
  /-- PACKAGE_COLD_RESET, R396. -/
  | packageColdReset (trigger : BitVec 4)
  /-- PACKAGE_WARM_RESET, R401. -/
  | packageWarmReset
  /-- DIE_RESET, R402. -/
  | dieReset (die : Fin 16)
  /-- CORE_RESET, R402. -/
  | coreReset (c : CoreId)
  /-- BOOT_STAGE_DONE, R399. -/
  | bootStageDone (o : StageIn)
  /-- BOOT_STAGE_TIMEOUT, R399. -/
  | bootStageTimeout
  /-- BOOT_RELEASE_WRITE, R400. -/
  | bootReleaseWrite (n : Fin 16) (val : Word)
  /-- ERROR_RECORD_STORE, R411. -/
  | errorRecordStore (die : Fin 17) (r : RecordIn)
  /-- RECORD_FREE, R420. -/
  | recordFree (secure : Bool) (die : Fin 17) (slot : Fin 512) (val : Word)
  /-- SUMMARY_CLR, R420. -/
  | summaryClr (secure : Bool)
  /-- ERR_CE_NOTIFY_WRITE, R421. -/
  | errCeNotifyWrite (secure : Bool) (val : Word)
  /-- FRM_SUB_WRITE, R439. -/
  | frmSubWrite (engine : Fin 17) (val : Word)
  /-- FORME_BEGIN, R432. -/
  | formeBegin (engine : Fin 17) (sigOk : Bool)
  /-- FORME_NOP, R434. -/
  | formeNop (engine : Fin 17)
  /-- FORME_WRITE, R434. -/
  | formeWrite (engine : Fin 17)
  /-- FORME_READ, R434. -/
  | formeRead (engine : Fin 17)
  /-- FORME_RMW, R434. -/
  | formeRmw (engine : Fin 17)
  /-- FORME_POLL, R434. -/
  | formePoll (engine : Fin 17)
  /-- POLL_TIMEOUT, R435. -/
  | pollTimeout (engine : Fin 17)
  /-- FORME_QUIESCE, R437. -/
  | formeQuiesce (engine : Fin 17)
  /-- QUIESCE_HOLD, R437. -/
  | quiesceHold (engine : Fin 17)
  /-- QUIESCE_CEILING, R437. -/
  | quiesceCeiling (engine : Fin 17)
  /-- FORME_RESUME, R434. -/
  | formeResume (engine : Fin 17)
  /-- FORME_SYNC, R436. -/
  | formeSync (engine : Fin 17)
  /-- SYNC_RELEASE, R436. -/
  | syncRelease (engine : Fin 17)
  /-- FORME_STAMP, R434. -/
  | formeStamp (engine : Fin 17)
  /-- FORME_JUMP, R434. -/
  | formeJump (engine : Fin 17)
  /-- FORME_BRNZ, R434. -/
  | formeBrnz (engine : Fin 17)
  /-- FORME_CALL, R433. -/
  | formeCall (engine : Fin 17)
  /-- FORME_RETURN, R434. -/
  | formeReturn (engine : Fin 17)
  /-- FORME_FAIL, R435. -/
  | formeFail (engine : Fin 17)
  /-- FORME_END, R435. -/
  | formeEnd (engine : Fin 17)
  /-- REGISTER_WRITE, R6. -/
  | registerWrite (path : WritePath) (addr : BitVec 57) (val : Word)
  /-- MBX_BOOT_OK, R449. -/
  | mbxBootOk
  /-- MBX_GET_CHAIN, R449. -/
  | mbxGetChain
  /-- MBX_RESET_COLD, R449. -/
  | mbxResetCold
  /-- MBX_RESET_WARM, R449. -/
  | mbxResetWarm
  /-- MBX_P5_ENTER, R449. -/
  | mbxP5Enter
  /-- MBX_CLEAR_MINIMAL, R405. -/
  | mbxClearMinimal
  /-- MBX_BOOT_REASON, R449. -/
  | mbxBootReason
  /-- MBX_TELEMETRY, R449. -/
  | mbxTelemetry
  /-- MBX_FRISKET_READ, R449. -/
  | mbxFrisketRead
  /-- MBX_FRISKET_ENTER_FIELD, R453. -/
  | mbxFrisketEnterField
  /-- MBX_FRISKET_CLOSE, R454. -/
  | mbxFrisketClose
  /-- TIME_PAIR, R449. -/
  | timePair
  /-- BMC_READ_TELEMETRY, R450. -/
  | bmcReadTelemetry
  /-- BMC_READ_BOOT_REASON, R450. -/
  | bmcReadBootReason (n : Fin 16)
  /-- BMC_READ_ERROR_RECORD, R450. -/
  | bmcReadErrorRecord (die : Fin 17) (slot : Fin 512)
  /-- BMC_FREE_ERROR_RECORD, R420. -/
  | bmcFreeErrorRecord (die : Fin 17) (slot : Fin 512) (gen : BitVec 16)
  /-- BMC_READ_CERTIFICATES, R450. -/
  | bmcReadCertificates
  /-- BMC_READ_FRISKET, R450. -/
  | bmcReadFrisket
  /-- BMC_DELIVER_TIME, R450. -/
  | bmcDeliverTime (tai ns age : Word)
  /-- BMC_COLD_RESET, R450. -/
  | bmcColdReset
  /-- BMC_WARM_RESET, R450. -/
  | bmcWarmReset
  /-- BMC_P5_ENTER, R389. -/
  | bmcP5Enter
  /-- BMC_P5_EXIT, R389. -/
  | bmcP5Exit
  /-- BMC_CLEAR_HALTED, R406. -/
  | bmcClearHalted
  /-- BMC_CLEAR_MINIMAL, R405. -/
  | bmcClearMinimal
  /-- BMC_OWNER_ENROL, R452. -/
  | bmcOwnerEnrol (keyHash : BitVec 384) (sigOk : Bool)
  /-- BMC_OWNER_REVOKE, R452. -/
  | bmcOwnerRevoke (sigOk : Bool)
  /-- BMC_ENTER_FIELD, R453. -/
  | bmcEnterField (sigOk : Bool)
  /-- BMC_CLOSE_SESSION, R454. -/
  | bmcCloseSession
  /-- FRISKET_CHALLENGE, R455. -/
  | frisketChallenge (level : BitVec 2) (nonce : BitVec 256)
  /-- FRISKET_PASSWORD_PROOF, R455. -/
  | frisketPasswordProof (proofOk : Bool)
  /-- FRISKET_OWNER_PROOF, R455. -/
  | frisketOwnerProof (proofOk : Bool)
  /-- FRISKET_VENDOR_PROOF, R455. -/
  | frisketVendorProof (vendorOk consentOk : Bool)
  /-- LOCKOUT_EXPIRE, R458. -/
  | lockoutExpire
  /-- MC_FW_FAULT, R418. -/
  | mcFwFault
  /-- MC_RESTART_DONE, R449. -/
  | mcRestartDone
  /-- MC_FW_UPDATE, R443. -/
  | mcFwUpdate (imageOk : Bool)
  /-- TEST_ACCESS_INSTRUCTION, R446. -/
  | testAccessInstruction (op : TestOp)
  /-- SYL_PRSNT_N_CHANGE, R312. -/
  | sylPrsntNChange (port : Fin 8) (present : Bool)
  /-- RESET_N_RISE, R399. -/
  | resetNRise
  /-- PCIE_LINK_DOWN, R370. -/
  | pcieLinkDown (port : Fin 10) (sub : Fin 4) (dpc : Bool)
  /-- PCIE_LINK_UP, R371. -/
  | pcieLinkUp (port : Fin 10) (sub : Fin 4) (cxlOffered : Bool)
  /-- PERST_N_RELEASE, R367. -/
  | perstNRelease (port : Fin 10) (sub : Fin 4)
  /-- REPORT_COMPLETE, R350. -/
  | reportComplete (t : Thr)
deriving DecidableEq, Repr

end Sys2Proof
end

