-- ==== Sys2Proof/Decode.lean ====
section
/-! DEFINITION. What the host's table words decode to. The block's rows give no bits (spec/opcode_table.json), so no word spells a command. -/

namespace Sys2Proof

/-- The command that a word of the opcode table spells: none, because no row of the table has bits. -/
def decodeTableWord (_nbits _w : Nat) : Option Instr := none

end Sys2Proof
end

