-- ==== Sys2Proof/Config.lean ====
section
/-! DEFINITION. What the spec leaves open: constants with no body, which nothing can evaluate. -/

namespace Sys2Proof.Config

/-- A free value, drawn by the counter State.free (log 6): victim choices under pseudo-LRU (08 R207), sampling phases (19 R422). -/
opaque freeValue : Nat → Nat

/-- The ECDSA P-384 signature of a report under the attestation key, 96 bytes (14 R350), free in the signed bytes and a drawn number (log 6). -/
opaque reportSignature : List Byte → Nat → List Byte

/-- The DER bytes of the attestation certificate chain (14 R350), free in a drawn number (log 6). -/
opaque certChain : Nat → List Byte

/-- Temperatures and other sensor readings (21 R449), free in a drawn number (log 6). -/
opaque sensor : Nat → Word

/-- Where a DRAM part lays the lines of a channel out (12 R286, R295: the spec gives no map from an address to a rank, bank group, bank and
row): the rank of a channel's address. Free, log 6. -/
opaque dramRank : Nat → Nat → Nat
/-- The bank group and bank of a channel's address. Free, log 6. -/
opaque dramBank : Nat → Nat → Nat
/-- The row of a channel's address. Free, log 6. -/
opaque dramRow : Nat → Nat → Nat
/-- The rows that a device can repair softly in a bank, by channel and the number of rank, bank and device (12 R294 names the resource and not
its size). Free, log 6. -/
opaque spprRows : Nat → Nat → Nat
/-- The SYNDROME bytes of an error record, by its code, the stamp and the address concerned: the spec names what they hold and not where (19 R418).
Free, log 6. -/
opaque syndrome : Nat → Nat → Nat → Nat

/-- The path delay to a die in ticks, which the master measures on its spoke (02, Distribution and skew). Free, log 6. -/
opaque pathDelay : Nat → Nat

/-- The package of a pair that the pair set-up forme gives a bucket to (09 R230: it spreads them over both; how, the spec does not say). Free, log 6. -/
opaque pairHome : Nat → Nat

/-- Which of the dies in service the bring-up formes give a bucket to, by the set of dies out of service and the bucket: the spec says that no bucket
names a slice of a die out of service (18 R399), and not which other it names. Free, log 6. -/
opaque homeDie : Nat → Nat → Nat

/-- Which counter of a table of the direction predictor, and which tag there, the address of a branch and the last 640 directions select (05 R132: the spec gives the sizes and
no index). Free, log 3. -/
opaque dirIndex : Nat → Word → BitVec 640 → Nat × Nat
/-- Which entry of the indirect target predictor an address and the path, latest target first, select (05 R132). Free, log 3. -/
opaque indIndex : Word → List Word → Nat

end Sys2Proof.Config
end

