-- ==== Sys2Proof/Machine/State.lean ====
section
/-! DEFINITION. The state of the package as plain data, its reset, and the names of the ways a step can stop. -/

namespace Sys2Proof.Machine

/-- Privilege levels (04 R96). -/
inductive Level where
  | u | s | h | m
deriving DecidableEq, Repr

/-- What a thread is doing (18 R400; 04 R127, R111, R131). -/
inductive RunState where
  | held | running | waiting | stopped | debug
deriving DecidableEq, Repr

/-- The eight exception registers of one level (04 R101, 0x100 to 0x127). -/
structure ExcRegs where
  status : Word
  epc : Word
  cause : Word
  synd : Word
  faddr : Word
  fpa : Word
  vbase : Word
  scratch : Word
deriving DecidableEq, Repr

/-- The registers of one view of the local interrupt unit (04 R118); INT_RPR is computed. -/
structure IntView where
  pmr : BitVec 8
  timer : Word
  timerEn : Bool
  sendErr : Bool
  eoiErr : Bool
  nsPreempt : Bool
  secToM : Bool
  waitDeadline : Word
  ackStamp : Word
deriving DecidableEq, Repr

/-- One INTID of a local interrupt unit (04 R117), with the acceptance stamp (R118) and a level source's assertion (R126, R460). -/
structure IntId where
  prio : BitVec 8
  enable : Bool
  pending : Bool
  active : Bool
  world : Bool
  asserted : Bool
  stamp : Word
deriving DecidableEq, Repr

/-- Effective memory types (06 R158, R160). -/
inductive MemType where
  | wb | nc | gw | gwu | devP | devN | devS
deriving DecidableEq, Repr

/-- Kinds of access (04 R113 ACC, 06 R157). -/
inductive Access where
  | load | store | fetch | atomic | cmo
deriving DecidableEq, Repr

/-- A regime tag (06 R148). -/
inductive Regime where
  | none | normalH | guest | normal | secure
deriving DecidableEq, Repr

/-- A cached translation (06 R169), with the thread that filled it (05 R146), and the leaf's levels and the IPA of its base, which a
fetch refused by type reports (08 R211, 04 R113). -/
structure TlbEntry where
  regime : Regime
  asid : BitVec 16
  vmid : BitVec 16
  global : Bool
  vpn : Nat
  bits : Nat
  ppn : Nat
  s1 : Bool
  s2 : Bool
  r1 : Bool
  w1 : Bool
  x1 : Bool
  u1 : Bool
  a1 : Bool
  d1 : Bool
  r2 : Bool
  w2 : Bool
  x2 : Bool
  a2 : Bool
  d2 : Bool
  mtype : BitVec 3
  s2type : BitVec 3
  np : Bool
  enclave : Tag
  eR : Bool
  eW : Bool
  eX : Bool
  ipa : Nat
  lvl1 : Nat
  lvl2 : Nat
  odd : Bool
deriving DecidableEq, Repr

/-- A walk-cache entry (06 R163): a table entry, or the stage-2 leaf of a table page (nested). -/
structure WalkEntry where
  regime : Regime
  vmid : BitVec 16
  pa : Nat
  value : Word
  nested : Bool
deriving DecidableEq, Repr

/-- A compare-and-write of A and D (06 R164): the entry's address, its value as read and as written, and what named the entry: ST and LVL of
06 R165. -/
structure WalkUpd where
  pa : Nat
  old : Word
  new : Word
  st2 : Bool
  lvl : Nat
deriving DecidableEq, Repr

/-- A walk in progress (06 R161): the entries read so far by address, the read or the compare-and-write of A and D it waits for
(06 R164), the transaction of that access with its address, and the line a read answered where the L2 is disabled. -/
structure Walk where
  va : Word
  acc : Access
  answers : List (Nat × Word)
  upd : Option WalkUpd
  tid : Nat
  pa : Nat := 0
  stamp : Word
  line : Option (Nat × LineData)
deriving DecidableEq, Repr

/-- Atomic operations by their FUNC of R83, with CAS (09 R252). -/
inductive AmoOp where
  | swp | add | band | bor | bxor | smin | smax | umin | umax | cas | read | write
deriving DecidableEq, Repr

/-- What an instruction that translates an address does with it (03 R77, R81 to R84; 06 R171; 08 R219, R220, R222). -/
inductive MemKind where
  | loadG (signed : Bool)
  | loadF
  | store
  | amo (op : AmoOp)
  | galLock
  | galUnlock
  | tlbLock
  | cmo (op : Fin 3) (pou : Bool)
  | pref (hint : Nat)
deriving DecidableEq, Repr

/-- What an instruction that translates an address names: its kind, address, size and operands (03 R77 to R86). -/
structure MemReq where
  kind : MemKind
  va : Word
  size : Nat
  rd : RegNo
  opA : Word
  opB : Word
  aq : Bool
  rl : Bool
deriving DecidableEq, Repr

/-- One piece of an access with its translation (06 R167, 07 R201), and the reason of 0x19 that the enclave page map gives it (14 R349). -/
structure Piece where
  va : Word
  size : Nat
  pa : Nat
  rank : Nat
  entry : Option TlbEntry
  reason : Option Nat
deriving DecidableEq, Repr

/-- Why an answer brings no usable data: a tag mismatch, an error response with its code, locator and whether a guard refused, or poison. -/
inductive Bad where
  | mismatch
  | error (code : BitVec 16) (loc : BitVec 32) (guard : Bool)
  | poison (loc : BitVec 32)
deriving DecidableEq, Repr

/-- An instruction that accesses memory, in progress (07 R193, R197): the transaction of its outstanding request and the address it
asks for, the answers received by address, whether it has issued an access that is performed exactly once, the pieces translated so far and
the answers that brought no usable data. -/
structure MemOp where
  req : MemReq
  tid : Nat
  want : Option Nat
  got : List (Nat × Word)
  once : Bool
  fresh : Bool
  stamp : Word
  xl : List Piece
  errs : List (Nat × Bad)
deriving DecidableEq, Repr

/-- An access performed exactly once that an interrupt has left while it was out (04 R122, 07 R197): the instruction that asked for it, by its PC, level,
world and tables, takes the answer when it is executed again. -/
structure KeptOp where
  pc : Word
  level : Level
  world : Tag
  root1 : Word
  op : MemOp
deriving DecidableEq, Repr

/-- The request of a fetch that waits (08 R211, R225): the address, its transaction (0 where it waits for a line of the L2), the world of the
page and the stamp of its sending. -/
structure FetchReq where
  pa : Nat
  tid : Nat
  world : Tag
  stamp : Word
deriving DecidableEq, Repr

/-- A read that an interrupt or a TLBI has left behind, of an instruction, a fetch or a walk: the answer to it is dropped (04 R122; 11 R280). -/
structure LeftOp where
  tid : Nat
  pa : Nat
  stamp : Word
deriving DecidableEq, Repr

/-- One store-buffer entry (07, The store buffer): a store or one piece of a misaligned store, with the rank of its type, whose order it
keeps (06 R160), the line of its other piece (R201), and whether its line's tag was checked when it was executed (05 R141). -/
structure StoreEntry where
  va : Word
  pa : Nat
  type : MemType
  world : Tag
  size : Nat
  data : Word
  issued : Bool
  fromM : Bool
  release : Bool
  rank : Nat
  mate : Option Nat
  checked : Bool
deriving DecidableEq, Repr

/-- What an outstanding operation of a thread waits for (07 R190): homeStore is a WB store performed at its home (08 R225), gwuDev a store of a device rank to
the global window (06 R160). -/
inductive OutKind where
  | ncStore | homeStore | gwuStore | gwuDev | devStore | devStrict | postedPcie | cmo | cmoGw | tlbi
deriving DecidableEq, Repr

/-- An outstanding operation of a thread: its transaction ID, its kind, the PA, the answers still due and the stamp of issue (11 R280). -/
structure OutOp where
  tid : Nat
  kind : OutKind
  pa : Nat
  due : Nat
  port : Option (Fin 10)
  stamp : Word
deriving DecidableEq, Repr

/-- A pending error (07 R204) with the stamp of its record. -/
structure PendErr where
  pa : BitVec 57
  code : BitVec 16
  stamp : Word
deriving DecidableEq, Repr

/-- A CONTAIN message a thread holds (19 R415). -/
structure ContainMsg where
  locator : BitVec 64
  scope : BitVec 2
deriving DecidableEq, Repr

/-- A thread's enclave context, taken from the ECD at ENTER (14 R342, R346, R348). -/
structure EnclCtx where
  ecd : Nat
  id : Tag
  base : Word
  size : Word
  epm : Nat
  slot : Nat
  slotPa : Nat
  forceNp : Bool
  debug : Bool
  enterVa : Word
  blockVa : Word
  rs1 : RegNo
deriving DecidableEq, Repr

/-- A counter of one of the three tagged tables of the direction predictor, with its place there, tagged by thread and world (05 R132, R133). -/
structure DirCounter where
  table : Fin 3
  slot : Nat
  tag : Nat
  odd : Bool
  world : Tag
  count : BitVec 2
deriving DecidableEq, Repr

/-- An entry of the branch target buffer, tagged by thread and world (05 R132, R133). -/
structure BtbEntry where
  pc : Word
  target : Word
  odd : Bool
  world : Tag
deriving DecidableEq, Repr

/-- An entry of the indirect target predictor with its place there, tagged by thread and world (05 R132, R133). -/
structure IndEntry where
  slot : Nat
  pc : Word
  target : Word
  odd : Bool
  world : Tag
deriving DecidableEq, Repr

/-- The predictors that the two threads of a core share (05 R132). -/
structure Predictors where
  dirs : List DirCounter
  btb : List BtbEntry
  inds : List IndEntry
deriving DecidableEq, Repr

/-- What an instruction that is not an access to memory waits for: the end of a FENCE.C (07 R190), of an emptying (08 R226), of a report
(14 R350), of the sibling's drain before SMT_FIX changes (05 R146); or a WAITE left by an enclave exit whose end executes the ENTER (14 R348). -/
inductive Hold where
  | none | fenceC | emptying | report | smtFix | left
deriving DecidableEq, Repr

/-- A hardware thread (03 R56, 04 R101). -/
structure Thread where
  g : Tbl Word
  f : Tbl Word
  pc : Word
  fcsr : Word
  level : Level
  world : Tag
  run : RunState
  eventFlag : Bool
  excS : ExcRegs
  excH : ExcRegs
  excM : ExcRegs
  timeCtl : Word
  coreCtl : Word
  atomPlace : Word
  stbStat : Word
  mmuCtl : Word
  root1 : Word
  root2 : Word
  mtypeMap : Word
  delegM : Word
  delegH : Word
  trapCtl : Word
  dbgCtl : Word
  dbgBp : Tbl Word
  dbgWp : Tbl Word
  dbgWpm : Tbl Word
  pmcCtl : Word
  pmcSel : Tbl Word
  pmc : Tbl Word
  intN : IntView
  intS : IntView
  ints : Tbl IntId
  stb : List StoreEntry
  outst : List OutOp
  pendErrs : List PendErr
  pendOvf : Bool
  contains : List ContainMsg
  memOp : Option MemOp
  hold : Hold
  walk : Option Walk
  encl : Option EnclCtx
  report : Option (Nat × RegNo)
  suppress : Bool
  vecFetch : Option Level
  retStack : List Word
  hist : BitVec 640
  path : List Word
  kept : List KeptOp
  fetchBuf : Option (Nat × Tag)
  fetchReq : Option FetchReq
  lefts : List LeftOp
deriving DecidableEq, Repr

/-- States of a line in an L2 (09 R232). -/
inductive L2State where
  | m | o | e | s | isD | imAd | smA (fromO : Bool) | viA (dirty : Bool)
deriving DecidableEq, Repr

/-- A line of an L2 (09 R232, 14 R335), with the answers its request has and needs (09 R240). -/
structure L2Line where
  st : L2State
  world : Tag
  data : LineData
  poison : Bool
  way : Nat
  prefetch : Bool
  need : Option Nat
  got : Nat
  granted : Bool
  reqWorld : Tag
  fromM : Bool
  stamp : Word
deriving DecidableEq, Repr

/-- A line of an L1, whose data are the L2's, with its way (08 R207, R209, R224). -/
structure L1Line where
  line : Nat
  way : Nat
deriving DecidableEq, Repr

/-- An entry of the Galley or the Hellbox (08 R213) with its place there: 0 to 47, or 0 to 7 (08 R224), its 64 bits of byte parity, and whether a prefetch
placed it least recently used (R221). -/
structure GalEntry where
  way : Nat
  tag : Nat
  world : Tag
  full : Bool
  lock : Bool
  dirty : BitVec 64
  wr : BitVec 2
  poison : Bool
  data : LineData
  parity : BitVec 64
  aged : Bool
deriving DecidableEq, Repr

/-- A Galley write-back in the queue of four, with the stamp of its sending (08 R215, R216; 11 R280). -/
structure GalWb where
  entry : GalEntry
  tid : Nat
  stamp : Word
deriving DecidableEq, Repr

/-- A stride stream (08 R221): its key, the PA and the VA of its last access, and the world of it. -/
structure Stream where
  thr : Bool
  key : Nat
  last : Nat
  stride : Int
  count : Nat
  gw : Bool
  world : Tag
  va : Word
deriving DecidableEq, Repr

/-- An entry of the mirror buffer (13 R330), with the threads whose stores it holds (07 R190). -/
structure MirrorEntry where
  line : Nat
  world : Tag
  data : LineData
  mask : BitVec 64
  wr : BitVec 2
deriving DecidableEq, Repr

/-- A mirror write of a core that is out (13 R330): its transaction, its line, the threads whose stores it carries and the stamp of its sending. -/
structure MirrorOut where
  tid : Nat
  line : Nat
  wr : BitVec 2
  stamp : Word
deriving DecidableEq, Repr

/-- A logical core and the structures its two threads share (08 R207, 06 R168). -/
structure Core where
  cacheCtl : Word
  smtFix : Bool
  galRefused : Bool
  galUnlocked : Bool
  galLockFull : Bool
  galLost : Bool
  tlbUnpinned : Bool
  tlbLockFull : Bool
  tlbLost : Bool
  l1i : List L1Line
  l1d : List L1Line
  l2 : Tbl (Option L2Line)
  galley : List GalEntry
  hellbox : List GalEntry
  galWb : List GalWb
  mirror : List MirrorEntry
  mirrorOut : List MirrorOut
  itlb : List TlbEntry
  dtlb : List TlbEntry
  l2tlb : List TlbEntry
  pinned : List TlbEntry
  walkCache : List WalkEntry
  streams : List Stream
  preds : Predictors
  emptying : Option (Thr × Word)
deriving DecidableEq, Repr

/-- Tile power states (17 R383). -/
inductive TileState where
  | t0 | t1 | t2 | t3
deriving DecidableEq, Repr

/-- An interrupt message (11 R266 INT_DLV) as a unit or a pending register holds it. Its last fields say that its sender is a thread of the partner, which
message to several targets it belongs to (0 for none), and that the die has refused that message already (04 R119). -/
structure IntMsg where
  intid : Fin 1024
  target : Thr
  secure : Bool
  refusal : Bool
  sender : Option Thr
  level : Bool
  stamp : Word
  away : Bool := false
  batch : Nat := 0
  quiet : Bool := false
deriving DecidableEq, Repr

/-- The four forms of TLBI (06 R175). -/
inductive TlbiForm where
  | va | asid | vmid | all
deriving DecidableEq, Repr

/-- A TLBI with the regimes it acts on (06 R175, R177). -/
structure TlbiReq where
  form : TlbiForm
  regime : Regime
  level : Level
  va : Word
  asid : BitVec 16
  vmid : BitVec 16
  pinned : Bool
  enclave : Tag
deriving DecidableEq, Repr

/-- Port states (11 R283). -/
inductive PortState where
  | opened | closing | closed | opening
deriving DecidableEq, Repr

/-- A tile: power state and always-on pending register (17 R383, 04 R123, 06 R179). -/
structure Tile where
  st : TileState
  waking : Bool
  pend : List IntMsg
  sevt : Bool
  tlbis : List TlbiReq
  fullDiscard : Bool
  tlbLost : Bool
  galLost : Bool
  stretched : Bool
  failed : Bool
  freq : Nat
  limit : Nat
deriving DecidableEq, Repr

/-- Directory states (09 R235). -/
inductive DirState where
  | uncached | shared | owned | exclusive
deriving DecidableEq, Repr

/-- A directory entry (09 R235); the line is its key. -/
structure DirEntry where
  st : DirState
  presence : BitVec 16
  partner : Bool
  owner : Nat
  used : Nat
deriving DecidableEq, Repr

/-- Die-level grants (09 R237). -/
inductive DState where
  | i | s | o | e
deriving DecidableEq, Repr

/-- A die snoop filter entry (09 R237), with the pending mark of R255. -/
structure FilterEntry where
  l2vec : BitVec 32
  l3 : Bool
  l3Dirty : Bool
  dstate : DState
  pending : Bool
  used : Nat
deriving DecidableEq, Repr

/-- A line in an L3 slice, or in its write-back buffer (08 R210, 09 R255). -/
structure L3Line where
  way : Nat
  dirty : Bool
  world : Tag
  data : LineData
  poison : Bool
  used : Nat
deriving DecidableEq, Repr

/-- A line in a home's atomic buffer (09 R251). -/
structure AtomLine where
  world : Tag
  data : LineData
  poison : Bool
  used : Nat
deriving DecidableEq, Repr

/-- Agents that send and receive flits (01 R24). -/
inductive Agent where
  | core (c : CoreId)
  | filter (d : Nat)
  | home (d t : Nat)
  | mem (ch : Nat)
  | port (p : Nat)
  | link (p : Nat)
  | mover (e : Nat)
  | router
  | meridian
  | die (d : Nat)
  | forme (d : Nat)
  | mc
  | power (d : Nat)
  | mmio
  | iommu
  | gwHub
  | node (n : BitVec 12)
deriving DecidableEq, Repr

/-- Message opcodes (09 R239, 11 R266). -/
inductive Op where
  | rdS | rdU | upg | rdNc | wrNc | atomH | atomM | cmoP | tlbiB | wbD | evictC
  | snpS | snpU | snpI | snpNear | dataS | dataE | dataM | ack | retry
  | intDlv | sevtB | merSync | contain | heart
  | reserved (code : BitVec 8)
deriving DecidableEq, Repr

/-- What a device or non-coherent access is for (07 R195, R197). -/
inductive AccClass where
  | coherent | nc | gw | devLoad | devStore | walk | galRead | galWb | dma
deriving DecidableEq, Repr

/-- A flit (11 R264) with its payload and coherence flags (09 R240) as named fields, the regulator that it passes and the one that holds it (11 R275), the router at which
it stands, the cycle in which it came there (09 R247), the neighbour whose link brought it there (none while it is at its injector) and its dateline class (11 R273), and
the mark that the open port of its destination's domain has accepted it (11 R283). grant says that an ACK grants a line (09 R239), as its source node does on the wire; far
is the source node of a flit that came over a link. -/
structure Flit where
  op : Op
  was : Op
  src : Agent
  dst : Agent
  req : Agent
  thr : Option Thr
  tid : Nat
  line : Nat
  world : Tag
  size : Nat
  mask : BitVec 64
  data : LineData
  poison : Bool
  cls : BitVec 4
  acc : AccClass
  dirty : Bool
  noCopy : Bool
  wbPending : Bool
  comp : Bool
  superseded : Bool
  keep : Bool
  clean : Bool
  discard : Bool
  moved : Bool
  promoted : Bool
  hint : Nat
  ackCnt : Nat
  rcnt : Nat
  fwd : Bool
  grant : Bool
  far : BitVec 12
  pf : Bool
  fromM : Bool
  err : Option (BitVec 16)
  refusal : Option Bool
  func : AmoOp
  dword : Bool
  opA : Word
  opB : Word
  msg : Option IntMsg
  tlbi : Option TlbiReq
  containRec : Option ContainMsg
  containThr : Option Thr
  hop : BitVec 12
  inPort : Option (BitVec 12)
  dateline : Bool
  inside : Bool
  regu : Option Nat
  gate : Option Nat
  fails : Nat
  came : Nat
  stamp : Word
deriving DecidableEq, Repr

/-- An output port of a router (11 R269, R274): the cycle after that of its last grant, whose turn it is among the P1 channels, the slots for which P1
and P0 have waited, and the last eight flits that it sent. -/
structure OutPort where
  last : Nat
  turn : Nat
  ageP1 : Nat
  ageP0 : Nat
  sent : List Flit
deriving DecidableEq, Repr

/-- A copy of a line as a snoop finds it: its data and tag, whether it is newer than memory, and WB_PENDING (09 R234). -/
structure Copy where
  data : LineData
  poison : Bool
  world : Tag
  dirty : Bool
  wb : Bool
deriving DecidableEq, Repr

/-- A transaction open at a home or at a die filter for one line (09 R243, R247): its request, the snoop sent to the dies that may supply
the line, the dies tried, the answers to home still due (16 the partner), the dies that answered WB_PENDING (R244) and the dirty data that an answer brought, write-backs
held (R256) and requests waiting in arrival order; whether the requester's COMP, or the data of an atomic's line, is due; the writes of the line that
its controller has not acknowledged, and the answers that wait for them. -/
structure Txn where
  flit : Flit
  slice : Nat
  served : Bool
  snoop : Op
  tried : BitVec 17
  due : BitVec 17
  wbFrom : BitVec 17
  got : Option Copy
  held : List Flit
  waiting : List Flit
  compDue : Bool
  writes : List (Nat × Word)
  answers : List Flit
  stamp : Word
deriving DecidableEq, Repr

/-- The request-queue side of a home slice that outlives requests (09 R248, R249): the starved nodes, those to which a free reserved entry is offered with the end of
each offer, and the node last served. -/
structure Slice where
  starved : List Nat
  offers : List (Nat × Word)
  lastServed : Nat
deriving DecidableEq, Repr

/-- Classes of an Ephemeris event (02 R54). -/
structure Event where
  payload : BitVec 128
  node : BitVec 12
  cls : BitVec 4
  world : Tag
  unsync : Bool
  sev : BitVec 3
  code : BitVec 16
  seq : BitVec 16
  stamp : Word
deriving DecidableEq, Repr

/-- A slot of an error record store (19 R410). -/
structure Record where
  stamp : Word
  node : BitVec 12
  sev : BitVec 3
  world : Tag
  addrV : Bool
  thrV : Bool
  thread : BitVec 10
  code : BitVec 16
  addr : BitVec 57
  valid : Bool
  gen : BitVec 16
  count : BitVec 32
  synd : BitVec 256
deriving DecidableEq, Repr

/-- States of a Forme engine (20 R439). -/
inductive FrmState where
  | idle | verifying | running | rollback
deriving DecidableEq, Repr

/-- A quiesce in force or asked for (20 R437). -/
structure Quiesce where
  engine : Nat
  scope : Nat
  target : Nat
  limit : Nat
  held : Bool
  stamp : Word
deriving DecidableEq, Repr

/-- A Forme engine (20 R431 to R439). -/
structure FrmEngine where
  st : FrmState
  queue : List (Nat × Nat × Bool)
  words : List Word
  pc : Nat
  acc : Tbl Word
  id : BitVec 16
  cls : BitVec 2
  rollbackAt : Nat
  group : Nat
  calling : Option Word
  atSync : Option Nat
  hold : Bool
  buffer : List (Nat × Word)
  polling : Option Word
  quiescing : Bool
  full : Bool
  last : BitVec 8
  step : BitVec 24
  fault : Bool
  lib : Nat
deriving DecidableEq, Repr

/-- A die's Meridian copy (02 R43): by how many ticks it stands ahead of the master, how many of them the last sync message told it to lose, and the
phase of a slowed copy. -/
structure LocalTime where
  ahead : Int
  owed : Int
  phase : Bool
  synced : Bool
deriving DecidableEq, Repr

/-- A die (01 R27, R35); storeAt is one more than the cycle in which its record store took its last record, and storeLast that record's NODE (02 R53; 19 R411); snoops are those that its filter has passed on to L2s that wait for the partner to acknowledge a mirror write (13 R330). -/
structure Die where
  inService : Bool
  parked : Bool
  slow : Bool
  time : LocalTime
  filter : Tbl (Option FilterEntry)
  l3 : Tbl (Option L3Line)
  l3wb : Tbl (Option L3Line)
  ftxn : Tbl (Option Txn)
  snoops : List Flit
  ring : List Event
  ringCycle : Nat
  ringNow : Nat
  storeAt : Nat
  storeLast : BitVec 12
  head : Nat
  seq : BitVec 16
  ephCtl : Word
  ephPosN : Word
  ephPosS : Word
  store : Tbl (Option Record)
  frm : FrmEngine
  stretched : Bool
  ringHeart : Word
deriving DecidableEq, Repr

/-- A read waiting at a memory controller (12 R291, R293), with the stamp at which the partner was asked for its line, where it was (13 R331; 11 R280). -/
structure MemRead where
  flit : Flit
  again : Nat
  stamp : Word := 0
deriving DecidableEq, Repr

/-- A line blocked for verification, probe or repair (12 R293 to R300). -/
structure Repair where
  line : Nat
  device : Nat
  phase : Nat
  data : LineData
  repaired : Bool
deriving DecidableEq, Repr

/-- A mirror write of a controller that is out (13 R330): its transaction, its line, the answer that waits for it and the stamp of its sending. -/
structure MirrorWait where
  tid : Nat
  line : Nat
  answer : Option Flit
  stamp : Word
deriving DecidableEq, Repr

/-- A memory channel (12 R286, R287). -/
structure Channel where
  trained : Bool
  capacity : Nat
  reads : List MemRead
  repair : Option Repair
  filled : Bool
  fillErr : Bool
  selfRefresh : Bool
  sppr : List (Nat × Nat)
  scrubAt : Nat
  probes : List (Nat × Word)
  mirrors : List MirrorWait
  mirrorLog : List (Word × Word × Nat)
deriving DecidableEq, Repr

/-- A repair record of the Almanac (12 R302). -/
structure AlmRec where
  stamp : Word
  kind : BitVec 8
  chan : BitVec 8
  loc : BitVec 8
  bank : BitVec 8
  row : BitVec 32
deriving DecidableEq, Repr

/-- A request outstanding at a root port (16 R369). -/
structure PortReq where
  flit : Flit
  sub : Nat
  zeroRead : Bool
  covers : List (Thr × Nat)
  stamp : Word
deriving DecidableEq, Repr

/-- The state of a sub-port (16 R367, R370). -/
structure SubPort where
  up : Bool
  cxl : Bool
  perst : Bool
  hotReset : Bool
deriving DecidableEq, Repr

/-- A request of an I/O agent to another home or package that is not yet answered (15 R359; 16 R375): its transaction, its line and the stamp of its sending (11 R280). -/
structure IoReq where
  tid : Nat
  line : Nat
  stamp : Word
deriving DecidableEq, Repr

/-- A PCIe root port (16 R366); `owed` are the threads whose covering read waits for a free tag (R369), and `away` the requests of its functions to another home or package. -/
structure RootPort where
  subs : Tbl SubPort
  posted : List (Thr × Nat × Nat)
  owed : List Thr
  away : List IoReq
  reqs : List PortReq
  bifur : Nat
  buses : Tbl Word
  windows : Tbl (BitVec 96)
deriving DecidableEq, Repr

/-- Link states (13 R312). -/
inductive LinkState where
  | down | training | auth | up | lost | refused
deriving DecidableEq, Repr

/-- A request of this package waiting for an answer over a link (13 R315). -/
structure LinkReq where
  flit : Flit
  dstPkg : BitVec 12
deriving DecidableEq, Repr

/-- A window request of a package that a link port serves here (13 R323; 11 R280): its transaction at home, the package and its transaction there, the line, whether it
writes, and the stamp at which it went on. -/
structure LinkServe where
  tid : Nat
  src : BitVec 12
  remote : BitVec 12
  line : Nat
  wr : Bool
  stamp : Word
deriving DecidableEq, Repr

/-- A window request that waits at its port, since an earlier one of its package has not reached memory (07 R189): the flit, the local PA, its transaction there and the
package. -/
structure LinkIn where
  flit : Flit
  pa : Nat
  remote : BitVec 12
  src : BitVec 12
deriving DecidableEq, Repr

/-- A snoop of the partner's home that the hub die has passed to the filters of this package and whose answers it merges (09 R250): the snoop, the dies whose answers are
due, the die that supplies the line once the others have given it up, the dirty data that an answer brought, whether a die had a copy, and whether one answered WB_PENDING. -/
structure PairSnoop where
  flit : Flit
  due : BitVec 16
  last : Option Nat
  got : Option Copy
  found : Bool
  wb : Bool
deriving DecidableEq, Repr

/-- A system-link port (13 R308 to R319). -/
structure LinkPort where
  st : LinkState
  present : Bool
  partner : BitVec 12
  enc : Bool
  lanes : BitVec 4
  refuse : BitVec 4
  replays : Nat
  fecCe : Nat
  hello : Option HelloIn
  authStart : Word
  out : List FrameIn
  sent : Nat
  nakRun : Nat
  lastHeart : Word
  heartAt : Word
  hearts : Nat
  rxSeq : BitVec 16
  nakOut : Option (BitVec 16)
  nakSeq : BitVec 16
  rekeys : Nat
  frames : Nat
  waits : List LinkReq
  serves : List LinkServe
  queue : List LinkIn
  snoops : List PairSnoop
  exchanges : Nat
  claim : Option TimeClaim
deriving DecidableEq, Repr

/-- States of a Data Mover instance (15 R356). -/
inductive InstState where
  | unbound | running | freezing | frozen | busy
deriving DecidableEq, Repr

/-- What an instance is in the midst of beside a segment: its completion record is on its way, with the interrupt of its descriptor, after a
refused ring, or of an aborted descriptor (15 R358, R360, R363); or its state record (15 R363). -/
inductive Doing where
  | none | finishing (int : Bool) | draining | aborting | saving | savingSent | restoring
deriving DecidableEq, Repr

/-- A Data Mover instance (15 R356, R360, R364). -/
structure Inst where
  st : InstState
  cmdErr : Bool
  engine : Nat
  slot : Nat
  tail : BitVec 16
  head : BitVec 16
  descBase : Word
  log2 : Nat
  cplBase : Word
  stream : BitVec 16
  savePa : Word
  intCpl : Word
  intGmbx : Word
  intHmbx : Word
  h2g : Tbl Word
  g2h : Tbl Word
  h2gPend : BitVec 8
  g2hPend : BitVec 8
  phase : Bool
  started : Bool
  desc : List Word
  done : Nat
  crc : BitVec 32
  diff : Option Nat
  poisoned : Bool
  listPos : Nat
  resetting : Bool
  doing : Doing
  flight : Nat
  ioAsk : List IoReq
  ioGot : List (Nat × LineData × Bool)
  ioWrites : List IoReq
  ioErr : Nat
  paid : Nat
deriving DecidableEq, Repr

/-- A GPIO pin as the router samples it (04 R126). -/
structure Gpio where
  sample : Bool
  level : Bool
deriving DecidableEq, Repr

/-- The kinds of package reset (18 R407 KIND). -/
inductive ResetKind where
  | powerOn | cold | watchdog | warm | p5Exit
deriving DecidableEq, Repr

/-- One boot attempt (18 R407). -/
structure BootEntry where
  stamp : Word
  seq : BitVec 8
  kind : BitVec 4
  stage : BitVec 4
  fail : BitVec 8
  ok : Bool
  min : Bool
  imgB : Bool
  upgraded : Bool
  trigger : BitVec 4
  detail : BitVec 32
deriving DecidableEq, Repr

/-- The configuration record in SPI flash (18 R399; 01 R23; 17 R394; 21 R448): its last fields are the system links it enables, the mode of
the pair it names, the root bit of R45 and the enable of PPS_IN (R48). -/
structure ConfigRec where
  pkgId : BitVec 12
  fatKind : BitVec 2
  okTmo : BitVec 16
  dieLimit : BitVec 4
  limit : BitVec 3
  pwrPkgCtl : Word
  mbxThread : Thr
  links : BitVec 8
  pair : BitVec 2
  root : Bool
  pps : Bool
deriving DecidableEq, Repr

/-- The MC and the boot (18, 21 R446 to R449). -/
structure Mc where
  stbyPg : Bool
  hubPg : Bool
  hubRise : Word
  vinPg : Bool
  resetN : Bool
  stage : BitVec 4
  resetting : Bool
  tries : Word
  rvbar : Word
  release : Tbl Word
  reasons : Tbl BootEntry
  entry : Nat
  seq : BitVec 8
  stageStart : Word
  cfg : ConfigRec
  fatHold : Bool
  imageB : Bool
  restarting : Bool
  okRun : Nat
  minSvn : Nat
  curSvn : Nat
  req : Tbl Word
  rsp : Tbl Word
  rspPend : Bool
  inHand : Option (List Word)
  restartReq : Option (List Word)
  tod : Option (Word × Word × Word × Word)
  telemetry : Option (BitVec 16 × BitVec 16 × BitVec 16)
  bmcOut : List Word
  pmbAlert : Bool
  pauseDone : Bool
  ctlErr : Bool
deriving DecidableEq, Repr

/-- The Secure watchdog (14 R351). -/
structure Watchdog where
  start : Bool
  period : BitVec 16
  fired : Bool
  count : BitVec 16
  deadline : Option Word
  booting : Bool
  paused : Option Word
deriving DecidableEq, Repr

/-- The error summary and notifications (19 R420, R421) and the sticky summary (02 R52). -/
structure ErrGlobal where
  summary : Word
  errnUcc : Bool
  notifyN : Word
  notifyS : Word
  countN : Nat
  countS : Nat
  first : List Event
  latest : List Event
deriving DecidableEq, Repr

/-- Frisket lifecycle (21 R453). -/
inductive Life where
  | factory | opened | owner | field | returned
deriving DecidableEq, Repr

/-- The Frisket (21 R452 to R458): owner key slots written, each with its revoke fuse; challenges issued and not answered, oldest first (level, bytes, stamp). -/
structure Frisket where
  life : Life
  session : BitVec 2
  locked : Bool
  fails : Nat
  lockUntil : Word
  savedFails : Nat
  slots : List (BitVec 384 × Bool)
  challenges : List (BitVec 2 × BitVec 256 × Word)
deriving DecidableEq, Repr

/-- Package power states (17 R388, R389). -/
inductive PkgState where
  | p0 | p1 | p5
deriving DecidableEq, Repr

/-- What a current change is of (17 R392): a tile that enters a state or wakes, a tile's clock, an uncore's D state. -/
inductive SlewKind where
  | enter (tile : Nat) | wake (tile : Nat) | clock (tile freq : Nat) | uncore (die : Nat) (slow : Bool)
deriving DecidableEq, Repr

/-- A current change before the slew governor (17 R392): the node, the change in mA, the request's stamp, and from when an announced one may go. -/
structure SlewReq where
  node : Nat
  kind : SlewKind
  delta : Int
  stamp : Word
  ready : Option Word
deriving DecidableEq, Repr

/-- Power and thermal state of the package (17): the governor's requests, those admitted and not yet used, the changes of the last
µs (stamp, mA, announced), its last slot and announcement; islands of the hub that are off or stretched; tiles refused once in a
wait (R386); and a request for or against P5 (R389). -/
structure Power where
  pkg : PkgState
  prochot : Bool
  thermtrip : Bool
  sleepN : Bool
  waiting : List SlewReq
  granted : List SlewReq
  recent : List (Word × Int × Bool)
  slotAt : Word
  annAt : Option Word
  vrAnnounce : BitVec 4
  stb : Bool
  hubOff : List Nat
  hubAsk : List Nat
  hubStretch : List Nat
  refusedOnce : List Nat
  p5Asked : Bool
  p5Leave : Bool
deriving DecidableEq, Repr

/-- A request told to wait (09 R248). -/
structure Backoff where
  flit : Flit
  untilStamp : Word
  moved : Bool
deriving DecidableEq, Repr

/-- Pair state of the survivor (13 R332). -/
structure PairState where
  scanning : Bool
deriving DecidableEq, Repr

/-- The I/O MMU (16 R373 to R376). -/
structure Iommu where
  tlb : List (BitVec 16 × TlbEntry)
  streams : List (BitVec 16 × List Word)
  atsLost : List (BitVec 16)
  atsWaits : List (BitVec 16 × Nat × Word)
  tlbiWaits : List (Flit × Nat)
  prqBase : Word
  prqHead : Nat
  prqTail : Nat
  prqSrc : Nat
  failures : List (BitVec 16 × BitVec 9)
  responses : List Word
deriving DecidableEq, Repr

/-- An inbound request that waits in the queue of a regulator of its root port (11 R275). -/
structure RegWait where
  reg : Nat
  port : Fin 10
  sub : Fin 4
  req : InboundReq
deriving DecidableEq, Repr

/-- The state of the package; INVENTORY.md names the rule of each field. -/
structure State where
  pending : List Instr
  free : Nat
  now : Word
  part : BitVec 8
  stepping : BitVec 4
  pkgId : BitVec 12
  pairPkg : Bool
  pairSide : Bool
  ctl : Tbl (Option Word)
  threads : Tbl Thread
  cores : Tbl Core
  coreTile : Tbl (Option Nat)
  tiles : Tbl Tile
  dies : Tbl Die
  dir : Tbl (Option DirEntry)
  txns : Tbl (Option Txn)
  atoms : Tbl (Option AtomLine)
  slices : Tbl Slice
  mem : List Host.Cell
  poisoned : List Nat
  net : List Flit
  outPorts : Tbl OutPort
  urgentAt : Tbl Nat
  regFrac : Tbl Nat
  regWaits : List RegWait
  stamped : Tbl Word
  backoffs : List Backoff
  nextTid : Nat
  chans : Tbl Channel
  keys : Tbl Word
  almanac : List AlmRec
  rootPorts : Tbl RootPort
  links : Tbl LinkPort
  insts : Tbl Inst
  served : Tbl Nat
  sources : Tbl Word
  srcPend : List Nat
  srcSent : List (Nat × Nat × Nat)
  gpios : Tbl Gpio
  gpioOut : BitVec 32
  gpioOe : BitVec 32
  iommu : Iommu
  quiesces : List Quiesce
  mc : Mc
  wd : Watchdog
  errs : ErrGlobal
  frisket : Frisket
  power : Power
  pair : PairState
  ppsLast : Option Word
  ppsRate : Int
  ppsAcc : Int
  rootSeen : Bool
  syncAt : Word
  coreResets : List (Nat × Word)
  slew : Int
  slewPhase : Bool
deriving DecidableEq, Repr

/-- The exception registers of one level at reset, by its STATUS (04 R108, R112). -/
def ExcRegs.reset (status : Word) : ExcRegs :=
  { status := status, epc := 0, cause := 0, synd := 0, faddr := 0, fpa := 0, vbase := 0, scratch := 0 }

/-- One view of the local interrupt unit at reset (04 R118). -/
def IntView.reset : IntView :=
  { pmr := 0xFF, timer := 0, timerEn := false, sendErr := false, eoiErr := false, nsPreempt := false,
    secToM := false, waitDeadline := 0, ackStamp := 0 }

/-- An INTID at reset (04 R117). -/
def IntId.reset : IntId :=
  { prio := 0xFF, enable := false, pending := false, active := false, world := false, asserted := false, stamp := 0 }

/-- A thread that a reset has left held (03 R60, 18 R400, R408). -/
def Thread.reset : Thread :=
  { g := [], f := [], pc := 0, fcsr := 1, level := .m, world := 0xFFF, run := .held, eventFlag := false,
    excS := ExcRegs.reset 0, excH := ExcRegs.reset 0, excM := ExcRegs.reset 0xE00,
    timeCtl := 6, coreCtl := 0, atomPlace := 0, stbStat := 0, mmuCtl := 0, root1 := 0, root2 := 0,
    mtypeMap := 0x1212111003020100, delegM := 0, delegH := 0, trapCtl := 0, dbgCtl := 0, dbgBp := [], dbgWp := [],
    dbgWpm := [], pmcCtl := 0, pmcSel := [], pmc := [], intN := IntView.reset, intS := IntView.reset, ints := [],
    stb := [], outst := [], pendErrs := [], pendOvf := false, contains := [], memOp := none, hold := .none,
    walk := none, encl := none, report := none, suppress := false, vecFetch := none, retStack := [], hist := 0, path := [], kept := [],
    fetchBuf := none, fetchReq := none, lefts := [] }

/-- A core with every structure empty (05, 06 R173, 08 R220). -/
def Core.reset : Core :=
  { cacheCtl := 0x3F, smtFix := false, galRefused := false, galUnlocked := false, galLockFull := false,
    galLost := false, tlbUnpinned := false, tlbLockFull := false, tlbLost := false, l1i := [], l1d := [], l2 := [],
    galley := [], hellbox := [], galWb := [], mirror := [], mirrorOut := [], itlb := [], dtlb := [], l2tlb := [], pinned := [],
    walkCache := [], streams := [], preds := { dirs := [], btb := [], inds := [] }, emptying := none }

/-- A tile as boot leaves it, in T3 (18 R399 stage 0x3). -/
def Tile.reset : Tile :=
  { st := .t3, waking := false, pend := [], sevt := false, tlbis := [], fullDiscard := false, tlbLost := false,
    galLost := false, stretched := false, failed := false, freq := 0, limit := 39 }

/-- A die's Meridian copy before synchronisation (02 R43, R44). -/
def LocalTime.reset : LocalTime := { ahead := 0, owed := 0, phase := false, synced := false }

/-- An idle Forme engine (20 R439). -/
def FrmEngine.reset : FrmEngine :=
  { st := .idle, queue := [], words := [], pc := 0, acc := [], id := 0, cls := 0, rollbackAt := 0, group := 0,
    calling := none, atSync := none, hold := false, buffer := [], polling := none, quiescing := false, full := false,
    last := 0, step := 0, fault := false, lib := 0 }

/-- A die in service with nothing cached and nothing recorded (18 R408, 19 R410, R422). -/
def Die.reset : Die :=
  { inService := true, parked := false, slow := false, time := LocalTime.reset, filter := [], l3 := [], l3wb := [],
    ftxn := [], snoops := [], ring := [], ringCycle := 0, ringNow := 0, storeAt := 0, storeLast := 0, head := 0, seq := 0, ephCtl := 0x2800000000000000, ephPosN := 0, ephPosS := 0,
    store := [], frm := FrmEngine.reset, stretched := false, ringHeart := 0 }

/-- A home slice with nothing waiting (09 R247, R248). -/
def Slice.reset : Slice := { starved := [], offers := [], lastServed := 4095 }

/-- A free slot of a record store (19 R420): everything zero. -/
def Record.free (gen : BitVec 16) : Record :=
  { stamp := 0, node := 0, sev := 0, world := 0, addrV := false, thrV := false, thread := 0, code := 0, addr := 0,
    valid := false, gen := gen, count := 0, synd := 0 }

/-- A channel: trained with 64 GiB, DESIGN CHOICE (log 4; 12 R287). -/
def Channel.reset : Channel :=
  { trained := true, capacity := 0x1000000000, reads := [], repair := none, filled := false, fillErr := false,
    selfRefresh := false, sppr := [], scrubAt := 0, probes := [], mirrors := [], mirrorLog := [] }

/-- A sub-port before its link trains, PERST_N low (16 R367). -/
def SubPort.reset : SubPort := { up := false, cxl := false, perst := true, hotReset := false }

/-- A root port with nothing outstanding (16 R366). -/
def RootPort.reset : RootPort := { subs := [], posted := [], owed := [], away := [], reqs := [], bifur := 0, buses := [], windows := [] }

/-- A port in DOWN (13 R312). -/
def LinkPort.reset : LinkPort :=
  { st := .down, present := false, partner := 0, enc := false, lanes := 0, refuse := 0, replays := 0, fecCe := 0,
    hello := none, authStart := 0, out := [], sent := 0, nakRun := 0, lastHeart := 0, heartAt := 0, hearts := 0,
    rxSeq := 0, nakOut := none, nakSeq := 0, rekeys := 0, frames := 0, waits := [], serves := [], queue := [], snoops := [], exchanges := 0, claim := none }

/-- An UNBOUND instance (15 R356). -/
def Inst.reset : Inst :=
  { st := .unbound, cmdErr := false, engine := 0, slot := 0, tail := 0, head := 0, descBase := 0, log2 := 4,
    cplBase := 0, stream := 0, savePa := 0, intCpl := 0, intGmbx := 0, intHmbx := 0, h2g := [], g2h := [],
    h2gPend := 0, g2hPend := 0, phase := true, started := false, desc := [], done := 0, crc := 0, diff := none,
    poisoned := false, listPos := 0, resetting := false, doing := .none, flight := 0,
    ioAsk := [], ioGot := [], ioWrites := [], ioErr := 0, paid := 0 }

/-- An output port that has granted nothing (11 R274). -/
def OutPort.reset : OutPort := { last := 0, turn := 0, ageP1 := 0, ageP0 := 0, sent := [] }

/-- An empty BOOT_REASON entry (18 R407). -/
def BootEntry.empty : BootEntry :=
  { stamp := 0, seq := 0, kind := 0, stage := 0, fail := 0, ok := false, min := false, imgB := false,
    upgraded := false, trigger := 0, detail := 0 }

/-- The configuration record that the board carries, DESIGN CHOICE (log 4): the register defaults. -/
def ConfigRec.reset : ConfigRec :=
  { pkgId := 0, fatKind := 0, okTmo := 120, dieLimit := 0, limit := 3, pwrPkgCtl := 900, mbxThread := 0, links := 0, pair := 0, root := false, pps := true }

/-- Ticks of a time in microseconds (02 R41). -/
def usTicks (n : Nat) : Nat := n * 4000

/-- The MC in stage 0x1 right after power-on (18 R396, R399, R404, R407). -/
def Mc.reset : Mc :=
  { stbyPg := true, hubPg := false, hubRise := 0, vinPg := false, resetN := false, stage := 1, resetting := true,
    tries := 0x78018, rvbar := 0, release := [],
    reasons := [(0, { BootEntry.empty with seq := 1, stage := 1 })], entry := 0, seq := 1, stageStart := 0,
    cfg := ConfigRec.reset, fatHold := false, imageB := false, restarting := false, okRun := 0, minSvn := 0,
    curSvn := 0, req := [], rsp := [], rspPend := false, inHand := none, restartReq := none, tod := none,
    telemetry := none, bmcOut := [], pmbAlert := false, pauseDone := false, ctlErr := false }

/-- The watchdog in its boot count of 64 s (14 R351). -/
def Watchdog.reset : Watchdog :=
  { start := false, period := 30000, fired := false, count := 0, deadline := some (BitVec.ofNat 64 (usTicks 64000000)),
    booting := true, paused := none }

/-- Nothing recorded; ERR_CE_NOTIFY at THRESH 16 (19 R420, R421). -/
def ErrGlobal.reset : ErrGlobal :=
  { summary := 0, errnUcc := false, notifyN := 0x1000000000, notifyS := 0x1000000000, countN := 0, countS := 0,
    first := [], latest := [] }

/-- The Frisket: LIFE fused OWNER and no owner key, DESIGN CHOICE (log 4; 21 R453). -/
def Frisket.reset : Frisket :=
  { life := .owner, session := 0, locked := false, fails := 0, lockUntil := 0, savedFails := 0, slots := [],
    challenges := [] }

/-- The package in P0 with no pin asserted (17). -/
def Power.reset : Power :=
  { pkg := .p0, prochot := false, thermtrip := false, sleepN := true, waiting := [], granted := [], recent := [], slotAt := 0, annAt := none
    vrAnnounce := 0, stb := false, hubOff := [], hubAsk := [], hubStretch := [], refusedOnce := [], p5Asked := false, p5Leave := false }

/-- The I/O MMU with nothing cached (16 R376). -/
def Iommu.reset : Iommu :=
  { tlb := [], streams := [], atsLost := [], atsWaits := [], tlbiWaits := [], prqBase := 0, prqHead := 0,
    prqTail := 0, prqSrc := 0, failures := [], responses := [] }

/-- A router entry at reset: INTID 0x020 (04 R124). -/
def routerReset : Word := 0x20

/-- The package right after a power-on reset, with VSTBY present and the other rails still off (18 R396, R399). -/
def State.reset : State :=
  { pending := [], free := 0, now := 0, part := 1, stepping := 1, pkgId := 0, pairPkg := false, pairSide := false, ctl := [],
    threads := [], cores := [], coreTile := [], tiles := [], dies := [], dir := [], txns := [], atoms := [],
    slices := [], mem := [], poisoned := [], net := [], outPorts := [], urgentAt := [], regFrac := [], regWaits := [], stamped := [], backoffs := [], nextTid := 0, chans := [], keys := [],
    almanac := [], rootPorts := [], links := [], insts := [], served := [], sources := [], srcPend := [], srcSent := [], gpios := [],
    gpioOut := 0, gpioOe := 0, iommu := Iommu.reset, quiesces := [], mc := Mc.reset, wd := Watchdog.reset,
    errs := ErrGlobal.reset, frisket := Frisket.reset, power := Power.reset, pair := { scanning := false },
    ppsLast := none, ppsRate := 0, ppsAcc := 0, rootSeen := false, syncAt := 0, coreResets := [], slew := 0, slewPhase := false }

/-- Why a run stops with a fault. -/
inductive Fault where
  /-- Raised by nothing: the spec gives every step of the part an effect (NOTES.md, Stops). Safe: no claim rests on it. -/
  | unreachable
deriving DecidableEq, Repr

/-- Why a command is refused. -/
inductive Refusal where
  /-- Raised by an arm of exec whose row has no meaning yet, by name. Safe: the run stops. -/
  | notModelled (mnemonic : String)
deriving DecidableEq, Repr

end Sys2Proof.Machine
end

