-- ==== Sys2Proof/Machine/Regs.lean ====
section
/-! DEFINITION. The control-space registers as their tables give them: fields, access codes, resets and Kept codes (00 R6 to R13, 01 R34 to R36). -/

namespace Sys2Proof.Machine

/-- Access codes (00 R6); a lockable field names its lock bit, in its own register. -/
inductive RAcc where
  | rw | ro | wo | w1c | w1s
  | rwl (lock : Nat)
deriving DecidableEq, Repr

/-- Kept codes (00 R13). -/
inductive Kept where
  | n | a | c | w | t
deriving DecidableEq, Repr

/-- Which values of a field are not reserved (00 R11). -/
inductive Legal where
  | any
  | range (lo hi : Nat)
  | rangeOr (v lo hi : Nat)
  | values (vs : List Nat)
deriving DecidableEq, Repr

/-- A field of a register: bits [hi:lo], access, reset value, Kept code and the values that are not reserved. -/
structure Field where
  hi : Nat
  lo : Nat
  acc : RAcc
  reset : Nat
  kept : Kept
  legal : Legal
deriving DecidableEq, Repr

/-- Which forme classes may write a register (20 R433). -/
inductive Rights where
  | vendor | owner | all | guard | none
deriving DecidableEq, Repr

/-- A register: its fields and the forme classes that write it. -/
structure RegDesc where
  fields : List Field
  rights : Rights
deriving DecidableEq, Repr

/-- A value is not a reserved encoding (00 R11). -/
def Legal.ok : Legal → Nat → Bool
  | .any, _ => true
  | .range lo hi, v => decide (lo ≤ v ∧ v ≤ hi)
  | .rangeOr x lo hi, v => decide (v = x ∨ (lo ≤ v ∧ v ≤ hi))
  | .values vs, v => vs.contains v

/-- What a write leaves in one field of a register (00 R6, R8, R9, R11). -/
def Field.written (f : Field) (old w : Word) : Nat :=
  let o := fieldOf old f.hi f.lo
  let n := fieldOf w f.hi f.lo
  match f.acc with
  | .rw => if f.legal.ok n then n else o
  | .ro => o
  | .wo => 0
  | .w1c => o - (o &&& n)
  | .w1s => o ||| n
  | .rwl l => if bit old l then o else if f.legal.ok n then n else o

/-- A write of a register through its fields; bits of no field read zero (00 R6 to R11). -/
def writeFields (fs : List Field) (old w : Word) : Word :=
  fs.foldl (fun r f => setField r f.hi f.lo (f.written old w)) 0

/-- The value a register takes at reset (00 R12). -/
def resetFields (fs : List Field) : Word :=
  fs.foldl (fun r f => setField r f.hi f.lo f.reset) 0

/-- A register after a reset that clears the fields of the Kept codes given (00 R13). -/
def clearFields (fs : List Field) (ks : List Kept) (old : Word) : Word :=
  fs.foldl (fun r f => setField r f.hi f.lo (if ks.contains f.kept then f.reset else fieldOf old f.hi f.lo)) 0

/-- A field of Kept code C. -/
def fld (hi lo : Nat) (acc : RAcc) (reset : Nat) (legal : Legal := .any) (kept : Kept := .c) : Field :=
  { hi := hi, lo := lo, acc := acc, reset := reset, kept := kept, legal := legal }

/-- A control-space address (01 R34). -/
def caddr (die unit reg : Nat) : Nat := die * 2 ^ 35 + unit * 2 ^ 26 + reg * 8

/-- The DIE, UNIT and REG of a control-space address (01 R34). -/
def caddrDie (a : Nat) : Nat := a / 2 ^ 35 % 32
/-- The UNIT field (01 R34). -/
def caddrUnit (a : Nat) : Nat := a / 2 ^ 26 % 512
/-- The REG field (01 R34). -/
def caddrReg (a : Nat) : Nat := a / 8 % 2 ^ 23

/-- Torus distance of two dies on the grid of R16 (09 R246). -/
def torusHops (a b : Nat) : Nat :=
  let d := fun (p q : Nat) => let x := (p + 4 - q) % 4; min x (4 - x)
  d (a % 4) (b % 4) + d (a / 4 % 4) (b / 4 % 4)

/-- HOME_MAP of a bucket (09 R230); a paired package admits PKG = 1. -/
def homeMapDesc (paired : Bool) (b : Nat) : RegDesc :=
  let pk : Legal := if paired then .any else .range 0 0
  let nx : Legal := if paired then .values ((List.range 2048).filter (fun v => decide (v % 64 < 36)))
    else .values ((List.range 1024).filter (fun v => decide (v % 64 < 36)))
  { fields := [fld 22 22 .rw 0, fld 21 11 .rw 0 nx, fld 10 10 .rw 0 pk, fld 9 6 .rw (b % 16),
      fld 5 0 .rw (b / 16 % 36) (.range 0 35)], rights := .owner }

/-- HOME_HOP of requester die d (09 R246). -/
def homeHopDesc (d : Nat) : RegDesc :=
  { fields := (List.range 16).map (fun j => fld (4 * j + 3) (4 * j) .rw (torusHops d j)), rights := .owner }

/-- TRN_TMO (11 R282). -/
def trnTmoDesc : RegDesc := { fields := [fld 12 8 .rw 10 (.range 3 17), fld 4 0 .rw 7 (.range 3 17)], rights := .owner }

/-- TRN_REG_n (11 R276). -/
def trnRegDesc : RegDesc :=
  { fields := [fld 63 63 .rw 0, fld 43 32 .ro 0, fld 27 16 .rw 64 (.range 1 4095), fld 11 0 .rw 2400 (.range 0 2400)], rights := .all }

/-- TRN_PORT (11 R285), by the state it reads after Proof. -/
def trnPortDesc (st : Nat) : RegDesc :=
  { fields := [fld 63 48 .rw 0 .any .w, fld 47 40 .ro 0 .any .w, fld 1 0 .ro st .any .w], rights := .all }

/-- PWR_SEC_i (14 R352) by the highest floor of the block. -/
def pwrSecDesc (tile : Bool) : RegDesc :=
  { fields := [fld 63 48 .rw 0, fld 15 15 .rw 0, fld 5 0 .rw 0 (if tile then .rangeOr 0 8 39 else .any)], rights := .all }

/-- PWR_REQ_i (17 R385), for a tile (with the part's clock), an uncore or a hub island. -/
def pwrReqDesc (kind clock : Nat) : RegDesc :=
  let st : Legal := if kind = 0 then .any else if kind = 1 then .range 0 1 else .values [0, 3]
  let fr : Legal := if kind = 0 then .range 8 39 else .range 0 0
  let sf : Legal := if kind = 0 then .rangeOr 0 8 39 else .range 0 0
  { fields := [fld 63 62 .ro (if kind = 0 then 3 else 0), fld 61 56 .ro 0, fld 55 54 .ro 0, fld 53 38 .rw 0,
      fld 31 31 .rw 0, fld 30 29 .rw 0 st, fld 28 23 .rw 0 sf, fld 14 13 .rw (if kind = 0 then 1 else 0) st,
      fld 12 7 .rw (if kind = 0 then clock else 0) fr], rights := .all }

/-- PWR_PKG_CTL (17 R394); TDP by part. -/
def pwrPkgDesc (part : Nat) : RegDesc :=
  { fields := [fld 63 63 .rw 1, fld 62 53 .rw 400 (.range 25 800), fld 52 46 .rw 40 (.range 20 100),
      fld 45 39 .rw 50 (.range 25 100), fld 38 29 .rw 560 (.range 100 560), fld 28 20 .rw 450 (.range 100 450),
      fld 19 10 .rw (if part = 3 then 850 else 900) (.range 600 1000), fld 9 9 .rw 1], rights := .owner }

/-- The words of a guard entry (12 R303); the locks act through the active copy, in the write. -/
def guardEntryDesc (w : Nat) : RegDesc :=
  { fields := if w % 2 = 0 then [fld 63 63 .rw 0, fld 62 62 .rw 0, fld 61 32 .rw 0, fld 29 0 .rw 0]
      else [fld 27 16 .rw 0, fld 15 15 .rw 0, fld 13 8 .rw 0, fld 3 3 .rw 0, fld 2 2 .rw 0, fld 1 1 .rw 0, fld 0 0 .rw 0],
    rights := .guard }

/-- GRD_CTL (12 R306). -/
def grdCtlDesc : RegDesc :=
  { fields := [fld 63 32 .ro 0, fld 3 3 .w1c 0, fld 2 2 (.rwl 2) 0, fld 1 0 (.rwl 2) 0 (.range 0 2)], rights := .guard }

/-- The route table entry of a package (13 R316). -/
def routeDesc (paired : Bool) : RegDesc :=
  let p : Legal := if paired then .range 0 5 else .any
  { fields := [fld 63 63 .rw 0, fld 62 60 .rw 0 p, fld 59 57 .rw 0 p, fld 56 54 .rw 0 p, fld 53 53 .rw 0, fld 52 52 .rw 0,
      fld 51 50 .ro 0, fld 49 46 .rw 0, fld 45 40 .rw 0], rights := .owner }

/-- The export table words (13 R320). -/
def exportDesc (w : Nat) : RegDesc :=
  { fields := if w % 2 = 0 then [fld 63 63 .rw 0, fld 55 28 .rw 0, fld 27 0 .rw 0]
      else [fld 61 32 .rw 0, fld 31 20 .rw 0, fld 19 8 .rw 0, fld 4 4 .rw 0, fld 3 3 .rw 0, fld 2 2 .rw 0, fld 1 1 .rw 0],
    rights := .owner }

/-- SYL_CTL (13 R315). -/
def sylCtlDesc : RegDesc :=
  { fields := [fld 63 63 .rw 0, fld 62 62 .rw 0, fld 61 61 .rw 0, fld 60 60 .rw 0, fld 59 56 .rw 8 (.range 1 15),
      fld 55 48 .rw 0xFF], rights := .owner }

/-- SYL_STAT (13 R315): the fields a write reaches. -/
def sylStatDesc : RegDesc :=
  { fields := [fld 63 61 .ro 0, fld 60 49 .ro 0, fld 48 48 .ro 0, fld 47 44 .ro 0, fld 43 40 .ro 0, fld 31 16 .rw 0, fld 15 0 .rw 0],
    rights := .owner }

/-- SYL_PAIR (13 R327). -/
def sylPairDesc : RegDesc :=
  { fields := [fld 63 62 .rw 0 (.range 0 2), fld 61 61 .w1c 0, fld 60 49 .ro 0, fld 48 42 .rw 32 (.range 0 64),
      fld 41 36 .rw 16 (.range 0 32)], rights := .owner }

/-- PCIE_CTL (16 R366) of a port. -/
def pcieCtlDesc (port : Nat) : RegDesc :=
  { fields := [fld 63 62 .rw 0 (.range 0 2), fld 61 61 (if port < 4 then .rw else .ro) 0, fld 60 60 .rw 0, fld 59 56 .w1c 0,
      fld 51 48 .rw 0, fld 47 32 .rw 100 (.range 1 65535), fld 21 0 .rw 10000 (.range 1 4000000)], rights := .owner }

/-- MEM_RAS_CTL (12). -/
def memRasDesc : RegDesc :=
  { fields := [fld 63 63 .rw 1, fld 55 48 .rw 24 (.range 1 168), fld 1 1 .rw 1, fld 0 0 .rw 1], rights := .all }

/-- MEM_RANK_STAT (12); the reserved writes of STATE act in the write. -/
def memRankDesc : RegDesc :=
  { fields := [fld 63 62 .rw 0, fld 61 58 .rw 0 (.range 0 9), fld 47 32 .rw 0, fld 31 0 .rw 0], rights := .all }

/-- A register with one plain field. -/
def plainDesc (hi lo reset : Nat) (rights : Rights) (legal : Legal := .any) : RegDesc :=
  { fields := [fld hi lo .rw reset legal], rights := rights }

/-- HOME_QSTAT (09 R249). DESIGN CHOICE (log 11): HIGH_WATER is 0 to 96, the values that the slice can have seen; a write of a value above leaves it as it is, as if
the spec called those reserved (00 R11). -/
def homeQstatDesc : RegDesc :=
  { fields := [fld 63 48 .rw 0 .any .w, fld 47 32 .rw 0 .any .w, fld 31 16 .rw 0 .any .w, fld 15 8 .rw 0 (.range 0 96) .w,
      fld 7 0 .ro 0 .any .w], rights := .all }

/-- EPH_CTL (19 R422). -/
def ephCtlDesc : RegDesc :=
  { fields := [fld 63 63 .rw 0, fld 62 62 .rw 0, fld 61 58 .rw 10, fld 57 50 .rw 0, fld 49 49 .rw 0, fld 48 32 .ro 0,
      fld 31 0 .rw 0], rights := .all }

/-- BOOT_TRIES (18 R404). -/
def bootTriesDesc : RegDesc :=
  { fields := [fld 29 28 .rw 0 (.range 0 2) .a, fld 27 12 .rw 120 (.range 10 65535) .a, fld 11 8 .rw 0 .any .a, fld 7 7 .ro 0 .any .a,
      fld 6 6 .ro 0 .any .a, fld 5 3 .rw 3 (.range 1 7) .a, fld 2 0 .ro 0 .any .a], rights := .owner }

/-- What a control-space address names, by the package's part and whether it is paired; none where R36 refuses. -/
def regDesc (part : Nat) (paired : Bool) (a : Nat) : Option RegDesc :=
  let die := caddrDie a
  let unit := caddrUnit a
  let reg := caddrReg a
  let clock := if part = 1 then 27 else if part = 2 then 29 else 32
  if a % 8 ≠ 0 then none
  else if die < 16 then
    if unit ≥ 0x40 ∧ unit < 0x64 then
      if reg = 0 then some homeQstatDesc else if reg = 8 then some (plainDesc 0 0 0 .owner) else none
    else if unit = 0xC0 then
      if reg = 0x10 then some trnTmoDesc
      else if reg = 0x20 then some (plainDesc 39 0 0 .owner)
      else if reg ≥ 0x100 ∧ reg < 0x124 then some (trnPortDesc 2) else none
    else if unit = 0xC8 then
      if reg < 0x2000 then some (homeMapDesc paired reg)
      else if reg < 0x2010 then some (homeHopDesc (reg - 0x2000)) else none
    else if unit = 0xD8 then
      if reg ≥ 0x300 ∧ reg < 0x324 then some (pwrReqDesc 0 clock)
      else if reg = 0x324 then some (pwrReqDesc 1 0)
      else if reg ≥ 0x400 ∧ reg < 0x424 then some (pwrSecDesc true)
      else if reg = 0x424 then some (pwrSecDesc false) else none
    else if unit = 0xE0 then
      if reg = 0 then some ephCtlDesc
      else if reg ≥ 0x100 ∧ reg < 0x1100 then some { fields := [fld 63 0 .ro 0], rights := .none } else none
    else none
  else if die = 16 then
    if unit < 0x18 then
      if reg = 0x100 then some memRasDesc
      else if reg ≥ 0x110 ∧ reg < 0x120 then some memRankDesc
      else if reg = 0x120 then some { fields := [fld 63 63 .ro 0, fld 62 62 .ro 0, fld 6 0 .ro 0], rights := .all } else none
    else if unit ≥ 0x40 ∧ unit < 0x58 then
      if reg < 0x200 then some (guardEntryDesc reg)
      else if reg = 0x200 then some grdCtlDesc
      else if reg = 0x201 then some (plainDesc 31 0 0 .guard)
      else if reg = 0x202 then some { fields := [fld 31 0 .wo 0], rights := .guard }
      else if reg ≥ 0x1000 ∧ reg < 0x1200 then some { fields := [fld 63 0 .wo 0], rights := .guard } else none
    else if unit ≥ 0x80 ∧ unit < 0x8A then
      if reg = 0 then some (pcieCtlDesc (unit - 0x80))
      else if reg ≥ 0x800 ∧ reg < 0x840 then some trnRegDesc else none
    else if unit ≥ 0xC0 ∧ unit < 0xC8 then
      if reg = 0 then some sylCtlDesc
      else if reg = 1 then some sylStatDesc
      else if reg = 0x10 ∧ unit = 0xC6 then some sylPairDesc
      else if reg ≥ 0x400 ∧ reg < 0x420 then some (exportDesc reg)
      else if reg ≥ 0x800 ∧ reg < 0x840 then some trnRegDesc
      else if reg ≥ 0x1000 ∧ reg < 0x2000 then some (routeDesc paired) else none
    else if unit ≥ 0xC8 ∧ unit < 0xCC then
      if reg ≥ 0x40 ∧ reg < 0x50 then some (plainDesc 11 0 0 .all)
      else if reg ≥ 0x100 ∧ reg < 0x140 then some { fields := [fld 63 63 .rw 0, fld 8 0 .rw 0], rights := .all }
      else if reg ≥ 0x800 ∧ reg < 0x840 then some trnRegDesc else none
    else if unit = 0xD1 then
      if reg = 0x10 then some trnTmoDesc
      else if reg ≥ 0x100 ∧ reg < 0x135 then some (trnPortDesc 0)
      else if reg ≥ 0x140 ∧ reg < 0x150 then some (trnPortDesc 0)
      else if reg = 0x200 then some (plainDesc 56 12 0 .owner)
      else if reg ≥ 0x300 ∧ reg < 0x340 then some (plainDesc 63 0 0 .all)
      else if reg ≥ 0x10000 ∧ reg < 0x20000 then some { fields := [fld 17 12 .rw 0, fld 11 0 .rw 0], rights := .all } else none
    else if unit = 0xD2 then
      if reg < 0x2000 then some (homeMapDesc paired reg) else none
    else if unit = 0xD8 then
      if reg = 0x10 then some (pwrPkgDesc part)
      else if reg ≥ 0x300 ∧ reg < 0x32F then some (pwrReqDesc 2 0)
      else if reg ≥ 0x400 ∧ reg < 0x42F then some (pwrSecDesc false) else none
    else if unit = 0xE0 then
      if reg = 0 then some ephCtlDesc
      else if reg ≥ 0x10 ∧ reg < 0x14 then some { fields := [fld 63 0 .ro 0], rights := .none }
      else if reg ≥ 0x100 ∧ reg < 0x1100 then some { fields := [fld 63 0 .ro 0], rights := .none } else none
    else if unit = 0x100 then
      if reg = 0 then some bootTriesDesc
      else if reg = 0x10 then some (plainDesc 56 12 0 .vendor)
      else if reg ≥ 0x40 ∧ reg < 0x50 then some { fields := [fld 63 0 .w1s 0 .any .w], rights := .all }
      else if reg ≥ 0x100 ∧ reg < 0x120 then some { fields := [fld 63 0 .ro 0 .any .a], rights := .all }
      else if reg = 0x200 then some (plainDesc 31 0 0 .owner)
      else if reg = 0x300 ∨ reg = 0x301 then some { fields := [fld 63 0 .ro 0 .any .a], rights := .all } else none
    else none
  else none

/-- The value of a register that nothing has written since its reset (00 R12). -/
def regReset (part : Nat) (paired : Bool) (a : Nat) : Word :=
  match regDesc part paired a with
  | some d => resetFields d.fields
  | none => 0

end Sys2Proof.Machine
end

