-- ==== Sys2Proof/Machine/Ops.lean ====
section
/-! DEFINITION. The named operations over the state: accessors, topology, control registers, memory and region guards, records and events, flits, counters and interrupts. -/

namespace Sys2Proof.Machine

/-! Accessors: one home per record. -/

/-- Thread t. -/
def State.thr (s : State) (t : Nat) : Thread := Tbl.get Thread.reset s.threads t
/-- Replace thread t. -/
def State.setThr (s : State) (t : Nat) (x : Thread) : State := { s with threads := Tbl.set Thread.reset s.threads t x }
/-- Change thread t. -/
def State.updThr (s : State) (t : Nat) (f : Thread → Thread) : State := s.setThr t (f (s.thr t))
/-- Logical core c. -/
def State.core (s : State) (c : Nat) : Core := Tbl.get Core.reset s.cores c
/-- Replace core c. -/
def State.setCore (s : State) (c : Nat) (x : Core) : State := { s with cores := Tbl.set Core.reset s.cores c x }
/-- Change core c. -/
def State.updCore (s : State) (c : Nat) (f : Core → Core) : State := s.setCore c (f (s.core c))
/-- Tile n = 36 · die + t. -/
def State.tile (s : State) (n : Nat) : Tile := Tbl.get Tile.reset s.tiles n
/-- Change tile n. -/
def State.updTile (s : State) (n : Nat) (f : Tile → Tile) : State :=
  { s with tiles := Tbl.set Tile.reset s.tiles n (f (s.tile n)) }
/-- Die d, 16 the hub die. -/
def State.die (s : State) (d : Nat) : Die := Tbl.get Die.reset s.dies d
/-- Change die d. -/
def State.updDie (s : State) (d : Nat) (f : Die → Die) : State :=
  { s with dies := Tbl.set Die.reset s.dies d (f (s.die d)) }
/-- Memory channel ch. -/
def State.chan (s : State) (ch : Nat) : Channel := Tbl.get Channel.reset s.chans ch
/-- Change channel ch. -/
def State.updChan (s : State) (ch : Nat) (f : Channel → Channel) : State :=
  { s with chans := Tbl.set Channel.reset s.chans ch (f (s.chan ch)) }
/-- Root port p. -/
def State.port (s : State) (p : Nat) : RootPort := Tbl.get RootPort.reset s.rootPorts p
/-- Change root port p. -/
def State.updPort (s : State) (p : Nat) (f : RootPort → RootPort) : State :=
  { s with rootPorts := Tbl.set RootPort.reset s.rootPorts p (f (s.port p)) }
/-- System-link port p. -/
def State.link (s : State) (p : Nat) : LinkPort := Tbl.get LinkPort.reset s.links p
/-- Change link port p. -/
def State.updLink (s : State) (p : Nat) (f : LinkPort → LinkPort) : State :=
  { s with links := Tbl.set LinkPort.reset s.links p (f (s.link p)) }
/-- Data Mover instance i. -/
def State.inst (s : State) (i : Nat) : Inst := Tbl.get Inst.reset s.insts i
/-- Change instance i. -/
def State.updInst (s : State) (i : Nat) (f : Inst → Inst) : State :=
  { s with insts := Tbl.set Inst.reset s.insts i (f (s.inst i)) }
/-- Home slice n = 36 · die + tile. -/
def State.slice (s : State) (n : Nat) : Slice := Tbl.get Slice.reset s.slices n
/-- Change home slice n. -/
def State.updSlice (s : State) (n : Nat) (f : Slice → Slice) : State :=
  { s with slices := Tbl.set Slice.reset s.slices n (f (s.slice n)) }
/-- Draw a free value below n (log 6). -/
def State.draw (s : State) (n : Nat) : Nat := Config.freeValue s.free % n
/-- The state after a draw. -/
def State.drawn (s : State) : State := { s with free := s.free + 1 }

/-! Registers of a thread (03 R56, R57). -/

/-- Read a general register; g0 reads zero (03 R57). -/
def Thread.readG (x : Thread) (r : RegNo) : Word := if r = 0 then 0 else Tbl.get 0 x.g r.val
/-- Write a general register; a write to g0 is discarded (03 R57). -/
def Thread.writeG (x : Thread) (r : RegNo) (v : Word) : Thread := if r = 0 then x else { x with g := Tbl.set 0 x.g r.val v }
/-- Read a floating-point register (03 R56). -/
def Thread.readF (x : Thread) (r : RegNo) : Word := Tbl.get 0 x.f r.val
/-- Write a floating-point register (03 R56). -/
def Thread.writeF (x : Thread) (r : RegNo) (v : Word) : Thread := { x with f := Tbl.set 0 x.f r.val v }

/-! Levels and worlds (04 R96, R97). -/

/-- The number of a level. -/
def Level.num : Level → Nat
  | .u => 0 | .s => 1 | .h => 2 | .m => 3
/-- The level of a number. -/
def Level.ofNum : Nat → Level
  | 0 => .u | 1 => .s | 2 => .h | _ => .m
/-- HYP (04 R105). -/
def Thread.hyp (x : Thread) : Bool := bit x.trapCtl 2
/-- The thread runs in the Secure world. -/
def Thread.secure (x : Thread) : Bool := x.world == 0xFFF
/-- The exception registers of a level. -/
def Thread.exc (x : Thread) : Level → ExcRegs
  | .s => x.excS | .h => x.excH | _ => x.excM
/-- Replace the exception registers of a level. -/
def Thread.setExc (x : Thread) (l : Level) (e : ExcRegs) : Thread :=
  match l with
  | .s => { x with excS := e }
  | .h => { x with excH := e }
  | _ => { x with excM := e }

/-! Topology (00 R2, R3; 01 R18, R19). -/

/-- CORES_PER_DIE of the part (00 R2). -/
def State.perDie (s : State) : Nat := if s.part = 1 then 32 else if s.part = 2 then 28 else 24
/-- A compute die whose cores are present: in service and not parked (18 R399, 20 R442). -/
def State.dieOn (s : State) (d : Nat) : Bool := (s.die d).inService && !(s.die d).parked
/-- A logical core that is present (00 R3). -/
def State.corePresent (s : State) (c : Nat) : Bool := decide (c < 512) && decide (c % 32 < s.perDie) && s.dieOn (c / 32)
/-- A thread that is present (00 R3). -/
def State.thrPresent (s : State) (t : Nat) : Bool := s.corePresent (t / 2)
/-- The tile number on its die that carries a core (01 R19). -/
def State.physTile (s : State) (c : Nat) : Nat := (Tbl.get none s.coreTile c).getD (c % 32)
/-- The tile, over the package, that carries a core. -/
def State.tileOf (s : State) (c : Nat) : Nat := c / 32 * 36 + s.physTile c
/-- The logical cores of a die that are present. -/
def State.dieCores (s : State) (d : Nat) : List Nat :=
  if s.dieOn d then (List.range s.perDie).map (fun i => 32 * d + i) else []
/-- The logical core that a tile carries. -/
def State.tileCore (s : State) (n : Nat) : Option Nat := (s.dieCores (n / 36)).find? (fun c => s.tileOf c == n)
/-- The package runs nothing: a FAT error or THERMTRIP_N holds it (17 R391; 18 R404). -/
def State.halted (s : State) : Bool := s.mc.fatHold || s.power.thermtrip
/-- Requests from outside wait: the package is not in P0, or a reset is in progress (17 R388, R389; 18 R401). -/
def State.outsideWaits (s : State) : Bool := s.power.pkg != .p0 || (s.mc.resetting && s.mc.stage != 9)
/-- The sibling thread of a thread. -/
def sibling (t : Nat) : Nat := if t % 2 = 0 then t + 1 else t - 1
/-- The threads of a tile. -/
def State.tileThreads (s : State) (n : Nat) : List Nat :=
  match s.tileCore n with
  | some c => [2 * c, 2 * c + 1]
  | none => []
/-- The stamp that a die's copy of Meridian shows (02 R43). -/
def State.stamp (s : State) (d : Nat) : Word := s.now + BitVec.ofInt 64 (s.die d).time.ahead
/-- The stamp that the agent of a die with a node ID takes: its die's copy, or one tick past the latest packet that reached it, whichever is later, so that
no two of its stamps in succession fall (02 R43, R47). -/
def State.stampAt (s : State) (d : Nat) (n : BitVec 12) : Word :=
  let own := s.stamp d
  let floor := Tbl.get 0 s.stamped n.toNat
  if own.toNat < floor.toNat then floor else own
/-- A packet with a stamp reaches the agent of a die: what that agent stamps from now on lies at least one tick later (02 R47). -/
def State.raise (s : State) (d : Nat) (n : BitVec 12) (stamp : Word) : State :=
  if (s.stampAt d n).toNat < stamp.toNat + 1 then { s with stamped := Tbl.set 0 s.stamped n.toNat (stamp + 1) } else s
/-- The Transit cycle, of 2.4 GHz, in which the master stands (11 R262). -/
def State.cycle (s : State) : Nat := s.now.toNat * 3 / 5
/-- The die of a thread. -/
def dieOfThr (t : Nat) : Nat := t / 64

/-! Control space (01 R34, R35). -/

/-- The address of SYL_PAIR (13 R327). -/
def pairAddr : Nat := caddr 16 0xC6 0x10
/-- SYL_PAIR as stored. -/
def State.sylPair (s : State) : Word := (Tbl.get none s.ctl pairAddr).getD (resetFields sylPairDesc.fields)
/-- SYL_PAIR.MODE. -/
def State.pairMode (s : State) : Nat := fieldOf s.sylPair 63 62
/-- The package is one of a pair. -/
def State.paired (s : State) : Bool := s.pairMode != 0
/-- The attempt that the MC runs is a minimal one (18 R405). -/
def State.minimalRun (s : State) : Bool := (Tbl.get BootEntry.empty s.mc.reasons s.mc.entry).min
/-- SYL_PAIR.LOST. -/
def State.pairLost (s : State) : Bool := bit s.sylPair 61
/-- What an address names in this package. -/
def State.reg (s : State) (a : Nat) : Option RegDesc := regDesc s.part.toNat s.paired a
/-- A control-space register as stored. -/
def State.ctlGet (s : State) (a : Nat) : Word := (Tbl.get none s.ctl a).getD (regReset s.part.toNat s.paired a)
/-- Store a control-space register. -/
def State.ctlPut (s : State) (a : Nat) (w : Word) : State := { s with ctl := Tbl.set none s.ctl a (some w) }
/-- Replace one field of a control-space register, saturating counters apart. -/
def State.ctlField (s : State) (a hi lo v : Nat) : State := s.ctlPut a (setField (s.ctlGet a) hi lo v)
/-- Add to a saturating field of a control-space register. -/
def State.ctlCount (s : State) (a hi lo : Nat) : State :=
  let v := fieldOf (s.ctlGet a) hi lo
  s.ctlField a hi lo (min (v + 1) (2 ^ (hi + 1 - lo) - 1))
/-- 2^PKG_EXP µs of a die in ticks (11 R280, R282). -/
def State.pkgLimit (s : State) (d : Nat) : Nat :=
  usTicks (2 ^ fieldOf (s.ctlGet (caddr d (if d = 16 then 0xD1 else 0xC0) 0x10)) 4 0)
/-- 2^GW_EXP µs of a die in ticks (11 R280, R282). -/
def State.gwLimit (s : State) (d : Nat) : Nat :=
  usTicks (2 ^ fieldOf (s.ctlGet (caddr d (if d = 16 then 0xD1 else 0xC0) 0x10)) 12 8)
/-- PCIE_CTL of a port (16 R366). -/
def State.pcieCtl (s : State) (p : Nat) : Word := s.ctlGet (caddr 16 (0x80 + p) 0)

/-! Worlds of Data Mover channels and instances (14 R340; 15 R354, R356). -/

/-- The world of a channel of an engine. -/
def State.chanWorld (s : State) (e ch : Nat) : Tag := BitVec.ofNat 12 (fieldOf (s.ctlGet (caddr 16 (0xC8 + e) (0x40 + ch))) 11 0)
/-- The world that an instance's accesses carry. -/
def State.instWorld (s : State) (i : Nat) : Tag := s.chanWorld (s.inst i).engine ((s.inst i).slot / 4)
/-- An instance is bound to a slot of a Secure channel. -/
def State.instSecure (s : State) (i : Nat) : Bool := (s.inst i).st != .unbound && s.instWorld i == 0xFFF

/-! Ports of domains (11 R283 to R285). -/

/-- The TRN_PORT register of a tile. -/
def tilePort (n : Nat) : Nat := caddr (n / 36) 0xC0 (0x100 + n % 36)
/-- The TRN_PORT register of a port. -/
def portAddr : PortId → Nat
  | .tile n => tilePort n.val
  | .hub x => caddr 16 0xD1 (0x100 + x.val)
  | .homeShare d => caddr 16 0xD1 (0x140 + d.val)
/-- The state of the port at a TRN_PORT register. -/
def State.portSt (s : State) (a : Nat) : Nat := fieldOf (s.ctlGet a) 1 0
/-- Put a port into a state. -/
def State.setPortSt (s : State) (a v : Nat) : State := s.ctlField a 1 0 v

/-! The physical address map (01 R28, R29). -/

/-- What decodes a physical address (01 R28). -/
inductive Region where
  | dram (off : Nat)
  | partner (off : Nat)
  | partnerIo (off : Nat)
  | cxl (off : Nat)
  | pcie (off : Nat)
  | pkg (off : Nat)
  | window (target : Nat) (off : Nat)
  | unbacked
deriving DecidableEq, Repr

/-- The package's number within a pair; 0 on an unpaired package (01 R21). -/
def State.pkgBit (s : State) : Nat := if s.paired && s.pairPkg then 1 else 0

/-- An offset of the CXL range, or of the MMIO range, is this package's share of its pair (13 R327): a split in TiB. -/
def State.ownShare (s : State) (hi lo off : Nat) : Bool := !s.paired || (decide (off < fieldOf s.sylPair hi lo * 2 ^ 40) == (s.pkgBit == 0))
/-- The region of a physical address (01 R28; 13 R327); a lost partner's range is unbacked, or its promoted mirror half (13 R333, R334). -/
def State.region (s : State) (pa : Nat) : Region :=
  if pa ≥ 2 ^ 56 then .window (pa / 2 ^ 44 % 4096) (pa % 2 ^ 44)
  else if pa < 2 ^ 45 then
    let side := pa / 2 ^ 44
    if side = s.pkgBit then .dram (pa % 2 ^ 44)
    else if !s.paired then .unbacked
    else if !s.pairLost then .partner (pa % 2 ^ 44)
    else if s.pairMode = 2 then .dram (pa % 2 ^ 44) else .unbacked
  else if pa < 2 ^ 46 then
    if s.ownShare 41 36 (pa - 2 ^ 45) then .cxl (pa - 2 ^ 45) else if s.pairLost then .unbacked else .partner (pa - 2 ^ 45)
  else if pa < 2 ^ 47 then
    if s.ownShare 48 42 (pa - 2 ^ 46) then .pcie (pa - 2 ^ 46) else if s.pairLost then .unbacked else .partnerIo (pa - 2 ^ 46)
  else if pa < 2 ^ 47 + 2 ^ 32 then .pkg (pa - 2 ^ 47)
  else .unbacked

/-- The channels that trained and were not excluded (12 R287, R299), ascending. -/
def State.trained (s : State) : List Nat := (List.range 24).filter (fun c => (s.chan c).trained && !(s.chan c).fillErr)
/-- C of R287: the smallest trained capacity. -/
def State.chanCap (s : State) : Nat := (s.trained.map (fun c => (s.chan c).capacity)).foldl min (2 ^ 44)
/-- The channel and the address within it of an offset of the package's own DRAM (12 R287). -/
def State.place (s : State) (off : Nat) : Nat × Nat :=
  let n := s.trained.length
  if n = 0 then (0, off) else (s.trained.getD (off / 256 % n) 0, off / 256 / n * 256 + off % 256)
/-- An offset is backed by trained DRAM (01 R29); in a MIRRORED pair half of it is (13 R329). -/
def State.dramBacked (s : State) (off : Nat) : Bool := decide (off < s.trained.length * s.chanCap / (if s.pairMode = 2 then 2 else 1))

/-- The port and its window that hold an offset of the CXL range: four equal windows of the package's share (16 R371). -/
def State.cxlWindow (s : State) (off : Nat) : Nat × Nat × Nat :=
  let sp := fieldOf s.sylPair 41 36 * 2 ^ 40
  let base := if s.paired && s.pkgBit == 1 then sp else 0
  let size := (if !s.paired then 2 ^ 45 else if s.pkgBit = 1 then 2 ^ 45 - sp else sp) / 4
  if size = 0 then (0, base, 1) else (min 3 ((off - base) / size), base + (off - base) / size * size, size)
/-- The sub-ports that a bifurcation creates (16 R366). -/
def subCount (bifur : Nat) : Nat := if bifur = 0 then 1 else if bifur = 1 then 2 else 4
/-- The CXL device that holds an offset of the CXL range: a port's window falls in equal parts to the sub-ports its bifurcation creates, and
only one that trained as CXL decodes its part (16 R371; log 7). -/
def State.cxlSub (s : State) (off : Nat) : Option (Nat × Nat) :=
  let w := s.cxlWindow off
  let r := s.port w.1
  let k := min (subCount r.bifur - 1) ((off - w.2.1) / (w.2.2 / subCount r.bifur))
  if (Tbl.get SubPort.reset r.subs k).cxl then some (w.1, k) else none
/-- The window of a sub-port's bridge, by its prefetchable base and limit registers as PCIe lays them out (16 R368; log 17). -/
def bridgeWindow (w : BitVec 96) : Nat × Nat :=
  (fieldOf w 63 32 * 2 ^ 32 + fieldOf w 15 4 * 2 ^ 20, fieldOf w 95 64 * 2 ^ 32 + fieldOf w 31 20 * 2 ^ 20 + 2 ^ 20)
/-- The port and sub-port that a bridge window assigns an address of the PCIe and CXL MMIO range to (16 R368). -/
def State.mmioClaim (s : State) (pa : Nat) : Option (Nat × Nat) :=
  s.rootPorts.findSome? (fun q => q.2.windows.findSome? (fun v =>
    let w := bridgeWindow v.2
    if decide (v.1 < subCount q.2.bifur ∧ w.1 ≤ pa ∧ pa < w.2) then some (q.1, v.1) else none))

/-! Memory as bytes (12 R288; canonical form in Laws). -/

/-- What an unlisted byte of memory reads as: the zero of fill (12 R299). -/
def memDefault : Byte := 0
/-- One byte of memory as stored. -/
def State.memByte (s : State) (a : Nat) : Byte := Tbl.get memDefault s.mem a
/-- Store one byte of memory. -/
def State.setByte (s : State) (a : Nat) (b : Byte) : State := { s with mem := Tbl.set memDefault s.mem a b }
/-- Memory in its canonical form. -/
def memWf (m : List Host.Cell) : Bool := Tbl.wf memDefault m
/-- Every line of the DRAM range holds zero, with no poison marker (12 R299). -/
def State.zeroDram (s : State) : State :=
  { s with mem := s.mem.filter (fun c => decide (2 ^ 45 ≤ c.1)), poisoned := s.poisoned.filter (fun l => decide (2 ^ 39 ≤ l)) }
/-- Store a list of bytes at rising addresses. -/
def memPutBytes (m : List Host.Cell) (a : Nat) : List Byte → List Host.Cell
  | [] => m
  | b :: r => memPutBytes (Tbl.set memDefault m a b) (a + 1) r
/-- Read bytes at rising addresses. -/
def memGetBytes (m : List Host.Cell) (a : Nat) : Nat → List Byte
  | 0 => []
  | n + 1 => Tbl.get memDefault m a :: memGetBytes m (a + 1) n
/-- Byte i of a line's data. -/
def lineByte (d : LineData) (i : Nat) : Byte := BitVec.ofNat 8 (d.toNat / 2 ^ (8 * i))
/-- The bytes of a line. -/
def lineBytes (d : LineData) : List Byte := Crypto.leBytes 64 d.toNat
/-- A line from its bytes. -/
def lineOf (b : List Byte) : LineData := BitVec.ofNat 512 (Crypto.leNat b)
/-- The value of the bytes [off, off + size) of a line. -/
def lineVal (d : LineData) (off size : Nat) : Word := BitVec.ofNat 64 (d.toNat / 2 ^ (8 * off) % 2 ^ (8 * size))
/-- The byte mask of [off, off + size). -/
def byteMask (off size : Nat) : BitVec 64 := BitVec.ofNat 64 ((2 ^ size - 1) * 2 ^ off)
/-- The odd parity bit of a byte: byte and bit together hold an odd number of ones (11 R263). -/
def oddParity (b : Nat) : Bool := ((List.range 8).filter (fun i => b.testBit i)).length % 2 == 0
/-- The parity bits of a line's 64 bytes (08 R213), odd as everywhere else in the package (11 R263, 12 R288). -/
def lineParity (d : LineData) : BitVec 64 :=
  BitVec.ofNat 64 ((List.range 64).foldl (fun a j => a + b2n (oddParity (d.toNat / 2 ^ (8 * j) % 256)) * 2 ^ j) 0)
/-- The bits of a line that a byte mask selects. -/
def maskBits (m : BitVec 64) : LineData :=
  BitVec.ofNat 512 (Crypto.leNat ((List.range 64).map (fun i => if m.getLsbD i then (0xFF : Byte) else 0)))
/-- Merge the bytes a mask selects into a line (11 R267). -/
def mergeLine (old new : LineData) (m : BitVec 64) : LineData :=
  (old &&& ~~~ maskBits m) ||| (new &&& maskBits m)
/-- The first byte that a mask names. -/
def maskOff (m : BitVec 64) : Nat := if m = 0 then 0 else (List.range 64).findIdx (fun i => m.getLsbD i)
/-- A value placed at an offset of a line. -/
def placeVal (v : Word) (off : Nat) : LineData := BitVec.ofNat 512 (v.toNat * 2 ^ (8 * off))

/-! Region guards (12 R303 to R306, 14 R335). -/

/-- A guard entry's meaning (12 R303). -/
structure GuardEntry where
  num : Nat
  base : Nat
  limit : Nat
  owner : Tag
  enc : Bool
  key : Nat
  sw : Bool
  sr : Bool
  nw : Bool
  nr : Bool
deriving DecidableEq, Repr

/-- An active entry of a guard, if VALID (12 R303). -/
def State.guardEntry (s : State) (ch n : Nat) : Option GuardEntry :=
  let u := 0x40 + ch
  let a := (Tbl.get none s.ctl (caddr 16 u (2 * n))).getD 0
  let b := (Tbl.get none s.ctl (caddr 16 u (2 * n + 1))).getD 0
  if bit a 63 then
    some { num := n, base := fieldOf a 29 0, limit := fieldOf a 61 32, owner := BitVec.ofNat 12 (fieldOf b 27 16), enc := bit b 15,
           key := fieldOf b 13 8, sw := bit b 3, sr := bit b 2, nw := bit b 1, nr := bit b 0 }
  else none

/-- The entry that decides an address: the lowest-numbered active VALID one that covers it (12 R304). -/
def State.guardFor (s : State) (ch pa : Nat) : Option GuardEntry :=
  if s.ctl.isEmpty then none
  else (List.range 128).findSome? (fun n =>
    match s.guardEntry ch n with
    | some e => if e.base ≤ pa / 65536 % 2 ^ 30 ∧ pa / 65536 % 2 ^ 30 ≤ e.limit then some e else none
    | none => none)

/-- GRD_CTL.DFLT of a guard (12 R306). -/
def State.guardDflt (s : State) (ch : Nat) : Nat := fieldOf ((Tbl.get none s.ctl (caddr 16 (0x40 + ch) 0x200)).getD 0) 1 0

/-- The channel of an address of own DRAM. -/
def State.chanOf (s : State) (pa : Nat) : Nat := (s.place (pa % 2 ^ 44)).1

/-- The guard's answer to an access of a tag that needs read or write permission (12 R304). -/
def State.guardOk (s : State) (pa : Nat) (tag : Tag) (rd wr : Bool) : Bool :=
  match s.region pa with
  | .dram _ =>
    let ch := s.chanOf pa
    match s.guardFor ch pa with
    | some e =>
      if tag = 0xFFF then (!rd || e.sr) && (!wr || e.sw)
      else tag = e.owner && (!rd || e.nr) && (!wr || e.nw)
    | none =>
      match s.guardDflt ch with
      | 0 => tag == 0xFFF
      | 1 => tag == 0xFFF || tag == 0
      | _ => false
  | _ => true

/-- The tag a line takes when an access of a tag reads it from memory (14 R335). -/
def State.lineTag (s : State) (pa : Nat) (tag : Tag) : Tag :=
  if tag ≠ 0xFFF then tag
  else match s.region pa with
    | .dram _ =>
      let ch := s.chanOf pa
      match s.guardFor ch pa with
      | some e => e.owner
      | none => if s.guardDflt ch = 1 then 0 else 0xFFF
    | _ => 0xFFF

/-- A key of a slot of a guard: four words, least significant first (12 R306). -/
def State.guardKey (s : State) (ch slot half : Nat) : List Byte :=
  (List.range 4).flatMap (fun w => Crypto.leBytes 8 (Tbl.get 0 s.keys (ch * 512 + slot * 8 + half * 4 + w)).toNat)

/-- Encrypt or decrypt a line where its deciding entry has ENC = 1 (12 R306). -/
def State.guardCrypt (s : State) (enc : Bool) (line : Nat) (d : LineData) : LineData :=
  match s.region (line * 64) with
  | .dram _ =>
    let ch := s.chanOf (line * 64)
    match s.guardFor ch (line * 64) with
    | some e =>
      if e.enc then
        lineOf (Crypto.xtsLine enc (s.guardKey ch e.key 0) (s.guardKey ch e.key 1) (line % 2 ^ 40) (lineBytes d))
      else d
    | none => d
  | _ => d

/-- The line as stored. -/
def State.memRaw (s : State) (line : Nat) : LineData := lineOf (memGetBytes s.mem (line * 64) 64)
/-- The line as the guard delivers it. -/
def State.memLine (s : State) (line : Nat) : LineData := s.guardCrypt false line (s.memRaw line)
/-- Write a line as stored, with or without the poison marker (12 R296, R297). -/
def State.putRaw (s : State) (line : Nat) (raw : LineData) (poison : Bool) : State :=
  { s with mem := memPutBytes s.mem (line * 64) (lineBytes raw),
           poisoned := if poison then (if s.poisoned.contains line then s.poisoned else line :: s.poisoned)
             else s.poisoned.filter (· ≠ line) }
/-- Write a whole line through the guard (12 R296, R297, R306). -/
def State.putLine (s : State) (line : Nat) (d : LineData) (poison : Bool) : State := s.putRaw line (s.guardCrypt true line d) poison
/-- The line holds the poison marker (12 R296). -/
def State.memPoison (s : State) (line : Nat) : Bool := s.poisoned.contains line

/-! Node IDs (01 R24). -/

/-- The node ID of an agent (01 R24). DESIGN CHOICE (log 12): the table gives no stop to the I/O MMU, which takes the hub interrupt router's 46, nor to the
agent that serves the global window on the hub die, which takes system-link port 0's 34; an MMIO block of the hub die answers at the error window's 51. -/
def State.node (s : State) (a : Agent) : BitVec 12 :=
  let at_ := fun (d x : Nat) => BitVec.ofNat 12 (s.pkgBit * 2048 + d * 64 + x)
  match a with
  | .core c => at_ (c.val / 32) (s.physTile c.val)
  | .filter d => at_ d 49
  | .home d t => at_ d t
  | .mem ch => at_ 16 ch
  | .port p => at_ 16 (24 + p)
  | .link p => at_ 16 (34 + p)
  | .mover e => at_ 16 (42 + e)
  | .router => at_ 16 46
  | .meridian => at_ 16 47
  | .die d => at_ d 51
  | .forme d => at_ d (if d = 16 then 49 else 48)
  | .mc => at_ 16 48
  | .power d => at_ d 52
  | .mmio => at_ 16 51
  | .iommu => at_ 16 46
  | .gwHub => at_ 16 34
  | .node n => n

/-- The die of an agent, 16 for the hub die. -/
def Agent.dieNum : Agent → Nat
  | .core c => c.val / 32
  | .filter d => d
  | .home d _ => d
  | .die d => d
  | .forme d => d
  | .power d => d
  | _ => 16

/-- Thread numbers as Thr. -/
def thrOf (t : Nat) : Thr := ⟨t % 1024, Nat.mod_lt _ (by decide)⟩
/-- Core numbers as CoreId. -/
def coreId (c : Nat) : CoreId := ⟨c % 512, Nat.mod_lt _ (by decide)⟩

/-- The stamp that the tile of a thread takes (02 R43, R47). -/
def State.tileStamp (s : State) (t : Nat) : Word := s.stampAt (dieOfThr t) (s.node (.core (coreId (t / 2))))

/-! Flits (11 R264). -/

/-- A flit with every field zero. -/
def Flit.blank (op : Op) (src dst : Agent) : Flit :=
  { op := op, was := op, src := src, dst := dst, req := src, thr := none, tid := 0, line := 0, world := 0, size := 64, mask := 0,
    data := 0, poison := false, cls := 1, acc := .coherent, dirty := false, noCopy := false, wbPending := false, comp := false,
    superseded := false, keep := false, clean := false, discard := false, moved := false, promoted := false,
    hint := 0, ackCnt := 0, rcnt := 0, fwd := false, grant := false, far := 0, pf := false, fromM := false, err := none, refusal := none, func := .read,
    dword := false, opA := 0, opB := 0, msg := none, tlbi := none, containRec := none, containThr := none, hop := 0, inPort := none, dateline := false, inside := false, regu := none, gate := none,
    fails := 0, came := 0, stamp := 0 }

/-! The port that a flit passes at its destination (11 R283). -/

/-- The bound instance whose pages hold an address of package MMIO (01 R30, 15 R356). -/
def State.pageInst (s : State) (pa : Nat) : Option Inst :=
  let off := pa - 2 ^ 47
  if 2 ^ 47 + 0x02000000 ≤ pa ∧ pa < 2 ^ 47 + 0x04000000 then
    let x := s.inst ((off - 0x02000000) / 0x10000)
    if x.st = .unbound then none else some x
  else none
/-- The port of the domain to which a flit goes: a core's tile, the home share of its die, or a block at the crossbar; the pages of a Data Mover
instance lie behind its engine's (11 R283, R284). -/
def State.portOf (s : State) (f : Flit) : Option Nat :=
  match f.dst with
  | .core c => some (tilePort (s.tileOf c.val))
  | .home d _ => some (caddr 16 0xD1 (0x140 + d))
  | .filter d => some (caddr 16 0xD1 (0x140 + d))
  | .die d | .forme d | .power d => if d < 16 then some (caddr 16 0xD1 (0x140 + d)) else none
  | .mem ch => some (caddr 16 0xD1 (0x100 + ch))
  | .port p => some (caddr 16 0xD1 (0x100 + 24 + p))
  | .link p => some (caddr 16 0xD1 (0x100 + 34 + p))
  | .mover e => some (caddr 16 0xD1 (0x100 + 42 + e))
  | .mmio => (s.pageInst (f.line * 64)).map (fun x => caddr 16 0xD1 (0x100 + 42 + x.engine))
  | _ => none
/-- The node at which a flit leaves the package's Transit: its destination, or system-link port 6 where that lies in the partner (01 R24, 13 R327). -/
def State.goal (s : State) (f : Flit) : BitVec 12 :=
  let n := s.node f.dst
  if fieldOf n 11 11 = s.pkgBit then n else s.node (.link 6)
/-- A flit at a node has passed the port of its destination's domain, which is OPEN (11 R283). -/
def State.accepts (s : State) (f : Flit) (n : BitVec 12) : Bool :=
  n == s.goal f && (match s.portOf f with | some a => s.portSt a == 0 | none => false)

/-- Inject a flit: it stands at its source's node, with the stamp of injection (11 R264, 02 R50). -/
def State.send (s : State) (f : Flit) : State :=
  let n := s.node f.src
  { s with net := s.net ++ [{ f with hop := n, inPort := none, dateline := false, inside := s.accepts f n, came := s.cycle, stamp := s.stampAt f.src.dieNum n }] }
/-- Relay a flit from another agent, keeping the stamp of its injection (10 R253). -/
def State.relay (s : State) (f : Flit) : State :=
  let n := s.node f.src
  { s with net := s.net ++ [{ f with hop := n, inPort := none, dateline := false, inside := s.accepts f n, came := s.cycle }] }
/-- Inject several flits in order. -/
def State.sendAll (s : State) (fs : List Flit) : State := fs.foldl State.send s
/-- A fresh transaction ID (11 R264). -/
def State.freshTid (s : State) : State := { s with nextTid := s.nextTid + 1 }

/-- The virtual channels in the order of 11 R273's list reversed: 0 prefetch, 1 request, 2 write-back, 3 device, 4 snoop/response, 5 urgent (11 R265). -/
def channelOf (c : BitVec 4) : Nat := if c.toNat < 5 then c.toNat else 5
/-- CLS names a virtual channel (11 R265). -/
def clsValid (c : BitVec 4) : Bool := decide (c.toNat ≤ 4) || decide (8 ≤ c.toNat ∧ c.toNat ≤ 0xB)
/-- A destination that a router delivers to (01 R24, R25). -/
def State.nodeValid (s : State) (n : BitVec 12) : Bool :=
  let d := fieldOf n 10 6
  let st := fieldOf n 5 0
  decide (d ≤ 16) && decide (st ≤ 52) && !(d < 16 && st == 47) && (s.paired || !bit n 11)
/-- A flit that a router drops: a reserved opcode, class or destination (11 R268, 01 R25). -/
def State.dropped (s : State) (f : Flit) : Bool :=
  (match f.op with | .reserved _ => true | _ => false) || !clsValid f.cls || !s.nodeValid (s.node f.dst)
/-- A flit is held at its injector: by its regulator (11 R275), or because its die lies under a ROUTER quiesce that came before it (20 R437). -/
def State.heldBack (s : State) (f : Flit) : Bool :=
  f.gate.isSome || (f.inPort.isNone && s.quiesces.any (fun q => q.scope == 4 && q.target.testBit f.src.dieNum && decide (q.stamp.toNat ≤ f.stamp.toNat)))
/-- A flit that stands at its destination leaves the net in order of its source stop, destination stop and virtual channel (11 R272). -/
def State.firstOfFlow (s : State) (k : Nat) (f : Flit) : Bool :=
  f.hop == s.goal f && !s.heldBack f && !s.dropped f &&
    (s.net.take k).all (fun g => g.gate.isSome || !(s.node g.src == s.node f.src && s.goal g == s.goal f && channelOf g.cls == channelOf f.cls))
/-- The flit at a place of the net, if it is the next of its flow and has the opcode. -/
def State.arrival (s : State) (k : Nat) (op : Op) : Option Flit :=
  match s.net[k]? with
  | some f => if f.op = op && s.firstOfFlow k f then some f else none
  | none => none
/-- The net without the flit at a place, which has reached its agent (02 R47). -/
def State.taken (s : State) (k : Nat) : State :=
  let u := { s with net := listDrop s.net k }
  match s.net[k]? with
  | some f => u.raise f.dst.dieNum (s.node f.dst) f.stamp
  | none => u

/-! Mirroring (13 R329, R330). -/

/-- The package mirrors its writes: a MIRRORED pair whose partner is not lost. -/
def State.mirrored (s : State) : Bool := s.pairMode == 2 && !s.pairLost
/-- A controller sends a line it has written to the partner's controller, and waits for the acknowledgement (13 R330). -/
def State.mirrorWrite (s : State) (line : Nat) (d : LineData) (poison : Bool) : State :=
  match s.mirrored, s.region (line * 64) with
  | true, .dram _ =>
    let s := s.freshTid
    let ch := s.chanOf (line * 64)
    (s.send { Flit.blank .wrNc (.mem ch) (.link 6) with
      cls := 1, tid := s.nextTid, line := line, world := s.lineTag (line * 64) 0xFFF, mask := byteMask 0 64, data := d, poison := poison
      acc := .dma }).updChan ch (fun c => { c with mirrors := c.mirrors ++ [{ tid := s.nextTid, line := line, answer := none, stamp := s.stamp 16 }] })
  | _, _ => s
/-- An answer that waits for the mirror write this step has sent, or is sent at once where there is none. -/
def State.afterMirror (s : State) (line : Nat) (f : Flit) : State :=
  let ch := s.chanOf (line * 64)
  match (s.chan ch).mirrors.getLast? with
  | some m =>
    if s.mirrored && m.tid == s.nextTid && m.answer.isNone then s.updChan ch (fun c => { c with mirrors := c.mirrors.dropLast ++ [{ m with answer := some f }] })
    else s.send f
  | none => s.send f

/-! Local interrupt units (04 R116 to R121). -/

/-- INTID n of thread t. -/
def Thread.int (x : Thread) (n : Nat) : IntId := Tbl.get IntId.reset x.ints n
/-- Change INTID n. -/
def Thread.updInt (x : Thread) (n : Nat) (f : IntId → IntId) : Thread :=
  { x with ints := Tbl.set IntId.reset x.ints n (f (x.int n)) }
/-- INTIDs that can ever be pending: not 20 to 31 nor 1023 (04 R116). -/
def intidValid (n : Nat) : Bool := decide (n < 20) || decide (32 ≤ n ∧ n < 1023)
/-- Make an INTID pending; one already pending keeps its stamp (04 R118). -/
def Thread.pend (x : Thread) (n : Nat) (stamp : Word) : Thread :=
  if intidValid n then
    x.updInt n (fun i => if i.pending then i else { i with pending := true, stamp := stamp })
  else x
/-- The view of a level and world: true for the Secure view (04 R102). -/
def Thread.secView (x : Thread) : Bool := x.world == 0xFFF
/-- A view of the unit. -/
def Thread.view (x : Thread) (sec : Bool) : IntView := if sec then x.intS else x.intN
/-- Change a view of the unit. -/
def Thread.updView (x : Thread) (sec : Bool) (f : IntView → IntView) : Thread :=
  if sec then { x with intS := f x.intS } else { x with intN := f x.intN }
/-- INT_RPR of a view: the lowest priority value among its active INTIDs (04 R118). -/
def Thread.rpr (x : Thread) (sec : Bool) : Nat :=
  x.ints.foldl (fun a p => if p.2.active && p.2.world == sec then min a p.2.prio.toNat else a) 0xFF

/-! Performance counters (19 R424 to R426). -/

/-- The counters of a thread count at all: not inside an enclave whose descriptor has DEBUG = 0 (19 R425). -/
def Thread.pmcAwake (x : Thread) : Bool :=
  match x.encl with
  | some e => e.debug
  | none => true

/-- Counter n admits an event of the code at the thread's level and world (19 R425). -/
def Thread.pmcAdmits (x : Thread) (n code : Nat) : Bool :=
  let sel := Tbl.get 0 x.pmcSel n
  bit sel 63 && fieldOf sel 15 0 == code && bit sel (58 + x.level.num) && x.pmcAwake &&
    (if x.secure then bit sel 57 else bit sel 56)

/-- Add one to programmable counter n; a wrap sets OVF and, with OVF_INT, makes INTID 17 pending (19 R425). -/
def Thread.pmcBump (x : Thread) (stamp : Word) (n : Nat) : Thread :=
  let v := (Tbl.get 0 x.pmc n).toNat
  if v = 2 ^ 48 - 1 then
    let y := { x with pmc := Tbl.set 0 x.pmc n 0, pmcCtl := x.pmcCtl ||| BitVec.ofNat 64 (2 ^ (8 + n)) }
    if bit (Tbl.get 0 x.pmcSel n) 62 then y.pend 17 stamp else y
  else { x with pmc := Tbl.set 0 x.pmc n (BitVec.ofNat 64 (v + 1)) }

/-- An event of a thread reaches its programmable counters (19 R425, R426). -/
def Thread.pmcEvent (x : Thread) (stamp : Word) (code : Nat) : Thread :=
  if x.pmcSel.isEmpty then x
  else (List.range 6).foldl (fun y n => if x.pmcAdmits n code then y.pmcBump stamp n else y) x

/-- PMC_RET counts a retired instruction (19 R424, R425). -/
def Thread.pmcRetired (x : Thread) : Thread :=
  if bit x.pmcCtl 1 && x.pmcAwake && (!x.secure || bit x.pmcCtl 3) then
    let v := (Tbl.get 0 x.pmc 7).toNat
    if v = 2 ^ 48 - 1 then { x with pmc := Tbl.set 0 x.pmc 7 0, pmcCtl := x.pmcCtl ||| 0x8000 }
    else { x with pmc := Tbl.set 0 x.pmc 7 (BitVec.ofNat 64 (v + 1)) }
  else x

/-- An event counted for thread t. -/
def State.pmc (s : State) (t code : Nat) : State := s.updThr t (fun x => x.pmcEvent (s.tileStamp t) code)

/-! Events (02 R51 to R54, R459). -/

/-- Capacity of a ring (02 R51). -/
def ringCap (d : Nat) : Nat := if d = 16 then 131072 else 8192

/-- Append to a ring of a capacity; the oldest falls out (02 R51). -/
def ringPush (cap : Nat) (r : List Event) (e : Event) : List Event :=
  if r.length < cap then r ++ [e] else r.drop 1 ++ [e]

/-- The sticky summary takes an event: its first 256 entries are filled once, its last 256 form a ring (02 R52). DESIGN CHOICE (log 6): the ring is held and
read oldest first; the spec names no index of its next entry. -/
def ErrGlobal.keep (g : ErrGlobal) (e : Event) : ErrGlobal :=
  if g.first.length < 256 then { g with first := g.first ++ [e] } else { g with latest := ringPush 256 g.latest e }
/-- An event reaches the sticky summary: ERROR of severity UCC or FAT, or RESET (02 R52). -/
def ErrGlobal.summarise (g : ErrGlobal) (e : Event) : ErrGlobal :=
  if (e.cls = 0 ∧ (e.sev = 3 ∨ e.sev = 4)) ∨ e.cls = 1 then g.keep e else g
/-- An event as a die writes it, with the next sequence number of its ring (02 R54). -/
def State.newEvent (s : State) (d : Nat) (node : BitVec 12) (cls : BitVec 4) (world : Tag) (sev : BitVec 3) (code : BitVec 16)
    (stamp : Word) (payload : BitVec 128) : Event :=
  { payload := payload, node := node, cls := cls, world := world, sev := sev, code := code, seq := (s.die d).seq, stamp := stamp
    unsync := !(s.die d).time.synced || s.links.any (fun p => p.2.st == .up && decide (p.2.exchanges < 3)) }

/-- An event takes its place among those of its cycle, in ascending node ID; the sequence numbers stay in the order of the ring (02 R53). -/
def cycleInsert (e : Event) : List Event → List Event
  | [] => [e]
  | x :: r => if e.node.toNat < x.node.toNat then { e with seq := x.seq } :: cycleInsert { x with seq := x.seq + 1 } r else x :: cycleInsert e r
/-- An event reaches a ring in a cycle: beside those of that cycle, unless one of its own source stands among them, when the next cycle takes it (02 R53). -/
def Die.ringTake (x : Die) (cap cyc : Nat) (e : Event) : Die :=
  let n := if x.ringCycle < cyc then 0 else x.ringNow
  let old := x.ring.take (x.ring.length - n)
  let now := x.ring.drop (x.ring.length - n)
  let next := now.any (fun q => q.node == e.node)
  let ring := if next then x.ring ++ [e] else old ++ cycleInsert e now
  { x with ring := if x.ring.length < cap then ring else ring.drop 1, ringCycle := max x.ringCycle cyc + b2n next, ringNow := if next then 1 else n + 1
           head := (x.head + 1) % cap, seq := x.seq + 1 }
/-- An event reaches its die's ring and the summary (02 R51 to R54); a frozen ring drops it and counts it, and the gap in SEQ shows it (19 R422). -/
def State.putEvent (s : State) (d : Nat) (e : Event) : State :=
  let x := s.die d
  let s := { s with errs := s.errs.summarise e }
  if bit x.ephCtl 63 then
    s.updDie d (fun x => { x with ephCtl := setField x.ephCtl 31 0 (min (fieldOf x.ephCtl 31 0 + 1) (2 ^ 32 - 1)), seq := x.seq + 1 })
  else s.updDie d (fun x => x.ringTake (ringCap d) s.cycle e)
/-- Write an event of a die. -/
def State.event (s : State) (d : Nat) (node : BitVec 12) (cls : BitVec 4) (world : Tag) (sev : BitVec 3) (code : BitVec 16)
    (stamp : Word) (payload : BitVec 128) : State := s.putEvent d (s.newEvent d node cls world sev code stamp payload)

/-- A plain event of an agent of a die. DESIGN CHOICE (log 6): an event whose source has no world and which no access causes carries WORLD 0xFFF, so that the
Normal view of the error window does not show it; the spec names none (02 R54). -/
def State.note (s : State) (a : Agent) (cls : BitVec 4) (code : BitVec 16) (payload : BitVec 128) : State :=
  s.event a.dieNum (s.node a) cls 0xFFF 0 code (s.stampAt a.dieNum (s.node a)) payload

/-! Error records (19 R410 to R416, R421). -/

/-- A slot of a die's record store. -/
def State.slot (s : State) (d i : Nat) : Record := (Tbl.get none (s.die d).store i).getD (Record.free 0)
/-- Replace a slot. -/
def State.setSlot (s : State) (d i : Nat) (r : Record) : State :=
  s.updDie d (fun x => { x with store := Tbl.set none x.store i (some r) })
/-- The low word of a locator (19 R412). -/
def State.locator (s : State) (d slot : Nat) (gen : BitVec 16) : BitVec 32 :=
  BitVec.ofNat 32 (s.pkgBit * 2 ^ 31 + d * 2 ^ 26 + slot * 2 ^ 17 + gen.toNat)
/-- The next generation of a slot (19 R410). -/
def nextGen (g : BitVec 16) : BitVec 16 := if g = 0xFFFF then 1 else g + 1
/-- The lowest free slot of a store. -/
def State.freeSlot (s : State) (d : Nat) : Option Nat := (List.range 512).find? (fun i => !(s.slot d i).valid)
/-- The oldest valid record of a severity: earliest STAMP, then lower slot (19 R411). -/
def State.oldest (s : State) (d : Nat) (sev : BitVec 3) : Option Nat :=
  ((s.die d).store.foldl (fun (a : Option (Nat × Word)) p =>
    match p.2 with
    | some r => if r.valid && r.sev == sev then
        match a with
        | some (_, st) => if r.stamp.toNat < st.toNat then some (p.1, r.stamp) else a
        | none => some (p.1, r.stamp)
      else a
    | none => a) none).map (·.1)
/-- A CE record merges with a valid one (19 R411). -/
def Record.merges (q : Record) (r : RecordIn) : Bool :=
  q.valid && q.sev == 1 && r.sev == 1 && q.node == r.node && q.code == r.code &&
    (match r.addr with
     | some a => q.addrV && q.addr == a
     | none => !q.addrV)
/-- The slot a CE record merges into. -/
def State.mergeSlot (s : State) (d : Nat) (r : RecordIn) : Option Nat :=
  ((s.die d).store.find? (fun p => match p.2 with
    | some q => q.merges r
    | none => false)).map (·.1)
/-- The slot a new record takes (19 R411). -/
def State.takeSlot (s : State) (d : Nat) (sev : BitVec 3) : Option Nat :=
  match s.freeSlot d with
  | some i => some i
  | none =>
    match s.oldest d 1 with
    | some i => some i
    | none => if sev = 1 then none else s.oldest d 2

/-- The payload of an ERROR event (02 R459). -/
def errorPayload (loc : BitVec 32) (r : RecordIn) : BitVec 128 :=
  BitVec.ofNat 128 (loc.toNat * 2 ^ 96 +
    (match r.thread with | some t => 2 ^ 90 + t.val * 2 ^ 80 | none => 0) + r.code.toNat * 2 ^ 64 +
    (match r.addr with | some a => 2 ^ 57 + a.toNat | none => 0))

/-- The sticky bits a record sets (19 R420). -/
def summaryBits (sev : BitVec 3) (world : Tag) : Word :=
  let sec := world == 0xFFF
  match sev.toNat with
  | 1 => if sec then 1 <<< (58 : Nat) else 1 <<< (57 : Nat)
  | 2 => if sec then 1 <<< (60 : Nat) else 1 <<< (59 : Nat)
  | 3 => if sec then 1 <<< (62 : Nat) else 1 <<< (61 : Nat)
  | 4 => 1 <<< (63 : Nat)
  | _ => 0

/-- Send INTID 18 as ERR_CE_NOTIFY names its target, unless it is absent or a lost partner's (19 R421). -/
def State.sendNotify (s : State) (sec : Bool) (reg : Word) : State :=
  let t := fieldOf reg 9 0
  let pkg := fieldOf reg 10 10
  if pkg ≠ s.pkgBit ∧ s.pairLost then s
  else if !s.thrPresent t ∧ pkg = s.pkgBit then s
  else if h : t < 1024 then
    s.send { Flit.blank .intDlv (.die 16) (.core ⟨t / 2, by omega⟩) with
      cls := 8, msg := some { intid := 18, target := ⟨t, h⟩, secure := sec, refusal := false, sender := none, level := false,
                              stamp := s.stamp 16 } }
  else s

/-- Count a CE occurrence in ERR_CE_NOTIFY of its world side (19 R421). -/
def State.countCe (s : State) (world : Tag) : State :=
  let sec := world == 0xFFF
  let reg := if sec then s.errs.notifyS else s.errs.notifyN
  if bit reg 63 then
    let n := (if sec then s.errs.countS else s.errs.countN) + 1
    let hit := decide (n ≥ fieldOf reg 47 32)
    let n' := if hit then 0 else n
    let s := { s with errs := if sec then { s.errs with countS := n' } else { s.errs with countN := n' } }
    if hit then s.sendNotify sec reg else s
  else s

/-- A record arrives at a store: in this cycle, or, behind one of a NODE not below its own, in the next, so that the records of one cycle are written in strictly ascending NODE
(02 R53; 19 R411). -/
def Die.storeTakes (x : Die) (cyc : Nat) (node : BitVec 12) : Die :=
  let at_ := max (cyc + 1) x.storeAt
  { x with storeAt := at_ + b2n (at_ == x.storeAt && decide (node.toNat ≤ x.storeLast.toNat)), storeLast := node }
/-- An error record reaches the store of its die (19 R411): merged, written, displacing or kept as its event, with the
event, the sticky bits and the CE notification. The answer holds the locator's low word. -/
def State.record (s : State) (d : Nat) (r : RecordIn) : State × BitVec 32 :=
  let st := s.stampAt d r.node
  let s := s.updDie d (fun x => x.storeTakes s.cycle r.node)
  let fin := fun (s : State) (loc : BitVec 32) =>
    let s := s.event d r.node 0 r.world r.sev r.code st (errorPayload loc r)
    let s := { s with errs := { s.errs with summary := s.errs.summary ||| summaryBits r.sev r.world } }
    let s := if r.sev = 1 then s.countCe r.world else s
    let s := match r.thread with
      | some t => s.pmc t.val 0x3A
      | none => s
    (s, loc)
  match s.mergeSlot d r with
  | some i =>
    let q := s.slot d i
    let s := s.setSlot d i { q with count := if q.count = 0xFFFFFFFF then q.count else q.count + 1 }
    fin s (s.locator d i q.gen)
  | none =>
    match s.takeSlot d r.sev with
    | some i =>
      let g := nextGen (s.slot d i).gen
      let q : Record :=
        { stamp := st, node := r.node, sev := r.sev, world := r.world, addrV := r.addr.isSome,
          thrV := r.thread.isSome, thread := match r.thread with | some t => BitVec.ofNat 10 t.val | none => 0,
          code := r.code, addr := r.addr.getD 0, valid := true, gen := g, count := 1, synd := r.synd }
      fin (s.setSlot d i q) (s.locator d i g)
    | none =>
      let s := if r.sev = 3 ∨ r.sev = 4 then { s with errs := { s.errs with summary := s.errs.summary ||| 1 <<< (56 : Nat) } } else s
      fin s (s.locator d 0 0)

/-- An error of an agent about an access. -/
def State.errorAt (s : State) (a : Agent) (code : BitVec 16) (sev : BitVec 3) (world : Tag) (pa : Option Nat) (t : Option Thr) :
    State × BitVec 32 :=
  s.record a.dieNum
    { node := s.node a, code := code, sev := sev, world := world, addr := pa.map (BitVec.ofNat 57), thread := t,
      synd := BitVec.ofNat 256 (Config.syndrome code.toNat (s.stampAt a.dieNum (s.node a)).toNat (pa.getD 0)) }

/-- The same, where the locator is not needed. -/
def State.logError (s : State) (a : Agent) (code : BitVec 16) (sev : BitVec 3) (world : Tag) (pa : Option Nat) (t : Option Thr) : State :=
  (s.errorAt a code sev world pa t).1

/-- Error codes (19 R413). -/
def codeWorldMismatch : BitVec 16 := 0x0104
/-- VEC_FAULT (04 R111). -/
def codeVecFault : BitVec 16 := 0x0105
/-- TRN_TIMEOUT (11 R280). -/
def codeTrnTimeout : BitVec 16 := 0x0404
/-- STRAY_RSP (11 R284). -/
def codeStray : BitVec 16 := 0x0405
/-- NO_TARGET (01 R30). -/
def codeNoTarget : BitVec 16 := 0x0406
/-- DOMAIN_OFF (11 R284). -/
def codeDomainOff : BitVec 16 := 0x0407
/-- GRD_REFUSED (12 R305). -/
def codeGrdRefused : BitVec 16 := 0x0601

/-! Homes and end points (09 R229, R230; 01 R28). -/

/-- The bucket of a line (09 R229). -/
def bucketOf (line : Nat) : Nat :=
  (line % 8192) ^^^ (line / 2 ^ 13 % 8192) ^^^ (line / 2 ^ 26 % 8192) ^^^ (line / 2 ^ 39 % 2)
/-- A line has a home: PA[56] = 0 and PA below 0x4000_0000_0000 (09 R229). -/
def hasHome (line : Nat) : Bool := decide (line < 2 ^ 40)
/-- The copy of HOME_MAP that an agent of a die reads (09 R230). -/
def State.homeMap (s : State) (d b : Nat) : Word := s.ctlGet (if d < 16 then caddr d 0xC8 b else caddr 16 0xD2 b)
/-- The home slice of a line as a die's copy of HOME_MAP names it; a partner's home is reached through port 6 (13 R327). -/
def State.homeOf (s : State) (d line : Nat) : Agent :=
  let w := s.homeMap d (bucketOf line)
  if fieldOf w 10 10 = s.pkgBit then .home (fieldOf w 9 6) (fieldOf w 5 0) else .link 6

/-- The agent that decodes an address and answers an access that no cache serves (01 R28, R30; 07 R197). -/
def State.endpoint (s : State) (pa : Nat) : Agent :=
  match s.region pa with
  | .dram off => if s.dramBacked off then .mem (s.place off).1 else .mmio
  | .partner _ => .link 6
  | .partnerIo _ => .link 6
  | .cxl off => .port (s.cxlWindow off).1
  | .pcie _ => match s.mmioClaim pa with
    | some (p, _) => .port p
    | none => .mmio
  | .pkg _ => .mmio
  | .window _ _ => .gwHub
  | .unbacked => .mmio

/-! Places in a channel, and blocked lines (12 R287, R291, R293, R295). -/

/-- The channel address of a line; a mirrored line of the partner stands in the upper half (13 R329). -/
def State.chanAddr (s : State) (line : Nat) : Nat :=
  (s.place (line * 64 % 2 ^ 44)).2 + (if s.pairMode = 2 && line * 64 / 2 ^ 44 != s.pkgBit then s.chanCap / 2 else 0)
/-- The subchannel of a line (12 R287). -/
def subOf (line : Nat) : Nat := line % 2
/-- The rank of a line (log 6). -/
def State.rankOf (s : State) (ch line : Nat) : Nat := Config.dramRank ch (s.chanAddr line) % 8
/-- MEM_RANK_STAT of a line's rank. -/
def State.rankReg (s : State) (ch line : Nat) : Nat := caddr 16 ch (0x110 + 8 * subOf line + s.rankOf ch line)
/-- A line is blocked: a repair stands on it, or a read of it is being repeated (12 R293). -/
def State.lineBusy (s : State) (ch line : Nat) : Bool :=
  let c := s.chan ch
  (match c.repair with | some r => r.line == line | none => false) || c.reads.any (fun r => r.again != 0 && r.flit.line == line)
/-- The banks of a line's rank are blocked by a soft repair (12 R300). -/
def State.bankBusy (s : State) (ch line : Nat) : Bool :=
  match (s.chan ch).repair with
  | some r => r.phase == 1 && subOf r.line == subOf line && s.rankOf ch r.line == s.rankOf ch line
  | none => false

/-- The channel of a line of the package's own memory. -/
def State.ownChan (s : State) (line : Nat) : Option Nat :=
  match s.region (line * 64) with
  | .dram _ => some (s.chanOf (line * 64))
  | _ => none
/-- A line of the package's own memory is blocked at its controller (12 R293, R300). -/
def State.lineBlocked (s : State) (line : Nat) : Bool :=
  match s.ownChan line with
  | some ch => s.lineBusy ch line || s.bankBusy ch line
  | none => false
/-- The rank of a line of the package's own memory has FAILED: what is read of it is poison (12 R291). -/
def State.rankFailed (s : State) (line : Nat) : Bool :=
  match s.ownChan line with
  | some ch => (List.range 8).any (fun r => decide (fieldOf (s.ctlGet (caddr 16 ch (0x110 + 8 * subOf line + r))) 63 62 ≥ 2) && r == s.rankOf ch line)
  | none => false

/-- The locator of the latest valid record that names a line, as a consumer of poison reports it (19 R412, R414); GEN 0 where none does. -/
def State.poisonLoc (s : State) (line : Nat) : BitVec 32 :=
  let best := s.dies.foldl (fun (a : Option (Word × BitVec 32)) p =>
    p.2.store.foldl (fun a q => match q.2 with
      | some r =>
        if r.valid && r.addrV && r.addr.toNat / 64 == line && (match a with | some (st, _) => decide (st.toNat ≤ r.stamp.toNat) | none => true)
        then some (r.stamp, s.locator p.1 q.1 r.gen) else a
      | none => a) a) none
  (best.map Prod.snd).getD 0

/-- A thread lies under a CORE quiesce, asked for or in force (20 R437). -/
def State.quiesced (s : State) (t : Nat) : Bool := s.quiesces.any (fun q => q.scope == 1 && q.target == t / 2)

/-- A scope of a kind is closed to new requests: a quiesce of it is asked for or in force (20 R437). -/
def State.held (s : State) (scope target : Nat) : Bool := s.quiesces.any (fun q => q.scope == scope && q.target == target)

/-! Reads left behind (04 R122; 11 R280). -/

/-- The reads left behind, once the walk in progress is dropped: the answer still due to it is of no more use. -/
def Thread.walkLeft (x : Thread) : List LeftOp :=
  match x.walk with
  | some w => if w.tid = 0 then x.lefts else x.lefts ++ [{ tid := w.tid, pa := w.pa, stamp := w.stamp }]
  | none => x.lefts
/-- The walk in progress is dropped. -/
def Thread.noWalk (x : Thread) : Thread := { x with walk := none, lefts := x.walkLeft }

/-! A pending error of a thread (07 R204). -/

/-- An error becomes pending, oldest first by record stamp; a fifth only sets the overflow mark (07 R204). -/
def Thread.pendError (x : Thread) (e : PendErr) : Thread :=
  if x.pendErrs.length < 4 then
    { x with pendErrs := x.pendErrs.filter (fun q => decide (q.stamp.toNat ≤ e.stamp.toNat)) ++ [e] ++ x.pendErrs.filter (fun q => decide (e.stamp.toNat < q.stamp.toNat)) }
  else { x with pendOvf := true }

end Sys2Proof.Machine
end

