-- ==== Sys2Proof/Machine/Clock.lean ====
section
/-! DEFINITION. One Meridian tick (02 R41 to R46): what the block does while no command waits. -/

namespace Sys2Proof.Machine

/-- Ticks between two edges of PPS_IN (02 R48). -/
def ppsTicks : Nat := 4000000000

/-- A die's copy over one tick of the master: what the last sync message found it ahead by it loses at half rate, and what it found it behind by it gains at double
rate; it never decreases (02 R43). -/
def LocalTime.tick (x : LocalTime) : LocalTime :=
  if x.owed > 0 then (if x.phase then { x with ahead := x.ahead - 1, owed := x.owed - 1, phase := false } else { x with phase := true })
  else if x.owed < 0 then { x with ahead := x.ahead + 1, owed := x.owed + 1, phase := false }
  else x

/-- 1/65,536 tokens that a rate per µs has given by a Transit cycle (11 R275): 2,400 cycles make a µs. -/
def regUnits (rate cycle : Nat) : Nat := rate * 65536 * cycle / 2400
/-- A regulator and its fraction of a token between two Transit cycles (11 R275): RATE tokens per µs at a resolution of 1/65,536, at most BURST. -/
def regTick (from_ upTo frac : Nat) (w : Word) : Word × Nat :=
  if bit w 63 then
    let gain := regUnits (fieldOf w 11 0) upTo - regUnits (fieldOf w 11 0) from_
    let held := min (fieldOf w 43 32 * 65536 + frac + gain) (fieldOf w 27 16 * 65536)
    (setField w 43 32 (held / 65536), held % 65536)
  else (w, frac)
/-- A control-space address names a regulator (11 R276). -/
def isReg (a : Nat) : Bool :=
  caddrDie a == 16 && decide (0x800 ≤ caddrReg a ∧ caddrReg a < 0x840) && decide (0x80 ≤ caddrUnit a ∧ caddrUnit a < 0xCC)
/-- Every regulator between two Transit cycles. -/
def State.regsTick (s : State) (from_ upTo : Nat) : State :=
  if from_ = upTo then s
  else (s.ctl.filter (fun p => isReg p.1)).foldl (fun s p =>
    match p.2 with
    | some w =>
      let q := regTick from_ upTo (Tbl.get 0 s.regFrac p.1) w
      { s with ctl := Tbl.set none s.ctl p.1 (some q.1), regFrac := Tbl.set 0 s.regFrac p.1 q.2 }
    | none => s) s

/-- The slew of the master over one tick (02 R43, R46): it stands still in every second tick while it is ahead of the root, and takes two at once while behind. -/
def State.slewTick (s : State) : State × Int :=
  if s.slew > 0 then ({ s with slew := if s.slewPhase then s.slew - 1 else s.slew, slewPhase := !s.slewPhase }, if s.slewPhase then -1 else 0)
  else if s.slew < 0 then ({ s with slew := s.slew + 1, slewPhase := false }, 1)
  else (s, 0)
/-- The discipline of PPS_IN over one tick (02 R48): ppsRate ticks a second, spread evenly. -/
def State.ppsTick (s : State) : State × Int :=
  let a := s.ppsAcc + s.ppsRate
  if a ≥ ppsTicks then ({ s with ppsAcc := a - ppsTicks }, 1)
  else if a ≤ -ppsTicks then ({ s with ppsAcc := a + ppsTicks }, -1)
  else ({ s with ppsAcc := a }, 0)
/-- The copies of the compute dies run on while the master moves by another count than one: they stand ahead of it by the difference. -/
def State.diesShift (s : State) (by_ : Int) : State :=
  if by_ = 0 then s
  else (List.range 16).foldl (fun s d => s.updDie d (fun x => { x with time := { x.time with ahead := x.time.ahead + by_ } })) s

/-- One tick of the package: the master, slewed while it differs from the root (02 R43, R46) and disciplined (R48), the dies' copies and the regulators. -/
def State.tick (s : State) : State :=
  let a := s.slewTick
  let b := a.1.ppsTick
  let step := (1 + a.2 + b.2).toNat
  let s := b.1.diesShift (1 - step)
  let s := { s with dies := s.dies.foldl (fun (r : Tbl Die) (p : Nat × Die) => Tbl.set Die.reset r p.1 { p.2 with time := p.2.time.tick }) [] }
  let now := s.now + BitVec.ofNat 64 step
  { s.regsTick s.cycle (now.toNat * 3 / 5) with now := now }

end Sys2Proof.Machine
end

