-- ==== Sys2Proof/Machine/Operands.lean ====
section
/-! DEFINITION. Operand forms: immediates, effective addresses, widths, the results of atomics, the pieces of an access, and instruction words (03). -/

namespace Sys2Proof.Machine

/-- A sign-extended immediate (03 R63). -/
def sext {n : Nat} (x : BitVec n) : Word := x.signExtend 64
/-- A zero-extended immediate (03 R63). -/
def zext {n : Nat} (x : BitVec n) : Word := x.setWidth 64
/-- The low 32 bits, sign-extended (03 R71). -/
def sext32 (x : Word) : Word := (x.setWidth 32).signExtend 64
/-- The low bits of a width in bytes, sign- or zero-extended (03 R77). -/
def extend (signed : Bool) (size : Nat) (x : Word) : Word :=
  match size with
  | 1 => if signed then (x.setWidth 8).signExtend 64 else x &&& 0xFF
  | 2 => if signed then (x.setWidth 16).signExtend 64 else x &&& 0xFFFF
  | 4 => if signed then (x.setWidth 32).signExtend 64 else x &&& 0xFFFFFFFF
  | _ => x
/-- The effective address of a Mem-format access (03 R77). -/
def Thread.ea (x : Thread) (base : RegNo) (imm : BitVec 16) : Word := x.readG base + sext imm
/-- The target of a branch or J (03 R63, R74): the offset counts words. -/
def branchTarget {n : Nat} (pc : Word) (off : BitVec n) : Word := pc + sext off * 4
/-- The width of an acquire or release form in bytes (03 R82). -/
def ordSize (width : BitVec 2) : Nat := 2 ^ width.toNat

/-- The value an atomic writes (03 R83 to R85; 09 R252): none where a CAS fails or the operation is a read. -/
def amoNew (op : AmoOp) (size : Nat) (old a b : Word) : Option Word :=
  let o := extend true size old
  let x := extend true size a
  match op with
  | .swp => some x
  | .add => some (o + x)
  | .band => some (o &&& x)
  | .bor => some (o ||| x)
  | .bxor => some (o ^^^ x)
  | .smin => some (if o.slt x then o else x)
  | .smax => some (if o.slt x then x else o)
  | .umin => some (if o.ult x then o else x)
  | .umax => some (if o.ult x then x else o)
  | .cas => if o = x then some b else none
  | .read => none
  | .write => some x

/-- The pieces of an access at a virtual address: split at every 8-byte boundary it crosses (07 R200). -/
def pieces (va : Word) (size : Nat) : List (Word × Nat) :=
  let first := 8 - va.toNat % 8
  if size ≤ first then [(va, size)] else [(va, first), (va + BitVec.ofNat 64 first, size - first)]
/-- The value of an access from its pieces, lowest address first (03 R58). -/
def joinPieces : List (Nat × Word) → Nat
  | [] => 0
  | (n, v) :: r => v.toNat % 2 ^ (8 * n) + joinPieces r * 2 ^ (8 * n)

/-! Instruction words (03 R62, R65, R95): the formats and their opcodes, which reach SYND.B of 0x02 (04 R113). -/

/-- A Reg-format word. -/
def regWord (op : Nat) (rd rs1 rs2 : RegNo) (mod func : Nat) : BitVec 32 :=
  BitVec.ofNat 32 (op * 2 ^ 26 + rd.val * 2 ^ 21 + rs1.val * 2 ^ 16 + rs2.val * 2 ^ 11 + mod * 2 ^ 6 + func)
/-- An Imm-format word. -/
def immWord (op : Nat) (rd rs1 : RegNo) (imm : Nat) : BitVec 32 :=
  BitVec.ofNat 32 (op * 2 ^ 26 + rd.val * 2 ^ 21 + rs1.val * 2 ^ 16 + imm % 2 ^ 16)
/-- A Sys-format word. -/
def sysWord (rd rs1 : RegNo) (fn arg : Nat) : BitVec 32 :=
  BitVec.ofNat 32 (0x3F * 2 ^ 26 + rd.val * 2 ^ 21 + rs1.val * 2 ^ 16 + fn * 2 ^ 10 + arg)

/-- The rounding mode an instruction names: DYN takes FCSR.RM; reserved codes name none (03 R88). -/
def roundingMode (fcsr : Word) (rm : BitVec 3) : Option Nat :=
  if rm.toNat ≥ 6 then none else if rm = 0 then some (fieldOf fcsr 2 0) else some rm.toNat

end Sys2Proof.Machine
end

