-- ==== Sys2Proof/Machine/Entry.lean ====
section
/-! DEFINITION. The coherent view of a line, the interruption exit of an enclave, and taking an exception (04 R103 to R113, 14 R348, R349). -/

namespace Sys2Proof.Machine

/-! The coherent view of a line (09 R235): the dirty copy wherever it stands, else memory. -/

/-- An L2 line that holds data. -/
def L2Line.hasData (l : L2Line) : Bool :=
  match l.st with
  | .isD | .imAd => l.need.isSome
  | _ => true
/-- An L2 line that holds the only current data of its line (09 R232). -/
def L2Line.dirty (l : L2Line) : Bool :=
  match l.st with
  | .m | .o => true
  | .smA d => d || (l.need.isSome && l.granted)
  | .imAd => l.need.isSome && l.granted
  | .viA d => d
  | _ => false
/-- A flit that carries a line's data under coherence. -/
def Flit.carries (f : Flit) (line : Nat) : Bool :=
  f.line == line && f.acc == .coherent && !f.superseded && f.err.isNone &&
    (match f.op with
     | .dataS | .dataE | .dataM | .wbD => true
     | .evictC => true
     | .ack => f.dirty
     | _ => false)
/-- A flit whose data is newer than memory. -/
def Flit.newer (f : Flit) (line : Nat) : Bool :=
  f.carries line && (f.op == .dataM || f.op == .wbD || f.op == .ack) ||
    (f.line == line && f.op == .wrNc && f.acc == .dma && (match f.src with | .home _ _ => true | _ => false))

/-- The first table entry for which a function answers. -/
def firstIn {β γ : Type} (t : Tbl β) (f : Nat → β → Option γ) : Option γ := t.findSome? (fun p => f p.1 p.2)

/-- A dirty copy of a line and its poison, wherever it stands. -/
def State.dirtyCopy (s : State) (line : Nat) : Option (LineData × Bool) :=
  let inL2 := firstIn s.cores (fun _ c => match Tbl.get none c.l2 line with
    | some l => if l.dirty then some (l.data, l.poison) else none
    | none => none)
  let inL3 := firstIn s.dies (fun _ d => match Tbl.get none d.l3 line, Tbl.get none d.l3wb line with
    | some l, _ => if l.dirty then some (l.data, l.poison) else none
    | none, some l => if l.dirty then some (l.data, l.poison) else none
    | none, none => none)
  let inAtom := (Tbl.get none s.atoms line).map (fun a => (a.data, a.poison))
  let inNet := (s.net.find? (fun f => f.newer line)).map (fun f => (f.data, f.poison))
  let heldIn := fun (t : Tbl (Option Txn)) => firstIn t (fun _ x => match x with
    | some x => ((x.held.find? (fun f => f.newer line)).map (fun f => (f.data, f.poison))).or
        (if x.flit.line = line then x.got.map (fun k => (k.data, k.poison)) else none)
    | none => none)
  let inHeld := heldIn s.txns
  let inDie := firstIn s.dies (fun _ d => heldIn d.ftxn)
  let inHub := firstIn s.links (fun _ l => (l.snoops.find? (fun q => q.flit.line == line && q.got.isSome)).bind (fun q => q.got.map (fun k => (k.data, k.poison))))
  inL2.or (inL3.or (inAtom.or (inNet.or (inHeld.or (inDie.or inHub)))))

/-- The current value of a line of coherent memory and its poison. -/
def State.cohLine (s : State) (line : Nat) : LineData × Bool :=
  match s.dirtyCopy line with
  | some p => p
  | none => (s.memLine line, s.memPoison line || s.rankFailed line)

/-- Map the entries of a table; a default stays unlisted. -/
def mapTbl {β : Type} [DecidableEq β] (d : β) (t : Tbl β) (f : β → β) : Tbl β :=
  t.foldl (fun r p => Tbl.set d r p.1 (f p.2)) []

/-- Give every copy of a line, and memory, a new value: the effect of a write that is ordered at home (log 8). -/
def State.putCoh (s : State) (line : Nat) (v : LineData) : State :=
  let onFlit := fun (f : Flit) => if f.carries line then { f with data := v } else f
  let onTxn := fun (x : Option Txn) => x.map (fun x => { x with held := x.held.map onFlit, got := if x.flit.line = line then x.got.map (fun k => { k with data := v }) else x.got })
  let onL3 := fun (t : Tbl (Option L3Line)) => match Tbl.get none t line with
    | some l => Tbl.set none t line (some { l with data := v })
    | none => t
  let s := s.putLine line v (s.memPoison line)
  { s with
    cores := mapTbl Core.reset s.cores (fun c => match Tbl.get none c.l2 line with
      | some l => if l.hasData then { c with l2 := Tbl.set none c.l2 line (some { l with data := v }) } else c
      | none => c)
    dies := mapTbl Die.reset s.dies (fun d => { d with l3 := onL3 d.l3, l3wb := onL3 d.l3wb, ftxn := mapTbl none d.ftxn onTxn })
    atoms := match Tbl.get none s.atoms line with
      | some a => Tbl.set none s.atoms line (some { a with data := v })
      | none => s.atoms
    txns := mapTbl none s.txns onTxn
    net := s.net.map onFlit }

/-- Bytes of coherent memory at rising addresses. -/
def State.cohBytes (s : State) (pa n : Nat) : List Byte :=
  let lines := (List.range ((pa % 64 + n + 63) / 64)).flatMap (fun i => lineBytes (s.cohLine (pa / 64 + i)).1)
  (lines.drop (pa % 64)).take n
/-- A word of coherent memory at an aligned address. -/
def State.cohWord (s : State) (pa : Nat) : Word := lineVal (s.cohLine (pa / 64)).1 (pa % 64) 8
/-- Any line of a range is poisoned. -/
def State.cohPoison (s : State) (pa n : Nat) : Bool :=
  (List.range ((pa % 64 + n + 63) / 64)).any (fun i => (s.cohLine (pa / 64 + i)).2)
/-- Write a word of coherent memory at an aligned address. -/
def State.putCohWord (s : State) (pa : Nat) (w : Word) : State :=
  s.putCoh (pa / 64) (mergeLine (s.cohLine (pa / 64)).1 (placeVal w (pa % 64)) (byteMask (pa % 64) 8))
/-- Write words of coherent memory from an aligned address. -/
def State.putCohWords (s : State) (pa : Nat) (ws : List Word) : State :=
  (ws.foldl (fun (p : State × Nat) w => (p.1.putCohWord p.2 w, p.2 + 8)) (s, pa)).1
/-- Write bytes of coherent memory. -/
def State.putCohBytes (s : State) (pa : Nat) (bs : List Byte) : State :=
  (bs.foldl (fun (p : State × Nat) b =>
    (p.1.putCoh (p.2 / 64) (mergeLine (p.1.cohLine (p.2 / 64)).1 (placeVal (b.setWidth 64) (p.2 % 64)) (byteMask (p.2 % 64) 1)),
      p.2 + 1)) (s, pa)).1

/-! Predictors (05 R134, R136). -/

/-- The predictors without the entries of a thread. -/
def Predictors.without (p : Predictors) (odd : Bool) : Predictors :=
  { dirs := p.dirs.filter (fun e => e.odd != odd), btb := p.btb.filter (fun e => e.odd != odd), inds := p.inds.filter (fun e => e.odd != odd) }
/-- Clear a thread's predictor entries and return stack (05 R136). -/
def State.predClear (s : State) (t : Nat) : State :=
  (s.updCore (t / 2) (fun k => { k with preds := k.preds.without (t % 2 == 1) })).updThr t (fun x => { x with retStack := [] })

/-! The interruption exit (14 R348). -/

/-- The words of a save slot, offsets 0x000 to 0x23F (14 R348). -/
def slotWords (x : Thread) (e : EnclCtx) (pc : Word) (cause : Nat) (stamp : Word) : List Word :=
  (List.range 32).map (fun i => x.readG (BitVec.ofNat 5 i).toFin) ++ (List.range 32).map (fun i => x.readF (BitVec.ofNat 5 i).toFin) ++
    [x.fcsr, pc, BitVec.ofNat 64 (2 ^ 63 + cause), stamp, e.enterVa, e.blockVa, BitVec.ofNat 64 e.rs1.val, 0]

/-- The registers an exit leaves: zero but for the block VA in its register (14 R348 step 2). -/
def Thread.exitRegs (x : Thread) (e : EnclCtx) : Thread :=
  { x with g := [], f := [], fcsr := 1 }.writeG e.rs1 e.blockVa

/-- Leave the enclave: slot written, registers zeroed, BUSY cleared, predictors cleared, world 0x000, PC the ENTER (14 R348). -/
def State.enclExit (s : State) (t : Nat) (e : EnclCtx) (pc : Word) (cause : Nat) : State :=
  let s := s.putCohWords e.slotPa (slotWords (s.thr t) e pc cause (s.stamp (dieOfThr t)))
  let busy := s.cohWord (e.ecd + 0x60)
  let s := s.putCohWord (e.ecd + 0x60) (setField busy e.slot e.slot 0)
  (s.predClear t).updThr t (fun x => { x.exitRegs e with world := 0, pc := e.enterVa, encl := none })

/-! Exceptions (04 R103 to R113). -/

/-- A cause as an instruction or an event raises it (04 R113). -/
structure Exc where
  cause : Nat
  epc : Word
  faddr : Word
  fpa : Word
  a : BitVec 16
  b : BitVec 32
  stage2 : Bool
  raiseTo : Level
  route : Option Level
deriving DecidableEq, Repr

/-- A cause with no address and no fields. -/
def Exc.plain (cause : Nat) (epc : Word) : Exc :=
  { cause := cause, epc := epc, faddr := 0, fpa := 0, a := 0, b := 0, stage2 := false, raiseTo := .u, route := none }

/-- A level as it exists: H names M while HYP is 0 or in the Secure world (04 R97). -/
def Thread.real (x : Thread) (l : Level) : Level := if l = .h && (!x.hyp || x.secure) then .m else l

/-- The higher of two levels. -/
def Level.max (a b : Level) : Level := if a.num ≥ b.num then a else b

/-- The target level of a cause (04 R103, R128). -/
def Thread.target (x : Thread) (e : Exc) : Level :=
  let f := x.level
  let c := e.cause
  let base : Level :=
    if f = .m || c = 0x19 || c = 0x29 then .m
    else if c = 0x38 && bit x.dbgCtl 63 then .m
    else if !bit x.delegM c then .m
    else if f = .h then .h
    else if !x.secure && x.hyp && (e.stage2 || !bit x.delegH c) then .h
    else .s
  match e.route with
  | some l => l
  | none => x.real (Level.max base (x.real e.raiseTo))

/-- The vector offset (04 R106, 14 R348). -/
def vectorOff (cause : Nat) (target left : Level) (interrupt encl : Bool) : Nat :=
  if encl && target = .s then 0xA00
  else if cause = 0x28 || cause = 0x29 then 0x800
  else (if interrupt then 0x400 else 0) + (if target = left then 0 else 0x200)

/-- The syndrome (04 R112). -/
def syndWord (imp enc : Bool) (left : Level) (world : Tag) (a : BitVec 16) (b : BitVec 32) : Word :=
  BitVec.ofNat 64 (b2n imp * 2 ^ 63 + b2n enc * 2 ^ 62 + left.num * 2 ^ 60 + world.toNat * 2 ^ 48 + a.toNat * 2 ^ 32 + b.toNat)

/-- STATUS of the target level on entry (04 R107). -/
def statusEntry (st : Word) (left : Level) (target : Level) (secure : Bool) : Word :=
  let ie := fieldOf st 0 0
  let st := setField (setField (setField st 11 10 left.num) 8 8 ie) 0 0 0
  if target = .m then setField st 9 9 (b2n secure) else st

/-- The registers of entry to a target level (04 R107): one indivisible step. -/
def Thread.enter (x : Thread) (e : Exc) (target : Level) (encl : Option EnclCtx) (debugMask : Bool) : Thread :=
  let interrupt := decide (e.cause ≥ 0x40)
  let world := match encl with | some c => c.id | none => x.world
  let synd := syndWord (e.cause == 0x29) encl.isSome x.level world (if debugMask then 0 else e.a) (if debugMask then 0 else e.b)
  let old := x.exc target
  let r : ExcRegs :=
    { old with status := statusEntry old.status x.level target x.secure, epc := match encl with | some c => c.enterVa | none => e.epc,
               cause := BitVec.ofNat 64 e.cause, synd := synd, faddr := if debugMask then e.faddr &&& ~~~ 0xFFF else e.faddr,
               fpa := e.fpa }
  let y := x.setExc target r
  { y with
    level := target
    world := if target = .m then 0xFFF else x.world
    pc := BitVec.ofNat 64 (old.vbase.toNat / 4096 * 4096 + vectorOff e.cause target x.level interrupt encl.isSome)
    run := .running
    suppress := false
    vecFetch := some target
    memOp := none
    hold := .none
    report := none
    walk := none
    lefts := x.walkLeft }

/-- A debug session reaches the thread (21 R457). -/
def State.sessionReaches (s : State) (t : Nat) : Bool :=
  let x := s.thr t
  if s.frisket.session = 2 then true
  else if s.frisket.session = 1 then
    x.level ≠ .m && !x.secure && (match x.encl with | some e => e.debug | none => true)
  else false

/-- Take an exception or interrupt: the interruption exit first where the thread is in an enclave, then entry (04 R103, R107;
14 R348, R349); a debug session receives 0x38 in place of the handler (04 R131). -/
def State.takeExc (s : State) (t : Nat) (e : Exc) : State :=
  if e.cause = 0x38 && s.sessionReaches t then
    s.updThr t (fun x => { x with run := .debug, memOp := none, walk := none, lefts := x.walkLeft, hold := .none, pc := e.epc })
  else
    let ctx := (s.thr t).encl
    let s := match ctx with
      | some c => s.enclExit t c e.epc e.cause
      | none => s
    let x := s.thr t
    let target := x.target e
    let mask := match ctx with
      | some c => !c.debug && target ≠ .m
      | none => false
    let s := s.setThr t (x.enter e target ctx mask)
    s.pmc t 0x3B

/-! The interrupt that a thread takes (04 R116, R120, R121). -/

/-- The INTID that INT_ACK returns and an interrupt takes first among those a condition admits: the lowest priority value, then the lower ID
(04 R118, R120). -/
def Thread.bestInt (x : Thread) (sec : Bool) (ok : IntId → Bool) : Option Nat :=
  let lim := min (x.view sec).pmr.toNat (x.rpr sec)
  (x.ints.foldl (fun (a : Option (Nat × Nat)) p =>
    if p.2.pending && p.2.enable && p.2.world == sec && decide (p.2.prio.toNat < lim) && ok p.2 then
      match a with
      | some (q, _) => if p.2.prio.toNat < q then some (p.2.prio.toNat, p.1) else a
      | none => some (p.2.prio.toNat, p.1)
    else a) none).map Prod.snd

/-- The level that the routing gives an INTID of a view, none while it is held (04 R121). -/
def Thread.route (x : Thread) (sec : Bool) (i : IntId) : Option Level :=
  if sec then
    if x.level = .m then some .m
    else if x.secure then some (if x.intS.secToM then .m else .s)
    else some .m
  else if x.level = .m then none
  else if x.secure then (if x.intS.nsPreempt then some .m else none)
  else some (if x.hyp && !bit i.prio 7 then .h else .s)
/-- An INTID may interrupt the thread; with a mark, as if IE of its level were set (04 R120, R127). -/
def Thread.takes (x : Thread) (sec force : Bool) (i : IntId) : Bool :=
  match x.route sec i with
  | some l => decide (x.level.num < l.num) || (x.level == l && (force || bit (x.exc l).status 0))
  | none => false
/-- The interrupt that a thread takes, with its level: a Secure one before any Normal one (04 R120). -/
def Thread.nextInt (x : Thread) (force : Bool) : Option (Nat × Level) :=
  let one := fun (sec : Bool) => match x.bestInt sec (x.takes sec force) with
    | some n => (x.route sec (x.int n)).map (fun l => (n, l))
    | none => none
  (one true).or (one false)
/-- The cause of an INTID (04 R116). -/
def intCause (n : Nat) : Nat := if n < 16 then 0x41 else if n = 16 then 0x42 else if n < 20 then 0x43 else 0x40

/-! The causes with fields of their own (04 R113). -/

/-- ACC of the syndromes (04 R113). -/
def Access.acc : Access → Nat
  | .load => 0 | .store => 1 | .fetch => 2 | .atomic => 3 | .cmo => 3

/-- 0x02 with the instruction word, and KIND 1 for BAD_RETURN. -/
def Exc.illegal (pc : Word) (word : BitVec 32) (badReturn : Bool) : Exc :=
  { Exc.plain 0x02 pc with a := BitVec.ofNat 16 (b2n badReturn), b := word }
/-- 0x03 with KIND, FN and ARG10, raised to an owning level. -/
def Exc.priv (pc : Word) (kind fn arg : Nat) (owner : Level) : Exc :=
  { Exc.plain 0x03 pc with a := BitVec.ofNat 16 kind, b := BitVec.ofNat 32 (fn * 1024 + arg), raiseTo := owner }
/-- 0x08 with ACC, TYPE and size. -/
def Exc.align (pc va : Word) (acc : Access) (type size : Nat) : Exc :=
  { Exc.plain 0x08 pc with faddr := va, a := BitVec.ofNat 16 (acc.acc * 2 ^ 14 + type * 2 ^ 12 + size * 2 ^ 8) }
/-- 0x10, 0x11, 0x12: a translation, permission or access-flag fault (06 R166). -/
def Exc.trans (cause : Nat) (pc va : Word) (acc : Access) (st2 : Bool) (lvl ipa b : Nat) (vec : Bool) : Exc :=
  { Exc.plain cause pc with
    faddr := va, fpa := if st2 then BitVec.ofNat 64 ipa else 0, stage2 := st2, b := BitVec.ofNat 32 b
    a := BitVec.ofNat 16 (acc.acc * 2 ^ 14 + b2n st2 * 2 ^ 13 + lvl * 2 ^ 10 + b2n vec * 2 ^ 7) }
/-- 0x14: a walk abort (06 R165). -/
def Exc.walk (pc va : Word) (acc : Access) (st2 : Bool) (lvl kind pa : Nat) (vec : Bool) : Exc :=
  { Exc.plain 0x14 pc with
    faddr := va, fpa := BitVec.ofNat 64 pa, stage2 := st2
    a := BitVec.ofNat 16 (acc.acc * 2 ^ 14 + b2n st2 * 2 ^ 13 + lvl * 2 ^ 10 + kind * 2 ^ 8 + b2n vec * 2 ^ 7) }
/-- 0x18: a region violation (14 R337). -/
def Exc.region (pc va : Word) (pa : Nat) (acc : Access) (guard vec : Bool) : Exc :=
  { Exc.plain 0x18 pc with
    faddr := va, fpa := BitVec.ofNat 64 pa, a := BitVec.ofNat 16 (acc.acc * 2 ^ 14 + b2n vec * 2 ^ 7 + b2n guard) }
/-- 0x19: an enclave violation with its reason (14 R349). -/
def Exc.enclave (pc va : Word) (reason : Nat) : Exc :=
  { Exc.plain 0x19 pc with faddr := va, a := BitVec.ofNat 16 reason }
/-- 0x21: a precise device error. -/
def Exc.device (pc va : Word) (pa : Nat) (acc : Access) (code : BitVec 16) : Exc :=
  { Exc.plain 0x21 pc with
    faddr := va, fpa := BitVec.ofNat 64 pa, a := BitVec.ofNat 16 (acc.acc * 2 ^ 14), b := code.setWidth 32 }
/-- 0x28: poisoned data consumed; FPA is the PA of the line. -/
def Exc.poison (pc va : Word) (pa : Nat) (acc : Access) (loc : BitVec 32) (vec : Bool) : Exc :=
  { Exc.plain 0x28 pc with
    faddr := va, fpa := BitVec.ofNat 64 (pa / 64 * 64), a := BitVec.ofNat 16 (acc.acc * 2 ^ 14 + b2n vec * 2 ^ 7), b := loc }
/-- 0x38 with KIND and index. -/
def Exc.debug (pc faddr : Word) (kind idx : Nat) : Exc :=
  { Exc.plain 0x38 pc with faddr := faddr, a := BitVec.ofNat 16 kind, b := BitVec.ofNat 32 idx }

end Sys2Proof.Machine
end

