-- ==== Sys2Proof/Machine/Translate.lean ====
section
/-! DEFINITION. Address translation: the walk of one and two stages, the checks at each leaf, memory types and TLB lookups (06, 14 R345). -/

namespace Sys2Proof.Machine

/-- The registers that govern a translation (06 R148 to R151). -/
structure TCtx where
  s1 : Bool
  s2 : Bool
  root1 : Word
  root2 : Word
  had : Bool
  had2 : Bool
  wxn : Bool
  sum : Bool
  user : Bool
  io : Bool
  regime : Regime
deriving DecidableEq, Repr

/-- The regime of a thread (06 R148). -/
def Thread.tctx (x : Thread) : TCtx :=
  let en1 := bit x.mmuCtl 0
  let base : TCtx :=
    { s1 := en1, s2 := false, root1 := x.root1, root2 := x.root2, had := bit x.mmuCtl 3, had2 := bit x.mmuCtl 7,
      wxn := bit x.mmuCtl 2, sum := bit x.mmuCtl 1, user := x.level == .u, io := false, regime := .normal }
  match x.level with
  | .m => { base with s1 := false, regime := .none }
  | .h => { base with regime := .normalH }
  | _ =>
    if x.secure then { base with regime := .secure }
    else if x.hyp && bit x.mmuCtl 6 then { base with s2 := true, regime := .guest }
    else base

/-- The ASID or VMID of a root register (06 R151). -/
def rootTag (r : Word) : BitVec 16 := BitVec.ofNat 16 (fieldOf r 63 48)
/-- The table address of a root register (06 R151). -/
def rootBase (r : Word) : Nat := fieldOf r 45 12 * 4096
/-- L5 of a root register (06 R151). -/
def rootL5 (r : Word) : Bool := bit r 47
/-- The levels of a walk from a root register, first to last (06 R153). -/
def rootLevels (r : Word) : List Nat := if rootL5 r then [0, 1, 2, 3, 4] else [1, 2, 3, 4]
/-- The start level of a root register. -/
def startLevel (r : Word) : Nat := if rootL5 r then 0 else 1

/-- The bits a leaf of a level maps (06 R153). -/
def leafBits (lvl : Nat) : Nat := 12 + 9 * (4 - lvl)
/-- The index of an address at a level (06 R153). -/
def idxOf (a lvl : Nat) : Nat := a / 2 ^ leafBits lvl % 512
/-- The output address of an entry (06 R155, R156). -/
def ppnOf (e : Word) : Nat := fieldOf e 56 12 * 4096

/-- A stage-1 input is canonical (06 R154). -/
def canonical (l5 : Bool) (va : Word) : Bool :=
  let top := if l5 then fieldOf va 63 56 else fieldOf va 63 47
  top = 0 || top = (if l5 then 255 else 2 ^ 17 - 1)
/-- A stage-2 input is in range (06 R154). -/
def inRange (l5 : Bool) (ipa : Nat) : Bool := decide (ipa < 2 ^ (if l5 then 57 else 48))

/-- Why a leaf is malformed: the REASON of 0x10 (06 R155, R166). -/
def leafBad (lvl : Nat) (e : Word) (stage2 : Bool) : Option Nat :=
  if fieldOf e 63 61 ≠ 0 then some 3
  else if lvl = 0 then some 4
  else if ppnOf e % 2 ^ leafBits lvl ≠ 0 then some 5
  else if bit e 3 && !bit e 2 then some 6
  else if stage2 && decide (fieldOf e 11 9 > 4) then some 3
  else none

/-- The permission bits an access lacks at a leaf, as 0x11 reports them (06 R157, R166); zero when it is permitted. -/
def permBits (c : TCtx) (acc : Access) (stage2 : Bool) (r w x u : Bool) : Nat :=
  let need := match acc with
    | .load | .cmo => if r then 0 else 16
    | .store => if w then 0 else 32
    | .atomic => (if r then 0 else 16) + (if w then 0 else 32)
    | .fetch => if x then (if !stage2 && c.wxn && w then 256 else 0) else 64
  let usr := if stage2 || c.io then 0
    else if c.user then (if u then 0 else 128)
    else if u then (match acc with | .fetch => 128 | _ => if c.sum then 0 else 128)
    else 0
  need + usr
/-- An access that dirties a page (06 R164). -/
def Access.dirties : Access → Bool
  | .store | .atomic => true
  | _ => false
/-- The access-flag bits an access finds clear, as 0x12 reports them (06 R166). -/
def flagBits (acc : Access) (a d : Bool) : Nat := (if a then 0 else 512) + (if acc.dirties && !d then 1024 else 0)

/-- What a walk comes to. -/
inductive WRes where
  | need (pa : Nat) (nested st2 : Bool) (lvl : Nat)
  | fault (cause : Nat) (st2 : Bool) (lvl ipa b : Nat)
  | abort (kind : Nat) (st2 : Bool) (lvl pa : Nat)
  | upd (u : WalkUpd)
  | done (e : TlbEntry)
deriving DecidableEq, Repr

/-- A leaf as a stage of a walk finds it: its output, its level, the entry, the entry's address and what named that address (06 R165). -/
structure Leaf where
  out : Nat
  lvl : Nat
  entry : Word
  at_ : Nat
  st2 : Bool
  plvl : Nat
deriving DecidableEq, Repr

/-- The stage-2 walk of an IPA (06 R153 to R156, R165): the levels still to read, the table and the level that named it. -/
def s2Walk (ok : Nat → Bool) (rd : Nat → Option Word) (nested : Bool) (ipa : Nat) : List Nat → Nat → Nat → Leaf ⊕ WRes
  | [], _, _ => .inr (.fault 0x10 true 4 ipa 4)
  | lvl :: rest, table, plvl =>
    let pa := table + idxOf ipa lvl * 8
    if !ok pa then .inr (.abort 1 true plvl pa)
    else match rd pa with
      | none => .inr (.need pa nested true plvl)
      | some e =>
        if !bit e 0 then .inr (.fault 0x10 true lvl ipa 0)
        else if bit e 1 then
          if lvl = 4 then .inr (.fault 0x10 true lvl ipa 4) else s2Walk ok rd nested ipa rest (ppnOf e) lvl
        else match leafBad lvl e true with
          | some reason => .inr (.fault 0x10 true lvl ipa reason)
          | none => .inl { out := ppnOf e + ipa % 2 ^ leafBits lvl, lvl := lvl, entry := e, at_ := pa, st2 := true, plvl := plvl }

/-- The entry with the flags an access sets (06 R164). -/
def setFlags (acc : Access) (e : Word) : Word :=
  let e := e ||| 0x80
  if acc.dirties then e ||| 0x100 else e
/-- The compare-and-write that sets the flags of a leaf (06 R164). -/
def Leaf.update (l : Leaf) (acc : Access) : WalkUpd := { pa := l.at_, old := l.entry, new := setFlags acc l.entry, st2 := l.st2, lvl := l.plvl }

/-- Stage 2 of an IPA with its checks (06 R157, R164, R166): permissions, then the access flag. -/
def s2Translate (c : TCtx) (ok : Nat → Bool) (rd : Nat → Option Word) (nested : Bool) (acc : Access) (ipa : Nat) : Leaf ⊕ WRes :=
  if !inRange (rootL5 c.root2) ipa then .inr (.fault 0x10 true (startLevel c.root2) ipa 2)
  else match s2Walk ok rd nested ipa (rootLevels c.root2) (rootBase c.root2) 7 with
    | .inr r => .inr r
    | .inl l =>
      let p := permBits c acc true (bit l.entry 2) (bit l.entry 3) (bit l.entry 4) false
      let f := flagBits acc (bit l.entry 7) (bit l.entry 8)
      if p ≠ 0 then .inr (.fault 0x11 true l.lvl ipa p)
      else if f ≠ 0 then
        if c.had2 then .inr (.upd (l.update acc)) else .inr (.fault 0x12 true l.lvl ipa f)
      else .inl l

/-- How stage 2 maps the table page of a stage-1 entry: whether it may be written, the level of the leaf and the entry's IPA (06 R164). -/
structure TablePage where
  w : Bool
  lvl : Nat
  ipa : Nat
deriving DecidableEq, Repr

/-- The stage-1 walk (06 R161): each table address passes stage 2 where it applies. The last two operands name the entry whose
output gave the table address (06 R165). The answer is the leaf and how stage 2 maps its table page. -/
def s1Walk (c : TCtx) (ok : Nat → Bool) (rd : Bool → Nat → Option Word) (va : Nat) : List Nat → Nat → Nat → (Leaf × TablePage) ⊕ WRes
  | [], _, _ => .inr (.fault 0x10 false 4 0 4)
  | lvl :: rest, table, plvl =>
    let addr := table + idxOf va lvl * 8
    let tr : (Nat × Bool × Nat × Bool) ⊕ WRes :=
      if c.s2 then
        match s2Translate c ok (rd true) true .load addr with
        | .inr r => .inr r
        | .inl l =>
          if fieldOf l.entry 11 9 ≥ 2 then .inr (.abort 1 true l.lvl l.out)
          else .inl (l.out, true, l.lvl, bit l.entry 3)
      else .inl (addr, false, plvl, true)
    match tr with
    | .inr r => .inr r
    | .inl (pa, st2, from_, w2) =>
      if !ok pa then .inr (.abort 1 st2 from_ pa)
      else match rd false pa with
        | none => .inr (.need pa false st2 from_)
        | some e =>
          if !bit e 0 then .inr (.fault 0x10 false lvl 0 0)
          else if bit e 1 then
            if lvl = 4 then .inr (.fault 0x10 false lvl 0 4) else s1Walk c ok rd va rest (ppnOf e) lvl
          else match leafBad lvl e false with
            | some reason => .inr (.fault 0x10 false lvl 0 reason)
            | none =>
              .inl ({ out := ppnOf e + va % 2 ^ leafBits lvl, lvl := lvl, entry := e, at_ := pa, st2 := st2, plvl := from_ },
                { w := w2, lvl := from_, ipa := addr })

/-- A TLB entry that grants everything, before a stage fills its part. -/
def TlbEntry.open_ (c : TCtx) (vpn bits ppn : Nat) : TlbEntry :=
  { regime := c.regime, asid := rootTag c.root1, vmid := if c.s2 then rootTag c.root2 else 0, global := false, vpn := vpn, bits := bits,
    ppn := ppn, s1 := c.s1, s2 := c.s2, r1 := true, w1 := true, x1 := true, u1 := c.user, a1 := true, d1 := true, r2 := true,
    w2 := true, x2 := true, a2 := true, d2 := true, mtype := 0, s2type := 0, np := false, enclave := 0, eR := true, eW := true,
    eX := true, ipa := 0, lvl1 := 0, lvl2 := 0, odd := false }

/-- A walk of both stages for an access (06 R161, R164, R167). -/
def walkAll (c : TCtx) (ok : Nat → Bool) (rd : Bool → Nat → Option Word) (acc : Access) (va : Word) : WRes :=
  let va' := va.toNat % 2 ^ 57
  if !c.s1 then
    if !c.s2 then .fault 0x10 false 0 0 1
    else match s2Translate c ok (rd false) false acc va.toNat with
      | .inr r => r
      | .inl l =>
        let e := TlbEntry.open_ c (va.toNat / 2 ^ leafBits l.lvl) (leafBits l.lvl) (l.out / 2 ^ leafBits l.lvl)
        .done { e with r2 := bit l.entry 2, w2 := bit l.entry 3, x2 := bit l.entry 4, a2 := bit l.entry 7, d2 := bit l.entry 8,
                       s2type := BitVec.ofNat 3 (fieldOf l.entry 11 9), np := bit l.entry 60, global := true,
                       ipa := va.toNat / 2 ^ leafBits l.lvl * 2 ^ leafBits l.lvl, lvl2 := l.lvl }
  else if !canonical (rootL5 c.root1) va then .fault 0x10 false (startLevel c.root1) 0 1
  else match s1Walk c ok rd va' (rootLevels c.root1) (rootBase c.root1) 7 with
    | .inr r => r
    | .inl (l, table) =>
      let p := permBits c acc false (bit l.entry 2) (bit l.entry 3) (bit l.entry 4) (bit l.entry 5)
      let f := flagBits acc (bit l.entry 7) (bit l.entry 8)
      if p ≠ 0 then .fault 0x11 false l.lvl 0 p
      else if f ≠ 0 && !c.had then .fault 0x12 false l.lvl 0 f
      else if f ≠ 0 && !table.w then .fault 0x11 true table.lvl table.ipa 32
      else
        let b1 := leafBits l.lvl
        let part := fun (b : Nat) (out : Nat) =>
          { TlbEntry.open_ c (va.toNat / 2 ^ b) b (out / 2 ^ b) with
            global := bit l.entry 6, r1 := bit l.entry 2, w1 := bit l.entry 3, x1 := bit l.entry 4, u1 := bit l.entry 5
            a1 := bit l.entry 7, d1 := bit l.entry 8, mtype := BitVec.ofNat 3 (fieldOf l.entry 11 9), np := bit l.entry 60
            ipa := l.out / 2 ^ b * 2 ^ b, lvl1 := l.lvl }
        if !c.s2 then
          if f ≠ 0 then .upd (l.update acc) else .done (part b1 l.out)
        else match s2Translate c ok (rd false) false acc l.out with
          | .inr r => r
          | .inl m =>
            if f ≠ 0 then .upd (l.update acc)
            else
              let e := part (min b1 (leafBits m.lvl)) m.out
              .done { e with r2 := bit m.entry 2, w2 := bit m.entry 3, x2 := bit m.entry 4, a2 := bit m.entry 7, d2 := bit m.entry 8,
                             s2type := BitVec.ofNat 3 (fieldOf m.entry 11 9), np := e.np || bit m.entry 60,
                             lvl2 := m.lvl }

/-- An address range a walk may read: DRAM and CXL-attached memory (06 R162). -/
def walkable (pa : Nat) : Bool := decide (pa < 2 ^ 46)

/-! Memory types (06 R158 to R160). -/

/-- The rank of a MTYPE_MAP encoding (06 R160): GW counts as WB and GWU as NC. -/
def rankOfMap (code : Nat) : Nat :=
  match code with
  | 0x00 => 0 | 0x01 => 1 | 0x02 => 0 | 0x03 => 1 | 0x10 => 2 | 0x11 => 3 | _ => 4
/-- The MTYPE_MAP encoding of an index (06 R158). -/
def mtypeCode (map : Word) (i : Nat) : Nat := fieldOf map (8 * i + 7) (8 * i)
/-- The effective type of a rank at an address (06 R160). -/
def effType (rank pa : Nat) : MemType :=
  if pa ≥ 2 ^ 56 then (if rank = 0 then .gw else .gwu)
  else match rank with
    | 0 => .wb | 1 => .nc | 2 => .devP | 3 => .devN | _ => .devS
/-- The rank of an untranslated access (06 R149). -/
def rawRank (pa : Nat) : Nat := if pa < 2 ^ 46 then 0 else if pa ≥ 2 ^ 56 then 1 else 4
/-- The stage ranks of an entry and their maximum (06 R160). -/
def TlbEntry.ranks (e : TlbEntry) (map : Word) : Nat × Nat :=
  (if e.s1 then rankOfMap (mtypeCode map e.mtype.toNat) else 0, if e.s2 then e.s2type.toNat else 0)
/-- The effective rank of an entry. -/
def TlbEntry.rank (e : TlbEntry) (map : Word) : Nat := max (e.ranks map).1 (e.ranks map).2
/-- Device types. -/
def MemType.device : MemType → Bool
  | .devP | .devN | .devS => true
  | _ => false
/-- Global-window types. -/
def MemType.window : MemType → Bool
  | .gw | .gwu => true
  | _ => false

/-! TLB lookups (06 R168 to R170, 14 R345). -/

/-- An address lies in a thread's enclave range (14 R342, R344). -/
def EnclCtx.holds (e : EnclCtx) (va : Word) : Bool := decide (e.base.toNat ≤ va.toNat ∧ va.toNat < e.base.toNat + e.size.toNat)
/-- The tag an access of a thread carries (04 R96, 14 R344). -/
def Thread.tagAt (x : Thread) (va : Word) : Tag :=
  match x.encl with
  | some e => if e.holds va then e.id else 0
  | none => x.world
/-- The enclave tag a lookup must find (14 R345). -/
def Thread.lookupTag (x : Thread) (va : Word) : Tag :=
  match x.encl with
  | some e => if e.holds va then e.id else 0
  | none => 0
/-- An entry matches a lookup (06 R169, 14 R345). -/
def TlbEntry.hits (e : TlbEntry) (c : TCtx) (va : Word) (encl : Tag) : Bool :=
  e.regime == c.regime && (e.global || e.asid == rootTag c.root1) && (!c.s2 || e.vmid == rootTag c.root2) &&
    e.vpn == va.toNat / 2 ^ e.bits && e.enclave == encl && e.s1 == c.s1 && e.s2 == c.s2
/-- The cached permissions and flags permit the access (06 R157, R164, R170). -/
def TlbEntry.permits (e : TlbEntry) (c : TCtx) (acc : Access) : Bool :=
  (!e.s1 || (permBits c acc false e.r1 e.w1 e.x1 e.u1 == 0 && flagBits acc e.a1 e.d1 == 0)) &&
    (!e.s2 || (permBits c acc true e.r2 e.w2 e.x2 false == 0 && flagBits acc e.a2 e.d2 == 0))
/-- The enclave page map permits the access (14 R345). -/
def TlbEntry.epmPermits (e : TlbEntry) (acc : Access) : Bool :=
  e.enclave == 0 || (match acc with
    | .load | .cmo => e.eR
    | .store => e.eW
    | .atomic => e.eR && e.eW
    | .fetch => e.eX)
/-- The address an entry gives. -/
def TlbEntry.pa (e : TlbEntry) (va : Word) : Nat := e.ppn * 2 ^ e.bits + va.toNat % 2 ^ e.bits

/-- A fetch through an entry is refused by the effective type (08 R211). -/
def TlbEntry.noFetch (e : TlbEntry) (map va : Word) : Bool :=
  let t := effType (e.rank map) (e.pa va)
  t.device || t.window
/-- The stage that the syndrome of such a fetch names (08 R211). -/
def TlbEntry.noFetchSt2 (e : TlbEntry) (map va : Word) : Bool :=
  e.s2 && (!e.s1 || decide ((e.ranks map).2 > (e.ranks map).1) ||
    (decide (e.pa va ≥ 2 ^ 56) && decide (mtypeCode map e.mtype.toNat ≤ 1)))
/-- The fault of such a fetch: 0x11 with NEED_X (08 R211). -/
def TlbEntry.noFetchExc (e : TlbEntry) (x : Thread) (va : Word) (vec : Bool) : Exc :=
  let st2 := e.noFetchSt2 x.mtypeMap va
  Exc.trans 0x11 x.pc va .fetch st2 (if st2 then e.lvl2 else e.lvl1) (e.ipa + va.toNat % 2 ^ e.bits) 64 vec

/-- What translating one address comes to; epm: a translation that the enclave page map refuses (14 R349), which 0x18 precedes (04 R115). -/
inductive TRes where
  | ok (pa rank : Nat) (e : Option TlbEntry)
  | epm (pa rank : Nat) (e : Option TlbEntry) (reason : Nat)
  | need (pa : Nat) (nested st2 : Bool) (lvl : Nat)
  | upd (u : WalkUpd)
  | fault (e : Exc)
deriving DecidableEq, Repr

/-- Insert into a TLB of a capacity; where it is full a drawn entry leaves, among the thread's own under SMT_FIX (05 R146, 06 R168). -/
def tlbInsert (cap : Nat) (fix : Bool) (pick : Nat) (l : List TlbEntry) (e : TlbEntry) : List TlbEntry :=
  let own := (List.range l.length).filter (fun i => !fix || (l[i]?.map (·.odd)).getD false == e.odd)
  let cap := if fix then cap / 2 else cap
  if own.length < cap then e :: l else e :: listDrop l (own.getD (pick % own.length) 0)
/-- Insert into the L2 TLB (06 R168): 512 sets of 8 ways, the set by the low bits of the entry's page number (DESIGN CHOICE, log 3: the spec gives no
index). -/
def l2tlbInsert (fix : Bool) (pick : Nat) (l : List TlbEntry) (e : TlbEntry) : List TlbEntry :=
  let here := fun (q : TlbEntry) => q.vpn % 512 == e.vpn % 512
  tlbInsert 8 fix pick (l.filter here) e ++ l.filter (fun q => !here q)

/-- Install a translation in the L1 and L2 TLBs of the thread's core (06 R168, R169). -/
def State.tlbFill (s : State) (t : Nat) (fetch : Bool) (e : TlbEntry) : State :=
  let c := t / 2
  let fix := (s.core c).smtFix
  let e := { e with odd := t % 2 == 1 }
  let pick := Config.freeValue s.free
  (s.updCore c (fun k =>
    { k with
      itlb := if fetch then tlbInsert 48 fix pick k.itlb e else k.itlb
      dtlb := if fetch then k.dtlb else tlbInsert 64 fix pick k.dtlb e
      l2tlb := l2tlbInsert fix pick k.l2tlb e })).drawn

/-- An entry found in the L2 TLB or the pinned array enters the L1 TLB (06 R168). -/
def State.tlbPromote (s : State) (t : Nat) (fetch : Bool) (e : TlbEntry) : State :=
  let e := { e with odd := t % 2 == 1 }
  let pick := Config.freeValue s.free
  (s.updCore (t / 2) (fun k =>
    { k with
      itlb := if fetch then tlbInsert 48 k.smtFix pick k.itlb e else k.itlb
      dtlb := if fetch then k.dtlb else tlbInsert 64 k.smtFix pick k.dtlb e })).drawn

/-- Remove the entries a lookup hits from the ordinary TLBs (06 R170). -/
def Core.tlbDrop (k : Core) (c : TCtx) (va : Word) (encl : Tag) : Core :=
  let keep := fun (l : List TlbEntry) => l.filter (fun e => !e.hits c va encl)
  { k with itlb := keep k.itlb, dtlb := keep k.dtlb, l2tlb := keep k.l2tlb }

/-- What the walk in progress has read of an entry of a table. -/
def State.walkKnows (s : State) (t pa : Nat) : Option Word :=
  match (s.thr t).walk with
  | some w => (w.answers.find? (fun (p : Nat × Word) => p.1 == pa)).map Prod.snd
  | none => none
/-- What the walk in progress and the walk cache know of an entry of a table (06 R163). -/
def State.walkRead (s : State) (t : Nat) (c : TCtx) (nested : Bool) (pa : Nat) : Option Word :=
  match s.walkKnows t pa with
  | some v => some v
  | none => ((s.core (t / 2)).walkCache.find? (fun (e : WalkEntry) => e.pa == pa && e.regime == c.regime && (!c.s2 || e.vmid == rootTag c.root2) &&
      (!e.nested || nested))).map WalkEntry.value

/-- A fault of a walk as an exception of the thread. -/
def WRes.exc (r : WRes) (x : Thread) (va : Word) (acc : Access) (vec : Bool) : Exc :=
  match r with
  | .fault cause st2 lvl ipa b => Exc.trans cause x.pc va acc st2 lvl ipa b vec
  | .abort kind st2 lvl pa => Exc.walk x.pc va acc st2 lvl kind pa vec
  | _ => Exc.plain 0x10 x.pc

/-- The enclave page map entry of a page of an enclave (14 R343). -/
def State.epmEntry (s : State) (e : EnclCtx) (va : Word) : Word := s.cohWord (e.epm + (va.toNat - e.base.toNat) / 4096 * 8)

/-- Check a translation of an enclave page against the map (14 R345, R349); the entry then carries the ID, or the reason of 0x19. -/
def State.epmCheck (s : State) (c : EnclCtx) (va : Word) (acc : Access) (e : TlbEntry) : TlbEntry ⊕ Nat :=
  let m := s.epmEntry c va
  let pa := e.pa va
  let addr := c.epm + (va.toNat - c.base.toNat) / 4096 * 8
  if s.cohPoison addr 8 || !s.guardOk addr 0xFFF true false then .inr 7
  else if !bit m 63 then .inr 1
  else if pa / 4096 ≠ fieldOf m 56 12 ∨ pa ≥ 2 ^ 45 then .inr 2
  else
    let e := { e with bits := 12, vpn := va.toNat / 4096, ppn := pa / 4096, enclave := c.id, eR := bit m 59, eW := bit m 60, eX := bit m 61 }
    if bit m 62 || !e.epmPermits acc then .inr 3 else .inl e

/-- The walk as far as it knows entries. A fault that rests on the walk cache is none until the entries read by the walk itself give it too
(06 R163, R170). -/
def State.walkRes (s : State) (t : Nat) (c : TCtx) (va : Word) (acc : Access) : WRes :=
  match walkAll c walkable (s.walkRead t c) acc va with
  | .fault .. | .abort .. => walkAll c walkable (fun _ pa => s.walkKnows t pa) acc va
  | r => r

/-- The walk, with the pinned entries that a fault of it removes (06 R170). -/
def State.walkFor (s : State) (t : Nat) (c : TCtx) (va : Word) (acc : Access) (vec : Bool) (pins : List TlbEntry) : State × TRes :=
  let x := s.thr t
  let encl := x.lookupTag va
  let pinned := pins.any (fun e => e.hits c va encl)
  let unpin := fun (s : State) => if pinned then
      s.updCore (t / 2) (fun k => { k with pinned := k.pinned.filter (fun e => !e.hits c va encl), tlbUnpinned := true })
    else s
  let s := s.updCore (t / 2) (fun k => k.tlbDrop c va encl)
  match s.walkRes t c va acc with
  | .need pa n st2 lvl => (s, .need pa n st2 lvl)
  | .upd u => (s, .upd u)
  | .done e =>
    let e' : TlbEntry ⊕ Nat := match x.encl with
      | some k => if k.holds va then s.epmCheck k va acc e else .inl e
      | none => .inl e
    match e' with
    | .inr reason => (unpin s, .epm (e.pa va) (e.rank x.mtypeMap) (some e) reason)
    | .inl e =>
      if acc == .fetch && e.noFetch x.mtypeMap va then (unpin s, .fault (e.noFetchExc x va vec)) else
      let s := s.tlbFill t (acc == .fetch) e
      let s := if pinned then
          s.updCore (t / 2) (fun k => { k with pinned := k.pinned.map (fun q => if q.hits c va encl then e else q) })
        else s
      (s, .ok (e.pa va) (e.rank x.mtypeMap) (some e))
  | r => (unpin s, .fault (r.exc x va acc vec))

/-- Translate one address of a thread (06 R148 to R170): TLBs and pinned array first, then the walk as far as it knows entries. -/
def State.translate (s : State) (t : Nat) (va : Word) (acc : Access) (vec : Bool) : State × TRes :=
  let x := s.thr t
  let c := x.tctx
  let fetch := acc == .fetch
  if !c.s1 && !c.s2 then
    if va.toNat ≥ 2 ^ 57 then (s, .fault (Exc.trans 0x10 x.pc va acc false 0 0 1 vec))
    else if fetch && (effType (rawRank va.toNat) va.toNat).device || fetch && (effType (rawRank va.toNat) va.toNat).window then
      (s, .fault (Exc.trans 0x11 x.pc va acc false 0 0 64 vec))
    else (s, .ok va.toNat (rawRank va.toNat) none)
  else
    let k := s.core (t / 2)
    let encl := x.lookupTag va
    let l1 := (if fetch then k.itlb else k.dtlb).find? (fun e => e.hits c va encl)
    let pin := k.pinned.find? (fun e => e.hits c va encl)
    let l2 := k.l2tlb.find? (fun e => e.hits c va encl)
    let s := if x.walk.isSome then s else
      let s := if l1.isNone && !fetch then s.pmc t 0x20 else s
      let s := if l1.isNone && pin.isSome then s.pmc t 0x23 else s
      if l1.isNone && pin.isNone && l2.isNone then s.pmc t 0x21 else s
    match l1.or (pin.or l2) with
    | some e =>
      if e.permits c acc && !(fetch && e.noFetch x.mtypeMap va) then
        if e.epmPermits acc then (if l1.isSome then s else s.tlbPromote t fetch e, .ok (e.pa va) (e.rank x.mtypeMap) (some e))
        else (s, .epm (e.pa va) (e.rank x.mtypeMap) (some e) 3)
      else s.walkFor t c va acc vec (s.core (t / 2)).pinned
    | none => s.walkFor t c va acc vec []

end Sys2Proof.Machine
end

