-- ==== Sys2Proof/Machine/Caches.lean ====
section
/-! DEFINITION. The caches of a core: L1 and L2 lines, victims and requests, the Galley with its Hellbox and write-back queue, and prefetch streams (08, 09 R232). -/

namespace Sys2Proof.Machine

/-! L1 and L2 (08 R207, R209; 09 R232). -/

/-- An L1 holds a line. -/
def l1Has (l : List L1Line) (line : Nat) : Bool := l.any (fun x => x.line == line)
/-- An L1 without a line. -/
def l1Less (l : List L1Line) (line : Nat) : List L1Line := l.filter (fun x => x.line != line)
/-- Insert a line into an L1 of a number of sets, in one of some ways: a free one, else that of a drawn line, which leaves (08 R207). -/
def l1Insert (sets : Nat) (ways : List Nat) (pick : Nat) (l : List L1Line) (line : Nat) : List L1Line :=
  let same := l.filter (fun x => x.line % sets == line % sets)
  match ways.find? (fun w => same.all (fun x => x.way != w)) with
  | some w => { line := line, way := w } :: l
  | none =>
    let mine := same.filter (fun x => ways.contains x.way)
    match mine[pick % mine.length]? with
    | some v => { line := line, way := v.way } :: l1Less l v.line
    | none => l
/-- The ways of a level of n ways that a thread may fill (05 R146). -/
def Core.waysOf (c : Core) (t n : Nat) : List Nat :=
  if c.smtFix then (List.range (n / 2)).map (fun w => w + if t % 2 = 0 then 0 else n / 2) else List.range n
/-- The line of an L2. -/
def Core.l2Line (c : Core) (line : Nat) : Option L2Line := Tbl.get none c.l2 line
/-- An L2 line whose data the core may read (09 R232). -/
def L2Line.readable (l : L2Line) : Bool :=
  match l.st with
  | .m | .o | .e | .s | .smA _ => true
  | _ => false
/-- An L2 line that permits writing (09 R232). -/
def L2Line.writable (l : L2Line) : Bool :=
  match l.st with
  | .m | .e => true
  | _ => false
/-- Put an L2 line; the L1 copies leave with a line that is no longer readable (08 R209). -/
def Core.setL2 (c : Core) (line : Nat) (l : Option L2Line) : Core :=
  let keep := match l with | some x => x.readable | none => false
  let drop := fun (xs : List L1Line) => if keep then xs else l1Less xs line
  { c with l2 := Tbl.set none c.l2 line l, l1i := drop c.l1i, l1d := drop c.l1d }
/-- The L2 takes no new line: it is disabled or being emptied (08 R225, R226). -/
def Core.l2Off (c : Core) : Bool :=
  !bit c.cacheCtl 2 || (match c.emptying with | some (_, w) => !bit w 2 | none => false)
/-- The Galley takes no line: it is disabled or being emptied (08 R225, R226). -/
def Core.galOff (c : Core) : Bool :=
  !bit c.cacheCtl 3 || (match c.emptying with | some (_, w) => !bit w 3 | none => false)
/-- The L1D takes lines: not while it is being emptied (08 R225, R226). -/
def Core.l1dOn (c : Core) : Bool := bit c.cacheCtl 1 && !c.l2Off && (match c.emptying with | some (_, w) => bit w 1 | none => true)
/-- The L1I takes lines: not while it is being emptied (08 R225, R226). -/
def Core.l1iOn (c : Core) : Bool := bit c.cacheCtl 0 && !c.l2Off && (match c.emptying with | some (_, w) => bit w 0 | none => true)

/-- The die of a core. -/
def dieOfCore (c : Nat) : Nat := c / 32

/-! The mirror buffer of an L2 (13 R330). -/

/-- The mirror buffer or an unacknowledged mirror write names the line. -/
def Core.mirrorBusy (k : Core) (line : Nat) : Bool := k.mirror.any (fun e => e.line == line) || k.mirrorOut.any (fun o => o.line == line)

/-- An entry of the mirror buffer is sent to the line's controller. -/
def State.mirrorSend (s : State) (c : Nat) (e : MirrorEntry) : State :=
  let s := s.freshTid
  let s := s.updCore c (fun k => { k with
    mirror := k.mirror.filter (fun q => q.line != e.line), mirrorOut := k.mirrorOut ++ [{ tid := s.nextTid, line := e.line, wr := e.wr, stamp := s.stamp (dieOfCore c) }] })
  s.send { Flit.blank .wrNc (.core (coreId c)) (s.endpoint (e.line * 64)) with
    tid := s.nextTid, line := e.line, world := e.world, mask := e.mask, data := e.data, acc := .dma }
/-- The entry of a line, if there is one, is sent before the line leaves. -/
def State.mirrorLine (s : State) (c line : Nat) : State :=
  match (s.core c).mirror.find? (fun e => e.line == line) with
  | some e => s.mirrorSend c e
  | none => s
/-- A store performed in the L2 of a MIRRORED package enters the buffer, merged by line; a full buffer sends its oldest entry. -/
def State.mirrorStore (s : State) (c t line : Nat) (world : Tag) (data : LineData) (mask : BitVec 64) : State :=
  let me : BitVec 2 := if t % 2 = 0 then 1 else 2
  if !s.mirrored then s
  else match (s.core c).mirror.find? (fun e => e.line == line) with
    | some e =>
      let e' := { e with data := mergeLine e.data data mask, mask := e.mask ||| mask, wr := e.wr ||| me }
      s.updCore c (fun k => { k with mirror := k.mirror.map (fun q => if q.line = line then e' else q) })
    | none =>
      let s := if (s.core c).mirror.length < 16 then s else match (s.core c).mirror with
        | e :: _ => s.mirrorSend c e
        | [] => s
      s.updCore c (fun k => { k with mirror := k.mirror ++ [{ line := line, world := world, data := data, mask := mask, wr := me }] })
/-- The victim of an L2 enters VI_A and leaves for the die snoop filter (09 R232). -/
def State.l2Evict (s : State) (c line : Nat) : State :=
  let s := s.mirrorLine c line
  match (s.core c).l2Line line with
  | some l =>
    let go := fun (dirty : Bool) =>
      (s.updCore c (fun k => k.setL2 line (some { l with st := .viA dirty, stamp := s.stamp (dieOfCore c) }))).send
        { Flit.blank (if dirty then .wbD else .evictC) (.core (coreId c)) (.filter (dieOfCore c)) with
          cls := 2, line := line, world := l.world, data := l.data, poison := l.poison, dirty := dirty }
    match l.st with
    | .m | .o => go true
    | .e | .s => go false
    | _ => s
  | none => s

/-- The lines of an L2 set that hold a way (a victim in VI_A has left its way). -/
def Core.l2Set (c : Core) (set : Nat) : List (Nat × L2Line) :=
  c.l2.filterMap (fun p => match p.2 with
    | some l => if p.1 % 1024 = set then (match l.st with | .viA _ => none | _ => some (p.1, l)) else none
    | none => none)
/-- Make room for a line and place it: a free way, or a drawn victim among the lines that can leave (08 R207), for which no mirror write is
due (13 R330); none where none can. -/
def State.l2Place (s : State) (c t line : Nat) (mk : Nat → L2Line) : Option State :=
  let k := s.core c
  let set := k.l2Set (line % 1024)
  let ways := k.waysOf t 16
  match ways.find? (fun w => set.all (fun p => p.2.way != w)) with
  | some w => some (s.updCore c (fun k => k.setL2 line (some (mk w))))
  | none =>
    let can := set.filter (fun p => ways.contains p.2.way &&
      (match p.2.st with | .m | .o | .e | .s => true | _ => false) && !k.mirrorBusy p.1)
    match can[s.draw can.length]? with
    | some (v, l) => some ((s.drawn.l2Evict c v).updCore c (fun k => k.setL2 line (some (mk l.way))))
    | none => none

/-- A fresh line waiting for its request's answers (09 R232). -/
def L2Line.waiting (st : L2State) (world : Tag) (fromM pf : Bool) (stamp : Word) (way : Nat) : L2Line :=
  { st := st, world := 0, data := 0, poison := false, way := way, prefetch := pf, need := none, got := 0, granted := false,
    reqWorld := world, fromM := fromM, stamp := stamp }

/-- Send a coherence request of a core for a line through its die snoop filter (09 R239). -/
def State.l2Send (s : State) (c t line : Nat) (op : Op) (world : Tag) (fromM pf : Bool) : State :=
  let s := s.freshTid
  s.send { Flit.blank op (.core (coreId c)) (.filter (dieOfCore c)) with
    cls := if pf then 0 else 1, thr := some (thrOf t), tid := s.nextTid, line := line, world := world, fromM := fromM, pf := pf }

/-- Ask for a line, readable or writable, unless a request for it is out (09 R232, R253). -/
def State.l2Request (s : State) (c t line : Nat) (excl : Bool) (world : Tag) (fromM pf : Bool) : State :=
  match (s.core c).l2Line line with
  | some l =>
    let up := fun (o : Bool) =>
      (s.updCore c (fun k => k.setL2 line (some { l with st := .smA o, need := none, got := 0, granted := false,
                                                         reqWorld := world, fromM := fromM,
                                                         stamp := s.stamp (dieOfCore c) }))).l2Send c t line .upg world fromM pf
    match l.st with
    | .s => if excl then up false else s
    | .o => if excl then up true else s
    | _ => s
  | none =>
    match s.l2Place c t line (L2Line.waiting (if excl then .imAd else .isD) world fromM pf (s.stamp (dieOfCore c))) with
    | some s => (s.pmc t 0x13).l2Send c t line (if excl then .rdU else .rdS) world fromM pf
    | none => s

/-! The Galley (08 R213 to R220). -/

/-- The Galley entry of a line. -/
def Core.galEntry (c : Core) (line : Nat) : Option GalEntry := c.galley.find? (fun e => e.tag == line)
/-- The Hellbox entry of a line. -/
def Core.hellEntry (c : Core) (line : Nat) : Option GalEntry := c.hellbox.find? (fun e => e.tag == line)
/-- Replace or add the Galley entry of a line, with the parity of its data. -/
def Core.setGal (c : Core) (e : GalEntry) : Core :=
  let e := { e with parity := lineParity e.data }
  { c with galley := if c.galley.any (fun x => x.tag == e.tag) then c.galley.map (fun x => if x.tag = e.tag then e else x) else e :: c.galley }
/-- Remove a line from the Galley and the Hellbox; a lock that goes with it sets UNLOCKED (08 R220). -/
def Core.galRemove (c : Core) (line : Nat) : Core :=
  let locked := match c.galEntry line with | some e => e.lock | none => false
  { c with galley := c.galley.filter (fun x => x.tag != line), hellbox := c.hellbox.filter (fun x => x.tag != line)
           galUnlocked := c.galUnlocked || locked }
/-- Locked entries (08 R219). -/
def Core.locked (c : Core) : Nat := (c.galley.filter (fun e => e.lock)).length

/-- Send the write-back of an entry's DIRTY bytes (08 R215, R216); none where the queue of four is full. -/
def State.galPush (s : State) (c : Nat) (e : GalEntry) : Option State :=
  if e.dirty = 0 then some s
  else if (s.core c).galWb.length ≥ 4 then none
  else
    let s := s.freshTid
    let s := s.updCore c (fun k => { k with galWb := k.galWb ++ [{ entry := e, tid := s.nextTid, stamp := s.stamp (dieOfCore c) }] })
    some (s.send { Flit.blank .wrNc (.core (coreId c)) .gwHub with
      tid := s.nextTid, line := e.tag, world := e.world, mask := e.dirty, data := e.data, poison := e.poison, acc := .galWb })

/-- The first of n places that no entry of a list takes. -/
def freePlace (n : Nat) (l : List GalEntry) : Option Nat := (List.range n).find? (fun w => l.all (fun x => x.way != w))
/-- Put an entry into the Galley: a free place, else that of an unlocked victim, drawn among those that a prefetch placed least recently used (08 R221) or, with none,
among all, which moves to a free place of the Hellbox or to that of
the oldest there, which leaves (08 R215); none where its write-back finds the queue full. -/
def State.galAlloc (s : State) (c : Nat) (e : GalEntry) : Option State :=
  let k := s.core c
  match freePlace 48 k.galley with
  | some w => some (s.updCore c (fun k => k.setGal { e with way := w }))
  | none =>
    let aged := k.galley.filter (fun x => !x.lock && x.aged)
    let free := if aged.isEmpty then k.galley.filter (fun x => !x.lock) else aged
    match free[s.draw free.length]? with
    | none => none
    | some v =>
      let s := s.drawn
      let put := fun (s : State) (w : Nat) => s.updCore c (fun k =>
        { k with galley := { e with way := v.way, parity := lineParity e.data } :: k.galley.filter (fun x => x.tag != v.tag), hellbox := k.hellbox ++ [{ v with way := w }] })
      match freePlace 8 k.hellbox, k.hellbox with
      | some w, _ => some (put s w)
      | none, h :: r => (s.galPush c h).map (fun s => put (s.updCore c (fun k => { k with hellbox := r })) h.way)
      | none, [] => none

/-- Bring a line of the Hellbox back into the Galley (08 R214): the victim it displaces takes the freed place. -/
def State.galRecall (s : State) (c line : Nat) : State :=
  match (s.core c).hellEntry line with
  | some e =>
    let s := s.updCore c (fun k => { k with hellbox := k.hellbox.filter (fun x => x.tag != line) })
    let had := (s.core c).hellbox
    let s := (s.galAlloc c { e with lock := false }).getD s
    s.updCore c (fun k => { k with hellbox := k.hellbox.map (fun x => if had.any (fun y => y.tag == x.tag) then x else { x with way := e.way }) })
  | none => s

/-- Write back and remove a line before an access that bypasses the Galley issues (08 R214); none while the queue is full. -/
def State.galFlush (s : State) (c line : Nat) : Option State :=
  let s := s.galRecall c line
  match (s.core c).galEntry line with
  | some e => (s.galPush c e).map (fun s => s.updCore c (fun k => k.galRemove line))
  | none => some s
/-- A write-back of the line is not yet acknowledged. -/
def Core.galBusy (c : Core) (line : Nat) : Bool := c.galWb.any (fun w => w.entry.tag == line)

/-- Merge a line read from the target: bytes not DIRTY are filled and FULL is set (08 R214). -/
def GalEntry.fill (e : GalEntry) (d : LineData) (poison : Bool) : GalEntry :=
  { e with data := mergeLine d e.data e.dirty, full := true, poison := e.poison || poison }
/-- An entry for a line read from the target. -/
def GalEntry.read (line : Nat) (world : Tag) (d : LineData) (poison : Bool) : GalEntry :=
  { way := 0, tag := line, world := world, full := true, lock := false, dirty := 0, wr := 0, poison := poison, data := d, parity := 0, aged := false }
/-- Write bytes of an entry (08 R214): DIRTY and the thread's WR bit. -/
def GalEntry.store (e : GalEntry) (t off size : Nat) (v : Word) : GalEntry :=
  { e with data := mergeLine e.data (placeVal v off) (byteMask off size), dirty := e.dirty ||| byteMask off size
           wr := e.wr ||| (if t % 2 = 0 then 1 else 2), aged := false }
/-- Every byte of a range is present (08 R214). -/
def GalEntry.present (e : GalEntry) (off size : Nat) : Bool := e.full || e.dirty &&& byteMask off size == byteMask off size

/-! Prefetch streams (08 R221). -/

/-- Train the stream of a load: thread and PC[19:2] key it, the least recently used leaves. -/
def State.train (s : State) (t pa : Nat) (gw : Bool) (va : Word) (world : Tag) : State :=
  let key := fieldOf (s.thr t).pc 19 2
  s.updCore (t / 2) (fun k =>
    let odd := t % 2 == 1
    let mine := fun (x : Stream) => x.thr == odd && x.key == key
    let st : Stream := match k.streams.find? mine with
      | some x =>
        let d : Int := pa - x.last
        let ok := decide (d ≠ 0 ∧ d.natAbs ≤ 2048)
        { x with last := pa, stride := d, gw := gw, va := va, world := world,
                 count := if ok && d == x.stride then x.count + 1 else if ok then 1 else 0 }
      | none => { thr := odd, key := key, last := pa, stride := 0, count := 0, gw := gw, world := world, va := va }
    { k with streams := (st :: k.streams.filter (fun x => !mine x)).take 16 })

end Sys2Proof.Machine
end

