-- ==== Sys2Proof/Machine/Retire.lean ====
section
/-! DEFINITION. What every instruction shares: the walk it may start, the fetch at its PC, breakpoints, retirement and single step (03 R66, R67; 04 R111, R115, R129, R131; 06 R161). -/

namespace Sys2Proof.Machine

/-- The cores and slices that hold a line, by the world tag of the first copy found (14 R335). -/
def State.copyWorld (s : State) (line : Nat) : Option Tag :=
  let inL2 := firstIn s.cores (fun _ c => match Tbl.get none c.l2 line with
    | some l => if l.hasData then some l.world else none
    | none => none)
  let inL3 := firstIn s.dies (fun _ d => match Tbl.get none d.l3 line, Tbl.get none d.l3wb line with
    | some l, _ => some l.world
    | none, some l => some l.world
    | none, none => none)
  inL2.or (inL3.or ((Tbl.get none s.atoms line).map (fun a => a.world)))

/-! Walks (06 R161 to R165). -/

/-- The tag of a walk's reads (06 R162). -/
def Thread.walkWorld (x : Thread) : Tag := if x.secure then 0xFFF else 0
/-- An empty walk for an access. -/
def Walk.start (va : Word) (acc : Access) : Walk := { va := va, acc := acc, answers := [], upd := none, tid := 0, stamp := 0, line := none }
/-- The walk in progress, or a new one for an access (19 R426: a new walk is counted). -/
def State.walkOf (s : State) (t : Nat) (va : Word) (acc : Access) : State × Walk :=
  match (s.thr t).walk with
  | some w => if w.va = va && w.acc = acc then (s, w) else ((s.updThr t Thread.noWalk).pmc t 0x22, Walk.start va acc)
  | none => (s.pmc t 0x22, Walk.start va acc)

/-- Keep a table entry or a nested leaf in the walk cache; of 64 a drawn one leaves (06 R163). -/
def State.walkKeep (s : State) (t pa : Nat) (nested : Bool) (v : Word) : State :=
  let c := (s.thr t).tctx
  let e : WalkEntry := { regime := c.regime, vmid := if c.s2 then rootTag c.root2 else 0, pa := pa, value := v, nested := nested && !bit v 1 }
  if bit v 0 && (bit v 1 || nested) then
    let l := (s.core (t / 2)).walkCache.filter (fun (x : WalkEntry) => !(x.pa == pa && x.regime == e.regime && x.vmid == e.vmid))
    if l.length < 64 then s.updCore (t / 2) (fun k => { k with walkCache := e :: l })
    else (s.updCore (t / 2) (fun k => { k with walkCache := e :: listDrop l (s.draw l.length) })).drawn
  else s

/-- Send an operand block to the home of a line (09 R251, R252). -/
def State.sendAtomH (s : State) (t pa : Nat) (acc : AccClass) (world : Tag) (op : AmoOp) (size : Nat) (a b : Word) : State × Nat :=
  let c := t / 2
  let s := s.freshTid
  (s.send { Flit.blank .atomH (.core (coreId c)) (s.homeOf (dieOfCore c) (pa / 64)) with
    thr := some (thrOf t), tid := s.nextTid, line := pa / 64, world := world, acc := acc, func := op, size := size, dword := size == 8
    opA := a, opB := b, mask := byteMask (pa % 64) size, data := placeVal a (pa % 64), fromM := (s.thr t).level == .m }, s.nextTid)

/-- Issue the read of a table entry through the core's L2 (06 R162), or at home where the L2 is off (08 R225). -/
def State.walkIssue (s : State) (t : Nat) (va : Word) (acc : Access) (pa : Nat) : State :=
  let (s, w) := s.walkOf t va acc
  let c := t / 2
  let world := (s.thr t).walkWorld
  let s := s.updThr t (fun x => { x with walk := some w })
  match (s.core c).l2Line (pa / 64) with
  | some _ => s
  | none =>
    if (s.core c).l2Off then
      if w.tid ≠ 0 || (match w.line with | some (l, _) => l == pa / 64 | none => false) then s
      else
        let (s, tid) := s.sendAtomH t pa .walk world .read 64 0 0
        s.updThr t (fun x => { x with walk := some { w with tid := tid, pa := pa, stamp := s.stamp (dieOfThr t) } })
    else s.l2Request c t (pa / 64) false world false false

/-- Issue the compare-and-write of A and D to the home of the entry (06 R164). -/
def State.walkUpdate (s : State) (t : Nat) (va : Word) (acc : Access) (u : WalkUpd) : State :=
  let (s, w) := s.walkOf t va acc
  match w.upd with
  | some _ => s
  | none =>
    let (s, tid) := s.sendAtomH t u.pa .walk (s.thr t).walkWorld .cas 8 u.old u.new
    s.updThr t (fun x => { x with walk := some { w with upd := some u, tid := tid, pa := u.pa, stamp := s.stamp (dieOfThr t) } })

/-- What translating an address comes to for an instruction. -/
inductive XRes where
  | ok (pa rank : Nat) (e : Option TlbEntry)
  | wait
  | fault (e : Exc)
deriving DecidableEq, Repr

/-- The walk of an access has ended: it is forgotten, and one for another address of the instruction goes on (06 R167). -/
def Thread.walkDone (x : Thread) (va : Word) (acc : Access) : Thread :=
  match x.walk with
  | some w => if w.va = va && w.acc = acc then x.noWalk else x
  | none => x
/-- Translate for an instruction, issuing what the walk needs next; a finished walk is forgotten. A refusal of the enclave page map is 0x19. -/
def State.xlate (s : State) (t : Nat) (va : Word) (acc : Access) (vec : Bool) : State × XRes :=
  match s.translate t va acc vec with
  | (s, .ok pa rank e) => (s.updThr t (fun x => x.walkDone va acc), .ok pa rank e)
  | (s, .epm _ _ _ reason) => (s.updThr t Thread.noWalk, .fault (Exc.enclave (s.thr t).pc va reason))
  | (s, .fault e) => (s.updThr t Thread.noWalk, .fault e)
  | (s, .need pa _ _ _) => (s.walkIssue t va acc pa, .wait)
  | (s, .upd u) => (s.walkUpdate t va acc u, .wait)

/-! Checks that end in an error record and a precise cause (01 R30; 12 R305; 14 R336, R337). -/

/-- A tag mismatch: the record WORLD_MISMATCH at an agent and 0x18 with REASON 0 (14 R336). -/
def State.mismatch (s : State) (t : Nat) (a : Agent) (tag : Tag) (va : Word) (pa : Nat) (acc : Access) (vec : Bool) : State × Exc :=
  (s.logError a codeWorldMismatch 3 tag (some pa) (some (thrOf t)), Exc.region (s.thr t).pc va pa acc false vec)
/-- A guard refusal: its record and 0x18 with REASON 1 (12 R305). -/
def State.refused (s : State) (t : Nat) (tag : Tag) (va : Word) (pa : Nat) (acc : Access) (vec : Bool) : State × Exc :=
  (s.logError (.mem (s.chanOf pa)) codeGrdRefused 3 tag (some pa) (some (thrOf t)), Exc.region (s.thr t).pc va pa acc true vec)
/-- An unbacked address: the record NO_TARGET and 0x28 for the consumer (01 R30). -/
def State.noTarget (s : State) (t : Nat) (a : Agent) (tag : Tag) (va : Word) (pa : Nat) (acc : Access) (vec : Bool) : State × Exc :=
  let (s, loc) := s.errorAt a codeNoTarget 3 tag (some pa) (some (thrOf t))
  (s, Exc.poison (s.thr t).pc va pa acc loc vec)
/-- The address has memory behind it (01 R29). -/
def State.backed (s : State) (pa : Nat) : Bool :=
  match s.region pa with
  | .dram off => s.dramBacked off
  | .partner _ => !s.pairLost
  | .cxl off => (s.cxlSub off).isSome
  | _ => false

/-! Fetch (05, 08 R211, 04 R111). -/

/-- What the fetch of an instruction comes to. -/
inductive FRes where
  | ok
  | wait
  | fault (e : Exc)
deriving DecidableEq, Repr

/-- The request of a fetch is left: an answer still due to it is dropped. -/
def Thread.fetchLeft (x : Thread) : Thread :=
  match x.fetchReq with
  | some r => { x with fetchReq := none, lefts := if r.tid = 0 then x.lefts else x.lefts ++ [{ tid := r.tid, pa := r.pa, stamp := r.stamp }] }
  | none => x
/-- The thread leaves the instruction in progress, or its fetch, for an interrupt: it is executed again after the return (04 R122). An answer still due
to a read is dropped; an access performed exactly once is kept for the instruction (07 R197; DESIGN CHOICE, log 26). -/
def Thread.leaveOp (x : Thread) : Thread :=
  let x := x.fetchLeft
  match x.memOp with
  | some m =>
    if m.once then { x with kept := x.kept ++ [{ pc := x.pc, level := x.level, world := x.world, root1 := x.root1, op := m }] }
    else match m.want with
    | some pa => if m.tid = 0 then x else { x with lefts := x.lefts ++ [{ tid := m.tid, pa := pa, stamp := m.stamp }] }
    | none => x
  | none => x

/-- The thread takes an interrupt at a level: the instruction in progress has not executed (04 R120, R122). -/
def State.takeInt (s : State) (t : Nat) (q : Nat × Level) : State :=
  (s.updThr t Thread.leaveOp).takeExc t { Exc.plain (intCause q.1) (s.thr t).pc with b := BitVec.ofNat 32 q.1, route := some q.2 }
/-- An exception of an instruction in progress: where an interrupt is ready at the same boundary, the interrupt is taken and the instruction has not
executed (04 R122). -/
def State.raises (s : State) (t : Nat) (e : Exc) : State :=
  match (s.thr t).nextInt false with
  | some q => s.takeInt t q
  | none => s.takeExc t e
/-- A fetch waits for a line, of the L2 (transaction 0) or by a request of its own. -/
def State.fetchWaits (s : State) (t pa tid : Nat) (tag : Tag) : State :=
  s.updThr t (fun x => { x.fetchLeft with fetchReq := some { pa := pa, tid := tid, world := tag, stamp := s.stamp (dieOfThr t) } })
/-- The fetch already waits for a line. -/
def Thread.fetching (x : Thread) (line : Nat) (own : Bool) : Bool :=
  match x.fetchReq with
  | some r => r.pa / 64 == line && (r.tid != 0) == own
  | none => false
/-- A fetch through the thread's buffer (08 R211, R225): NC memory is read at its end point, WB memory at its home while the L2 is off. -/
def State.fetchBuffer (s : State) (t pa : Nat) (tag : Tag) (nc : Bool) : State × FRes :=
  let x := s.thr t
  let line := pa / 64
  if x.fetchBuf = some (line, tag) then (s.updThr t Thread.fetchLeft, .ok)
  else if x.fetching line true then (s, .wait)
  else if nc then
    let s := s.freshTid
    let f : Flit := { Flit.blank .rdNc (.core (coreId (t / 2))) (s.endpoint pa) with
      thr := some (thrOf t), tid := s.nextTid, line := line, world := tag, size := 64, mask := byteMask 0 64, acc := .nc, fromM := x.level == .m }
    ((s.send f).fetchWaits t pa s.nextTid tag, .wait)
  else
    let (s, tid) := s.sendAtomH t (line * 64) .nc tag .read 64 0 0
    (s.fetchWaits t pa tid tag, .wait)
/-- A fetch through the L1I and the L2 (08 R207, R211), with the checks where its data is used (14 R336). -/
def State.fetchCache (s : State) (t pa : Nat) (tag : Tag) (vec : Bool) : State × FRes :=
  let x := s.thr t
  let c := t / 2
  let k := s.core c
  let line := pa / 64
  let s := if l1Has k.l1i line || x.fetching line false then s else s.pmc t 0x10
  match k.l2Line line with
  | none => ((s.l2Request c t line false tag (x.level == .m) false).fetchWaits t pa 0 tag, .wait)
  | some l =>
    if !l.readable then (s.fetchWaits t pa 0 tag, .wait)
    else
      let s := s.updThr t Thread.fetchLeft
      if x.level ≠ .m && l.world ≠ tag then
        let (s, e) := s.mismatch t (.core (coreId c)) tag x.pc pa .fetch vec
        (s, .fault e)
      else if l.poison then (s, .fault (Exc.poison x.pc x.pc pa .fetch (s.poisonLoc line) vec))
      else if k.l1iOn && !l1Has k.l1i line then
        ((s.updCore c (fun k => { k with l1i := l1Insert 256 (k.waysOf t 4) (Config.freeValue s.free) k.l1i line })).drawn, .ok)
      else (s, .ok)
/-- The line an instruction is fetched from, by the effective type of its page (08 R211). -/
def State.fetchLine (s : State) (t pa : Nat) (tag : Tag) (vec nc : Bool) : State × FRes :=
  if nc || (s.core (t / 2)).l2Off then s.fetchBuffer t pa tag nc else s.fetchCache t pa tag vec

/-- The fetch of the instruction at a thread's PC (05, 08 R211, 14 R344, R349). -/
def State.fetch (s : State) (t : Nat) : State × FRes :=
  let x := s.thr t
  let vec := x.vecFetch.isSome
  let out := match x.encl with | some e => !e.holds x.pc | none => false
  if out then (s, .fault (Exc.enclave x.pc x.pc 4))
  else
    match s.xlate t x.pc .fetch vec with
    | (s, .wait) => (s, .wait)
    | (s, .fault e) => (s, .fault e)
    | (s, .ok pa rank _) => s.fetchLine t pa (x.tagAt x.pc) vec (effType rank pa == .nc)

/-! Breakpoints and single step (04 R128 to R131). -/

/-- The level that takes 0x38 (04 R128). -/
def Thread.dbgLevel (x : Thread) : Level := x.target (Exc.plain 0x38 x.pc)
/-- Debug matches at the thread's level, not inside an enclave with DEBUG = 0 (04 R128). -/
def Thread.dbgLive (x : Thread) : Bool :=
  decide (x.level.num < x.dbgLevel.num) && (match x.encl with | some e => e.debug | none => true)
/-- A level is named by LVLS (04, DBG_BPn). -/
def lvlsName (lvls lvl : Nat) : Bool := lvls == 3 || decide (lvl ≤ lvls)
/-- The breakpoint that matches the PC (04 R129). -/
def Thread.breakAt (x : Thread) : Option Nat :=
  if x.dbgCtl = 0 || x.suppress || !x.dbgLive then none
  else (List.range 4).find? (fun n =>
    let b := Tbl.get 0 x.dbgBp n
    bit x.dbgCtl (6 + n) && decide (b.toNat / 4 = x.pc.toNat / 4) && lvlsName (fieldOf b 1 0) x.level.num)
/-- The watchpoint that an access matches (04 R130): its range, and whether it loads and stores. -/
def Thread.watchAt (x : Thread) (va : Word) (size : Nat) (ld st : Bool) : Option Nat :=
  if x.dbgCtl = 0 || x.suppress || !x.dbgLive then none
  else (List.range 2).find? (fun n =>
    let m := Tbl.get 0x300 x.dbgWpm n
    let len := 2 ^ fieldOf m 3 0
    let base := (Tbl.get 0 x.dbgWp n).toNat / len * len
    bit x.dbgCtl (10 + n) && lvlsName (fieldOf m 11 10) x.level.num && ((ld && bit m 8) || (st && bit m 9)) &&
      decide (base < va.toNat + size ∧ va.toNat < base + len))
/-- A single step is due when an instruction begun in this state retires (04 R131). -/
def Thread.stepDue (x : Thread) : Bool := bit x.dbgCtl 0 && x.dbgLive

/-! Beginning and retiring an instruction. -/

/-- A 0x29 waits that the thread must take before its next instruction (04 R114, 19 R415). -/
def Thread.mustCheck (x : Thread) : Bool := !x.contains.isEmpty && !(x.level == .m && !bit x.excM.status 0)

/-- The thread executes instructions: present, running in T0, not drained by a forme, no stop of the package (17 R383, 18 R400, 20 R437). -/
def State.awake (s : State) (t : Nat) : Bool :=
  let x := s.thr t
  let tl := s.tile (s.tileOf (t / 2))
  s.thrPresent t && x.run == .running && tl.st == .t0 && !tl.waking && !s.quiesced t && !s.halted && !x.mustCheck
/-- The thread is at an instruction boundary. -/
def Thread.idle (x : Thread) : Bool := x.memOp.isNone && (x.hold == .none || x.hold == .smtFix)
/-- The thread may begin an instruction: it is awake and at a boundary, and no write of SMT_FIX by its sibling waits for it to drain (05 R146). -/
def State.runnable (s : State) (t : Nat) : Bool := s.awake t && (s.thr t).idle && (s.thr (sibling t)).hold != .smtFix

/-- What beginning an instruction comes to. -/
inductive Start where
  | no
  | stop (s : State)
  | go (s : State)
deriving DecidableEq, Repr

/-- A fault of a fetch (04 R111): of a vector's first instruction it goes to M, and at the vector of M the thread stops with a FAT record. An interrupt
that is ready at the boundary is taken in its place (R122). -/
def State.fetchFault (s : State) (t : Nat) (e : Exc) : State :=
  match (s.thr t).nextInt false, (s.thr t).vecFetch with
  | some q, _ => s.takeInt t q
  | none, some .m =>
    (s.updThr t (fun x => { x with run := .stopped })).logError (.core (coreId (t / 2))) codeVecFault 4 (s.thr t).world none (some (thrOf t))
  | none, some _ => s.takeExc t { e with route := some .m }
  | none, none => s.takeExc t e

/-- Begin the instruction at the PC: runnable, no interrupt that qualifies, fetched, no breakpoint (03 R67; 04 R115, R122). A breakpoint comes before poison in the line
of the instruction, and after every other fault of the fetch. -/
def State.start (s : State) (t : Nat) : Start :=
  if !s.runnable t then .no
  else
    match (s.thr t).nextInt false with
    | some q => .stop (s.takeInt t q)
    | none =>
      let stopAt := fun (s : State) (n : Nat) => Start.stop (s.takeExc t (Exc.debug (s.thr t).pc 0 0 n))
      match s.fetch t with
      | (s, .wait) => .stop s
      | (s, .fault e) =>
        match (if e.cause = 0x28 then (s.thr t).breakAt else none) with
        | some n => stopAt s n
        | none => .stop (s.fetchFault t e)
      | (s, .ok) =>
        match (s.thr t).breakAt with
        | some n => stopAt s n
        | none => .go (if (s.thr t).hold == .smtFix then s.updThr t (fun x => { x with hold := .none }) else s)

/-- The thread after an instruction retires: the next PC, the marks of R111 and R129 cleared, counters moved. -/
def Thread.retired (x : Thread) (stamp pc : Word) : Thread :=
  ({ x with pc := pc, suppress := false, vecFetch := none, memOp := none, walk := none }.pmcRetired).pmcEvent stamp 2

/-- Retire an instruction whose effect on the thread has been made; a step that was due is taken (04 R131). -/
def State.retire (s : State) (t : Nat) (pc : Word) (step : Bool) : State :=
  let r := s.updThr t (fun x => x.retired (s.tileStamp t) pc)
  if step then r.takeExc t (Exc.debug pc 0 2 0) else r
/-- Complete an instruction whose effect lies in its thread alone, at a next PC: it retires, and a step that was due is taken (04 R131). -/
def State.finish (s : State) (t : Nat) (pc : Word) (f : Thread → Thread) : State :=
  let r := s.updThr t (fun x => (f x).retired (s.tileStamp t) pc)
  if (s.thr t).stepDue then r.takeExc t (Exc.debug pc 0 2 0) else r

/-- An instruction that, once begun, acts on the state. -/
def State.run (s : State) (t : Nat) (body : State → State) : Host.Outcome State Fault Refusal :=
  match s.start t with
  | .no => .next s
  | .stop s => .next s
  | .go s => .next (body s)

/-- The address of the next instruction. -/
def Thread.npc (x : Thread) : Word := x.pc + 4

/-- An illegal instruction: 0x02 with the instruction word (03 R64). -/
def State.illegal (s : State) (t : Nat) (w : BitVec 32) : State := s.takeExc t (Exc.illegal (s.thr t).pc w false)

/-! Zero-length reads (07 R190; 16 R369). -/

/-- PCIE_LINK_DOWN (16 R369). -/
def codePcieDown : BitVec 16 := 0x0804
/-- PCIE_CONTAINED (16 R370). -/
def codeContained : BitVec 16 := 0x0805
/-- Sub-port k of a port. -/
def State.sub (s : State) (p k : Nat) : SubPort := Tbl.get SubPort.reset (s.port p).subs k
/-- CONTAINED of a sub-port. -/
def State.isContained (s : State) (p k : Nat) : Bool := bit (s.pcieCtl p) (56 + k)
/-- The acknowledgement of a covered store, to its thread's core. -/
def coverAck (p : Nat) (q : Thr × Nat) (err : Option (BitVec 16)) (loc : BitVec 32) : Flit :=
  { Flit.blank .ack (.port p) (.core (coreId (q.1.val / 2))) with
    cls := 4, thr := some q.1, tid := q.2, acc := .devStore, err := err, refusal := err.map (fun _ => false), opA := loc.setWidth 64 }
/-- The stores that a request covers end in error, and its record is written. -/
def State.coversFail (s : State) (p : Nat) (r : PortReq) (code : BitVec 16) (pa : Option Nat) : State × BitVec 32 :=
  let (s, loc) := s.errorAt (.port p) code 3 r.flit.world pa ((r.covers.getLast?).map Prod.fst |>.or r.flit.thr)
  (s.sendAll (r.covers.map (fun q => coverAck p q (some code) loc)), loc)
/-- Each root port sends one read, to the sub-port of the last write, that covers every posted write of a thread, because something waits for
them; one to a contained sub-port, or to one whose link is down, ends at once (16 R369, R370), and where 1,024 requests are outstanding the port owes it until a tag is free (R366). -/
def State.coverPosted (s : State) (t : Nat) : State :=
  (List.range 10).foldl (fun s p =>
    let x := s.port p
    let mine := x.posted.filter (fun q => q.1.val == t)
    match mine.getLast? with
    | none => s
    | some q =>
      let k := q.2.2
      let r : PortReq := { flit := Flit.blank .rdNc (.port p) (.port p), sub := k, zeroRead := true, covers := mine.map (fun q => (q.1, q.2.1)), stamp := s.stamp 16 }
      let sent := s.updPort p (fun x => { x with posted := x.posted.filter (fun q => q.1.val != t) })
      if s.isContained p k then (sent.coversFail p r codeContained none).1
      else if !(s.sub p k).up then (sent.coversFail p r codePcieDown none).1
      else if x.reqs.length ≥ 1024 then s.updPort p (fun x => { x with owed := x.owed.filter (fun u => u != thrOf t) ++ [thrOf t] })
      else sent.updPort p (fun x => { x with reqs := x.reqs ++ [r] })) s
/-- A tag of a port has come free: the reads it owes are sent (16 R366, R369). -/
def State.coverOwed (s : State) (p : Nat) : State :=
  (s.port p).owed.foldl (fun s t => s.coverPosted t.val) (s.updPort p (fun x => { x with owed := [] }))

end Sys2Proof.Machine
end

