-- ==== Sys2Proof/Machine/Alu.lean ====
section
/-! DEFINITION. Integer register instructions, immediates and constants (03 R68 to R73). -/

namespace Sys2Proof.Machine

/-! Arithmetic of the rules. -/

/-- Signed division, toward zero and saturating (03 R70). -/
def divS (n : Nat) (x y : BitVec n) : BitVec n :=
  if y = 0 then (if x.toInt < 0 then BitVec.intMin n else BitVec.intMax n)
  else if x = BitVec.intMin n && y = BitVec.allOnes n then BitVec.intMax n
  else BitVec.ofInt n (Int.tdiv x.toInt y.toInt)
/-- Unsigned division; by zero it gives all ones (03 R70). -/
def divU (n : Nat) (x y : BitVec n) : BitVec n := if y = 0 then BitVec.allOnes n else BitVec.ofNat n (x.toNat / y.toNat)
/-- Signed remainder, with the sign of rs1 (03 R69, R70). -/
def remS (n : Nat) (x y : BitVec n) : BitVec n :=
  if y = 0 then x
  else if x = BitVec.intMin n && y = BitVec.allOnes n then 0
  else BitVec.ofInt n (Int.tmod x.toInt y.toInt)
/-- Unsigned remainder (03 R70). -/
def remU (n : Nat) (x y : BitVec n) : BitVec n := if y = 0 then x else BitVec.ofNat n (x.toNat % y.toNat)
/-- Leading zeros below bit i. -/
def leading (x : Word) : Nat → Nat
  | 0 => 0
  | i + 1 => if bit x i then 0 else 1 + leading x i
/-- Trailing zeros from bit i on, over n bits. -/
def trailing (x : Word) : Nat → Nat → Nat
  | 0, _ => 0
  | n + 1, i => if bit x i then 0 else 1 + trailing x n (i + 1)
/-- The eight bytes reversed (03 R68). -/
def rev8 (x : Word) : Word := BitVec.ofNat 64 (Crypto.leNat (Crypto.leBytes 8 x.toNat).reverse)

/-! Shapes: the destination takes a function of the sources and the PC moves on. -/

/-- A register-register form. -/
def alu2 (f : Word → Word → Word) (t : Thr) (rd rs1 rs2 : RegNo) (s : State) : Host.Outcome State Fault Refusal :=
  s.run t (fun s => s.finish t (s.thr t).npc (fun x => x.writeG rd (f (x.readG rs1) (x.readG rs2))))
/-- A form of one source. -/
def alu1 (f : Word → Word) (t : Thr) (rd rs1 : RegNo) (s : State) : Host.Outcome State Fault Refusal :=
  s.run t (fun s => s.finish t (s.thr t).npc (fun x => x.writeG rd (f (x.readG rs1))))
/-- A constant form: a function of the PC. -/
def alu0 (f : Word → Word) (t : Thr) (rd : RegNo) (s : State) : Host.Outcome State Fault Refusal :=
  s.run t (fun s => s.finish t (s.thr t).npc (fun x => x.writeG rd (f x.pc)))

/-- ADD (03 R68). -/
def execAdd (t : Thr) (rd rs1 rs2 : RegNo) (s : State) : Host.Outcome State Fault Refusal :=
  alu2 (fun x y => x + y) t rd rs1 rs2 s
/-- SUB (03 R68). -/
def execSub (t : Thr) (rd rs1 rs2 : RegNo) (s : State) : Host.Outcome State Fault Refusal :=
  alu2 (fun x y => x - y) t rd rs1 rs2 s
/-- AND (03 R68). -/
def execAnd (t : Thr) (rd rs1 rs2 : RegNo) (s : State) : Host.Outcome State Fault Refusal :=
  alu2 (fun x y => x &&& y) t rd rs1 rs2 s
/-- OR (03 R68). -/
def execOr (t : Thr) (rd rs1 rs2 : RegNo) (s : State) : Host.Outcome State Fault Refusal :=
  alu2 (fun x y => x ||| y) t rd rs1 rs2 s
/-- XOR (03 R68). -/
def execXor (t : Thr) (rd rs1 rs2 : RegNo) (s : State) : Host.Outcome State Fault Refusal :=
  alu2 (fun x y => x ^^^ y) t rd rs1 rs2 s
/-- ANDN (03 R68). -/
def execAndn (t : Thr) (rd rs1 rs2 : RegNo) (s : State) : Host.Outcome State Fault Refusal :=
  alu2 (fun x y => x &&& ~~~ y) t rd rs1 rs2 s
/-- SLL (03 R68). -/
def execSll (t : Thr) (rd rs1 rs2 : RegNo) (s : State) : Host.Outcome State Fault Refusal :=
  alu2 (fun x y => x <<< (y.toNat % 64)) t rd rs1 rs2 s
/-- SRL (03 R68). -/
def execSrl (t : Thr) (rd rs1 rs2 : RegNo) (s : State) : Host.Outcome State Fault Refusal :=
  alu2 (fun x y => x >>> (y.toNat % 64)) t rd rs1 rs2 s
/-- SRA (03 R68). -/
def execSra (t : Thr) (rd rs1 rs2 : RegNo) (s : State) : Host.Outcome State Fault Refusal :=
  alu2 (fun x y => x.sshiftRight (y.toNat % 64)) t rd rs1 rs2 s
/-- ROL (03 R68). -/
def execRol (t : Thr) (rd rs1 rs2 : RegNo) (s : State) : Host.Outcome State Fault Refusal :=
  alu2 (fun x y => x.rotateLeft (y.toNat % 64)) t rd rs1 rs2 s
/-- ROR (03 R68). -/
def execRor (t : Thr) (rd rs1 rs2 : RegNo) (s : State) : Host.Outcome State Fault Refusal :=
  alu2 (fun x y => x.rotateRight (y.toNat % 64)) t rd rs1 rs2 s
/-- SLT (03 R68). -/
def execSlt (t : Thr) (rd rs1 rs2 : RegNo) (s : State) : Host.Outcome State Fault Refusal :=
  alu2 (fun x y => if x.slt y then 1 else 0) t rd rs1 rs2 s
/-- SLTU (03 R68). -/
def execSltu (t : Thr) (rd rs1 rs2 : RegNo) (s : State) : Host.Outcome State Fault Refusal :=
  alu2 (fun x y => if x.ult y then 1 else 0) t rd rs1 rs2 s
/-- MIN (03 R68). -/
def execMin (t : Thr) (rd rs1 rs2 : RegNo) (s : State) : Host.Outcome State Fault Refusal :=
  alu2 (fun x y => if x.slt y then x else y) t rd rs1 rs2 s
/-- MAX (03 R68). -/
def execMax (t : Thr) (rd rs1 rs2 : RegNo) (s : State) : Host.Outcome State Fault Refusal :=
  alu2 (fun x y => if x.slt y then y else x) t rd rs1 rs2 s
/-- MINU (03 R68). -/
def execMinu (t : Thr) (rd rs1 rs2 : RegNo) (s : State) : Host.Outcome State Fault Refusal :=
  alu2 (fun x y => if x.ult y then x else y) t rd rs1 rs2 s
/-- MAXU (03 R68). -/
def execMaxu (t : Thr) (rd rs1 rs2 : RegNo) (s : State) : Host.Outcome State Fault Refusal :=
  alu2 (fun x y => if x.ult y then y else x) t rd rs1 rs2 s
/-- MUL (03 R69). -/
def execMul (t : Thr) (rd rs1 rs2 : RegNo) (s : State) : Host.Outcome State Fault Refusal :=
  alu2 (fun x y => x * y) t rd rs1 rs2 s
/-- MULH (03 R69). -/
def execMulh (t : Thr) (rd rs1 rs2 : RegNo) (s : State) : Host.Outcome State Fault Refusal :=
  alu2 (fun x y => BitVec.ofInt 64 (x.toInt * y.toInt / 2 ^ 64)) t rd rs1 rs2 s
/-- MULHU (03 R69). -/
def execMulhu (t : Thr) (rd rs1 rs2 : RegNo) (s : State) : Host.Outcome State Fault Refusal :=
  alu2 (fun x y => BitVec.ofNat 64 (x.toNat * y.toNat / 2 ^ 64)) t rd rs1 rs2 s
/-- MULHSU (03 R69). -/
def execMulhsu (t : Thr) (rd rs1 rs2 : RegNo) (s : State) : Host.Outcome State Fault Refusal :=
  alu2 (fun x y => BitVec.ofInt 64 (x.toInt * (y.toNat : Int) / 2 ^ 64)) t rd rs1 rs2 s
/-- DIV (03 R70). -/
def execDiv (t : Thr) (rd rs1 rs2 : RegNo) (s : State) : Host.Outcome State Fault Refusal :=
  alu2 (fun x y => divS 64 x y) t rd rs1 rs2 s
/-- DIVU (03 R70). -/
def execDivu (t : Thr) (rd rs1 rs2 : RegNo) (s : State) : Host.Outcome State Fault Refusal :=
  alu2 (fun x y => divU 64 x y) t rd rs1 rs2 s
/-- REM (03 R70). -/
def execRem (t : Thr) (rd rs1 rs2 : RegNo) (s : State) : Host.Outcome State Fault Refusal :=
  alu2 (fun x y => remS 64 x y) t rd rs1 rs2 s
/-- REMU (03 R70). -/
def execRemu (t : Thr) (rd rs1 rs2 : RegNo) (s : State) : Host.Outcome State Fault Refusal :=
  alu2 (fun x y => remU 64 x y) t rd rs1 rs2 s
/-- ADDW (03 R71). -/
def execAddw (t : Thr) (rd rs1 rs2 : RegNo) (s : State) : Host.Outcome State Fault Refusal :=
  alu2 (fun x y => sext32 (x + y)) t rd rs1 rs2 s
/-- SUBW (03 R71). -/
def execSubw (t : Thr) (rd rs1 rs2 : RegNo) (s : State) : Host.Outcome State Fault Refusal :=
  alu2 (fun x y => sext32 (x - y)) t rd rs1 rs2 s
/-- SLLW (03 R71). -/
def execSllw (t : Thr) (rd rs1 rs2 : RegNo) (s : State) : Host.Outcome State Fault Refusal :=
  alu2 (fun x y => sext32 (x <<< (y.toNat % 32))) t rd rs1 rs2 s
/-- SRLW (03 R71). -/
def execSrlw (t : Thr) (rd rs1 rs2 : RegNo) (s : State) : Host.Outcome State Fault Refusal :=
  alu2 (fun x y => sext32 ((x &&& 0xFFFFFFFF) >>> (y.toNat % 32))) t rd rs1 rs2 s
/-- SRAW (03 R71). -/
def execSraw (t : Thr) (rd rs1 rs2 : RegNo) (s : State) : Host.Outcome State Fault Refusal :=
  alu2 (fun x y => (sext32 x).sshiftRight (y.toNat % 32)) t rd rs1 rs2 s
/-- MULW (03 R71). -/
def execMulw (t : Thr) (rd rs1 rs2 : RegNo) (s : State) : Host.Outcome State Fault Refusal :=
  alu2 (fun x y => sext32 (x * y)) t rd rs1 rs2 s
/-- DIVW (03 R70). -/
def execDivw (t : Thr) (rd rs1 rs2 : RegNo) (s : State) : Host.Outcome State Fault Refusal :=
  alu2 (fun x y => (divS 32 (x.setWidth 32) (y.setWidth 32)).signExtend 64) t rd rs1 rs2 s
/-- DIVUW (03 R70). -/
def execDivuw (t : Thr) (rd rs1 rs2 : RegNo) (s : State) : Host.Outcome State Fault Refusal :=
  alu2 (fun x y => (divU 32 (x.setWidth 32) (y.setWidth 32)).signExtend 64) t rd rs1 rs2 s
/-- REMW (03 R70). -/
def execRemw (t : Thr) (rd rs1 rs2 : RegNo) (s : State) : Host.Outcome State Fault Refusal :=
  alu2 (fun x y => (remS 32 (x.setWidth 32) (y.setWidth 32)).signExtend 64) t rd rs1 rs2 s
/-- REMUW (03 R70). -/
def execRemuw (t : Thr) (rd rs1 rs2 : RegNo) (s : State) : Host.Outcome State Fault Refusal :=
  alu2 (fun x y => (remU 32 (x.setWidth 32) (y.setWidth 32)).signExtend 64) t rd rs1 rs2 s
/-- CLZ (03 R68). -/
def execClz (t : Thr) (rd rs1 : RegNo) (s : State) : Host.Outcome State Fault Refusal :=
  alu1 (fun x => BitVec.ofNat 64 (leading x 64)) t rd rs1 s
/-- CTZ (03 R68). -/
def execCtz (t : Thr) (rd rs1 : RegNo) (s : State) : Host.Outcome State Fault Refusal :=
  alu1 (fun x => BitVec.ofNat 64 (trailing x 64 0)) t rd rs1 s
/-- POPC (03 R68). -/
def execPopc (t : Thr) (rd rs1 : RegNo) (s : State) : Host.Outcome State Fault Refusal :=
  alu1 (fun x => BitVec.ofNat 64 ((List.range 64).countP (fun i => bit x i))) t rd rs1 s
/-- REV8 (03 R68). -/
def execRev8 (t : Thr) (rd rs1 : RegNo) (s : State) : Host.Outcome State Fault Refusal :=
  alu1 (fun x => rev8 x) t rd rs1 s
/-- SEXT_B (03 R68). -/
def execSextB (t : Thr) (rd rs1 : RegNo) (s : State) : Host.Outcome State Fault Refusal :=
  alu1 (fun x => (x.setWidth 8).signExtend 64) t rd rs1 s
/-- SEXT_H (03 R68). -/
def execSextH (t : Thr) (rd rs1 : RegNo) (s : State) : Host.Outcome State Fault Refusal :=
  alu1 (fun x => (x.setWidth 16).signExtend 64) t rd rs1 s
/-- SEXT_W (03 R68). -/
def execSextW (t : Thr) (rd rs1 : RegNo) (s : State) : Host.Outcome State Fault Refusal :=
  alu1 (fun x => sext32 x) t rd rs1 s
/-- ZEXT_W (03 R68). -/
def execZextW (t : Thr) (rd rs1 : RegNo) (s : State) : Host.Outcome State Fault Refusal :=
  alu1 (fun x => x &&& 0xFFFFFFFF) t rd rs1 s
/-- ADDI (03 R72). -/
def execAddi (t : Thr) (rd rs1 : RegNo) (imm : BitVec 16) (s : State) : Host.Outcome State Fault Refusal :=
  alu1 (fun x => x + sext imm) t rd rs1 s
/-- ANDI (03 R72). -/
def execAndi (t : Thr) (rd rs1 : RegNo) (imm : BitVec 16) (s : State) : Host.Outcome State Fault Refusal :=
  alu1 (fun x => x &&& zext imm) t rd rs1 s
/-- ORI (03 R72). -/
def execOri (t : Thr) (rd rs1 : RegNo) (imm : BitVec 16) (s : State) : Host.Outcome State Fault Refusal :=
  alu1 (fun x => x ||| zext imm) t rd rs1 s
/-- XORI (03 R72). -/
def execXori (t : Thr) (rd rs1 : RegNo) (imm : BitVec 16) (s : State) : Host.Outcome State Fault Refusal :=
  alu1 (fun x => x ^^^ zext imm) t rd rs1 s
/-- SLTI (03 R72). -/
def execSlti (t : Thr) (rd rs1 : RegNo) (imm : BitVec 16) (s : State) : Host.Outcome State Fault Refusal :=
  alu1 (fun x => if x.slt (sext imm) then 1 else 0) t rd rs1 s
/-- SLTIU (03 R72). -/
def execSltiu (t : Thr) (rd rs1 : RegNo) (imm : BitVec 16) (s : State) : Host.Outcome State Fault Refusal :=
  alu1 (fun x => if x.ult (sext imm) then 1 else 0) t rd rs1 s
/-- ADDIW (03 R72). -/
def execAddiw (t : Thr) (rd rs1 : RegNo) (imm : BitVec 16) (s : State) : Host.Outcome State Fault Refusal :=
  alu1 (fun x => sext32 (x + sext imm)) t rd rs1 s
/-- SLLI (03 R72). -/
def execSlli (t : Thr) (rd rs1 : RegNo) (amt : BitVec 6) (s : State) : Host.Outcome State Fault Refusal :=
  alu1 (fun x => x <<< amt.toNat) t rd rs1 s
/-- SRLI (03 R72). -/
def execSrli (t : Thr) (rd rs1 : RegNo) (amt : BitVec 6) (s : State) : Host.Outcome State Fault Refusal :=
  alu1 (fun x => x >>> amt.toNat) t rd rs1 s
/-- SRAI (03 R72). -/
def execSrai (t : Thr) (rd rs1 : RegNo) (amt : BitVec 6) (s : State) : Host.Outcome State Fault Refusal :=
  alu1 (fun x => x.sshiftRight amt.toNat) t rd rs1 s
/-- RORI (03 R72). -/
def execRori (t : Thr) (rd rs1 : RegNo) (amt : BitVec 6) (s : State) : Host.Outcome State Fault Refusal :=
  alu1 (fun x => x.rotateRight amt.toNat) t rd rs1 s
/-- A 32-bit shift by an immediate: an amount with bit [5] set is illegal (03 R72). -/
def shiftW (sel : Nat) (f : Word → Word) (t : Thr) (rd rs1 : RegNo) (amt : BitVec 6) (s : State) : Host.Outcome State Fault Refusal :=
  if bit amt 5 then s.run t (fun s => s.illegal t (immWord 0x0A rd rs1 (sel * 256 + amt.toNat)))
  else alu1 f t rd rs1 s
/-- SLLIW (03 R72). -/
def execSlliw (t : Thr) (rd rs1 : RegNo) (amt : BitVec 6) (s : State) : Host.Outcome State Fault Refusal :=
  shiftW 8 (fun x => sext32 (x <<< amt.toNat)) t rd rs1 amt s
/-- SRLIW (03 R72). -/
def execSrliw (t : Thr) (rd rs1 : RegNo) (amt : BitVec 6) (s : State) : Host.Outcome State Fault Refusal :=
  shiftW 9 (fun x => sext32 ((x &&& 0xFFFFFFFF) >>> amt.toNat)) t rd rs1 amt s
/-- SRAIW (03 R72). -/
def execSraiw (t : Thr) (rd rs1 : RegNo) (amt : BitVec 6) (s : State) : Host.Outcome State Fault Refusal :=
  shiftW 10 (fun x => (sext32 x).sshiftRight amt.toNat) t rd rs1 amt s
/-- LUI (03 R73). -/
def execLui (t : Thr) (rd : RegNo) (imm : BitVec 21) (s : State) : Host.Outcome State Fault Refusal :=
  alu0 (fun _ => sext imm <<< (16 : Nat)) t rd s
/-- AUIPC (03 R73). -/
def execAuipc (t : Thr) (rd : RegNo) (imm : BitVec 21) (s : State) : Host.Outcome State Fault Refusal :=
  alu0 (fun pc => pc + sext imm <<< (12 : Nat)) t rd s

end Sys2Proof.Machine
end

