-- ==== Sys2Proof/Machine/Access.lean ====
section
/-! DEFINITION. One instruction that accesses memory, from its translation to its retirement: loads, stores, atomics, locks, maintenance by address and prefetch hints (03 R77 to R86; 07; 08 R214 to R223; 09 R251). -/

namespace Sys2Proof.Machine

/-! Order (07 R186, R194 to R197). -/

/-- A store-buffer entry overlaps a range. -/
def StoreEntry.overlaps (e : StoreEntry) (pa size : Nat) : Bool := decide (e.pa < pa + size ∧ pa < e.pa + e.size)
/-- A DEV-S store of the thread is not complete: no later access issues (07 R195). -/
def Thread.strictPending (x : Thread) : Bool := x.stb.any (fun e => e.rank == 4) || x.outst.any (fun o => o.kind == .devStrict)
/-- A device access of the thread that has issued is not complete (07 R195; 06 R160: a device rank in the global window keeps the order of its type). -/
def Thread.devOut (x : Thread) : Bool :=
  x.outst.any (fun o => match o.kind with | .devStore | .devStrict | .postedPcie | .gwuDev => true | _ => false) ||
    x.kept.any (fun k => k.op.want.isSome && k.op.xl.any (fun p => decide (p.rank ≥ 2)))
/-- Every earlier device access of the thread is complete (07 R195, DEV-S). -/
def Thread.devDone (x : Thread) : Bool := x.stb.all (fun e => decide (e.rank < 2)) && !x.devOut
/-- A store of the thread that has left the store buffer for its end point or home is not yet answered, and lies in the line of an address: an access
that may overlap it waits (07 R181). -/
def Thread.lineOut (x : Thread) (pa : Nat) : Bool :=
  x.outst.any (fun o => o.pa / 64 == pa / 64 && (match o.kind with | .ncStore | .homeStore | .gwuStore | .gwuDev => true | _ => false))
/-- An earlier store of the thread, buffered or out, stands before an access to a range that nothing is forwarded to (07 R181, R194). -/
def Thread.storeAhead (x : Thread) (pa size : Nat) : Bool := x.stb.any (fun e => e.overlaps pa size) || x.lineOut pa
/-- An earlier device store to the region has not issued (07 R196). -/
def Thread.regionBusy (x : Thread) (pa : Nat) : Bool := x.stb.any (fun e => decide (e.rank ≥ 2) && e.pa / 4096 == pa / 4096)
/-- Issued stores and maintenance of the thread are performed (07 R186, R188). -/
def Thread.issuedDone (x : Thread) : Bool := x.outst.all (fun o => o.kind == .tlbi || o.kind == .postedPcie)
/-- Every earlier store of the thread is performed (07 R186). -/
def Thread.storesDone (x : Thread) : Bool := x.stb.isEmpty && x.issuedDone

/-- The latest buffered store that overlaps a range: its bytes where it covers the range and may be forwarded, else a wait (07 R194). -/
def Thread.forward (x : Thread) (pa size : Nat) (tag : Tag) : Option (Option Word) :=
  match x.stb.reverse.find? (fun e => e.overlaps pa size) with
  | none => none
  | some e =>
    let ok := decide (e.pa ≤ pa ∧ pa + size ≤ e.pa + e.size) && !e.type.device && e.type != .gwu && (e.world == tag || x.level == .m)
    some (if ok then some (e.data >>> (8 * (pa - e.pa))) else none)

/-! Requests of the instruction in progress. -/

/-- Change the instruction in progress. -/
def Thread.updMem (x : Thread) (f : MemOp → MemOp) : Thread := { x with memOp := x.memOp.map f }
/-- The answer received for an address. -/
def Thread.answer (x : Thread) (pa : Nat) : Option Word :=
  match x.memOp with
  | some m => (m.got.find? (fun (p : Nat × Word) => p.1 == pa)).map Prod.snd
  | none => none
/-- Why the answer received for the line of an address brings no usable data. -/
def Thread.failed (x : Thread) (pa : Nat) : Option Bad :=
  match x.memOp with
  | some m => (m.errs.find? (fun p => p.1 / 64 == pa / 64)).map Prod.snd
  | none => none
/-- A request of the instruction is out. -/
def Thread.asking (x : Thread) : Bool := match x.memOp with | some m => m.want.isSome | none => false
/-- The instruction waits for an address. -/
def State.wants (s : State) (t pa : Nat) (once : Bool) : State :=
  s.updThr t (fun x => x.updMem (fun m => { m with want := some pa, tid := s.nextTid, once := m.once || once, stamp := s.stamp (dieOfThr t) }))

/-- The instruction waits for a line of its L2. -/
def State.wantsLine (s : State) (t pa : Nat) : State :=
  s.updThr t (fun x => x.updMem (fun m => { m with want := some pa, tid := 0, stamp := s.stamp (dieOfThr t) }))

/-- A thread has an outstanding operation. -/
def Thread.hasOut (x : Thread) (tid : Nat) : Bool := x.outst.any (fun o => o.tid == tid)

/-- Send a read of bytes to its end point (09 R239, 07 R197). -/
def State.sendRead (s : State) (t pa size : Nat) (acc : AccClass) (tag : Tag) (once : Bool) : State :=
  let s := s.freshTid
  let s := if acc == .devLoad then s.pmc t 0x38 else if acc == .gw || acc == .galRead then s.pmc t 0x39 else s
  let s := if acc == .galRead then s.pmc t 0x19 else s
  (s.wants t pa once).send { Flit.blank .rdNc (.core (coreId (t / 2))) (s.endpoint pa) with
    thr := some (thrOf t), tid := s.nextTid, line := pa / 64, world := tag, size := size, mask := byteMask (pa % 64) size, acc := acc
    fromM := (s.thr t).level == .m }
/-- Send an atomic to a home slice, a controller or a target package (09 R251, R252). -/
def State.sendAtomic (s : State) (t pa : Nat) (home : Bool) (acc : AccClass) (tag : Tag) (op : AmoOp) (size : Nat) (a b : Word) : State :=
  let c := t / 2
  let s := s.freshTid
  let s := if acc == .devLoad then s.pmc t 0x38 else if acc == .gw then s.pmc t 0x39 else s
  let dst : Agent := if home && pa < 2 ^ 56 then s.homeOf (dieOfCore c) (pa / 64) else s.endpoint pa
  (s.wants t pa (op != .read)).send { Flit.blank (if home then .atomH else .atomM) (.core (coreId c)) dst with
    thr := some (thrOf t), tid := s.nextTid, line := pa / 64, world := tag, size := size, mask := byteMask (pa % 64) size, acc := acc
    func := op, dword := size == 8, opA := a, opB := b, fromM := (s.thr t).level == .m }
/-- The core has a request for a line out, or its copy on the way out: a further access of either thread to the line waits (10 R253, R257). -/
def State.lineAsked (s : State) (c line : Nat) : Bool :=
  (match (s.core c).l2Line line with
   | some l => (match l.st with | .isD | .imAd | .smA _ | .viA _ => true | _ => false)
   | none => false) ||
    [2 * c, 2 * c + 1].any (fun t =>
      let x := s.thr t
      let op := fun (m : MemOp) => m.tid != 0 && (match m.want with | some pa => decide (pa < 2 ^ 56) && pa / 64 == line && m.xl.any (fun p => effType p.rank p.pa == .wb) | none => false)
      (match x.memOp with | some m => op m | none => false) || x.kept.any (fun k => op k.op) ||
        x.outst.any (fun o => (o.kind == .cmo || o.kind == .homeStore) && o.pa / 64 == line) ||
        (match x.fetchReq with | some r => r.tid != 0 && r.pa / 64 == line && (s.core c).l2Off | none => false))

/-- The first piece in the line of an address. -/
def MemOp.pieceAt (m : MemOp) (pa : Nat) : Option Piece := m.xl.find? (fun p => p.pa / 64 == pa / 64)
/-- The kind of access an instruction makes (04 R113 ACC, 06 R157). -/
def MemKind.access : MemKind → Access
  | .store => .store
  | .amo _ => .atomic
  | .cmo _ _ => .cmo
  | _ => .load
/-- The cause that an unusable answer raises for the instruction in progress (04 R113, 07 R198): a DEV-S access takes 0x21. -/
def Bad.exc (b : Bad) (x : Thread) (m : MemOp) (pa : Nat) : Exc :=
  let va := ((m.pieceAt pa).map Piece.va).getD m.req.va
  let pa := ((m.pieceAt pa).map Piece.pa).getD pa
  let acc := m.req.kind.access
  let strict := m.xl.any (fun p => p.rank == 4)
  match b with
  | .mismatch => Exc.region x.pc va pa acc false false
  | .error code loc guard =>
    if strict then Exc.device x.pc va pa acc code
    else if code = codeWorldMismatch then Exc.region x.pc va pa acc false false
    else if guard then Exc.region x.pc va pa acc true false
    else Exc.poison x.pc va pa acc loc false
  | .poison loc => if strict then Exc.device x.pc va pa acc 0 else Exc.poison x.pc va pa acc loc false
/-- The cause of the unusable answer for an address, where there is one. -/
def Thread.failure (x : Thread) (pa : Nat) : Option Exc :=
  match x.memOp, x.failed pa with
  | some m, some b => some (b.exc x m pa)
  | _, _ => none

/-- What one piece of an access comes to. -/
inductive PRes where
  | val (v : Word)
  | wait
  | exc (e : Exc)
deriving DecidableEq, Repr

/-- A page of package MMIO that is Secure only (01, package MMIO; 04 R124; 15 R356). -/
def State.secureMmio (s : State) (off : Nat) : Bool :=
  decide (0x01800000 ≤ off ∧ off < 0x02000000) || decide (0x20100000 ≤ off ∧ off < 0x20120000) ||
    (decide (0x02000000 ≤ off ∧ off < 0x04000000 ∧ off % 0x10000 < 0x3000) && s.instSecure ((off - 0x02000000) / 0x10000))
/-- The hub-die block that owns an offset of package MMIO (01 R24, R30, R32): the interrupt router, the engine of a Data Mover instance, the MC, the hub's Forme
engine, and the agent that serves the rest. -/
def State.mmioOwner (s : State) (off : Nat) : Agent :=
  if off < 0x02000000 then .router
  else if off < 0x04000000 then .mover (s.inst ((off - 0x02000000) / 0x10000)).engine
  else if 0x20100000 ≤ off ∧ off < 0x20110000 then .mc
  else if 0x20110000 ≤ off ∧ off < 0x20120000 then .forme 16
  else .mmio

/-- The checks that stop an access to a window or a Secure page before it is performed (01 R32, 13 R322). -/
def State.precheck (s : State) (t pa : Nat) (tag : Tag) (va : Word) (acc : Access) : State × Option Exc :=
  if pa ≥ 2 ^ 56 && tag ≠ 0 && tag ≠ 0xFFF then
    let (s, e) := s.mismatch t (.core (coreId (t / 2))) tag va pa acc false
    (s, some e)
  else match s.region pa with
    | .pkg off =>
      if s.secureMmio off && tag ≠ 0xFFF then
        let (s, e) := s.mismatch t (s.mmioOwner off) tag va pa acc false
        (s, some e)
      else (s, none)
    | _ => (s, none)

/-- The check at a hit in the L2 (14 R336): the tag, then poison where the data is used. -/
def State.hitCheck (s : State) (t : Nat) (l : L2Line) (tag : Tag) (va : Word) (pa : Nat) (acc : Access) (consume : Bool) : State × Option Exc :=
  if (s.thr t).level ≠ .m && l.world ≠ tag then
    let (s, e) := s.mismatch t (.core (coreId (t / 2))) tag va pa acc false
    (s, some e)
  else if consume && l.poison then (s, some (Exc.poison (s.thr t).pc va pa acc (s.poisonLoc (pa / 64)) false))
  else (s, none)

/-- Read from an end point: the answer, or one request (07 R195 to R197). -/
def State.askRead (s : State) (t pa size : Nat) (acc : AccClass) (tag : Tag) (once : Bool) : State × PRes :=
  let x := s.thr t
  match x.answer pa with
  | some v => (s, .val v)
  | none => if x.asking then (s, .wait) else (s.sendRead t pa size acc tag once, .wait)

/-- A load piece of WB memory (08 R208, R209, R225; 07 R194): it trains a prefetch stream as it looks up the L1D (R221). -/
def State.loadWb (s : State) (t : Nat) (tag : Tag) (va : Word) (pa size : Nat) : State × PRes :=
  let x := s.thr t
  let c := t / 2
  let k := s.core c
  let line := pa / 64
  match x.forward pa size tag with
  | some (some v) => (s, .val v)
  | some none => (s, .wait)
  | none =>
    let fresh := match x.memOp with | some m => m.fresh | none => false
    let s := if fresh then (let s := s.pmc t 0x11; if l1Has k.l1d line then s else s.pmc t 0x12) else s
    let s := if fresh then s.train t pa false va tag else s
    match k.l2Line line with
    | some l =>
      if l.readable then
        match s.hitCheck t l tag va pa .load true with
        | (s, some e) => (s, .exc e)
        | (s, none) =>
          let s := if k.l1dOn && !l1Has k.l1d line then
              (s.updCore c (fun k => { k with l1d := l1Insert 128 (k.waysOf t 8) (Config.freeValue s.free) k.l1d line })).drawn
            else s
          (s, .val (lineVal l.data (pa % 64) size))
      else (s, .wait)
    | none =>
      if k.l2Off then
        match x.answer pa with
        | some v => (s, .val v)
        | none => if x.asking || x.lineOut pa || s.lineAsked c line then (s, .wait) else (s.sendAtomic t pa true .nc tag .read 64 0 0, .wait)
      else if s.lineAsked c line then (s, .wait)
      else (((s.l2Request c t line false tag (x.level == .m) false).wantsLine t pa), .wait)

/-- A load piece of GW memory served by the Galley (08 R214). -/
def State.loadGw (s : State) (t : Nat) (tag : Tag) (va : Word) (pa size : Nat) : State × PRes :=
  let x := s.thr t
  let c := t / 2
  match x.forward pa size tag with
  | some (some v) => (s, .val v)
  | some none => (s, .wait)
  | none =>
    let s := s.galRecall c (pa / 64)
    let ask := fun (s : State) => if x.asking then (s, PRes.wait) else (s.sendRead t (pa / 64 * 64) 64 .galRead tag false, PRes.wait)
    match (s.core c).galEntry (pa / 64) with
    | some e =>
      if x.level ≠ .m && e.world ≠ tag then
        let (s, e) := s.mismatch t (.core (coreId c)) tag va pa .load false
        (s, .exc e)
      else if e.present (pa % 64) size then
        if e.poison then (s, .exc (Exc.poison x.pc va pa .load (s.poisonLoc (pa / 64)) false))
        else ((s.pmc t 0x18).updCore c (fun k => k.setGal { e with aged := false }), .val (lineVal e.data (pa % 64) size))
      else ask s
    | none => ask s

/-- Make room for an access that bypasses the Galley (08 R214): none while the line is still being written back. -/
def State.bypass (s : State) (t pa : Nat) : Option State :=
  match s.galFlush (t / 2) (pa / 64) with
  | none => none
  | some s => if (s.core (t / 2)).galBusy (pa / 64) then none else some s
/-- The Galley or the Hellbox holds a line: it is served while the level is being emptied too (08 R226). -/
def Core.galHolds (k : Core) (line : Nat) : Bool := (k.galEntry line).isSome || (k.hellEntry line).isSome

/-- A load piece by its effective type, once its tag is checked. -/
def State.loadPiece (s : State) (t : Nat) (p : Piece) : State × PRes :=
  let x := s.thr t
  let tag := x.tagAt p.va
  let pa := p.pa
  match x.failure pa with
  | some e => (s, .exc e)
  | none =>
    if p.rank ≥ 2 && x.answer pa = none && (x.regionBusy pa || (p.rank = 4 && !x.devDone)) then
      ((if p.rank = 4 then s.coverPosted t else s), .wait)
    else match effType p.rank pa with
      | .wb => s.loadWb t tag p.va pa p.size
      | .nc =>
        match x.forward pa p.size tag with
        | some (some v) => (s, .val v)
        | some none => (s, .wait)
        | none => if x.answer pa = none && x.lineOut pa then (s, .wait) else s.askRead t pa p.size .nc tag false
      | .gw =>
        if (s.core (t / 2)).galOff && !(s.core (t / 2)).galHolds (pa / 64) then
          (if x.answer pa = none && x.storeAhead pa p.size then (s, .wait) else s.askRead t pa p.size .gw tag false)
        else s.loadGw t tag p.va pa p.size
      | .gwu =>
        if x.answer pa = none && x.storeAhead pa p.size then (s, .wait)
        else match s.bypass t pa with
          | none => ((s.galFlush (t / 2) (pa / 64)).getD s, .wait)
          | some s => s.askRead t pa p.size .gw tag (decide (p.rank ≥ 2))
      | _ => if x.answer pa = none && x.storeAhead pa p.size then (s, .wait) else s.askRead t pa p.size .devLoad tag true

/-- The atomic of an L2 (09 R251 NEAR, R259): performed whole once the line may be written. -/
def State.amoNear (s : State) (t : Nat) (r : MemReq) (op : AmoOp) (tag : Tag) (pa : Nat) : State × PRes :=
  let c := t / 2
  let line := pa / 64
  let ask := fun (s : State) =>
    if s.lineAsked c line then (s, PRes.wait) else (((s.l2Request c t line true tag ((s.thr t).level == .m) false).wantsLine t pa), PRes.wait)
  match (s.core c).l2Line line with
  | some l =>
    if l.readable then
      match s.hitCheck t l tag r.va pa .atomic l.writable with
      | (s, some e) => (s, .exc e)
      | (s, none) =>
        if l.writable then
          let old := lineVal l.data (pa % 64) r.size
          let s := match amoNew op r.size old r.opA r.opB with
            | some v =>
              (s.updCore c (fun k => k.setL2 line (some { l with
                st := .m, data := mergeLine l.data (placeVal v (pa % 64)) (byteMask (pa % 64) r.size) }))).mirrorStore c t line l.world
                (placeVal v (pa % 64)) (byteMask (pa % 64) r.size)
            | none => s
          (s, .val (extend true r.size old))
        else ask s
    else (s, .wait)
  | none => ask s

/-- The atomic sent once. -/
def State.askAtomic (s : State) (t : Nat) (r : MemReq) (op : AmoOp) (home : Bool) (acc : AccClass) (tag : Tag) (pa : Nat) : State × PRes :=
  if (s.thr t).asking then (s, .wait) else (s.sendAtomic t pa home acc tag op r.size r.opA r.opB, .wait)

/-- The MMIO of a CXL device (16 R371): its bridge window is that of a sub-port that trained as CXL. -/
def State.cxlIo (s : State) (pa : Nat) : Bool :=
  match s.mmioClaim pa with
  | some q => (Tbl.get SubPort.reset (s.port q.1).subs q.2).cxl
  | none => false
/-- An end point performs the operation (09 R251): PCIe functions know swap, add and compare; package MMIO and the CXL.io MMIO of a CXL device none. -/
def State.devAtomic (s : State) (pa : Nat) (op : AmoOp) : Bool :=
  match s.region pa with
  | .pkg _ => false
  | .pcie _ | .partnerIo _ => !s.cxlIo pa && (op == .swp || op == .add || op == .cas)
  | _ => true

/-- An atomic by its effective type and ATOM_PLACE (03 R83 to R86, 09 R251). A 0x21 of an atomic that is not issued has no record to name: its B is zero
(DESIGN CHOICE, log 16). -/
def State.amoPiece (s : State) (t : Nat) (r : MemReq) (op : AmoOp) (p : Piece) : State × PRes :=
  let x := s.thr t
  let tag := x.tagAt p.va
  let pa := p.pa
  match x.failure pa with
  | some e => (s, .exc e)
  | none =>
    if x.storeAhead pa r.size then (s, .wait)
    else if p.rank ≥ 2 && (x.regionBusy pa || (p.rank = 4 && !x.devDone)) then ((if p.rank = 4 then s.coverPosted t else s), .wait)
    else match effType p.rank pa with
      | .wb =>
        if bit x.atomPlace 0 || (s.core (t / 2)).l2Off then
          (if s.lineAsked (t / 2) (pa / 64) then (s, .wait) else s.askAtomic t r op true .nc tag pa)
        else s.amoNear t r op tag pa
      | .nc => s.askAtomic t r op false .nc tag pa
      | .gw | .gwu =>
        match s.bypass t pa with
        | none => ((s.galFlush (t / 2) (pa / 64)).getD s, .wait)
        | some s => s.askAtomic t r op (!bit x.atomPlace 2) .gw tag pa
      | _ =>
        if bit x.atomPlace 4 || !s.devAtomic pa op then (s, .exc (Exc.device x.pc r.va pa .atomic 0))
        else s.askAtomic t r op false .devLoad tag pa

/-! Stores (07 R194 to R202). -/

/-- The check at an entry of the Galley or the Hellbox (08 R213): its tag. -/
def State.galCheck (s : State) (t pa : Nat) (tag : Tag) (va : Word) (acc : Access) : State × Option Exc :=
  match ((s.core (t / 2)).galEntry (pa / 64)).or ((s.core (t / 2)).hellEntry (pa / 64)) with
  | some e =>
    if (s.thr t).level ≠ .m && e.world ≠ tag then
      let (s, e) := s.mismatch t (.core (coreId (t / 2))) tag va pa acc false
      (s, some e)
    else (s, none)
  | none => (s, none)

/-- The checks of a piece before anything is performed: windows, Secure pages, and the tag at an L2 or Galley hit (01 R32; 08 R213; 13 R322; 14 R336). -/
def State.tagCheck (s : State) (t : Nat) (acc : Access) (p : Piece) : State × Option Exc :=
  let tag := (s.thr t).tagAt p.va
  match s.precheck t p.pa tag p.va acc with
  | (s, some e) => (s, some e)
  | (s, none) =>
    match effType p.rank p.pa with
    | .wb =>
      match (s.core (t / 2)).l2Line (p.pa / 64) with
      | some l => if l.readable then s.hitCheck t l tag p.va p.pa acc false else (s, none)
      | none => (s, none)
    | .gw | .gwu => s.galCheck t p.pa tag p.va acc
    | _ => (s, none)
/-- Check every piece of an access: one that checks its line's tag at all. A CMO acts on a copy of any tag in the coherence domain, and only its own
core's Galley is checked (08 R213, 09 R241). -/
def State.tagChecks (s : State) (t : Nat) (r : MemReq) : List Piece → State × Option Exc
  | [] => (s, none)
  | p :: ps =>
    let one : State × Option Exc := match r.kind with
      | .loadG _ | .loadF | .store | .amo _ => s.tagCheck t r.kind.access p
      | .cmo _ _ => if p.pa ≥ 2 ^ 56 then s.galCheck t p.pa ((s.thr t).tagAt p.va) r.va .cmo else (s, none)
      | .galLock =>
        if effType p.rank p.pa != .gw || (s.core (t / 2)).galOff then (s, none) else s.tagCheck t .load p
      | .galUnlock => s.galCheck t p.pa ((s.thr t).tagAt p.va) r.va .load
      | _ => (s, none)
    match one with
    | (s, none) => s.tagChecks t r ps
    | (s, some e) => (s, some e)

/-- A core's L2 holds a line readable, so that a store to it has passed the check of its tag (14 R336). -/
def State.seenLine (s : State) (c line : Nat) : Bool := match (s.core c).l2Line line with | some l => l.readable | none => false
/-- The lines of WB memory that the pieces of a store lie in. -/
def wbLines (ps : List Piece) : List Nat := (ps.filter (fun p => effType p.rank p.pa == .wb)).map (fun p => p.pa / 64)
/-- The buffer entries of a store from its pieces: each takes its bytes of the value in turn. -/
def storeEntries (x : Thread) (rl : Bool) (v : Word) (lines : List Nat) (seen : Nat → Bool) : List Piece → List StoreEntry
  | [] => []
  | p :: r =>
    { va := p.va, pa := p.pa, type := effType p.rank p.pa, world := x.tagAt p.va, size := p.size
      data := BitVec.ofNat 64 (v.toNat % 2 ^ (8 * p.size)), issued := false, fromM := x.level == .m, release := rl, rank := p.rank
      mate := lines.find? (fun l => l != p.pa / 64), checked := effType p.rank p.pa != .wb || x.level == .m || seen (p.pa / 64) } ::
        storeEntries x rl (v >>> (8 * p.size)) lines seen r

/-- A DEV-S store (07 R190, R195, R198): sent once every earlier device access of the thread is complete, and performed when it is
acknowledged. -/
def State.strictStore (s : State) (t : Nat) (r : MemReq) (p : Piece) : State × PRes :=
  let x := s.thr t
  if x.asking then (s, .wait)
    else if x.lineOut p.pa || !x.devDone || (r.rl && !x.storesDone) then (s.coverPosted t, .wait)
    else
      let s := s.freshTid.pmc t 0x38
      ((s.wants t p.pa true).send { Flit.blank .wrNc (.core (coreId (t / 2))) (s.endpoint p.pa) with
        thr := some (thrOf t), tid := s.nextTid, line := p.pa / 64, world := x.tagAt p.va, size := p.size, mask := byteMask (p.pa % 64) p.size
        data := placeVal r.opA (p.pa % 64), acc := .devStore, hint := p.rank, fromM := x.level == .m }, .wait)

/-! Maintenance by address (08 R216, R217, R222, R223). -/

/-- An INVAL of the thread may discard dirty data (08 R223). -/
def State.mayDiscard (s : State) (t : Nat) : Bool :=
  let x := s.thr t
  match x.level with
  | .h | .m => true
  | .s => bit (s.core (t / 2)).cacheCtl 9
  | .u => bit (s.core (t / 2)).cacheCtl 8
/-- An outstanding operation of a thread is noted (07 R190). -/
def State.noteOut (s : State) (t : Nat) (kind : OutKind) (pa due : Nat) : State :=
  s.updThr t (fun x => { x with outst := x.outst ++ [{ tid := s.nextTid, kind := kind, pa := pa, due := due, port := none, stamp := s.stamp (dieOfThr t) }] })

/-- A CMO by address with its PA known (08 R222): op 0 CLEAN, 1 INVAL, 2 CLEAN_INVAL. None while an earlier store to the line, or the
write-back queue, stands in the way. -/
def State.cmoVa (s : State) (t : Nat) (op : Fin 3) (pou : Bool) (pa : Nat) (tag : Tag) : Option State :=
  let c := t / 2
  let line := pa / 64
  let x := s.thr t
  if x.stb.any (fun e => e.overlaps (line * 64) 64) || (pa < 2 ^ 56 && !pou && (x.lineOut pa || s.lineAsked c line)) then none
  else if pa ≥ 2 ^ 56 then
    let s := s.galRecall c line
    let clean := fun (s : State) => match (s.core c).galEntry line with
      | some e => (s.galPush c e).map (fun s => s.updCore c (fun k => k.setGal { e with dirty := 0, wr := 0 }))
      | none => some s
    let s? := if op = 1 then some s else clean s
    let s? := s?.map (fun s => if op = 0 then s else s.updCore c (fun k => k.galRemove line))
    s?.map (fun s =>
      let due := (s.core c).galWb.filter (fun w => w.entry.tag == line && !x.hasOut w.tid)
      s.updThr t (fun x => { x with outst := x.outst ++ due.map (fun w =>
        { tid := w.tid, kind := .cmoGw, pa := line * 64, due := 1, port := none, stamp := s.stamp (dieOfThr t) }) }))
  else if pou then
    if op = 0 then some s
    else some (s.updCore c (fun k => { k with l1i := l1Less k.l1i line, l1d := l1Less k.l1d line }))
  else if !hasHome line || !s.backed pa then some s
  else
    let s := s.freshTid
    let s := s.send { Flit.blank .cmoP (.core (coreId c)) (s.homeOf (dieOfCore c) line) with
      thr := some (thrOf t), tid := s.nextTid, line := line, world := tag, hint := op.val, opA := BitVec.ofNat 64 op.val, acc := .nc
      discard := op = 1 && s.mayDiscard t, fromM := x.level == .m }
    some (s.noteOut t .cmo (line * 64) 1)

/-! The instruction as a whole. -/

/-- The pieces an instruction translates: loads and stores of normal size split, everything else is one. -/
def MemReq.pieces (r : MemReq) : List (Word × Nat) :=
  match r.kind with
  | .loadG _ | .loadF | .store => Machine.pieces r.va r.size
  | _ => [(r.va, r.size)]
/-- The alignment fault that does not depend on the type (03 R82, R86). -/
def MemReq.misaligned (r : MemReq) : Bool := decide (r.va.toNat % r.size ≠ 0)
/-- Type code of the alignment fault: 1 atomic, 2 acquire or release (04 R113). -/
def MemReq.strictAlign (r : MemReq) : Option Nat :=
  match r.kind with
  | .amo _ => some 1
  | .loadG _ | .store => if r.aq || r.rl then some 2 else none
  | _ => none

/-- What translating the pieces of an access comes to. -/
inductive PXRes where
  | done
  | wait
  | fault (e : Exc)
deriving DecidableEq, Repr

/-- Translate the pieces that are not translated yet, in order, all before any is performed (06 R167, 07 R201). A piece of a misaligned access that lies
in a page of a device type takes 0x08 before the next page is looked at (04 R115). -/
def State.xlateMore (s : State) (t : Nat) (r : MemReq) : List (Word × Nat) → State × PXRes
  | [] => (s, .done)
  | (va, size) :: rest =>
    let x := s.thr t
    if (match x.memOp with | some m => m.xl.any (fun p => p.va == va) | none => false) then s.xlateMore t r rest
    else
      let acc := r.kind.access
      let got := fun (s : State) (pa rank : Nat) (e : Option TlbEntry) (reason : Option Nat) =>
        s.updThr t (fun x => (x.updMem (fun m => { m with
          xl := m.xl ++ [{ va := va, size := size, pa := pa, rank := rank, entry := e, reason := reason }] })).noWalk)
      let go := fun (s : State) (rank : Nat) =>
        if r.misaligned && decide (rank ≥ 2) && (match r.kind with | .loadG _ | .loadF | .store => true | _ => false) then
          (s, PXRes.fault (Exc.align x.pc r.va acc 0 r.size))
        else s.xlateMore t r rest
      match s.translate t va acc false with
      | (s, .ok pa rank e) => go (got s pa rank e none) rank
      | (s, .epm pa rank e reason) => go (got s pa rank e (some reason)) rank
      | (s, .fault e) => (s.updThr t Thread.noWalk, .fault e)
      | (s, .need pa _ _ _) => (s.walkIssue t va acc pa, .wait)
      | (s, .upd u) => (s.walkUpdate t va acc u, .wait)

/-- Where a cause stands among 0x18, 0x19, 0x21 and 0x28 (04 R115). -/
def Exc.order (e : Exc) : Nat :=
  match e.cause with
  | 0x18 => 0 | 0x19 => 1 | 0x21 => 2 | 0x28 => 3 | _ => 4

/-- Load every piece; the first that waits decides, and where none does the first cause in the order of R115. -/
def State.loadPieces (s : State) (t : Nat) : List Piece → State × (List (Nat × Word) ⊕ Option Exc)
  | [] => (s, .inl [])
  | p :: r =>
    match s.loadPiece t p with
    | (s, .val v) =>
      match s.loadPieces t r with
      | (s, .inl vs) => (s, .inl ((p.size, v) :: vs))
      | (s, .inr e) => (s, .inr e)
    | (s, .wait) => (s, .inr none)
    | (s, .exc e) =>
      if e.order = 0 then (s, .inr (some e))
      else match s.loadPieces t r with
        | (s, .inl _) => (s, .inr (some e))
        | (s, .inr none) => (s, .inr none)
        | (s, .inr (some f)) => (s, .inr (some (if f.order < e.order then f else e)))

/-- The instruction waits with its request out. -/
def State.waits (s : State) (t : Nat) : State := s.updThr t (fun x => x.updMem (fun m => { m with fresh := false }))

/-- GAL.LOCK with its line's PA (08 R219). -/
def State.galLockAt (s : State) (t : Nat) (r : MemReq) (tag : Tag) (pa rank : Nat) : State :=
  let x := s.thr t
  let c := t / 2
  let line := pa / 64
  let done := fun (s : State) => s.finish t x.npc id
  if effType rank pa != .gw || (s.core c).galOff then done (s.updCore c (fun k => { k with galRefused := true }))
  else match x.failure (line * 64) with
  | some e => s.raises t e
  | none =>
    let s := s.galRecall c line
    match (s.core c).galEntry line with
    | some e =>
      if e.lock then done s
      else if (s.core c).locked ≥ 32 then done (s.updCore c (fun k => { k with galLockFull := true }))
      else if !e.full then (if x.asking then s.waits t else (s.sendRead t (line * 64) 64 .galRead tag false).waits t)
      else if e.poison then s.raises t (Exc.poison x.pc r.va pa .load (s.poisonLoc line) false)
      else done (s.updCore c (fun k => k.setGal { e with lock := true }))
    | none =>
      if (s.core c).locked ≥ 32 then done (s.updCore c (fun k => { k with galLockFull := true }))
      else if x.asking then s.waits t else (s.sendRead t (line * 64) 64 .galRead tag false).waits t

/-- GAL.UNLOCK with its line's PA (08 R220). -/
def State.galUnlockAt (s : State) (t pa : Nat) : State :=
  let c := t / 2
  match (s.core c).galEntry (pa / 64) with
  | some e => (s.updCore c (fun k => k.setGal { e with lock := false })).finish t (s.thr t).npc id
  | none => s.finish t (s.thr t).npc id

/-- TLB.LOCK with its translation (06 R171): the 17th finds the array full. -/
def State.tlbLockAt (s : State) (t : Nat) (va : Word) (e : Option TlbEntry) : State :=
  let x := s.thr t
  let c := t / 2
  let s := match e with
    | none => s
    | some e =>
      if (s.core c).pinned.any (fun p => p.hits x.tctx va (x.lookupTag va)) then s
      else if (s.core c).pinned.length ≥ 16 then s.updCore c (fun k => { k with tlbLockFull := true })
      else s.updCore c (fun k => { k with pinned := k.pinned ++ [e] })
  s.finish t x.npc id

/-- A prefetch hint with its translation (03 R81): what it would fetch, if nothing refuses it. -/
def State.prefAt (s : State) (t hint : Nat) (tag : Tag) (pa rank : Nat) : State :=
  let c := t / 2
  let line := pa / 64
  let m : Bool := (s.thr t).level == .m
  let ok : Bool := s.backed pa && s.guardOk pa tag true false && (match s.copyWorld line with | some w => w == tag || m | none => true)
  let s := match hint with
    | 0 | 1 => if effType rank pa == MemType.wb && ok && !(s.core c).l2Off then s.l2Request c t line (hint == 1) tag m true else s
    | 2 =>
      if effType rank pa == MemType.wb && ok then
        let s := s.freshTid
        s.send { Flit.blank .rdS (.core (coreId c)) (s.homeOf (dieOfCore c) line) with
          cls := 0, thr := some (thrOf t), tid := s.nextTid, line := line, world := tag, pf := true, hint := 2 }
      else s
    | 3 =>
      if effType rank pa == MemType.gw && !(s.core c).galOff && ((s.core c).galEntry line).isNone && ((s.core c).hellEntry line).isNone &&
          (tag == 0 || tag == 0xFFF) then
        let s := (s.freshTid.pmc t 0x19).pmc t 0x39
        s.send { Flit.blank .rdNc (.core (coreId c)) (s.endpoint pa) with
          thr := some (thrOf t), tid := s.nextTid, line := line, world := tag, size := 64, mask := byteMask 0 64, acc := .galRead, pf := true }
      else s
    | _ => s
  s.finish t (s.thr t).npc id

/-- The watchpoint an instruction matches (04 R130). -/
def MemReq.watched (r : MemReq) (x : Thread) : Option Nat :=
  match r.kind with
  | .loadG _ | .loadF => x.watchAt r.va r.size true false
  | .store => x.watchAt r.va r.size false true
  | .amo _ => x.watchAt r.va r.size true true
  | .cmo _ _ => x.watchAt (BitVec.ofNat 64 (r.va.toNat / 64 * 64)) 64 false true
  | _ => none

/-- GW loads train the prefetch streams as they retire (08 R221). -/
def State.trainGw (s : State) (t : Nat) (ps : List Piece) : State :=
  ps.foldl (fun s p =>
    if effType p.rank p.pa == .gw && (s.core (t / 2)).galHolds (p.pa / 64) then s.train t p.pa true p.va ((s.thr t).tagAt p.va) else s) s

/-- Perform an instruction whose pieces are translated and checked. -/
def State.perform (s : State) (t : Nat) (r : MemReq) (ps : List Piece) : State :=
  let x := s.thr t
  match r.kind, ps with
  | .store, _ =>
    match ps.find? (fun p => effType p.rank p.pa == .devS) with
    | some p =>
      match s.strictStore t r p with
      | (s, .val _) => s.finish t x.npc id
      | (s, .wait) => s.waits t
      | (s, .exc e) => s.raises t e
    | none =>
      if x.stb.length + ps.length > 32 then s.waits t
      else
        s.finish t x.npc (fun x => { x with stb := x.stb ++ storeEntries x r.rl r.opA (wbLines ps) (s.seenLine (t / 2)) ps })
  | .amo op, p :: _ =>
    match s.amoPiece t r op p with
    | (s, .val v) => s.finish t x.npc (fun x => x.writeG r.rd v)
    | (s, .wait) => s.waits t
    | (s, .exc e) => s.raises t e
  | .galLock, p :: _ => s.galLockAt t r (x.tagAt p.va) p.pa p.rank
  | .galUnlock, p :: _ => s.galUnlockAt t p.pa
  | .tlbLock, p :: _ => s.tlbLockAt t p.va p.entry
  | .cmo op pou, p :: _ =>
    match s.cmoVa t op pou p.pa (x.tagAt p.va) with
    | some s => s.finish t x.npc id
    | none => s.waits t
  | .pref hint, p :: _ => s.prefAt t hint (x.tagAt p.va) p.pa p.rank
  | .loadG signed, _ =>
    match s.loadPieces t ps with
    | (s, .inl vs) => (s.trainGw t ps).finish t x.npc (fun x => x.writeG r.rd (extend signed r.size (BitVec.ofNat 64 (joinPieces vs))))
    | (s, .inr none) => s.waits t
    | (s, .inr (some e)) => s.raises t e
  | .loadF, _ =>
    match s.loadPieces t ps with
    | (s, .inl vs) => (s.trainGw t ps).finish t x.npc (fun x => x.writeF r.rd (BitVec.ofNat 64 (joinPieces vs)))
    | (s, .inr none) => s.waits t
    | (s, .inr (some e)) => s.raises t e
  | _, [] => s.finish t x.npc id

/-- An access performed exactly once, issued: its answer ends it, with its value or its cause; it is neither translated nor checked nor issued again
(07 R197, R198). -/
def State.onceGoes (s : State) (t : Nat) (m : MemOp) : State :=
  let x := s.thr t
  let r := m.req
  match m.errs, m.got with
  | q :: _, _ => s.raises t (q.2.exc x m q.1)
  | [], (_, v) :: _ =>
    s.finish t x.npc (fun x => match r.kind with
      | .loadG signed => x.writeG r.rd (extend signed r.size (BitVec.ofNat 64 (joinPieces [(r.size, v)])))
      | .loadF => x.writeF r.rd (BitVec.ofNat 64 (joinPieces [(r.size, v)]))
      | .amo _ => x.writeG r.rd v
      | _ => x)
  | [], [] => s.waits t

/-- The thread's earlier accesses let the instruction perform (07 R186, R195). -/
def MemReq.ordered (r : MemReq) (x : Thread) : Bool :=
  !x.strictPending &&
    (match r.kind with
     | .amo _ => !r.rl || x.storesDone
     | _ => true) &&
    (!r.aq || (x.stb.all (fun e => !e.release) && x.issuedDone))

/-- A thread fetches in NONE mode: it consults and trains no predictor (05 R137, R140). -/
def State.noneMode (s : State) (t : Nat) : Bool :=
  let x := s.thr t
  bit x.coreCtl 0 || bit x.coreCtl 1 || (match x.encl with | some e => e.forceNp | none => false) ||
    ((s.core (t / 2)).itlb.any (fun e => e.np && e.hits x.tctx x.pc (x.lookupTag x.pc)))
/-- Every earlier access of the thread has passed its translation, tag and permission checks (05 R141): a store that missed the L2 passes the check of its
line's tag when the line is filled, or is answered by its home. -/
def State.olderChecked (s : State) (t : Nat) : Bool :=
  let x := s.thr t
  x.outst.all (fun o => o.kind != .homeStore) &&
    x.stb.all (fun e => e.checked || (match (s.core (t / 2)).l2Line (e.pa / 64) with | some l => l.readable && l.world == e.world | none => false))

/-- Carry the instruction in progress as far as it goes (04 R115 gives the order of its causes; 05 R141, 06 R162 what an instruction in NONE mode waits
for). -/
def State.attempt (s : State) (t : Nat) (r : MemReq) : State :=
  let x := s.thr t
  let acc := r.kind.access
  match (if r.misaligned then r.strictAlign else none) with
  | some ty => s.raises t (Exc.align x.pc r.va acc ty r.size)
  | none =>
    if s.noneMode t && !s.olderChecked t then s
    else match r.kind with
    | .pref hint =>
      match s.translate t r.va .load false with
      | (s, .ok pa rank _) => (s.updThr t Thread.noWalk).prefAt t hint (x.tagAt r.va) pa rank
      | (s, .need pa _ _ _) => s.walkIssue t r.va .load pa
      | (_, _) => s.finish t x.npc id
    | _ =>
      match s.xlateMore t r r.pieces with
      | (s, .fault e) => s.raises t e
      | (s, .wait) => s
      | (s, .done) =>
        let ps := ((s.thr t).memOp.map (fun m => m.xl)).getD []
        match r.watched x with
        | some n => s.raises t (Exc.debug x.pc r.va 1 n)
        | none =>
          match s.tagChecks t r ps with
          | (s, some e) => s.raises t e
          | (s, none) =>
            match ps.find? (fun p => p.reason.isSome) with
            | some p => s.raises t (Exc.enclave x.pc p.va (p.reason.getD 0))
            | none => if r.ordered x then s.perform t r ps else s

/-- An instruction that accesses memory as it begins. -/
def MemOp.begin_ (r : MemReq) : MemOp :=
  { req := r, tid := 0, want := none, got := [], once := false, fresh := true, stamp := 0, xl := [], errs := [] }
/-- The kept access is that of an instruction at the thread's PC, in its level, world and tables. -/
def KeptOp.is (k : KeptOp) (x : Thread) (r : MemReq) : Bool :=
  k.pc == x.pc && k.level == x.level && k.world == x.world && k.root1 == x.root1 && k.op.req == r
/-- Carry on with the instruction in progress of a thread. -/
def State.goOn (s : State) (t : Nat) (m : MemOp) : State := if m.once then s.onceGoes t m else s.attempt t m.req
/-- Begin an instruction that accesses memory; one whose access an interrupt has left takes it up again (04 R122; DESIGN CHOICE, log 26). -/
def State.beginMem (s : State) (t : Nat) (r : MemReq) : State :=
  match (s.thr t).kept.find? (fun k => k.is (s.thr t) r) with
  | some k => (s.updThr t (fun x => { x with memOp := some k.op, kept := x.kept.filter (fun q => q != k) })).goOn t k.op
  | none => (s.updThr t (fun x => { x with memOp := some (MemOp.begin_ r) })).attempt t r

/-- Carry on with the instruction of a thread after something it may wait for has changed. -/
def State.wake (s : State) (t : Nat) : State :=
  let x := s.thr t
  match x.memOp with
  | some m => if x.run == .running then s.goOn t m else s
  | none => s
/-- The same for both threads of a core. -/
def State.wakeCore (s : State) (c : Nat) : State := (s.wake (2 * c)).wake (2 * c + 1)

/-- A row of an instruction that accesses memory: it begins, or it is the one in progress and carries on. -/
def State.memRow (s : State) (t : Thr) (r : MemReq) : Host.Outcome State Fault Refusal :=
  match (s.thr t).memOp with
  | some m => if m.req = r then .next (s.wake t) else .next s
  | none => s.run t (fun s => s.beginMem t r)

end Sys2Proof.Machine
end

