-- ==== Sys2Proof/Machine/Branch.lean ====
section
/-! DEFINITION. Branches and jumps with the predictors they train (03 R74 to R76; 05 R132 to R140). -/

namespace Sys2Proof.Machine

/-! The predictors (05 R132 to R134). -/

/-- The counters of the three tables, 16,384 in all (05 R132; how the spec shares them out it does not say: DESIGN CHOICE, log 3). -/
def dirSize (n : Fin 3) : Nat := if n = 0 then 8192 else 4096
/-- The counter that a table holds for a branch of a thread and world, with its place and tag there. -/
def Predictors.dirAt (p : Predictors) (n : Fin 3) (odd : Bool) (x : Thread) (pc : Word) : Nat × Nat × Option DirCounter :=
  let slot := (Config.dirIndex n pc x.hist).1 % dirSize n
  let tag := (Config.dirIndex n pc x.hist).2
  (slot, tag, p.dirs.find? (fun e => e.table == n && e.slot == slot && e.tag == tag && e.odd == odd && e.world == x.world))
/-- The direction that the tables give, the longest history first; none where only entries of another thread or world stand there (05 R133). -/
def Predictors.direction (p : Predictors) (odd : Bool) (x : Thread) (pc : Word) : Option Bool :=
  ([2, 1, 0] : List (Fin 3)).findSome? (fun n => (p.dirAt n odd x pc).2.2.map (fun e => decide (e.count.toNat ≥ 2)))
/-- A saturating counter of two bits moved by a direction. -/
def countMove (k : BitVec 2) (taken : Bool) : BitVec 2 := if taken then (if k = 3 then 3 else k + 1) else (if k = 0 then 0 else k - 1)
/-- Train each table: its counter for the branch moves, or one that stood at its place makes way (DESIGN CHOICE, log 3). -/
def Predictors.trainDir (p : Predictors) (odd : Bool) (x : Thread) (pc : Word) (taken : Bool) : Predictors :=
  ([0, 1, 2] : List (Fin 3)).foldl (fun p n =>
    let q := p.dirAt n odd x pc
    let k : BitVec 2 := match q.2.2 with | some e => countMove e.count taken | none => if taken then 2 else 1
    { p with dirs := { table := n, slot := q.1, tag := q.2.1, odd := odd, world := x.world, count := k } :: p.dirs.filter (fun e => !(e.table == n && e.slot == q.1)) }) p
/-- The set of the branch target buffer that an address lies in: 512 sets of 8 ways (05 R132; DESIGN CHOICE, log 3: the low bits of the word address). -/
def btbSet (pc : Word) : Nat := pc.toNat / 4 % 512
/-- The target that the branch target buffer holds (05 R132, R133). -/
def Predictors.btbTarget (p : Predictors) (odd : Bool) (world : Tag) (pc : Word) : Option Word :=
  (p.btb.find? (fun e => e.pc == pc && e.odd == odd && e.world == world)).map BtbEntry.target
/-- A taken transfer enters the branch target buffer; of nine in a set the oldest leaves (DESIGN CHOICE, log 3). -/
def Predictors.trainBtb (p : Predictors) (odd : Bool) (world : Tag) (pc target : Word) : Predictors :=
  let rest := p.btb.filter (fun e => !(e.pc == pc && e.odd == odd && e.world == world))
  let here := rest.filter (fun e => btbSet e.pc == btbSet pc)
  { p with btb := { pc := pc, target := target, odd := odd, world := world } :: here.take 7 ++ rest.filter (fun e => btbSet e.pc != btbSet pc) }
/-- The place of a JR in the indirect target predictor (05 R132). -/
def indSlot (x : Thread) (pc : Word) : Nat := Config.indIndex pc x.path % 1024
/-- The target of a JR: by the indirect target predictor, else by the branch target buffer; none where it is absent (05 R132, R133). -/
def Predictors.indirect (p : Predictors) (odd : Bool) (x : Thread) (pc : Word) : Option Word :=
  ((p.inds.find? (fun e => e.slot == indSlot x pc && e.pc == pc && e.odd == odd && e.world == x.world)).map IndEntry.target).or (p.btbTarget odd x.world pc)
/-- Train the indirect target predictor. -/
def Predictors.trainInd (p : Predictors) (odd : Bool) (x : Thread) (pc target : Word) : Predictors :=
  { p with inds := { slot := indSlot x pc, pc := pc, target := target, odd := odd, world := x.world } :: p.inds.filter (fun e => e.slot != indSlot x pc) }

/-- Kinds of transfer that are predicted (05 R132, R134). -/
inductive Xfer where
  | cond | jump | indirect | ret
deriving DecidableEq, Repr

/-- Train the predictors with a transfer of a thread, and lengthen its history (05 R132). -/
def State.trainXfer (s : State) (t : Nat) (kind : Xfer) (pc target : Word) (taken : Bool) : State :=
  let x := s.thr t
  let odd := t % 2 == 1
  let s := s.updCore (t / 2) (fun k =>
    let p := if kind == .cond then k.preds.trainDir odd x pc taken else k.preds
    let p := if kind == .indirect then p.trainInd odd x pc target else p
    { k with preds := if taken then p.trainBtb odd x.world pc target else p })
  s.updThr t (fun x => { x with
    hist := if kind == .cond then x.hist <<< 1 ||| BitVec.ofNat 640 (b2n taken) else x.hist
    path := if taken then (target :: x.path).take 32 else x.path })
/-- Push onto the return stack; a full one loses its oldest entry (05 R134). -/
def Thread.push (x : Thread) (a : Word) : Thread := { x with retStack := (a :: x.retStack).take 32 }
/-- Pop the return stack (05 R134). -/
def Thread.pop (x : Thread) : Thread := { x with retStack := x.retStack.drop 1 }

/-! The wrong path (05 R143, R144; 19 R423). -/

/-- A line that the wrong path may fill: WB memory that its tag and region guard admit (05 R144). -/
def State.wrongLine (s : State) (t line : Nat) (tag : Tag) : State :=
  let c := t / 2
  let m : Bool := (s.thr t).level == .m
  let ok : Bool := hasHome line && s.backed (line * 64) && s.guardOk (line * 64) tag true false && !(s.core c).l2Off && !s.lineAsked c line &&
    ((s.core c).l2Line line).isNone && (match s.copyWorld line with | some w => w == tag || m | none => true)
  if ok then s.l2Request c t line false tag m false else s
/-- A walk of the wrong path, as far as the walk cache and the core's L2 hold the tables: it fills the walk cache and a TLB, asks for a line it lacks, raises nothing and sets no
flag (05 R143, R144; 06 R162). The answer is the address, the rank of its type and NP. -/
def State.wrongWalk (s : State) (t : Nat) (va : Word) (acc : Access) : Nat → List (Nat × Word) → State × Option (Nat × Nat × Bool)
  | 0, _ => (s, none)
  | fuel + 1, known =>
    let x := s.thr t
    let read := fun (nested : Bool) (pa : Nat) => ((known.find? (fun p => p.1 == pa)).map Prod.snd).or (s.walkRead t x.tctx nested pa)
    match walkAll x.tctx walkable read acc va with
    | .need pa nested _ _ =>
      match (s.core (t / 2)).l2Line (pa / 64) with
      | some l =>
        if l.readable && !l.poison && l.world == x.walkWorld then
          let v := lineVal l.data (pa % 64) 8
          (s.walkKeep t pa nested v).wrongWalk t va acc fuel ((pa, v) :: known)
        else (s, none)
      | none => (s.wrongLine t (pa / 64) x.walkWorld, none)
    | .done e =>
      let e' : TlbEntry ⊕ Nat := match x.encl with
        | some k => if k.holds va then s.epmCheck k va acc e else .inl e
        | none => .inl e
      (match e' with
       | .inl e => if acc == .fetch && e.noFetch x.mtypeMap va then (s, none) else (s.tlbFill t (acc == .fetch) e, some (e.pa va, e.rank x.mtypeMap, e.np))
       | .inr _ => (s, none))
    | _ => (s, none)
/-- A translation on the wrong path: the TLBs, then a walk. -/
def State.wrongXlate (s : State) (t : Nat) (va : Word) (acc : Access) : State × Option (Nat × Nat × Bool) :=
  let x := s.thr t
  let c := x.tctx
  if !c.s1 && !c.s2 then (s, if va.toNat < 2 ^ 57 then some (va.toNat, rawRank va.toNat, false) else none)
  else
    let k := s.core (t / 2)
    let encl := x.lookupTag va
    match ((if acc == .fetch then k.itlb else k.dtlb) ++ k.pinned ++ k.l2tlb).find? (fun e => e.hits c va encl) with
    | some e =>
      (s, if e.permits c acc && e.epmPermits acc && !(acc == .fetch && e.noFetch x.mtypeMap va) then some (e.pa va, e.rank x.mtypeMap, e.np) else none)
    | none => s.wrongWalk t va acc 48 []
/-- A load or a fetch on the wrong path: WB memory alone, or the recall of a line that the Hellbox holds (05 R143, R144). A page with NP = 1 is not fetched (R138). -/
def State.wrongAccess (s : State) (t : Nat) (va : Word) (fetch : Bool) : State :=
  let x := s.thr t
  let c := t / 2
  let tag := x.tagAt va
  match s.wrongXlate t va (if fetch then .fetch else .load) with
  | (s, none) => s
  | (s, some (pa, rank, np)) =>
    let line := pa / 64
    if fetch && np then s
    else match effType rank pa with
      | .wb =>
        let s := if fetch then s else s.train t pa false va tag
        match (s.core c).l2Line line with
        | some l =>
          if !l.readable || (x.level != .m && l.world != tag) then s
          else if fetch then
            (if (s.core c).l1iOn && !l1Has (s.core c).l1i line then
              (s.updCore c (fun k => { k with l1i := l1Insert 256 (k.waysOf t 4) (Config.freeValue s.free) k.l1i line })).drawn else s)
          else if (s.core c).l1dOn && !l1Has (s.core c).l1d line then
            (s.updCore c (fun k => { k with l1d := l1Insert 128 (k.waysOf t 8) (Config.freeValue s.free) k.l1d line })).drawn
          else s
        | none => s.wrongLine t line tag
      | .gw =>
        if fetch then s
        else (match (s.core c).hellEntry line with
          | some e => if x.level == .m || e.world == tag then s.galRecall c line else s
          | none => s)
      | _ => s
/-- One effect of a wrong path, drawn: a load, a fetch, training by a transfer of it, or a count of a speculative event (05 R143; 19 R423, R426). -/
def State.wrongStep (s : State) (t : Nat) : State :=
  let kind := s.draw 4
  let n := Config.freeValue (s.free + 1)
  let m := Config.freeValue (s.free + 2)
  let s := s.drawn.drawn.drawn
  match kind with
  | 0 => s.wrongAccess t (BitVec.ofNat 64 n) false
  | 1 => s.wrongAccess t (BitVec.ofNat 64 n) true
  | 2 => s.trainXfer t (if m % 8 < 4 then .cond else .indirect) (BitVec.ofNat 64 (n / 4 * 4)) (BitVec.ofNat 64 (m / 4 * 4)) (n % 2 == 1)
  | _ => s.pmc t (([0x4, 0x5, 0x10, 0x11, 0x12, 0x13, 0x14, 0x15, 0x18, 0x20, 0x21, 0x22, 0x23, 0x28, 0x30] : List Nat).getD (n % 15) 0x5)
/-- What a wrong path leaves (05 R143): up to 63 effects, drawn (log 3). -/
def State.wrongPath (s : State) (t : Nat) : State := (List.range (s.draw 64)).foldl (fun s _ => s.wrongStep t) s.drawn

/-- What the predictors say of a transfer at the PC is wrong: the direction, by the tables or the static prediction (05 R133), or a target; a direct transfer that the branch
target buffer does not hold is found at decode, and a target that is absent is no guess (R135). -/
def State.wrongGuess (s : State) (t : Nat) (kind : Xfer) (target : Word) (taken back : Bool) : Bool :=
  let x := s.thr t
  let p := (s.core (t / 2)).preds
  let odd := t % 2 == 1
  let off := fun (g : Option Word) => match g with | some a => a != target | none => false
  match kind with
  | .cond => ((p.direction odd x x.pc).getD back) != taken || (taken && off (p.btbTarget odd x.world x.pc))
  | .jump => off (p.btbTarget odd x.world x.pc)
  | .indirect => off (p.indirect odd x x.pc)
  | .ret => off (match x.retStack.head? with | some a => some a | none => p.indirect odd x x.pc)
/-- A transfer in FULL mode (05 R132 to R135, R143; 19 R426): the lookup is counted, a wrong guess leaves what its wrong path leaves, and the predictors are trained. -/
def State.predict (s : State) (t : Nat) (kind : Xfer) (target : Word) (taken back : Bool) : State :=
  if s.noneMode t then s
  else
    let pc := (s.thr t).pc
    let s := s.pmc t 0x5
    let s := if s.wrongGuess t kind target taken back then (s.pmc t 0x4).wrongPath t else s
    s.trainXfer t kind pc target taken

/-- A conditional branch (03 R74). -/
def branch (cond : Word → Word → Bool) (t : Thr) (rs1 rs2 : RegNo) (off : BitVec 16) (s : State) : Host.Outcome State Fault Refusal :=
  s.run t (fun s =>
    let x := s.thr t
    let taken := cond (x.readG rs1) (x.readG rs2)
    let target := branchTarget x.pc off
    let s := s.predict t .cond target taken (bit off 15)
    let s := s.pmc t 0x3
    s.finish t (if taken then target else x.npc) id)

/-- BEQ (03 R74). -/
def execBeq (t : Thr) (rs1 rs2 : RegNo) (off : BitVec 16) (s : State) : Host.Outcome State Fault Refusal :=
  branch (fun x y => x == y) t rs1 rs2 off s
/-- BNE (03 R74). -/
def execBne (t : Thr) (rs1 rs2 : RegNo) (off : BitVec 16) (s : State) : Host.Outcome State Fault Refusal :=
  branch (fun x y => x != y) t rs1 rs2 off s
/-- BLT (03 R74). -/
def execBlt (t : Thr) (rs1 rs2 : RegNo) (off : BitVec 16) (s : State) : Host.Outcome State Fault Refusal :=
  branch (fun x y => x.slt y) t rs1 rs2 off s
/-- BGE (03 R74). -/
def execBge (t : Thr) (rs1 rs2 : RegNo) (off : BitVec 16) (s : State) : Host.Outcome State Fault Refusal :=
  branch (fun x y => !x.slt y) t rs1 rs2 off s
/-- BLTU (03 R74). -/
def execBltu (t : Thr) (rs1 rs2 : RegNo) (off : BitVec 16) (s : State) : Host.Outcome State Fault Refusal :=
  branch (fun x y => x.ult y) t rs1 rs2 off s
/-- BGEU (03 R74). -/
def execBgeu (t : Thr) (rs1 rs2 : RegNo) (off : BitVec 16) (s : State) : Host.Outcome State Fault Refusal :=
  branch (fun x y => !x.ult y) t rs1 rs2 off s
/-- J: the link is written and a call hint pushes it (03 R74, R76; 05 R134). -/
def execJ (t : Thr) (rd : RegNo) (imm : BitVec 21) (s : State) : Host.Outcome State Fault Refusal :=
  s.run t (fun s =>
    let none_ := s.noneMode t
    let target := branchTarget (s.thr t).pc imm
    let s := s.predict t .jump target true false
    s.finish t target (fun x =>
      let y := x.writeG rd x.npc
      if rd = 1 && !none_ then y.push x.npc else y))
/-- JR: the target is computed from the old rs1; a target that is no word address takes 0x01 (03 R59, R74 to R76). -/
def execJr (t : Thr) (rd rs1 : RegNo) (imm : BitVec 16) (s : State) : Host.Outcome State Fault Refusal :=
  s.run t (fun s =>
    let x := s.thr t
    let target := x.readG rs1 + sext imm
    if target.toNat % 4 ≠ 0 then s.takeExc t { Exc.plain 0x01 x.pc with faddr := target }
    else
      let ret := rd = 0 && rs1 = 1 && imm = 0
      let none_ := s.noneMode t
      let s := s.predict t (if ret then .ret else .indirect) target true false
      let s := s.pmc t 0x3
      s.finish t target (fun x =>
        let y := x.writeG rd x.npc
        if none_ then y else if rd = 1 then y.push x.npc else if ret then y.pop else y))

end Sys2Proof.Machine
end

