-- ==== Sys2Proof/Machine/Sysreg.lean ====
section
/-! DEFINITION. System registers: their fields, levels, reads and writes (04 R99 to R108, R117 to R119, R128; 05 R139; 06 R150, R151, R158, R173; 07 R203; 08 R220, R226; 19 R424). -/

namespace Sys2Proof.Machine

/-! Registers by index (04 R101). -/

/-- The level that owns a register; none for an index that is not in the table. -/
def sysOwner (i : Nat) : Option Level :=
  if i = 0 ∨ i = 1 ∨ i = 8 then some .u
  else if i = 0x002 ∨ i = 0x012 ∨ (0x120 ≤ i ∧ i ≤ 0x127) ∨ i = 0x130 ∨ i = 0x132 then some .m
  else if i = 0x011 ∨ i = 0x022 ∨ (0x110 ≤ i ∧ i ≤ 0x117) ∨ i = 0x131 then some .h
  else if i = 0x010 ∨ (0x013 ≤ i ∧ i ≤ 0x015) ∨ i = 0x020 ∨ i = 0x021 ∨ i = 0x023 ∨ (0x100 ≤ i ∧ i ≤ 0x107) ∨
      (0x140 ≤ i ∧ i ≤ 0x148) ∨ (0x150 ≤ i ∧ i ≤ 0x158) ∨ (0x160 ≤ i ∧ i ≤ 0x166) ∨ (0x168 ≤ i ∧ i ≤ 0x16F) then some .s
  else none

/-- The level a thread needs for an access (04 R101, R128; 19 R424): the refusal names the level it is raised to. -/
def Thread.sysDenied (x : Thread) (i : Nat) (write : Bool) : Option Level :=
  if 0x150 ≤ i ∧ i ≤ 0x158 ∧ bit x.dbgCtl 63 then (if x.level = .m then none else some .m)
  else if 0x160 ≤ i ∧ i ≤ 0x16F ∧ bit x.pmcCtl 63 ∧ !x.secure then some .m
  else if 0x168 ≤ i ∧ i ≤ 0x16F ∧ !write ∧ x.level = .u then (if bit x.pmcCtl 0 then none else some .s)
  else match sysOwner i with
    | some l => if x.level.num < l.num then some l else none
    | none => none

/-- A field of a system register. -/
def sfld (hi lo : Nat) (acc : RAcc := .rw) (legal : Legal := .any) : Field := fld hi lo acc 0 legal .w

/-- The causes that can be delegated (04 R104). -/
def delegable : List Nat := [0x01, 0x02, 0x03, 0x04, 0x08, 0x10, 0x11, 0x12, 0x14, 0x18, 0x20, 0x21, 0x28, 0x30, 0x38]
/-- Event codes (19 R426). -/
def eventCodes : List Nat := [1, 2, 3, 4, 5, 6, 0x10, 0x11, 0x12, 0x13, 0x14, 0x15, 0x18, 0x19, 0x20, 0x21, 0x22, 0x23, 0x28, 0x30, 0x32,
  0x38, 0x39, 0x3A, 0x3B]

/-- The fields of STATUS of a level (04 R108). -/
def statusFields (l : Level) : List Field :=
  [sfld 11 10 .rw (.range 0 l.num), sfld 8 8, sfld 0 0] ++ (if l = .m then [sfld 9 9] else [])
/-- The fields of the eight exception registers of a level (04 R106, R108, R112). -/
def excFields (l : Level) (k : Nat) : List Field :=
  if k = 0 then statusFields l else if k = 6 then [sfld 63 12] else [sfld 63 0]

/-- The fields of the registers that a write reaches through their fields alone, as a thread may write them. -/
def Thread.sysFields (x : Thread) (i : Nat) : List Field :=
  let hm := decide (x.level.num ≥ 2)
  let sec := x.secure
  let m := x.level == Level.m
  if i = 0x002 then [sfld 2 2, sfld 1 1, sfld 0 0]
  else if i = 0x008 then [sfld 20 16, sfld 12 8, sfld 2 0 .rw (.range 1 5)]
  else if i = 0x010 then [sfld 7 7, sfld 1 1 (if hm then .rw else .ro), sfld 0 0]
  else if i = 0x011 then [sfld 4 4, sfld 2 2, sfld 0 0]
  else if i = 0x020 then [sfld 7 6 (if hm then .rw else .ro), sfld 3 0]
  else if i = 0x021 ∨ i = 0x022 then [sfld 63 48, sfld 47 47, sfld 45 12]
  else if i = 0x023 then (List.range 8).map (fun e => sfld (8 * e + 7) (8 * e) .rw (.values [0, 1, 2, 3, 0x10, 0x11, 0x12]))
  else if 0x100 ≤ i ∧ i ≤ 0x107 then excFields .s (i - 0x100)
  else if 0x110 ≤ i ∧ i ≤ 0x117 then excFields .h (i - 0x110)
  else if 0x120 ≤ i ∧ i ≤ 0x127 then excFields .m (i - 0x120)
  else if i = 0x130 ∨ i = 0x131 then delegable.map (fun c => sfld c c)
  else if i = 0x132 then [sfld 2 0]
  else if i = 0x150 then [sfld 63 63 (if m then .rw else .ro), sfld 11 10, sfld 9 6, sfld 0 0]
  else if i = 0x157 ∨ i = 0x158 then [sfld 11 10, sfld 9 8 .rw (.range 1 3), sfld 3 0 .rw (.range 0 12)]
  else if i = 0x160 then [sfld 63 63 (if m then .rw else .ro), sfld 15 8 .w1c, sfld 3 3 (if sec then .rw else .ro), sfld 2 0]
  else if 0x161 ≤ i ∧ i ≤ 0x166 then
    [sfld 63 62, sfld 61 58, sfld 57 57 (if sec then .rw else .ro), sfld 56 56, sfld 15 0 .rw (.values eventCodes)]
  else if 0x168 ≤ i ∧ i ≤ 0x16F then [sfld 47 0]
  else [sfld 63 0]

/-- The eight exception registers of a level by number. -/
def ExcRegs.get (e : ExcRegs) (k : Nat) : Word :=
  match k with
  | 0 => e.status | 1 => e.epc | 2 => e.cause | 3 => e.synd | 4 => e.faddr | 5 => e.fpa | 6 => e.vbase | _ => e.scratch
/-- Replace one of the eight. -/
def ExcRegs.put (e : ExcRegs) (k : Nat) (v : Word) : ExcRegs :=
  match k with
  | 0 => { e with status := v }
  | 1 => { e with epc := v }
  | 2 => { e with cause := v }
  | 3 => { e with synd := v }
  | 4 => { e with faddr := v }
  | 5 => { e with fpa := v }
  | 6 => { e with vbase := v }
  | _ => { e with scratch := v }

/-- INT_CTL of a view (04 R118). -/
def IntView.ctl (v : IntView) (sec : Bool) : Word :=
  BitVec.ofNat 64 (b2n v.sendErr * 16 + b2n v.eoiErr * 8 + b2n v.timerEn * 4 +
    (if sec then b2n v.nsPreempt * 2 + b2n v.secToM else 0))

/-- IDENT (01 R21). -/
def State.ident (s : State) (t : Nat) : Word :=
  BitVec.ofNat 64 (s.pkgId.toNat * 2 ^ 52 + s.pkgBit * 2 ^ 51 + t * 2 ^ 41 + s.physTile (t / 2) * 2 ^ 24 + s.part.toNat * 2 ^ 16 +
    s.perDie * 2 ^ 8 + s.stepping.toNat * 2 ^ 4)

/-- GAL_STAT (08 R220). -/
def Core.galStat (c : Core) : Word :=
  BitVec.ofNat 64 (c.locked * 2 ^ 8 + b2n c.galRefused * 8 + b2n c.galUnlocked * 4 + b2n c.galLockFull * 2 + b2n c.galLost)
/-- TLB_STAT (06 R173). -/
def Core.tlbStat (c : Core) : Word :=
  BitVec.ofNat 64 (c.pinned.length * 2 ^ 8 + b2n c.tlbUnpinned * 4 + b2n c.tlbLockFull * 2 + b2n c.tlbLost)

/-- The value a SYSRD returns, INT_ACK apart. -/
def State.sysGet (s : State) (t i : Nat) : Word :=
  let x := s.thr t
  let c := s.core (t / 2)
  let v := x.view x.secView
  if i = 0x000 then s.ident t
  else if i = 0x001 then zext (match x.encl with | some e => e.id | none => x.world)
  else if i = 0x002 then x.timeCtl
  else if i = 0x008 then x.fcsr
  else if i = 0x010 then setField x.coreCtl 7 7 (b2n c.smtFix)
  else if i = 0x011 then x.atomPlace
  else if i = 0x012 then c.cacheCtl
  else if i = 0x013 then c.galStat
  else if i = 0x014 then c.tlbStat
  else if i = 0x015 then x.stbStat
  else if i = 0x020 then x.mmuCtl
  else if i = 0x021 then x.root1
  else if i = 0x022 then x.root2
  else if i = 0x023 then x.mtypeMap
  else if 0x100 ≤ i ∧ i ≤ 0x107 then x.excS.get (i - 0x100)
  else if 0x110 ≤ i ∧ i ≤ 0x117 then x.excH.get (i - 0x110)
  else if 0x120 ≤ i ∧ i ≤ 0x127 then x.excM.get (i - 0x120)
  else if i = 0x130 then x.delegM
  else if i = 0x131 then x.delegH
  else if i = 0x132 then x.trapCtl
  else if i = 0x142 then zext v.pmr
  else if i = 0x143 then BitVec.ofNat 64 (x.rpr x.secView)
  else if i = 0x145 then v.timer
  else if i = 0x146 then v.ctl x.secView
  else if i = 0x147 then v.waitDeadline
  else if i = 0x148 then v.ackStamp
  else if i = 0x150 then x.dbgCtl
  else if 0x151 ≤ i ∧ i ≤ 0x154 then Tbl.get 0 x.dbgBp (i - 0x151)
  else if i = 0x155 ∨ i = 0x156 then Tbl.get 0 x.dbgWp (i - 0x155)
  else if i = 0x157 ∨ i = 0x158 then Tbl.get 0x300 x.dbgWpm (i - 0x157)
  else if i = 0x160 then x.pmcCtl
  else if 0x161 ≤ i ∧ i ≤ 0x166 then Tbl.get 0 x.pmcSel (i - 0x161)
  else if 0x168 ≤ i ∧ i ≤ 0x16D then Tbl.get 0 x.pmc (i - 0x168)
  else if i = 0x16E then Tbl.get 0 x.pmc 6
  else if i = 0x16F then Tbl.get 0 x.pmc 7
  else 0

/-! The timer of a view (04 R460) and the acknowledgement of interrupts (04 R118). -/

/-- INTID 16 as the view that its world bit names asserts it. -/
def Thread.timerDue (x : Thread) (stamp : Word) : Bool :=
  let v := x.view (x.int 16).world
  v.timerEn && decide (v.timer.toNat ≤ stamp.toNat)
/-- Bring INTID 16 in line with its assertion: pending while asserted and not active; withdrawn when the assertion ends. -/
def Thread.timerSync (x : Thread) (stamp : Word) : Thread :=
  let due := x.timerDue stamp
  x.updInt 16 (fun i =>
    if due then { i with asserted := true, pending := !i.active, stamp := if i.pending || i.active then i.stamp else stamp }
    else if i.asserted then { i with asserted := false, pending := false } else i)

/-- Read INT_ACK in a view: the INTID becomes active and is no longer pending (04 R118). -/
def Thread.ack (x : Thread) : Thread × Nat :=
  let sec := x.secView
  match x.bestInt sec (fun _ => true) with
  | some n =>
    let st := (x.int n).stamp
    ((x.updInt n (fun i => { i with active := true, pending := false })).updView sec (fun v => { v with ackStamp := st }), n)
  | none => (x, 1023)

/-- Write INT_EOI (04 R118): a level source that is still asserted is pending again. -/
def Thread.eoi (x : Thread) (n : Nat) (stamp : Word) : Thread :=
  let sec := x.secView
  let i := x.int n
  if i.active && i.world == sec then
    let x := x.updInt n (fun i => { i with active := false, pending := i.pending || i.asserted, stamp := if i.asserted then stamp else i.stamp })
    if n = 16 then x.timerSync stamp else x
  else x.updView sec (fun v => { v with eoiErr := true })

/-- A compute die has a thread that can receive an interrupt. -/
def State.dieAlive (s : State) (d : Nat) : Bool := s.dieOn d

/-- The message of an INT_SEND to one die or one core (11 R266); one that may reach several targets of a die has a number of its own. -/
def State.sendInt (s : State) (t : Nat) (dst : Agent) (mode : Nat) (target : Thr) (id : Nat) (sec : Bool) : State :=
  let s := if mode = 0 then s else s.freshTid
  s.send { Flit.blank .intDlv (.core (coreId (t / 2))) dst with
    cls := 8, hint := mode
    msg := some { intid := ⟨id % 1024, Nat.mod_lt _ (by decide)⟩, target := target, secure := sec, refusal := false, sender := some (thrOf t),
                  level := false, stamp := s.tileStamp t, batch := if mode = 0 then 0 else s.nextTid } }

/-- Write INT_SEND (04 R119): the local checks, then one flit to each die or core concerned. -/
def State.intSend (s : State) (t : Nat) (v : Word) : State :=
  let x := s.thr t
  let sec := x.secView
  let mode := fieldOf v 23 22
  let pkg := fieldOf v 21 21
  let target := thrOf (fieldOf v 20 11)
  let id := fieldOf v 3 0
  let fail := s.updThr t (fun x => x.updView sec (fun w => { w with sendErr := true }))
  let away := pkg ≠ s.pkgBit
  if mode = 3 ∨ (pkg = 1 ∧ !s.paired) ∨ (s.paired ∧ away ∧ s.pairLost) then fail
  else if away then s.sendInt t (.link 6) mode target id sec
  else match mode with
    | 0 => if s.thrPresent target.val then s.sendInt t (.core (coreId (target.val / 2))) 0 target id sec else fail
    | 1 => ((List.range 16).filter s.dieAlive).foldl (fun s d => s.sendInt t (.die d) 1 target id sec) s
    | _ => if s.dieAlive (target.val / 64) then s.sendInt t (.die (target.val / 64)) 2 target id sec else fail

/-! Rendezvous points (07 R205, R206). -/

/-- A pending error is reported as 0x20 at a rendezvous point; none while nothing is pending. The target level is the one that R103 gives (07 R206), at a RETX too: DESIGN CHOICE (log 20)
where 04 R109 says 'at L', so that an undelegated 0x20 of a RETX at S or H goes to M. -/
def State.rendezvous (s : State) (t point : Nat) : Option State :=
  let x := s.thr t
  match x.pendErrs with
  | [] => none
  | e :: r =>
    let more := !r.isEmpty || x.pendOvf
    let s := s.updThr t (fun x => { x with pendErrs := r, pendOvf := false })
    some (s.takeExc t { Exc.plain 0x20 x.pc with
      fpa := e.pa.setWidth 64, a := BitVec.ofNat 16 (point + 4 * b2n more), b := e.code.setWidth 32 })

/-! Emptying a cache level (08 R226). -/

/-- The victim lines that an emptying of the L2 sends away: every line that can leave. -/
def State.emptyL2 (s : State) (c : Nat) : State := ((s.core c).l2.map Prod.fst).foldl (fun s line => s.l2Evict c line) s
/-- Write back and discard Galley and Hellbox entries as the write-back queue takes them; locks are released. -/
def State.emptyGal (s : State) (c : Nat) : State :=
  ((s.core c).galley ++ (s.core c).hellbox).foldl (fun s e =>
    match s.galPush c e with
    | some s => s.updCore c (fun k => k.galRemove e.tag)
    | none => s) s
/-- The enables that a write clears. -/
def clears (old new : Word) (i : Nat) : Bool := bit old i && !bit new i
/-- One pass of an emptying. -/
def State.emptyMore (s : State) (c : Nat) (new : Word) : State :=
  let old := (s.core c).cacheCtl
  let l2 := clears old new 2
  let s := if clears old new 0 || l2 then s.updCore c (fun k => { k with l1i := [] }) else s
  let s := if clears old new 1 || l2 then s.updCore c (fun k => { k with l1d := [] }) else s
  let s := if l2 then s.emptyL2 c else s
  if clears old new 3 then s.emptyGal c else s
/-- Nothing is left of the levels a write disables. -/
def Core.emptied (c : Core) (new : Word) : Bool :=
  (!clears c.cacheCtl new 2 || c.l2.isEmpty) &&
    (!clears c.cacheCtl new 3 || (c.galley.isEmpty && c.hellbox.isEmpty && c.galWb.isEmpty))
/-- CACHE_CTL with the fields of a write. -/
def cacheCtlNew (old v : Word) : Word := writeFields [sfld 9 8, sfld 5 0] old v

/-- SYSWR to CACHE_CTL (08 R226): a write that clears an enable first empties the level, and the thread waits. -/
def State.cacheCtlWrite (s : State) (t : Nat) (v : Word) : State :=
  let c := t / 2
  let k := s.core c
  let new := cacheCtlNew k.cacheCtl v
  let busy := match k.emptying with | some (o, _) => o.val != t | none => false
  if busy then s
  else if [0, 1, 2, 3].any (clears k.cacheCtl new) then
    let s := (s.updCore c (fun k => { k with emptying := some (thrOf t, new) })).emptyMore c new
    s.updThr t (fun x => { x with hold := .emptying })
  else
    (s.updCore c (fun k => { k with cacheCtl := new, emptying := none })).finish t (s.thr t).npc id

/-! Writes (04 R101). -/

/-- The thread after a write of a register that lies in the thread and has no further effect. -/
def Thread.sysPut (x : Thread) (i : Nat) (v : Word) (stamp : Word) : Thread :=
  let w := fun (old : Word) => writeFields (x.sysFields i) old v
  let sec := x.secView
  if i = 0x002 then { x with timeCtl := w x.timeCtl }
  else if i = 0x008 then { x with fcsr := w x.fcsr }
  else if i = 0x010 then
    { x with coreCtl := setField (w x.coreCtl) 7 7 0 }
  else if i = 0x011 then { x with atomPlace := w x.atomPlace }
  else if i = 0x015 then (if bit v 63 then { x with stbStat := 0 } else x)
  else if i = 0x020 then { x with mmuCtl := w x.mmuCtl }
  else if i = 0x021 then { x with root1 := w x.root1 }
  else if i = 0x022 then { x with root2 := w x.root2 }
  else if i = 0x023 then { x with mtypeMap := w x.mtypeMap }
  else if 0x100 ≤ i ∧ i ≤ 0x107 then { x with excS := x.excS.put (i - 0x100) (w (x.excS.get (i - 0x100))) }
  else if 0x110 ≤ i ∧ i ≤ 0x117 then { x with excH := x.excH.put (i - 0x110) (w (x.excH.get (i - 0x110))) }
  else if 0x120 ≤ i ∧ i ≤ 0x127 then { x with excM := x.excM.put (i - 0x120) (w (x.excM.get (i - 0x120))) }
  else if i = 0x130 then { x with delegM := w x.delegM }
  else if i = 0x131 then { x with delegH := w x.delegH }
  else if i = 0x132 then { x with trapCtl := w x.trapCtl }
  else if i = 0x141 then x.eoi (fieldOf v 9 0) stamp
  else if i = 0x142 then x.updView sec (fun q => { q with pmr := v.setWidth 8 })
  else if i = 0x145 then (x.updView sec (fun q => { q with timer := v })).timerSync stamp
  else if i = 0x146 then
    (x.updView sec (fun q => { q with
      sendErr := q.sendErr && !bit v 4, eoiErr := q.eoiErr && !bit v 3, timerEn := bit v 2
      nsPreempt := sec && bit v 1, secToM := sec && bit v 0 })).timerSync stamp
  else if i = 0x147 then x.updView sec (fun q => { q with waitDeadline := v })
  else if i = 0x150 then { x with dbgCtl := w x.dbgCtl }
  else if 0x151 ≤ i ∧ i ≤ 0x154 then { x with dbgBp := Tbl.set 0 x.dbgBp (i - 0x151) v }
  else if i = 0x155 ∨ i = 0x156 then { x with dbgWp := Tbl.set 0 x.dbgWp (i - 0x155) v }
  else if i = 0x157 ∨ i = 0x158 then { x with dbgWpm := Tbl.upd 0x300 x.dbgWpm (i - 0x157) w }
  else if i = 0x160 then { x with pmcCtl := w x.pmcCtl }
  else if 0x161 ≤ i ∧ i ≤ 0x166 then { x with pmcSel := Tbl.upd 0 x.pmcSel (i - 0x161) w }
  else if 0x168 ≤ i ∧ i ≤ 0x16D then { x with pmc := Tbl.upd 0 x.pmc (i - 0x168) w }
  else if i = 0x16E then { x with pmc := Tbl.upd 0 x.pmc 6 w }
  else if i = 0x16F then { x with pmc := Tbl.upd 0 x.pmc 7 w }
  else x

/-- W1C fields of GAL_STAT, and UNLOCK_ALL (08 R220): R220's list sets UNLOCKED for every lock it releases. -/
def Core.galStatPut (c : Core) (v : Word) : Core :=
  let c := { c with
    galRefused := c.galRefused && !bit v 3, galUnlocked := c.galUnlocked && !bit v 2, galLockFull := c.galLockFull && !bit v 1
    galLost := c.galLost && !bit v 0 }
  if bit v 4 then
    { c with galUnlocked := c.galUnlocked || decide (c.locked > 0), galley := c.galley.map (fun e => { e with lock := false }) }
  else c
/-- W1C fields of TLB_STAT (06 R173). -/
def Core.tlbStatPut (c : Core) (v : Word) : Core :=
  { c with tlbUnpinned := c.tlbUnpinned && !bit v 2, tlbLockFull := c.tlbLockFull && !bit v 1, tlbLost := c.tlbLost && !bit v 0 }

/-- The sibling has drained: no instruction of it is in progress (05 R146). -/
def State.drained (s : State) (t : Nat) : Bool := (s.thr (sibling t)).memOp.isNone && (match (s.thr (sibling t)).hold with | .none | .left => true | _ => false)
/-- The TLBs of a core once SMT_FIX is set: each thread keeps half of each level at most (05 R146, 06 R168). -/
def tlbHalve (cap : Nat) (l : List TlbEntry) : List TlbEntry :=
  (l.filter (fun e => !e.odd)).take (cap / 2) ++ (l.filter (fun e => e.odd)).take (cap / 2)
/-- SMT_FIX changes (05 R146). -/
def Core.smtPut (k : Core) (fix : Bool) : Core :=
  if fix then
    let sets := fun (l : List TlbEntry) => (List.range 512).flatMap (fun n => tlbHalve 8 (l.filter (fun e => e.vpn % 512 == n)))
    { k with smtFix := true, itlb := tlbHalve 48 k.itlb, dtlb := tlbHalve 64 k.dtlb, l2tlb := sets k.l2tlb }
  else { k with smtFix := false }

/-- A SYSWR of a thread that may make it, to its retirement (04 R101). -/
def State.sysPut (s : State) (t i : Nat) (v : Word) : State :=
  let x := s.thr t
  let st := s.tileStamp t
  if i = 0x012 then s.cacheCtlWrite t v
  else if i = 0x013 then (s.updCore (t / 2) (fun c => c.galStatPut v)).finish t x.npc id
  else if i = 0x014 then (s.updCore (t / 2) (fun c => c.tlbStatPut v)).finish t x.npc id
  else if i = 0x144 then (s.intSend t v).finish t x.npc id
  else if i = 0x021 ∨ i = 0x022 then
    match s.rendezvous t 3 with
    | some s => s
    | none => s.finish t x.npc (fun x => x.sysPut i v st)
  else if i = 0x010 then
    let new := bit v 7
    let flush := fun (s : State) => if bit v 4 then s.predClear t else s
    if new ≠ (s.core (t / 2)).smtFix then
      if s.drained t then
        (flush (s.updCore (t / 2) (fun c => c.smtPut new))).finish t x.npc (fun x => x.sysPut i v st)
      else s.updThr t (fun x => { x with hold := .smtFix })
    else (flush s).finish t x.npc (fun x => x.sysPut i v st)
  else s.finish t x.npc (fun x => x.sysPut i v st)

/-! SYSRD and SYSWR (04 R101). -/

/-- A SYSRD once begun. -/
def State.sysrd (s : State) (t : Nat) (rd : RegNo) (i : Nat) : State :=
  let x := s.thr t
  if (sysOwner i).isNone then s.illegal t (sysWord rd 0 0 i)
  else match x.sysDenied i false with
    | some l => s.takeExc t (Exc.priv x.pc 0 0 i l)
    | none =>
      if i = 0x140 then s.finish t x.npc (fun x => x.ack.1.writeG rd (BitVec.ofNat 64 x.ack.2))
      else s.finish t x.npc (fun x => x.writeG rd (s.sysGet t i))
/-- A SYSWR once begun. -/
def State.syswr (s : State) (t : Nat) (rs1 : RegNo) (i : Nat) : State :=
  let x := s.thr t
  if (sysOwner i).isNone then s.illegal t (sysWord 0 rs1 1 i)
  else match x.sysDenied i true with
    | some l => s.takeExc t (Exc.priv x.pc 1 1 i l)
    | none => s.sysPut t i (x.readG rs1)

/-- SYSRD (04 R101). -/
def execSysrd (t : Thr) (rd : RegNo) (idx : BitVec 10) (s : State) : Host.Outcome State Fault Refusal :=
  s.run t (fun s => s.sysrd t rd idx.toNat)
/-- SYSWR (04 R101). -/
def execSyswr (t : Thr) (rs1 : RegNo) (idx : BitVec 10) (s : State) : Host.Outcome State Fault Refusal :=
  s.run t (fun s => s.syswr t rs1 idx.toNat)
/-- SYSRD of INT_ACK (04 R118). -/
def execIntAckRead (t : Thr) (rd : RegNo) (s : State) : Host.Outcome State Fault Refusal :=
  s.run t (fun s => s.sysrd t rd 0x140)
/-- SYSWR of INT_EOI (04 R118). -/
def execIntEoiWrite (t : Thr) (rs1 : RegNo) (s : State) : Host.Outcome State Fault Refusal :=
  s.run t (fun s => s.syswr t rs1 0x141)
/-- SYSWR of INT_SEND (04 R119). -/
def execIntSendWrite (t : Thr) (rs1 : RegNo) (s : State) : Host.Outcome State Fault Refusal :=
  s.run t (fun s => s.syswr t rs1 0x144)
/-- SYSWR of MMU_ROOT1 or MMU_ROOT2 (06 R151). -/
def execMmuRootWrite (t : Thr) (rs1 : RegNo) (second : Bool) (s : State) : Host.Outcome State Fault Refusal :=
  s.run t (fun s => s.syswr t rs1 (if second then 0x022 else 0x021))
/-- SYSWR of CORE_CTL with PRED_FLUSH = 1 (05 R136). -/
def execPredFlushWrite (t : Thr) (rs1 : RegNo) (s : State) : Host.Outcome State Fault Refusal :=
  s.run t (fun s₁ => if bit ((s₁.thr t).readG rs1) 4 then s₁.syswr t rs1 0x010 else s)
/-- SYSWR of CORE_CTL that changes SMT_FIX (05 R146). -/
def execSmtFixWrite (t : Thr) (rs1 : RegNo) (s : State) : Host.Outcome State Fault Refusal :=
  s.run t (fun s₁ => if bit ((s₁.thr t).readG rs1) 7 ≠ (s₁.core (t.val / 2)).smtFix then s₁.syswr t rs1 0x010 else s)
/-- SYSWR of CACHE_CTL that clears an enable (08 R226). -/
def execCacheDisableWrite (t : Thr) (rs1 : RegNo) (s : State) : Host.Outcome State Fault Refusal :=
  s.run t (fun s₁ =>
    let k := s₁.core (t.val / 2)
    if [0, 1, 2, 3].any (clears k.cacheCtl (cacheCtlNew k.cacheCtl ((s₁.thr t).readG rs1))) then s₁.syswr t rs1 0x012 else s)
/-- An emptying goes on; once the level is empty the SYSWR retires (08 R226). -/
def execCacheEmptyDone (t : Thr) (s : State) : Host.Outcome State Fault Refusal :=
  let c := t.val / 2
  match (s.core c).emptying with
  | some (o, new) =>
    if o = t then
      let s := s.emptyMore c new
      let x := s.thr t
      if (s.core c).emptied new && x.hold == .emptying && s.awake t then
        .next ((s.updCore c (fun k => { k with cacheCtl := new, emptying := none })).finish t x.npc (fun x => { x with hold := .none }))
      else .next s
    else .next s
  | none => .next s
/-- SYSWR of GAL_STAT with UNLOCK_ALL = 1 (08 R220). -/
def execUnlockAllWrite (t : Thr) (rs1 : RegNo) (s : State) : Host.Outcome State Fault Refusal :=
  s.run t (fun s₁ => if bit ((s₁.thr t).readG rs1) 4 then s₁.syswr t rs1 0x013 else s)

end Sys2Proof.Machine
end

