-- ==== Sys2Proof/Machine/Control.lean ====
section
/-! DEFINITION. TRAP, RETX, WAITE, SEVT, TIME, the fences, and taking interrupts and machine checks (04 R103, R109, R114, R120 to R122, R127; 02 R49; 07 R188 to R192; 08 R212). -/

namespace Sys2Proof.Machine

/-! Interrupts (04 R120, R121). -/

/-- A thread is at a boundary where interrupts and machine checks are recognised: an access performed exactly once is not left (04 R122). -/
def State.atBoundary (s : State) (t : Nat) : Bool :=
  let x := s.thr t
  let tl := s.tile (s.tileOf (t / 2))
  s.thrPresent t && x.run == .running && tl.st == .t0 && !tl.waking && !s.quiesced t && !s.halted &&
    (match x.memOp with | some m => !m.once | none => true)

/-- INTERRUPT_TAKE (04 R120, R122). -/
def execInterruptTake (t : Thr) (s : State) : Host.Outcome State Fault Refusal :=
  let x := s.thr t
  if s.atBoundary t && !x.mustCheck then
    match x.nextInt false with
    | some q => .next (s.takeInt t q)
    | none => .next s
  else .next s

/-- MACHINE_CHECK_TAKE (04 R114; 19 R415): the oldest CONTAIN held; while the filters are scanned for a lost partner it waits (13 R332). -/
def execMachineCheckTake (t : Thr) (s : State) : Host.Outcome State Fault Refusal :=
  let x := s.thr t
  match x.contains with
  | m :: r =>
    if s.atBoundary t && x.mustCheck && !s.pair.scanning then
      .next ((s.updThr t (fun x => { x.leaveOp with contains := r })).takeExc t
        { Exc.plain 0x29 x.pc with a := m.scope.setWidth 16, b := m.locator.setWidth 32 })
    else .next s
  | [] => .next s

/-- TIMER_DEADLINE (04 R460). -/
def execTimerDeadline (t : Thr) (secure : Bool) (s : State) : Host.Outcome State Fault Refusal :=
  let x := s.thr t
  let st := s.tileStamp t
  if (x.int 16).world = secure && x.timerDue st then .next (s.updThr t (fun x => x.timerSync st)) else .next s

/-! TRAP and RETX. -/

/-- TRAP (04 R103). -/
def execTrap (t : Thr) (code : BitVec 10) (s : State) : Host.Outcome State Fault Refusal :=
  s.run t (fun s =>
    let up := fieldOf code 9 8
    s.takeExc t { Exc.plain 0x04 (s.thr t).npc with b := code.setWidth 32, raiseTo := if up = 0 then .u else .ofNum up })

/-- The return names a context that cannot exist (04 R109). -/
def Thread.badReturn (x : Thread) : Bool :=
  let st := (x.exc x.level).status
  fieldOf st 11 10 == 2 && (!x.hyp || (x.level == .m && bit st 9))
/-- The registers of a return (04 R109). -/
def Thread.leave (x : Thread) : Thread :=
  let l := x.level
  let e := x.exc l
  let pl := Level.ofNum (fieldOf e.status 11 10)
  let world : Tag := if l = .m && pl ≠ .m then (if bit e.status 9 then 0xFFF else 0) else x.world
  { x.setExc l { e with status := setField e.status 0 0 (fieldOf e.status 8 8) } with level := pl, world := world }

/-- A return once its rendezvous is past: no match of the first instruction (04 R109, R129, R131). -/
def State.retxGo (s : State) (t : Nat) : State :=
  let x := s.thr t
  let epc := (x.exc x.level).epc
  let step := x.stepDue
  let s := s.updThr t (fun x => { x.leave.retired (s.tileStamp t) epc with suppress := true })
  if step then s.takeExc t (Exc.debug epc 0 2 0) else s

/-- RETX (04 R109): a rendezvous point first. -/
def execRetx (t : Thr) (s : State) : Host.Outcome State Fault Refusal :=
  s.run t (fun s =>
    let x := s.thr t
    let epc := (x.exc x.level).epc
    if x.level = .u then s.takeExc t (Exc.priv x.pc 2 3 0 .u)
    else if x.badReturn then s.takeExc t (Exc.illegal x.pc (sysWord 0 0 3 0) true)
    else match s.rendezvous t 2 with
      | some s => s
      | none =>
        if epc.toNat % 4 ≠ 0 then s.takeExc t { Exc.plain 0x01 x.pc with faddr := epc }
        else s.retxGo t)

/-! WAITE, SEVT and TIME. -/

/-- The earlier non-zero WAIT_DEADLINE of the two views has come (04 R118, R127). -/
def Thread.waitOver (x : Thread) (stamp : Word) : Bool :=
  let hit := fun (d : Word) => d != 0 && decide (d.toNat ≤ stamp.toNat)
  hit x.intN.waitDeadline || hit x.intS.waitDeadline
/-- A wake condition holds (04 R127). -/
def Thread.wakeReady (x : Thread) (stamp : Word) : Bool :=
  x.eventFlag || (x.nextInt true).isSome || x.waitOver stamp || !x.contains.isEmpty

/-- WAITE traps at the thread's level (04 R105, R127). -/
def Thread.waiteTraps (x : Thread) : Option Level :=
  if x.level = .u && bit x.trapCtl 0 then some .u
  else if x.level = .s && !x.secure && bit x.trapCtl 1 then some .h
  else none

/-- WAITE (04 R127). -/
def execWaite (t : Thr) (s : State) : Host.Outcome State Fault Refusal :=
  s.run t (fun s =>
    let x := s.thr t
    match x.waiteTraps with
    | some l => s.takeExc t (Exc.priv x.pc 4 4 0 l)
    | none =>
      if x.wakeReady (s.stamp (dieOfThr t)) then s.finish t x.npc (fun x => { x with eventFlag := false })
      else s.updThr t (fun x => { x with run := .waiting }))

/-- WAITE_WAKE (04 R127): the tile of the thread wakes first (17 R384); a WAITE left by an enclave exit goes on at its ENTER (14 R348). -/
def execWaiteWake (t : Thr) (s : State) : Host.Outcome State Fault Refusal :=
  let x := s.thr t
  let n := s.tileOf (t.val / 2)
  if s.thrPresent t && x.run == .waiting && x.wakeReady (s.stamp (dieOfThr t)) && !s.halted then
    if (s.tile n).st ≠ .t0 then .next (s.updTile n (fun q => { q with waking := true }))
    else if (s.tile n).waking || s.quiesced t then .next s
    else .next (s.finish t (if x.hold = .left then x.pc else x.npc) (fun x => { x with eventFlag := false, run := .running, hold := .none }))
  else .next s

/-- Both packages of the pair take part in one coherence domain (13 R327). -/
def State.pairReach (s : State) : Bool := s.paired && !s.pairLost

/-- SEVT (04 R127; 11 R266). -/
def execSevt (t : Thr) (s : State) : Host.Outcome State Fault Refusal :=
  s.run t (fun s =>
    let src : Agent := .core (coreId (t.val / 2))
    let s := ((List.range 16).filter s.dieAlive).foldl (fun s d => s.send { Flit.blank .sevtB src (.die d) with cls := 8 }) s
    let s := if s.pairReach then s.send { Flit.blank .sevtB src (.link 6) with cls := 8 } else s
    s.finish t (s.thr t).npc id)

/-- TIME is permitted at the thread's level (02 R49). -/
def Thread.timeOk (x : Thread) : Bool :=
  match x.level with
  | .m => true
  | .h => bit x.timeCtl 2
  | .s => bit x.timeCtl 1
  | .u => bit x.timeCtl 0

/-- TIME (02 R49). -/
def execTime (t : Thr) (rd : RegNo) (s : State) : Host.Outcome State Fault Refusal :=
  s.run t (fun s =>
    let x := s.thr t
    if x.timeOk then s.finish t x.npc (fun x => x.writeG rd (s.stamp (dieOfThr t)))
    else s.takeExc t (Exc.priv x.pc 3 6 0 .u))

/-! Fences (07 R188 to R192; 08 R212). -/

/-- The earlier accesses that a FENCE.O orders before later ones are performed (07 R188, R189); loads and atomics always are at
retirement. A global-window access is performed once it has issued onto its route, a device store once it is acknowledged. -/
def Thread.fenceOReady (x : Thread) (mask : BitVec 5) : Bool :=
  let stores := bit mask 2 || bit mask 3
  let dev := bit mask 4
  !stores || (x.stb.all (fun e => !dev && e.type.device) && x.outst.all (fun o => match o.kind with
    | .ncStore | .homeStore | .cmo => false
    | .devStore | .devStrict => !dev
    | _ => true))

/-- FENCE.O (07 R188, R205). -/
def execFenceO (t : Thr) (mask : BitVec 5) (s : State) : Host.Outcome State Fault Refusal :=
  s.run t (fun s =>
    let x := s.thr t
    if x.fenceOReady mask then
      match (if bit mask 4 then s.rendezvous t 1 else none) with
      | some s => s
      | none => s.finish t x.npc id
    else s)

/-- Every operation that FENCE.C waits for is complete (07 R190). -/
def Thread.allDone (x : Thread) : Bool := x.stb.isEmpty && x.outst.isEmpty
/-- The end of a FENCE.C: its rendezvous check, then its retirement (07 R190, R205). -/
def State.fenceEnd (s : State) (t : Nat) : State :=
  match s.rendezvous t 0 with
  | some s => s
  | none => s.finish t (s.thr t).npc (fun x => { x with hold := .none })

/-- The thread's own stores in the core's mirror buffer are written (13 R330; 07 R190: a FENCE.C waits for its thread's operations only). -/
def State.mirrorClear (s : State) (t : Nat) : Bool :=
  (s.core (t / 2)).mirror.all (fun e => !bit e.wr (t % 2)) && (s.core (t / 2)).mirrorOut.all (fun o => !bit o.wr (t % 2))
/-- FENCE.C (07 R190, R191). -/
def execFenceC (t : Thr) (s : State) : Host.Outcome State Fault Refusal :=
  s.run t (fun s =>
    if (s.thr t).allDone && s.mirrorClear t.val then s.fenceEnd t else (s.updThr t (fun x => { x with hold := .fenceC })).coverPosted t)
/-- FENCE_C_COMPLETE (07 R190). -/
def execFenceCComplete (t : Thr) (s : State) : Host.Outcome State Fault Refusal :=
  let x := s.thr t
  if s.awake t && x.hold == .fenceC && x.allDone && s.mirrorClear t.val then .next (s.fenceEnd t) else .next s

/-- IFENCE (08 R212). -/
def execIfence (t : Thr) (s : State) : Host.Outcome State Fault Refusal :=
  s.run t (fun s =>
    if (s.thr t).storesDone then s.finish t (s.thr t).npc (fun x => { x with fetchBuf := none }) else s)

end Sys2Proof.Machine
end

