-- ==== Sys2Proof/Machine/Maintain.lean ====
section
/-! DEFINITION. Cache and TLB maintenance: CMO, the Galley locks, pinning, TLBI and its broadcasts (06 R171 to R179; 08 R217 to R224; 16 R376). -/

namespace Sys2Proof.Machine

/-! Memory written by a write-back (12 R304, R305). -/

/-- A write reaches memory: the guard checks the line's tag for write; a refused one is recorded and discarded. A
line of the partner's memory goes to its controller, and one that its own controller blocks is written there after the block (12 R293). -/
def State.wbMem (s : State) (line : Nat) (d : LineData) (poison : Bool) (tag : Tag) : State :=
  let pa := line * 64
  if (match s.region pa with | .partner _ => true | _ => false) then
    s.send { Flit.blank .wrNc (s.homeOf 16 line) (.link 6) with
      cls := 1, tid := s.nextTid, line := line, world := tag, mask := byteMask 0 64, data := d, poison := poison, acc := .dma }
  else if !s.backed pa then s.logError (s.endpoint pa) codeNoTarget 3 tag (some pa) none
  else if s.lineBlocked line then
    s.send { Flit.blank .wrNc (s.homeOf 16 line) (s.endpoint pa) with
      cls := 1, tid := s.nextTid, line := line, world := tag, mask := byteMask 0 64, data := d, poison := poison, acc := .dma }
  else if s.guardOk pa tag false true then (s.putLine line d poison).mirrorWrite line d poison
  else s.logError (.mem (s.chanOf pa)) codeGrdRefused 3 tag (some pa) none

/-! CMO by address (08 R222). -/

/-- A CMO of an operation and target (08 R222). -/
def cmoForm (op : Fin 3) (pou : Bool) (t : Thr) (rs1 : RegNo) (s : State) : Host.Outcome State Fault Refusal :=
  s.memRow t { kind := .cmo op pou, va := (s.thr t).readG rs1, size := 1, rd := 0, opA := 0, opB := 0, aq := false, rl := false }

/-- CMO.CLEAN.POC (08 R222). -/
def execCmoCleanPoc (t : Thr) (rs1 : RegNo) (s : State) : Host.Outcome State Fault Refusal := cmoForm 0 false t rs1 s
/-- CMO.INVAL.POC (08 R222, R223). -/
def execCmoInvalPoc (t : Thr) (rs1 : RegNo) (s : State) : Host.Outcome State Fault Refusal := cmoForm 1 false t rs1 s
/-- CMO.CLEAN_INVAL.POC (08 R222). -/
def execCmoCleanInvalPoc (t : Thr) (rs1 : RegNo) (s : State) : Host.Outcome State Fault Refusal := cmoForm 2 false t rs1 s
/-- CMO.CLEAN.POU (08 R222). -/
def execCmoCleanPou (t : Thr) (rs1 : RegNo) (s : State) : Host.Outcome State Fault Refusal := cmoForm 0 true t rs1 s
/-- CMO.INVAL.POU (08 R222). -/
def execCmoInvalPou (t : Thr) (rs1 : RegNo) (s : State) : Host.Outcome State Fault Refusal := cmoForm 1 true t rs1 s
/-- CMO.CLEAN_INVAL.POU (08 R222). -/
def execCmoCleanInvalPou (t : Thr) (rs1 : RegNo) (s : State) : Host.Outcome State Fault Refusal := cmoForm 2 true t rs1 s

/-! The slice of a line (08 R210). -/

/-- The slice of the L3 that a line lies in (08 R210). -/
def l3Slice (line : Nat) : Nat :=
  ((line % 4096) ^^^ (line / 2 ^ 12 % 4096) ^^^ (line / 2 ^ 24 % 4096) ^^^ (line / 2 ^ 36 % 4096) ^^^ (line / 2 ^ 48 % 8)) % 36

/-! GAL.LOCK, GAL.UNLOCK, TLB.LOCK, TLB.UNLOCK (08 R219, R220; 06 R171). -/

/-- A request of a kind at the VA of rs1. -/
def atReg (kind : MemKind) (s : State) (t : Thr) (rs1 : RegNo) : MemReq :=
  { kind := kind, va := (s.thr t).readG rs1, size := 1, rd := 0, opA := 0, opB := 0, aq := false, rl := false }

/-- GAL.LOCK (08 R219). -/
def execGalLock (t : Thr) (rs1 : RegNo) (s : State) : Host.Outcome State Fault Refusal := s.memRow t (atReg .galLock s t rs1)
/-- GAL.UNLOCK (08 R220). -/
def execGalUnlock (t : Thr) (rs1 : RegNo) (s : State) : Host.Outcome State Fault Refusal := s.memRow t (atReg .galUnlock s t rs1)

/-- TLB.LOCK (06 R171): at U it takes 0x03, and with no stage applied it does nothing. -/
def execTlbLock (t : Thr) (rs1 : RegNo) (s : State) : Host.Outcome State Fault Refusal :=
  let r := atReg .tlbLock s t rs1
  match (s.thr t).memOp with
  | some _ => s.memRow t r
  | none =>
    s.run t (fun s =>
      let x := s.thr t
      if x.level = .u then s.takeExc t (Exc.priv x.pc 2 0x19 0 .u)
      else if !x.tctx.s1 && !x.tctx.s2 then s.finish t x.npc id
      else s.beginMem t r)

/-- TLB.UNLOCK (06 R171). -/
def execTlbUnlock (t : Thr) (rs1 : RegNo) (s : State) : Host.Outcome State Fault Refusal :=
  s.run t (fun s =>
    let x := s.thr t
    let va := x.readG rs1
    if x.level = .u then s.takeExc t (Exc.priv x.pc 2 0x1A 0 .u)
    else
      let s := s.updCore (t / 2) (fun k => { k with pinned := k.pinned.filter (fun e => !e.hits x.tctx va (x.lookupTag va)) })
      s.finish t x.npc id)

/-! TLBI (06 R175 to R179). -/

/-- The invalidation acts on a regime (06 R175). -/
def TlbiReq.regimeHit (r : TlbiReq) (g : Regime) (vmid : BitVec 16) : Bool :=
  let own := g == r.regime && (g != .guest || vmid == r.vmid)
  match r.form with
  | .vmid => g == .guest && vmid == r.vmid
  | .all => match r.level with
    | .m => true
    | .h => g != .secure
    | _ => own
  | _ => own
/-- It acts on an ordinary entry (06 R175; 14 R346 DESTROY names the entries of an enclave). -/
def TlbiReq.hits (r : TlbiReq) (e : TlbEntry) : Bool :=
  if r.enclave ≠ 0 then e.enclave == r.enclave
  else r.regimeHit e.regime e.vmid &&
    (match r.form with
     | .va => e.vpn == r.va.toNat / 2 ^ e.bits && (e.global || e.asid == r.asid)
     | .asid => !e.global && e.asid == r.asid
     | _ => true)
/-- It acts on a pinned entry (06 R172, R175). -/
def TlbiReq.hitsPinned (r : TlbiReq) (e : TlbEntry) : Bool :=
  r.hits e && (r.enclave ≠ 0 || r.form == .va || (r.form == .all && r.pinned))

/-- Remove the entries of a core (06 R175). -/
def Core.tlbi (k : Core) (r : TlbiReq) : Core :=
  let keep := fun (l : List TlbEntry) => l.filter (fun e => !r.hits e)
  { k with
    itlb := keep k.itlb, dtlb := keep k.dtlb, l2tlb := keep k.l2tlb, pinned := k.pinned.filter (fun e => !r.hitsPinned e)
    tlbUnpinned := k.tlbUnpinned || k.pinned.any r.hitsPinned
    walkCache := k.walkCache.filter (fun e => r.enclave ≠ 0 || !r.regimeHit e.regime e.vmid) }
/-- A walk of a thread that the invalidation reaches installs nothing and starts again (06 R178, 10 R260). -/
def Thread.walkDrop (x : Thread) (r : TlbiReq) : Thread :=
  let c := x.tctx
  if r.enclave ≠ 0 || r.regimeHit c.regime (if c.s2 then rootTag c.root2 else 0) then
    { x with walk := x.walk.map (fun w => { w with answers := [], upd := none, tid := 0, line := none }), lefts := x.walkLeft }
  else x
/-- Remove every entry of a core, pinned ones included (06 R179, R174). -/
def Core.tlbFlush (k : Core) : Core :=
  { k with itlb := [], dtlb := [], l2tlb := [], pinned := [], walkCache := [], tlbLost := k.tlbLost || !k.pinned.isEmpty }

/-- The access in progress translates again (06 R178), unless it has been issued and is performed exactly once. -/
def Thread.xlDrop (x : Thread) : Thread := x.updMem (fun m => if m.once then m else { m with xl := [] })
/-- A TLBI on the running core (06 R175). -/
def State.tlbiCore (s : State) (c : Nat) (r : TlbiReq) : State :=
  ((s.updCore c (fun k => k.tlbi r)).updThr (2 * c) (fun x => (x.walkDrop r).xlDrop)).updThr (2 * c + 1) (fun x => (x.walkDrop r).xlDrop)
/-- A TLBI_B at a core by its tile's state (06 R179). -/
def State.tlbiAt (s : State) (c : Nat) (r : TlbiReq) : State :=
  let n := s.tileOf c
  match (s.tile n).st with
  | .t0 | .t1 => (s.tlbiCore c r).wakeCore c
  | .t2 => s.updTile n (fun q =>
      if r.form == .va && r.enclave == 0 && decide (q.tlbis.length < 4) then { q with tlbis := q.tlbis ++ [r] }
      else { q with fullDiscard := true, tlbis := [] })
  | .t3 => s

/-- The regime, ASID and VMID that a TLBI of a thread names. -/
def Thread.tlbiReq (x : Thread) (form : TlbiForm) (va : Word) (rx : Word) (pinned : Bool) : TlbiReq :=
  let c := x.tctx
  { form := form, regime := c.regime, level := x.level, va := va, asid := rx.setWidth 16
    vmid := if form = .vmid then rx.setWidth 16 else if c.s2 then rootTag c.root2 else 0, pinned := pinned, enclave := 0 }

/-- The cores that a DOMAIN broadcast of a core reaches (06 R177). -/
def State.tlbiTargets (s : State) (c : Nat) : List Nat := ((List.range 16).flatMap s.dieCores).filter (fun k => k != c)

/-- Broadcast an invalidation to every other core, the I/O MMU and a partner (06 R177): the thread's operation waits for each answer. -/
def State.tlbiCast (s : State) (t : Nat) (r : TlbiReq) : State :=
  let c := t / 2
  let targets := s.tlbiTargets c
  let s := s.freshTid
  let tid := s.nextTid
  let one := fun (s : State) (dst : Agent) =>
    s.send { Flit.blank .tlbiB (.core (coreId c)) dst with thr := some (thrOf t), tid := tid, tlbi := some r }
  let s := targets.foldl (fun s k => one s (.core (coreId k))) s
  let s := one s .iommu
  let s := if s.pairReach then one s (.link 6) else s
  s.noteOut t .tlbi 0 (targets.length + 1 + b2n s.pairReach)

/-- A TLBI of a form (06 R175 to R177); it waits until every earlier store of the thread is visible. -/
def tlbiForm (form : TlbiForm) (t : Thr) (va rx : Thread → Word) (domain pinned : Bool) (s : State) : Host.Outcome State Fault Refusal :=
  s.run t (fun s =>
    let x := s.thr t
    let low := if form = .vmid then 2 else 1
    let fm := match form with | .va => 0 | .asid => 1 | .vmid => 2 | .all => 3
    if x.level.num < low then s.takeExc t (Exc.priv x.pc 2 0x18 (fm * 256 + b2n domain * 128 + b2n pinned * 64) .u)
    else if !x.storesDone then s
    else
      let r := x.tlbiReq form (va x) (rx x) pinned
      let s := s.tlbiCore (t / 2) r
      let s := if domain then s.tlbiCast t r else s
      s.finish t x.npc id)

/-- TLBI VA (06 R175). -/
def execTlbiVa (t : Thr) (rs1 rx : RegNo) (domain : Bool) (s : State) : Host.Outcome State Fault Refusal :=
  tlbiForm .va t (fun x => x.readG rs1) (fun x => x.readG rx) domain false s
/-- TLBI ASID (06 R175). -/
def execTlbiAsid (t : Thr) (rx : RegNo) (domain : Bool) (s : State) : Host.Outcome State Fault Refusal :=
  tlbiForm .asid t (fun _ => 0) (fun x => x.readG rx) domain false s
/-- TLBI VMID (06 R175). -/
def execTlbiVmid (t : Thr) (rx : RegNo) (domain : Bool) (s : State) : Host.Outcome State Fault Refusal :=
  tlbiForm .vmid t (fun _ => 0) (fun x => x.readG rx) domain false s
/-- TLBI ALL (06 R175). -/
def execTlbiAll (t : Thr) (domain l : Bool) (s : State) : Host.Outcome State Fault Refusal :=
  tlbiForm .all t (fun _ => 0) (fun _ => 0) domain l s

/-! The I/O MMU's part of a broadcast (16 R376). -/

/-- The regime of a stream by its entry and world (16 R373). -/
def streamRegime (words : List Word) (world : Tag) : Regime :=
  if world = 0xFFF then .secure else if bit (words.getD 0 0) 61 then .guest else .normal
/-- The world of a stream (14 R340, 16 R373). -/
def State.streamWorld (s : State) (stream : Nat) : Tag := BitVec.ofNat 12 (fieldOf (s.ctlGet (caddr 16 0xD1 (0x10000 + stream))) 11 0)
/-- A cached stream entry that a broadcast matches. -/
def State.streamHit (s : State) (r : TlbiReq) (stream : BitVec 16) (words : List Word) : Bool :=
  r.enclave = 0 && r.regimeHit (streamRegime words (s.streamWorld stream.toNat)) (rootTag (words.getD 2 0)) &&
    (match r.form with
     | .va | .asid => rootTag (words.getD 1 0) == r.asid
     | _ => true)
/-- The form also removes cached stream entries (16 R376). -/
def TlbiReq.dropsStreams (r : TlbiReq) : Bool := r.form == .vmid || (r.form == .all && (r.level == .h || r.level == .m))

/-- A broadcast at the I/O MMU: entries leave, an ATS Invalidate Request goes to each matching function with ATS, and the
acknowledgement waits for them (16 R376). -/
def State.tlbiIommu (s : State) (f : Flit) (r : TlbiReq) : State :=
  let ats := s.iommu.streams.filter (fun p => bit (p.2.getD 0 0) 60 && s.streamHit r p.1 p.2 && !s.iommu.atsLost.contains p.1)
  let st := s.stamp 16
  let drop := fun (p : BitVec 16 × List Word) => r.dropsStreams &&
    (if r.form == .vmid then rootTag (p.2.getD 2 0) == r.vmid else s.streamHit r p.1 p.2)
  let io := s.iommu
  let s := { s with iommu := { io with
    tlb := io.tlb.filter (fun p => !r.hits p.2), streams := io.streams.filter (fun p => !drop p)
    atsLost := io.atsLost.filter (fun n => !(r.form == .vmid && io.streams.any (fun p => p.1 == n && drop p)))
    atsWaits := io.atsWaits ++ ats.map (fun p => (p.1, f.tid, st))
    tlbiWaits := if ats.isEmpty then io.tlbiWaits else io.tlbiWaits ++ [(f, ats.length)] } }
  if ats.isEmpty then s.send { Flit.blank .ack .iommu f.src with cls := 4, tid := f.tid, thr := f.thr } else s

end Sys2Proof.Machine
end

