-- ==== Sys2Proof/Machine/Transit.lean ====
section
/-! DEFINITION. Transit: headers, routes, ports of domains, regulators, error answers and containment messages (01 R24, R25; 11 R264 to R285; 19 R415). -/

namespace Sys2Proof.Machine

/-! Events whose code and payload the spec does not state (02 R54). -/

/-- An event of a class: its code and payload are free values (log 6). -/
def State.noteFree (s : State) (a : Agent) (cls : BitVec 4) : State :=
  let code := BitVec.ofNat 16 (Config.freeValue s.free)
  let pay := BitVec.ofNat 128 (Config.freeValue (s.free + 1))
  { s with free := s.free + 2 }.note a cls code pay

/-! Headers (11 R264, R266; 09 R239, R240). -/

/-- The code of an opcode. -/
def Op.code : Op → BitVec 8
  | .rdS => 0x10 | .rdU => 0x11 | .upg => 0x12 | .rdNc => 0x13 | .wrNc => 0x14 | .atomH => 0x15 | .atomM => 0x16 | .cmoP => 0x17
  | .tlbiB => 0x18 | .wbD => 0x1C | .evictC => 0x1D | .snpS => 0x20 | .snpU => 0x21 | .snpI => 0x22 | .snpNear => 0x23
  | .dataS => 0x30 | .dataE => 0x31 | .dataM => 0x32 | .ack => 0x38 | .retry => 0x39
  | .intDlv => 0x40 | .sevtB => 0x41 | .merSync => 0x42 | .contain => 0x43 | .heart => 0x44
  | .reserved c => c
/-- The coherence flags of a flit (09 R240). DESIGN CHOICE (log 12): an ACK that grants a line carries its ACK_CNT in the bits that hold it in DATA_*; R232 has the requester
wait for that number, and R240 gives the ACK no field for it. -/
def Flit.flags (f : Flit) : Nat :=
  match f.op with
  | .rdS | .rdU | .upg | .rdNc | .wrNc | .atomH | .atomM | .cmoP | .tlbiB | .wbD | .evictC =>
    min f.rcnt 15 * 64 + b2n f.fwd * 32 + b2n f.keep * 2 + b2n f.pf
  | .retry => b2n f.promoted * 64 + b2n f.moved * 32 + f.hint % 16 * 2
  | .snpS | .snpU | .snpI | .snpNear => b2n f.clean * 256 + b2n f.discard * 128
  | .dataS | .dataE | .dataM => b2n f.wbPending * 512 + b2n f.dirty * 256 + f.ackCnt % 32 * 2
  | .ack => b2n f.wbPending * 512 + b2n f.dirty * 256 + b2n f.noCopy * 128 + b2n f.comp * 64 + f.ackCnt % 32 * 2 + b2n f.superseded
  | _ => 0
/-- The first sixteen bytes of a header (11 R264); a request that home has forwarded names its original requester as the source (09 R240). -/
def State.header (s : State) (f : Flit) : BitVec 128 :=
  BitVec.ofNat 128 (f.flags * 2 ^ 118 + b2n f.poison * 2 ^ 117 + f.size % 64 * 2 ^ 111 + f.line % 2 ^ 51 * 2 ^ 60 + f.world.toNat * 2 ^ 48 +
    f.cls.toNat * 2 ^ 44 + f.tid % 4096 * 2 ^ 32 + (s.node (if f.fwd then f.req else f.src)).toNat * 2 ^ 20 + (s.node f.dst).toNat * 2 ^ 8 + f.op.code.toNat)
/-- FUNC of an atomic operation (03 R83, 09 R252). -/
def AmoOp.code : AmoOp → BitVec 8
  | .swp => 0 | .add => 1 | .band => 2 | .bor => 3 | .bxor => 4 | .smin => 5 | .smax => 6 | .umin => 7 | .umax => 8
  | .cas => 0x10 | .read => 0x11 | .write => 0x12
/-- A flit whose tail carries a byte-enable mask: a request or write-back of fewer than 64 bytes, or a write-back of the Galley (11 R267). -/
def Flit.masked (f : Flit) : Bool :=
  match f.op with
  | .rdS | .rdU | .upg | .rdNc | .wrNc | .atomH | .atomM | .wbD => f.size % 64 != 0 || f.acc == .galWb
  | _ => false
/-- The tail of a flit: its byte-enable mask, or zero (11 R267). -/
def Flit.tail (f : Flit) : BitVec 64 := if f.masked then f.mask else 0
/-- The payload of a flit (09 R239, R252; 11 R266). DESIGN CHOICE (log 12): the bytes of a TLBI_B and of the operation of a CMO_P, which the spec names and does
not place, stand in the order in which it names them. -/
def State.payload (s : State) (f : Flit) : LineData :=
  let at_ := fun (v byte : Nat) => v * 2 ^ (8 * byte)
  match f.op with
  | .wrNc | .wbD | .dataS | .dataE | .dataM => f.data
  | .evictC | .ack => if f.dirty || f.op == .evictC then f.data else 0
  | .atomH | .atomM =>
    BitVec.ofNat 512 ((if f.func = .write then (f.data.toNat >>> (8 * (maskOff f.mask / 8 * 8))) % 2 ^ 64 else f.opA.toNat) + at_ f.opB.toNat 8 +
      at_ f.func.code.toNat 16 + at_ (b2n f.dword) 17)
  | .cmoP => BitVec.ofNat 512 (f.hint + at_ (b2n f.discard) 1)
  | .tlbiB => match f.tlbi with
    | some r => BitVec.ofNat 512 ((match r.form with | .va => 0 | .asid => 1 | .vmid => 2 | .all => 3) + at_ r.asid.toNat 1 + at_ r.vmid.toNat 3 + at_ r.va.toNat 5)
    | none => 0
  | .snpS | .snpU | .snpI | .snpNear => BitVec.ofNat 512 ((s.node f.req).toNat + at_ (f.tid % 4096) 2)
  | .intDlv => match f.msg with
    | some m => BitVec.ofNat 512 (m.intid.val + at_ m.target.val 2 + at_ (b2n m.secure) 4 + at_ (b2n m.refusal) 5 + at_ (match m.sender with | some t => t.val | none => 0) 6)
    | none => 0
  | .merSync => BitVec.ofNat 512 (f.opA.toNat + at_ (f.opB.toNat % 2 ^ 32) 8)
  | .contain => match f.containRec with
    | some m => BitVec.ofNat 512 (m.locator.toNat + at_ m.scope.toNat 8)
    | none => 0
  | .heart => BitVec.ofNat 512 f.opA.toNat
  | _ => 0
/-- The 96 bytes of a flit, byte j in bits [8j+7:8j]: header, payload, tail (11 R263, R264). -/
def State.wires (s : State) (f : Flit) : BitVec 768 :=
  BitVec.ofNat 768 ((s.header f).toNat + f.stamp.toNat * 2 ^ 128 + (s.payload f).toNat * 2 ^ 192 + f.tail.toNat * 2 ^ 704)
/-- The 96 parity bits of a flit's bytes (11 R263). -/
def parityBits (w : BitVec 768) : BitVec 96 :=
  BitVec.ofNat 96 ((List.range 96).foldl (fun a j => a + b2n (oddParity (w.toNat / 2 ^ (8 * j) % 256)) * 2 ^ j) 0)
/-- The bytes that a receiving port finds in error: those whose wires, as they come in, break the parity (11 R269). The flips are the wires that the link has
inverted: the 768 data wires and above them the 96 parity wires. -/
def State.badBytes (s : State) (f : Flit) (flips : BitVec 864) : List Nat :=
  let w := s.wires f
  let got := w ^^^ flips.setWidth 768
  let par := parityBits w ^^^ (flips >>> 768).setWidth 96
  (List.range 96).filter (fun j => (parityBits got).getLsbD j != par.getLsbD j)

/-! Routes (01 R16, R17; 11 R270, R271; 20 R440). -/

/-- The column of a compute die, and of a tile: east is positive (01 R16, R17). -/
def dieX (d : Nat) : Nat := d % 4
/-- The row of a compute die: south is positive (01 R16). -/
def dieY (d : Nat) : Nat := d / 4
/-- The compute die of a grid position, each dimension wrapping (01 R16). -/
def dieAt (x y : Nat) : Nat := y % 4 * 4 + x % 4
/-- The column of a tile on its die, T0 at the north-west corner (01 R17). -/
def tileX (t : Nat) : Nat := t % 6
/-- The row of a tile on its die (01 R17). -/
def tileY (t : Nat) : Nat := t / 6
/-- The tile of a grid position (01 R17). -/
def tileAt (x y : Nat) : Nat := y % 6 * 6 + x % 6

/-- One step along a ring the shorter way; a tie takes the positive way. -/
def ringStep (cur dest len : Nat) : Nat :=
  let f := (dest + len - cur) % len
  if f = 0 then cur else if 2 * f ≤ len then (cur + 1) % len else (cur + len - 1) % len
/-- The distance along a ring. -/
def ringDist (cur dest len : Nat) : Nat :=
  let f := (dest + len - cur) % len
  min f (len - f)
/-- The positions of a way along a ring, both ends among them. -/
def ringWay (len : Nat) : Nat → Nat → Nat → List Nat
  | 0, cur, _ => [cur]
  | n + 1, cur, dest => if cur = dest then [cur] else cur :: ringWay len n (ringStep cur dest len) dest
/-- The tiles whose routers a ring route passes, X first, then Y (11 R270). -/
def tilePath (a b : Nat) : List Nat :=
  (ringWay 6 3 (tileX a) (tileX b)).map (fun x => tileAt x (tileY a)) ++ (ringWay 6 3 (tileY a) (tileY b)).map (fun y => tileAt (tileX b) y)
/-- TILE of TRN_AVOID: the ring links of a tile's router are out of use (20 R440). -/
def avoidsTile (w : Word) (t : Nat) : Bool := bit w t
/-- BRIDGE of TRN_AVOID: 0 north, 1 east, 2 south, 3 west. DEDUCED (log 12): its lowest bit is the first named, as stops 36 to 39 are numbered. -/
def avoidsBridge (w : Word) (i : Nat) : Bool := bit w (36 + i)
/-- Tile to tile by ring links: no more than four of them, and no avoided router on the way (11 R270; 20 R440). -/
def ringRoute (w : Word) (a b : Nat) : Bool :=
  decide (ringDist (tileX a) (tileX b) 6 + ringDist (tileY a) (tileY b) 6 ≤ 4) && (tilePath a b).all (fun t => !avoidsTile w t)
/-- One step along a die-level ring: the shorter way, or the other where that way uses an avoided bridge; the test says whether the link from a position to the
next is out of use (11 R271; 20 R440). -/
def dieRingStep (out : Nat → Bool) (cur dest : Nat) : Nat :=
  let f := (dest + 4 - cur) % 4
  if f = 0 then cur
  else
    let pos := decide (2 * f ≤ 4)
    let blocked := if pos then (List.range f).any (fun i => out ((cur + i) % 4)) else (List.range (4 - f)).any (fun i => out ((cur + 3 - i) % 4))
    if pos != blocked then (cur + 1) % 4 else (cur + 3) % 4
/-- The link east of a die of a row is out of use, by either of its bridges. -/
def eastOut (av : Nat → Word) (y x : Nat) : Bool := avoidsBridge (av (dieAt x y)) 1 || avoidsBridge (av (dieAt (x + 1) y)) 3
/-- The link south of a die of a column is out of use, by either of its bridges. -/
def southOut (av : Nat → Word) (x y : Nat) : Bool := avoidsBridge (av (dieAt x y)) 2 || avoidsBridge (av (dieAt x (y + 1))) 0
/-- The bridge or spoke by which a flit leaves a die toward another, X first: 36 north, 37 east, 38 south, 39 west, 40 the spoke (11 R271). The first operand is
TRN_AVOID of each die. -/
def exitStop (av : Nat → Word) (d dd : Nat) : Nat :=
  if dd = 16 then 40
  else
    let nx := dieRingStep (eastOut av (dieY d)) (dieX d) (dieX dd)
    let ny := dieRingStep (southOut av (dieX d)) (dieY d) (dieY dd)
    if nx ≠ dieX d then (if nx = (dieX d + 1) % 4 then 37 else 39)
    else if ny = (dieY d + 1) % 4 then 38 else 36
/-- The die and stop after the one a flit stands at (11 R270, R271); the last two operands are its destination. -/
def nextStop (av : Nat → Word) (d st dd ds : Nat) : Nat × Nat :=
  if d = 16 then (if dd = 16 then (16, ds) else (dd, 40))
  else
    let goal := if dd = d then ds else exitStop av d dd
    let row := if ds < 36 then tileY ds else ds % 6
    if st = goal && dd ≠ d then
      (if st = 40 then (16, ds)
       else if st = 37 then (dieAt (dieX d + 1) (dieY d), 39)
       else if st = 39 then (dieAt (dieX d + 3) (dieY d), 37)
       else if st = 38 then (dieAt (dieX d) (dieY d + 1), 36)
       else (dieAt (dieX d) (dieY d + 3), 38))
    else if st < 36 then
      (if goal < 36 && ringRoute (av d) st goal then
        (let nx := ringStep (tileX st) (tileX goal) 6
         if nx ≠ tileX st then (d, tileAt nx (tileY st)) else (d, tileAt (tileX st) (ringStep (tileY st) (tileY goal) 6)))
       else (d, 41 + tileY st))
    else if 41 ≤ st ∧ st < 47 then
      (if goal < 36 then (if st - 41 = tileY goal then (d, goal) else (d, 41 + tileY goal)) else (d, goal))
    else if goal < 36 then (d, 41 + tileY goal)
    else if (st = 49 ∧ 36 ≤ goal ∧ goal ≤ 40) ∨ (goal = 49 ∧ 36 ≤ st ∧ st ≤ 40) then (d, goal)
    else (d, 41 + (if 48 ≤ st then ds % 6 else row))
/-- TRN_AVOID of a die (20 R440). -/
def State.avoid (s : State) (d : Nat) : Word := s.ctlGet (caddr d 0xC0 0x20)
/-- The node after the one a flit stands at, toward a node of this package. -/
def State.nextNode (s : State) (cur dest : BitVec 12) : BitVec 12 :=
  let p := nextStop s.avoid (fieldOf cur 10 6) (fieldOf cur 5 0) (fieldOf dest 10 6) (fieldOf dest 5 0)
  BitVec.ofNat 12 (s.pkgBit * 2048 + p.1 * 64 + p.2)

/-! Buffers, datelines and credits (11 R262, R273). -/

/-- The flits that an input port holds for a virtual channel, in each dateline class (11 R273). -/
def bufferDepth : Nat → Nat
  | 0 => 2 | 4 => 8 | 5 => 2 | _ => 6
/-- The dateline class of a flit after the link from one stop of a die to the next; the first operand is the stop it came from, where that lay on the same die
(11 R273). -/
def datelineAfter (was : Bool) (before : Option Nat) (d st d' st' : Nat) : Bool :=
  let wrap := fun (a b last : Nat) => (a == 0 && b == last) || (a == last && b == 0)
  if d = d' then
    if 41 ≤ st' ∧ st' < 47 then false
    else if st < 36 ∧ st' < 36 then
      (if tileY st = tileY st' then was || wrap (tileX st) (tileX st') 5
       else
        let turned := match before with | some b => decide (b < 36) && tileY b == tileY st | none => true
        (was && !turned) || wrap (tileY st) (tileY st') 5)
    else was
  else if d < 16 ∧ d' < 16 then was || wrap (dieX d) (dieX d') 3 || wrap (dieY d) (dieY d') 3
  else was
/-- The dateline class that a flit has once it stands at the next node. -/
def State.nextDateline (s : State) (f : Flit) : Bool :=
  let n := s.nextNode f.hop (s.goal f)
  let d := fieldOf f.hop 10 6
  let before := match f.inPort with | some b => if fieldOf b 10 6 = d then some (fieldOf b 5 0) else none | none => none
  datelineAfter f.dateline before d (fieldOf f.hop 5 0) (fieldOf n 10 6) (fieldOf n 5 0)
/-- Flits in a buffer of the input port at a node from a neighbour. -/
def State.buffered (s : State) (at_ from_ : BitVec 12) (v : Nat) (cls : Bool) : Nat :=
  (s.net.filter (fun g => g.hop == at_ && g.inPort == some from_ && channelOf g.cls == v && g.dateline == cls)).length
/-- The sender holds a credit for the flit: a buffer of its channel and class is free at the receiver (11 R262). -/
def State.credit (s : State) (f : Flit) : Bool :=
  decide (s.buffered (s.nextNode f.hop (s.goal f)) f.hop (channelOf f.cls) (s.nextDateline f) < bufferDepth (channelOf f.cls))

/-! Output ports (11 R274). -/

/-- The number of the link from one node to the next. -/
def linkNum (n m : BitVec 12) : Nat := n.toNat * 4096 + m.toNat
/-- The output port at a node toward the next. -/
def State.outPort (s : State) (n m : BitVec 12) : OutPort := Tbl.get OutPort.reset s.outPorts (linkNum n m)
/-- A flit may cross the link before it: nothing holds it at its injector, it is not at its destination, no router drops it, there is a credit, and an injector
leaves eight cycles between two P3 flits (11 R262, R268, R274). -/
def State.mayCross (s : State) (f : Flit) : Bool :=
  !s.heldBack f && f.hop != s.goal f && !s.dropped f && s.credit f &&
    !(channelOf f.cls == 5 && f.inPort.isNone && decide (s.cycle < Tbl.get 0 s.urgentAt f.hop.toNat))
/-- The oldest flit at an output port that waits with a credit in a channel, by its place in the net. -/
def State.oldestAt (s : State) (n m : BitVec 12) (v : Nat) : Option Nat :=
  (List.range s.net.length).find? (fun i => match s.net[i]? with
    | some f => f.hop == n && channelOf f.cls == v && s.nextNode n (s.goal f) == m && s.mayCross f
    | none => false)
/-- The P1 channel that goes next at an output port, round-robin from the one whose turn it is. -/
def State.p1At (s : State) (n m : BitVec 12) : Option Nat :=
  let t := (s.outPort n m).turn
  ((s.oldestAt n m (1 + t % 3)).or (s.oldestAt n m (1 + (t + 1) % 3))).or (s.oldestAt n m (1 + (t + 2) % 3))
/-- The flit that an output port grants: P3, then P2, then P1, then P0, oldest first; P1 once it has waited for fifteen slots and P0 for fourteen go before P2, where no
P3 flit waits (11 R274). -/
def State.granted (s : State) (n m : BitVec 12) : Option Nat :=
  let o := s.outPort n m
  let p0 := s.oldestAt n m 0
  let p1 := s.p1At n m
  match s.oldestAt n m 5 with
  | some k => some k
  | none =>
    if decide (o.ageP1 ≥ 15) && p1.isSome then p1
    else if decide (o.ageP0 ≥ 14) && p0.isSome then p0
    else ((s.oldestAt n m 4).or p1).or p0
/-- An output port after it has granted a flit: the cycle is used, the turn passes on, and P1 and P0 have waited one slot more (11 R269, R274). -/
def State.grant (s : State) (n m : BitVec 12) (f : Flit) : OutPort :=
  let o := s.outPort n m
  let v := channelOf f.cls
  let p1 := decide (1 ≤ v ∧ v ≤ 3)
  { last := s.cycle + 1
    turn := if p1 then v % 3 else o.turn
    ageP1 := if p1 || (s.p1At n m).isNone then 0 else if v = 5 then o.ageP1 else o.ageP1 + 1
    ageP0 := if v = 0 || (s.oldestAt n m 0).isNone then 0 else if v = 5 then o.ageP0 else o.ageP0 + 1
    sent := (if o.sent.length < 8 then o.sent else o.sent.drop 1) ++ [f] }

/-! Error answers (01 R30; 11 R280, R284; 12 R305). -/

/-- The response opcode of a request. -/
def Op.reply : Op → Op
  | .wrNc | .wbD | .evictC | .cmoP | .tlbiB => .ack
  | _ => .dataS
/-- The response of an agent to the requester of a flit, with the fields that name the transaction. -/
def Flit.answer (f : Flit) (from_ : Agent) (op : Op) : Flit :=
  { Flit.blank op from_ f.req with
    cls := 4, thr := f.thr, tid := f.tid, line := f.line, world := f.world, size := f.size, mask := f.mask, acc := f.acc, pf := f.pf
    func := f.func, opA := f.opA, fromM := f.fromM }
/-- An error response: the record of class UCC, and the answer that carries its code and locator; a guard refusal is marked. -/
def State.answerError (s : State) (from_ : Agent) (f : Flit) (code : BitVec 16) (guard : Bool) : State :=
  let (s, loc) := s.errorAt from_ code 3 f.world (some (f.line * 64)) f.thr
  s.send { f.answer from_ f.op.reply with err := some code, refusal := some guard, opA := loc.setWidth 64, opB := 0 }
/-- A request refused: RETRY, which carries it back to its requester (09 R248); the place of its own hint meanwhile is ackCnt, which a RETRY does not use. -/
def Flit.turnedAway (f : Flit) (from_ : Agent) (moved promoted : Bool) (hint : Nat) : Flit :=
  { f with op := .retry, was := f.op, src := from_, dst := f.req, cls := 4, moved := moved, promoted := promoted, hint := hint, ackCnt := f.hint, fwd := false }
/-- A read or a write of the request. -/
def Flit.reads (f : Flit) : Bool := f.op.reply == .dataS

/-! Ports of domains (11 R283 to R285). -/

/-- The answer NOCOPY of a die to a snoop (09 R234, R245): an invalidation for another requester is acknowledged to that requester. -/
def State.snpNone (s : State) (from_ : Agent) (f : Flit) : State :=
  match f.op with
  | .snpI => s.send { f.answer from_ .ack with noCopy := true }
  | _ => s.send { f.answer from_ .ack with dst := f.src, noCopy := true }

/-- What a port that is not OPEN does with a flit that has left the net (11 R284); none for a port that lets it pass or holds it. -/
def State.proxied (s : State) (a : Nat) (f : Flit) : Option State :=
  let st := s.portSt a
  let count := fun (s : State) => s.ctlCount a 63 48
  let node : Agent := .die f.dst.dieNum
  if st = 0 || f.inside then none
  else match f.op with
    | .snpS | .snpU | .snpI | .snpNear => some ((count s).snpNone f.dst f)
    | .tlbiB | .intDlv | .sevtB => none
    | .merSync | .heart | .contain => some (count s)
    | .dataS | .dataE | .dataM => some ((count s).logError node codeStray 3 f.world (some (f.line * 64)) f.thr)
    | .ack | .retry => if f.dirty then some ((count s).logError node codeStray 3 f.world (some (f.line * 64)) f.thr) else none
    | _ =>
      if st = 3 then none
      else match f.dst with
        | .home _ _ | .filter _ => some ((count s).send (f.turnedAway f.dst true false 4))
        | _ => some ((count s).answerError node f codeDomainOff false)

/-- A port holds a flit until it is OPEN again; an INT_DLV, the port of its die (11 R284). -/
def State.portHolds (s : State) (f : Flit) : Bool :=
  match s.portOf f with
  | some a => !f.inside && (s.portSt a = 3 || f.op == Op.intDlv) && (match f.op with
    | .intDlv => f.dst.dieNum < 16 && s.portSt (caddr 16 0xD1 (0x140 + f.dst.dieNum)) == 3
    | .snpS | .snpU | .snpI | .snpNear | .tlbiB | .sevtB | .merSync | .heart | .contain | .dataS | .dataE | .dataM => false
    | .ack | .retry => false
    | _ => true)
  | none => false

/-- A flit arrives at its agent: its port first, then the agent; an agent that cannot take it now leaves it where it is. -/
def State.receive (s : State) (k : Nat) (op : Op) (body : Flit → State → Option State) : Host.Outcome State Fault Refusal :=
  match s.arrival k op with
  | none => .next s
  | some f =>
    if s.portHolds f then .next s
    else match (s.portOf f).bind (fun a => (s.taken k).proxied a f) with
      | some s => .next s
      | none => .next ((body f (s.taken k)).getD s)

/-! Regulators (11 R275). -/

/-- The regulator of an injector's unit. -/
def regAddr (unit n : Nat) : Nat := caddr 16 unit (0x800 + n)
/-- A regulator lets one flit leave now: freely where EN = 0, else for a whole token where RATE is not 0; none where the flit must wait (11 R275, R276). -/
def State.regLeave (s : State) (a : Nat) : Option State :=
  let w := s.ctlGet a
  if !bit w 63 then some s
  else if fieldOf w 43 32 = 0 || fieldOf w 11 0 = 0 then none else some (s.ctlField a 43 32 (fieldOf w 43 32 - 1))
/-- Something waits in the queue of a regulator. -/
def State.regBusy (s : State) (a : Nat) : Bool := s.net.any (fun g => g.gate == some a) || s.regWaits.any (fun q => q.reg == a)
/-- A flit comes to a regulator: it leaves at once, or waits behind those that came before it (11 R275). -/
def State.regulate (s : State) (a : Nat) (f : Flit) : State :=
  let g := { f with cls := 3, regu := some a }
  match (if s.regBusy a then none else s.regLeave a) with
  | some s => s.send g
  | none => s.send { g with gate := some a }
/-- Inject a flit on the device channel through a regulator of an injector. -/
def State.sendDevice (s : State) (unit n : Nat) (f : Flit) : State := s.regulate (regAddr unit (n % 64)) f

/-! Containment (19 R415, R418). -/

/-- The whole locator of a record of a die, by its low word: the record's STAMP[31:0] above it, the stamp of this moment where no slot took it (19 R411, R412). -/
def State.wholeLoc (s : State) (d : Nat) (node : BitVec 12) (loc : BitVec 32) : BitVec 64 :=
  let stamp := if fieldOf loc 15 0 = 0 then s.stampAt d node else (s.slot d (fieldOf loc 25 17)).stamp
  BitVec.ofNat 64 (stamp.toNat % 2 ^ 32 * 2 ^ 32 + loc.toNat)
/-- A store sends CONTAIN to each die of a scope: 0 the thread, 1 its core, 2 its die, 3 the package. -/
def State.sendContain (s : State) (from_ : Agent) (loc : BitVec 64) (scope : Nat) (t : Thr) : State :=
  let dies := if scope = 3 then (List.range 16).filter s.dieAlive else [t.val / 64]
  dies.foldl (fun s d => s.send { Flit.blank .contain from_ (.die d) with
    cls := 0xA, containRec := some { locator := loc, scope := BitVec.ofNat 2 scope }, containThr := some t }) s

/-- The threads of a die that a CONTAIN addresses. -/
def containThreads (d scope t : Nat) : List Nat :=
  match scope with
  | 0 => [t]
  | 1 => [t / 2 * 2, t / 2 * 2 + 1]
  | _ => (List.range 64).map (fun i => 64 * d + i)

/-- A CONTAIN message reaches a thread: a fifth is discarded and marked (19 R415), and the port of a tile that is not OPEN drops it (11 R284). -/
def State.contained (s : State) (t : Nat) (m : ContainMsg) : State :=
  if !s.thrPresent t then s
  else if s.portSt (tilePort (s.tileOf (t / 2))) ≠ 0 then s.ctlCount (tilePort (s.tileOf (t / 2))) 63 48
  else if (s.thr t).contains.length < 4 then s.updThr t (fun x => { x with contains := x.contains ++ [m] })
  else { s with errs := { s.errs with summary := s.errs.summary ||| 1 <<< (55 : Nat) } }

/-- CONTAIN (19 R415). -/
def execContain (k : Nat) (s : State) : Host.Outcome State Fault Refusal :=
  s.receive k .contain (fun f s => match f.containRec, f.dst with
    | some m, .die d => some ((containThreads d m.scope.toNat ((f.containThr.map Fin.val).getD 0)).foldl (fun s t => s.contained t m) s)
    | _, _ => some s)

/-- HEART (11 R266): the die keeps the sequence number. -/
def execHeart (k : Nat) (s : State) : Host.Outcome State Fault Refusal :=
  s.receive k .heart (fun f s => some (s.updDie f.dst.dieNum (fun x => { x with ringHeart := f.opA })))

/-! Moving flits (11 R268 to R272). -/

/-- A sampling point: a bridge or the spoke of a compute die, or a stop of the crossbar (19 R422). -/
def samplePoint (n : BitVec 12) : Bool :=
  let st := fieldOf n 5 0
  if fieldOf n 10 6 = 16 then true else decide (36 ≤ st ∧ st ≤ 40)
/-- Sample the header of a flit at a node (19 R422): which of the 2^n is sampled is a free value. -/
def State.trace (s : State) (n : BitVec 12) (f : Flit) : State :=
  let d := fieldOf n 10 6
  let c := (s.die d).ephCtl
  if samplePoint n && bit c 62 && (!bit c 49 || fieldOf c 57 50 == f.op.code.toNat) then
    let hit := s.draw (2 ^ fieldOf c 61 58) == 0
    let s := s.drawn
    let code := BitVec.ofNat 16 (Config.freeValue s.free)
    if hit then s.drawn.event d n 6 f.world 0 code (s.stampAt d n) (s.header f) else s
  else s

/-- A router's error record goes to the store of the router's die (11 R268, R269; 19 R411). -/
def State.routerError (s : State) (n : BitVec 12) (code : BitVec 16) (sev : BitVec 3) (f : Flit) (pa : Option Nat) : State :=
  let d := min 16 (fieldOf n 10 6)
  (s.record d { node := n, code := code, sev := sev, world := f.world, addr := pa.map (BitVec.ofNat 57), thread := f.thr
                synd := BitVec.ofNat 256 (Config.syndrome code.toNat (s.stampAt d n).toNat (pa.getD 0)) }).1

/-- A flit crosses the link before it: the output port grants it, and it stands last at the next router's input port (11 R262, R270 to R274). -/
def State.cross (s : State) (k : Nat) (f : Flit) : State :=
  let n := s.nextNode f.hop (s.goal f)
  let g := { f with hop := n, inPort := some f.hop, dateline := s.nextDateline f, inside := s.accepts f n, came := s.cycle, fails := 0 }
  { s with
    net := listDrop s.net k ++ [g]
    outPorts := Tbl.set OutPort.reset s.outPorts (linkNum f.hop n) (s.grant f.hop n g)
    urgentAt := if channelOf f.cls = 5 ∧ f.inPort.isNone then Tbl.set 0 s.urgentAt f.hop.toNat (s.cycle + 8) else s.urgentAt }
/-- FLIT_FORWARD (11 R262, R268, R270 to R274): a router drops a flit with a reserved field; else its output port lets the flit cross where it is the one to be
granted and the port has granted none in this cycle. -/
def execFlitForward (k : Nat) (s : State) : Host.Outcome State Fault Refusal :=
  match s.net[k]? with
  | none => .next s
  | some f =>
    if s.heldBack f then .next s
    else if s.dropped f then .next (({ s with net := listDrop s.net k }).routerError f.hop 0x0402 3 f (some (f.line * 64)))
    else
      let n := s.nextNode f.hop (s.goal f)
      if f.hop = s.goal f ∨ s.granted f.hop n ≠ some k ∨ s.cycle < (s.outPort f.hop n).last then .next s
      else .next ((s.cross k f).trace n f)

/-- The flits of a link from a flit on stand again at the end of the receiver's queue, as the sender sends them once more: the receiver has discarded them, and the
sender keeps its last eight (11 R269). -/
def State.replay (s : State) (k : Nat) (f : Flit) : State :=
  let mine := fun (g : Flit) => g.hop == f.hop && g.inPort == f.inPort
  { s with net := s.net.take k ++ (s.net.drop (k + 1)).filter (fun g => !mine g) ++ { f with fails := f.fails + 1 } :: (s.net.drop (k + 1)).filter mine }
/-- REPLAY_REQUEST (11 R269): the receiving port of the link that a flit has crossed finds the parity of some of its bytes broken. The flit and those behind it on
that link are sent again; the third failure on one link drops the flit, or poisons it where only payload bytes are broken. A flit that has crossed no
link, or that the sender no longer keeps, is none that a port can refuse. -/
def execReplayRequest (k : Nat) (flips : BitVec 864) (s : State) : Host.Outcome State Fault Refusal :=
  match s.net[k]? with
  | none => .next s
  | some f =>
    let bad := s.badBytes f flips
    match f.inPort with
    | none => .next s
    | some n =>
      let kept := (s.outPort n f.hop).sent.any (fun g => g.tid == f.tid && g.src == f.src && g.dst == f.dst && g.op == f.op && g.stamp == f.stamp)
      if f.inside || bad.isEmpty || !kept then .next s
      else if f.fails < 2 then .next ((s.replay k f).routerError f.hop 0x0401 1 f none)
      else if bad.all (fun j => decide (24 ≤ j ∧ j < 88)) then
        .next (({ s with net := listSet s.net k { f with poison := true, fails := 0 } }).routerError f.hop 0x0403 2 f (some (f.line * 64)))
      else .next (({ s with net := listDrop s.net k }).routerError f.hop 0x0402 3 f (some (f.line * 64)))

end Sys2Proof.Machine
end

