-- ==== Sys2Proof/Machine/Wire.lean ====
section
/-! DEFINITION. The sending side of the system links: routes, frames, the global window at its source, and pair traffic (13 R309, R315 to R319, R322, R324, R327, R332). -/

namespace Sys2Proof.Machine

/-! Codes (19 R413). -/

/-- SYL_LINK_LOST (13 R315). -/
def codeLinkLost : BitVec 16 := 0x0704
/-- SYL_UNREACH (13 R319). -/
def codeUnreach : BitVec 16 := 0x0706
/-- GW_REFUSED (13 R321). -/
def codeGwRefused : BitVec 16 := 0x0707

/-! Routes (13 R316 to R319). -/

/-- A port is in UP and no forme holds its new frames (13 R317, 20 R437). -/
def State.linkOpen (s : State) (p : Nat) : Bool := (s.link p).st == .up && !s.held 5 p
/-- The route table entry of a package in a port unit's copy (13 R316). -/
def State.routeWord (s : State) (p n : Nat) : Word := s.ctlGet (caddr 16 (0xC0 + p) (0x1000 + n))
/-- SEL and the port it names: the first valid one of A, B and C that is open; none for 3 (13 R317). -/
def State.routeSel (s : State) (w : Word) : Option (Nat × Nat) :=
  let a := fieldOf w 62 60
  let b := fieldOf w 59 57
  let c := fieldOf w 56 54
  if s.linkOpen a then some (0, a)
  else if bit w 53 && s.linkOpen b then some (1, b)
  else if bit w 52 && s.linkOpen c then some (2, c)
  else none
/-- The port toward a package, looked up at a unit's copy; none where it is unreachable (13 R318, R319). -/
def State.routeTo (s : State) (p n : Nat) : Option Nat :=
  let w := s.routeWord p n
  if bit w 63 then (s.routeSel w).map Prod.snd else none
/-- The SEL field of a route table entry as it reads (13 R316). -/
def State.selField (s : State) (w : Word) : Nat := match s.routeSel w with | some (n, _) => n | none => 3
/-- The port that carries a pair flit: PA[12], or TID[0] where there is no address; the other while one is lost (13 R327). -/
def State.pairPort (s : State) (f : Flit) : Nat :=
  let odd := if f.op == Op.intDlv || f.op == Op.sevtB || f.op == Op.tlbiB then f.tid % 2 == 1 else f.line / 64 % 2 == 1
  let a := if odd then 7 else 6
  if (s.link a).st == .up then a else 13 - a

/-! Frames (13 R309). -/

/-- The operation of a FUNC; a code of none reads. -/
def AmoOp.ofCode (c : BitVec 8) : AmoOp :=
  match c.toNat with
  | 0 => .swp | 1 => .add | 2 => .band | 3 => .bor | 4 => .bxor | 5 => .smin | 6 => .smax | 7 => .umin | 8 => .umax
  | 0x10 => .cas | 0x12 => .write | _ => .read

/-- What a flit is on a link. -/
def Flit.frameKind (f : Flit) : FrameKind :=
  if f.err.isSome then .error
  else match f.op with
    | .rdNc => .read
    | .wrNc => .write
    | .atomH => .atomHome
    | .atomM => .atomMem
    | .dataS => if f.acc == .coherent then .other 0x30 else .data
    | .ack => if f.acc == .coherent then .other 0x38 else .ack
    | op => .other op.code
/-- The operand bytes of a flit that has none of its own: an interrupt's fields with its MODE, or a TLBI's (11 R266, 09 R239; log 16). -/
def Flit.operandA (f : Flit) : Word :=
  match f.msg, f.tlbi, f.err with
  | some m, _, _ => BitVec.ofNat 64 (m.intid.val + m.target.val * 2 ^ 16 + b2n m.secure * 2 ^ 32 + b2n m.refusal * 2 ^ 40 + f.hint % 4 * 2 ^ 41 +
      (match m.sender with | some t => t.val | none => 0) * 2 ^ 48 + b2n m.sender.isSome * 2 ^ 63)
  | none, some r, _ => BitVec.ofNat 64 ((match r.form with | .va => 0 | .asid => 1 | .vmid => 2 | .all => 3) +
      (match r.regime with | .none => 0 | .normalH => 1 | .guest => 2 | .normal => 3 | .secure => 4) * 4 + r.level.num * 32 + b2n r.pinned * 128 +
      r.enclave.toNat * 2 ^ 8 + r.asid.toNat * 2 ^ 20 + r.vmid.toNat * 2 ^ 36)
  | none, none, some c => c.setWidth 64
  | none, none, none => f.opA
/-- A flit is a request that waits for an answer. -/
def Op.asks : Op → Bool
  | .rdS | .rdU | .upg | .rdNc | .wrNc | .atomH | .atomM | .cmoP | .tlbiB | .wbD | .evictC => true
  | _ => false
/-- A flit is a snoop. -/
def Op.snoops : Op → Bool
  | .snpS | .snpU | .snpI | .snpNear => true
  | _ => false
/-- The frame of a flit; a snoop carries its requester's node and TID (09 R239). -/
def State.frameOf (s : State) (p : Nat) (f : Flit) (dst src : BitVec 12) (hops : Nat) (tid : BitVec 12) : FrameIn :=
  let off := if f.mask = 0 then 0 else (List.range 64).findIdx (fun i => f.mask.getLsbD i)
  { dstPkg := dst, srcPkg := src, hopsLeft := BitVec.ofNat 4 hops, kind := f.frameKind, addr := BitVec.ofNat 57 (f.line * 64 + off)
    world := f.world, tid := tid, func := f.func.code, dword := if f.err.isSome then f.refusal == some true else f.dword
    opA := if f.op.snoops then BitVec.ofNat 64 ((s.node f.req).toNat + f.tid % 4096 * 2 ^ 16) else f.operandA, opB := if f.err.isSome then f.opA else match f.tlbi with | some r => r.va | none => f.opB
    mask := f.mask, data := f.data, poison := f.poison, flags := BitVec.ofNat 10 f.flags, stamp := f.stamp, node := s.node (if f.op.asks then f.req else f.src), crcOk := true, tagOk := true
    seq := BitVec.ofNat 16 (s.link p).sent }
/-- Put a frame on a port: the sender keeps the last 1,024 (13 R310). -/
def State.putFrame (s : State) (p : Nat) (fr : FrameIn) : State :=
  s.updLink p (fun l => { l with
    out := (if l.out.length < 1024 then l.out else l.out.drop 1) ++ [{ fr with seq := BitVec.ofNat 16 l.sent }], sent := l.sent + 1, frames := l.frames + 1 })
/-- HOPS_LEFT of a flit injected at a port as it leaves: MAX_HOPS, less the one of R318 (13 R315, R318; log 16). -/
def State.maxHops (s : State) (p : Nat) : Nat := fieldOf (s.ctlGet (caddr 16 (0xC0 + p) 0)) 59 56 - 1
/-- Inject a flit at a port; a request waits there for its answer (13 R315), and a snoop for the data that the partner sends to a requester of this package (09 R250). -/
def State.inject (s : State) (p : Nat) (f : Flit) (dst : BitVec 12) : State :=
  let s := s.putFrame p (s.frameOf p f dst s.pkgId (s.maxHops p) (BitVec.ofNat 12 f.tid))
  let wants := f.op.asks || (f.op.snoops && (match f.req with | .core _ => true | _ => false))
  if wants then s.updLink p (fun l => { l with waits := l.waits ++ [{ flit := f, dstPkg := dst }] }) else s

/-! The export table at the target (13 R320, R321, R323). -/

/-- A request that a package makes through the window, as the export check sees it. -/
structure WinReq where
  src : BitVec 12
  off : Nat
  world : Tag
  wr : Bool
  atom : Bool
deriving DecidableEq, Repr

/-- The local PA of an admitted request; none where a step of R321 fails. -/
def State.exported (s : State) (p : Nat) (r : WinReq) : Option Nat :=
  let word := fun (i : Nat) => s.ctlGet (caddr 16 (0xC0 + p) (0x400 + i))
  match (List.range 16).find? (fun n => bit (word (2 * n)) 63 && decide (fieldOf (word (2 * n)) 27 0 ≤ r.off / 65536 ∧ r.off / 65536 ≤ fieldOf (word (2 * n)) 55 28)) with
  | none => none
  | some n =>
    let a := word (2 * n)
    let b := word (2 * n + 1)
    let who := decide (fieldOf b 31 20 ≤ r.src.toNat ∧ r.src.toNat ≤ fieldOf b 19 8) && (if bit b 4 then r.world == 0xFFF else r.world == 0)
    let what := if r.atom then bit b 1 && bit b 2 && bit b 3 else if r.wr then bit b 2 else bit b 1
    let pa := fieldOf b 61 32 * 65536 + (r.off - fieldOf a 27 0 * 65536)
    let own : Bool := match s.region pa with | .dram o => s.dramBacked o | _ => false
    if who && what && own && s.guardOk pa r.world (r.atom || !r.wr) (r.atom || r.wr) then some pa else none

/-- A window request reads and does not write. -/
def Flit.winWrites (f : Flit) : Bool := f.op != Op.rdNc
/-- Two window requests of one package reach memory in order where one of them writes (07 R189). -/
def winOrdered (a b : Bool) : Bool := a || b
/-- A window request goes on from its port to the home slice, or to the controller for the placement at memory (13 R323); port 8 is the package's own hub (01 R33). -/
def State.windowGoes (s : State) (p : Nat) (q : LinkIn) : State :=
  let s := s.freshTid
  let tid := s.nextTid + 4096
  let from_ : Agent := if p = 8 then .gwHub else .link p
  let line := q.pa / 64
  let f := q.flit
  let dst : Agent := if f.op == Op.atomM then .mem (s.chanOf q.pa) else s.homeOf 16 line
  let s := s.updLink p (fun l => { l with serves := l.serves ++ [{ tid := tid, src := q.src, remote := q.remote, line := line, wr := f.winWrites, stamp := s.stamp 16 }] })
  let g := { f with src := from_, dst := dst, req := from_, tid := tid, line := line, acc := .dma, thr := none, cls := 3 }
  if p = 8 then s.send g else s.sendDevice (0xC0 + p) (fieldOf (s.routeWord p q.src.toNat) 45 40) g
/-- The requests that wait at a port go on in order: each once those of its package before it, of which one of the two writes, are answered (07 R189). -/
def State.windowPump (s : State) (p : Nat) : State :=
  (s.link p).queue.foldl (fun s q =>
    let l := s.link p
    let before := l.queue.takeWhile (fun r => r != q)
    if l.serves.any (fun e => e.src == q.src && winOrdered e.wr q.flit.winWrites) || before.any (fun r => r.src == q.src) then s
    else (s.updLink p (fun l => { l with queue := l.queue.erase q })).windowGoes p q) s
/-- Serve a window request at its target (13 R323), in its turn (07 R189). -/
def State.serveWindow (s : State) (p : Nat) (f : Flit) (pa : Nat) (remote : BitVec 12) (src : BitVec 12) : State :=
  (s.updLink p (fun l => { l with queue := l.queue ++ [{ flit := f, pa := pa, remote := remote, src := src }] })).windowPump p

/-- A global-window access at its source (13 R318, R319, R322; 01 R33): the package itself, or the port its route names. -/
def State.windowOut (s : State) (f : Flit) : State :=
  let target := f.line * 64 / 2 ^ 44 % 4096
  let off := f.line * 64 % 2 ^ 44
  let sec := f.world == 0xFFF
  if target = s.pkgId.toNat then
    let r : WinReq := { src := s.pkgId, off := off, world := f.world, wr := f.op == Op.wrNc, atom := f.op == Op.atomH || f.op == Op.atomM }
    match s.exported 0 r with
    | none => s.answerError .gwHub f codeGwRefused false
    | some pa =>
      let s := s.updLink 8 (fun l => { l with waits := l.waits ++ [{ flit := f, dstPkg := BitVec.ofNat 12 ((s.nextTid + 1) % 4096) }] })
      s.serveWindow 8 f pa (BitVec.ofNat 12 ((s.nextTid + 1) % 4096)) s.pkgId
  else match s.routeTo 0 target with
    | none => s.answerError .gwHub f codeUnreach false
    | some p => if sec && !(s.link p).enc then s.answerError .gwHub f codeUnreach false else s.inject p f (BitVec.ofNat 12 target)

/-! Answers on their way back. -/

/-- An answer reaches the request that waits for it over a link: the requester receives it as its own (13 R315). -/
def Flit.delivered (w f : Flit) (from_ : Agent) : Flit :=
  { w.answer from_ f.op with
    world := f.world, data := f.data, poison := f.poison, err := f.err, refusal := f.refusal, opA := if f.err.isSome then f.opA else w.opA
    dirty := f.dirty, noCopy := f.noCopy, wbPending := f.wbPending, superseded := f.superseded, ackCnt := if f.op == Op.retry then w.hint else f.ackCnt, hint := f.hint
    moved := f.moved, promoted := f.promoted, was := w.op, rcnt := w.rcnt, keep := w.keep, grant := f.grant, far := f.far, regu := w.regu }
/-- A guard refusal at the target is told as GW_REFUSED (13 R321). -/
def Flit.asWindow (f : Flit) : Flit := if f.err = some codeGrdRefused then { f with err := some codeGwRefused, refusal := some false } else f

/-- An answer to a window request that this package serves goes back over the route, or to the package's own requester (13 R319, R324). -/
def State.windowBack (s : State) (p : Nat) (f : Flit) (e : LinkServe) : State :=
  let s := s.updLink p (fun l => { l with serves := l.serves.filter (fun q => q.tid != e.tid) })
  let f := f.asWindow
  let s := if p = 8 then
    match (s.link 8).waits.find? (fun w => w.dstPkg == e.remote) with
    | some w => (s.updLink 8 (fun l => { l with waits := l.waits.filter (fun q => q.dstPkg != e.remote) })).send (w.flit.delivered f .gwHub)
    | none => s
  else match s.routeTo p e.src.toNat with
    | some q => s.putFrame q (s.frameOf q { f with acc := .gw } e.src s.pkgId (s.maxHops q) e.remote)
    | none => s
  s.windowPump p

/-! Pair traffic at its source (13 R327, R332). -/

/-- The requester has completed its transaction for a line: no answer for it waits at a pair port. -/
def State.waitsDone (s : State) (line : Nat) : State :=
  [6, 7].foldl (fun s q => s.updLink q (fun l => { l with waits := l.waits.filter (fun w => !(w.flit.line == line && w.flit.acc == .coherent && w.flit.op != Op.wbD && w.flit.op != Op.evictC)) })) s

/-- A read that a home of this package has sent to memory of the partner, which is lost: the promoted copy answers it, or an error where there is none (13 R333, R334). -/
def State.fwdGone (s : State) (f : Flit) : State :=
  match s.endpoint (f.line * 64) with
  | .link _ | .mmio => s.answerError (.link 6) f codeLinkLost false
  | a => s.relay { f with dst := a }
/-- The partner cannot be reached: a coherent request is told to ask again, another ends in error, and a snoop finds no copy (13 R315, R332). -/
def State.pairGone (s : State) (f : Flit) : State :=
  match f.op with
  | .rdS | .rdU | .upg | .cmoP => if f.fwd then s.fwdGone f else s.send (f.turnedAway (.link 6) true false 0)
  | .rdNc | .wrNc | .atomH | .atomM | .tlbiB => s.answerError (.link 6) f codeLinkLost false
  | .snpS | .snpU | .snpI | .snpNear => s.snpNone (.link 6) f
  | _ => s
/-- A write-back for the partner, which is lost, is never refused (09 R242): a home's goes to the copy in this package, or ends where there is none; a die's waits until its
filter discards the line (13 R332). -/
def State.wbGone (s : State) (f : Flit) : Option State :=
  match s.pairLost, f.req with
  | true, .home _ _ => match s.endpoint (f.line * 64) with
    | .link _ => some (s.send (f.answer (.link 6) .ack))
    | a => some (s.relay { f with dst := a })
  | _, _ => none

/-- The answer of a die to a snoop that the hub merges: its place among those due. -/
def State.pairSnoopOf (s : State) (p : Nat) (f : Flit) : Option PairSnoop :=
  match f.op, f.src with
  | .ack, .filter d => if f.comp then none else (s.link p).snoops.find? (fun q => q.flit.line == f.line && q.flit.tid == f.tid && bit q.due d)
  | _, _ => none
/-- The hub passes a snoop of the partner's home to a die snoop filter of this package (09 R250). -/
def State.hubSnoop (s : State) (p : Nat) (f : Flit) (op : Op) (req : Agent) (d : Nat) : State :=
  s.send { f with op := op, src := .link p, dst := .filter d, req := req, cls := 4 }
/-- A merged answer goes on: of an SNP_I to its requester, any other to the partner's home (09 R243, R250). -/
def State.pairAnswer (s : State) (p : Nat) (q : PairSnoop) : State :=
  let f := q.flit
  let g := { Flit.blank .ack (.link p) f.req with
    cls := 4, thr := f.thr, tid := f.tid, line := f.line, noCopy := !q.found, wbPending := q.wb, dirty := q.got.isSome
    data := (match q.got with | some k => k.data | none => 0), poison := (match q.got with | some k => k.poison | none => false)
    world := match q.got with | some k => k.world | none => f.world }
  match f.op, f.req with
  | .snpI, .core _ => s.send g
  | _, _ => s.inject p g (s.link p).partner
/-- A die's answer joins those of its package; with the last of them the die that supplies the line is snooped, where one is left. -/
def State.pairGather (s : State) (p : Nat) (q : PairSnoop) (f : Flit) : State :=
  let d := f.src.dieNum
  let q' := { q with due := setField q.due d d 0, found := q.found || !f.noCopy, wb := q.wb || f.wbPending
                     got := if f.dirty then some { data := f.data, poison := f.poison, world := f.world, dirty := true, wb := f.wbPending } else q.got }
  if q'.due = 0 then
    let s := s.updLink p (fun l => { l with snoops := l.snoops.filter (fun r => r != q) })
    match q.last with
    | some k => s.hubSnoop p q.flit q.flit.op q.flit.req k
    | none => s.pairAnswer p q'
  else s.updLink p (fun l => { l with snoops := l.snoops.map (fun r => if r = q then q' else r) })

/-- A flit for a link agent: an answer to a window request that it serves or to a snoop that it merges, or pair traffic; none while a forme holds the port's new frames, or a
write-back waits for the partner. -/
def State.linkTake (s : State) (p : Nat) (f : Flit) : Option State :=
  match (s.link p).serves.find? (fun e => e.tid == f.tid), s.pairSnoopOf p f with
  | some e, _ => if f.op.asks then some s else some (s.windowBack p f e)
  | none, some q => some (s.pairGather p q f)
  | none, none =>
    let q := s.pairPort f
    let sec := f.world == 0xFFF && !(s.link q).enc && f.op.asks
    if (s.link q).st ≠ .up then (if f.op == Op.wbD || f.op == Op.evictC then s.wbGone f else some (s.pairGone f))
    else if s.held 5 q then none
    else if sec then some (s.answerError (.link q) f codeUnreach false)
    else
      let s := if f.op == Op.ack && f.comp then s.waitsDone f.line else s
      some (s.inject q f (s.link q).partner)

/-- TLBI_B (06 R177, R179): at a core, at the I/O MMU, or on its way to the partner. -/
def execTlbiB (k : Nat) (s : State) : Host.Outcome State Fault Refusal :=
  s.receive k .tlbiB (fun f s =>
    match f.tlbi, f.dst with
    | some r, .core c =>
      let a := tilePort (s.tileOf c.val)
      let s := if s.portSt a = 0 || f.inside then s else s.ctlCount a 63 48
      some ((s.tlbiAt c.val r).send { Flit.blank .ack f.dst f.src with cls := 4, tid := f.tid, thr := f.thr })
    | some r, .iommu => some (s.tlbiIommu f r)
    | some _, .link p => s.linkTake p f
    | _, _ => some s)

end Sys2Proof.Machine
end

