-- ==== Sys2Proof/Machine/Interrupts.lean ====
section
/-! DEFINITION. Interrupt delivery: the local units, the hub interrupt router, GPIO sources, and SEVT (04 R116 to R127; 11 R266, R284). -/

namespace Sys2Proof.Machine

/-! Messages at a unit (04 R119, R123, R125, R126). -/

/-- The code of a discarded interrupt (19 R413). -/
def codeIntDropped : BitVec 16 := 0x0408

/-- A thread's unit accepts a message whose world agrees: pending, and a level source stays asserted (04 R126). -/
def Thread.accept (x : Thread) (m : IntMsg) (stamp : Word) : Thread :=
  let n := m.intid.val
  let x := if m.level then x.updInt n (fun i => { i with asserted := true }) else x
  if m.level && (x.int n).active then x else x.pend n stamp

/-- The messages of a batch that tiles of a die still hold are not refused again (04 R119). -/
def State.hush (s : State) (d batch : Nat) : State :=
  if batch = 0 then s
  else (List.range 36).foldl (fun s i =>
    if (s.tile (36 * d + i)).pend.any (fun m => m.batch == batch) then
      s.updTile (36 * d + i) (fun q => { q with pend := q.pend.map (fun m => if m.batch = batch then { m with quiet := true } else m) })
    else s) s
/-- A message whose world differs: a refusal for a sender, of this package or of the partner, at most one from each die; a CE record for a source of the router
(04 R119, R125). -/
def State.refuseInt (s : State) (t : Nat) (m : IntMsg) (d : Nat) (done : Bool) : State :=
  match m.sender with
  | some x =>
    if done then s
    else (s.send { Flit.blank .intDlv (.die d) (if m.away then .link 6 else .core (coreId (x.val / 2))) with
      cls := 8, msg := some { m with target := x, refusal := true, sender := none, batch := 0 } }).hush d m.batch
  | none => s.logError (.core (coreId (t / 2))) codeIntDropped 1 (if m.secure then 0xFFF else 0) none (some (thrOf t))

/-- Deliver a message to one thread; the mark says that its die has already refused it once. -/
def State.deliver (s : State) (t : Nat) (m : IntMsg) (stamp : Word) (done : Bool) : State × Bool :=
  let x := s.thr t
  if m.refusal then (s.updThr t (fun x => x.updView m.secure (fun v => { v with sendErr := true })), done)
  else if (x.int m.intid.val).world = m.secure then (s.updThr t (fun x => x.accept m stamp), done)
  else (s.refuseInt t m (dieOfThr t) done, true)

/-- A message reaches a thread of its package: held in the pending register of a tile in T3 or closed, which wakes, and of one under a CORE quiesce
(04 R123; 11 R284; 20 R437, R445). -/
def State.reachInt (s : State) (t : Nat) (m : IntMsg) (stamp : Word) (done : Bool) : State × Bool :=
  let n := s.tileOf (t / 2)
  if !s.thrPresent t then (s, done)
  else if (s.tile n).st = .t3 || s.portSt (tilePort n) ≠ 0 then
    (s.updTile n (fun q => { q with pend := q.pend ++ [{ m with target := thrOf t, stamp := stamp, quiet := m.quiet || done }], waking := true }), done)
  else if s.quiesced t then
    (s.updTile n (fun q => { q with pend := q.pend ++ [{ m with target := thrOf t, stamp := stamp, quiet := m.quiet || done }] }), done)
  else s.deliver t m stamp (m.quiet || done)

/-- The threads that a message to a die addresses: every thread, or every one but the sender (04 R119). -/
def State.dieTargets (s : State) (d mode : Nat) (m : IntMsg) : List Nat :=
  ((s.dieCores d).flatMap (fun c => [2 * c, 2 * c + 1])).filter (fun t => mode ≠ 1 || m.away || m.sender != some (thrOf t))

/-- INT_DLV (04 R119, R123, R125; 11 R284). -/
def execIntDlv (k : Nat) (s : State) : Host.Outcome State Fault Refusal :=
  s.receive k .intDlv (fun f s => match f.msg, f.dst with
    | some m, .core c =>
      let d := c.val / 32
      if s.dieAlive d then some (s.reachInt m.target.val m (s.stampAt d (s.node f.dst)) false).1
      else some (s.logError (.die d) codeIntDropped 3 (if m.secure then 0xFFF else 0) none (some m.target))
    | some m, .die d =>
      if s.dieAlive d then
        some ((s.dieTargets d f.hint m).foldl (fun p t => p.1.reachInt t m (s.stampAt d (s.node f.dst)) p.2) (s, false)).1
      else some (s.logError (.die d) codeIntDropped 3 (if m.secure then 0xFFF else 0) none none)
    | _, .link p => s.linkTake p f
    | _, _ => some s)

/-- SEVT_B (04 R127): the event flag of every thread of the die. -/
def execSevtB (k : Nat) (s : State) : Host.Outcome State Fault Refusal :=
  s.receive k .sevtB (fun f s => match f.dst with
    | .die d => some ((s.dieCores d).foldl (fun s c =>
        let n := s.tileOf c
        if (s.tile n).st = .t3 || s.portSt (tilePort n) ≠ 0 then s.updTile n (fun q => { q with sevt := true, waking := true })
        else if s.quiesced (2 * c) then s.updTile n (fun q => { q with sevt := true })
        else (s.updThr (2 * c) (fun x => { x with eventFlag := true })).updThr (2 * c + 1) (fun x => { x with eventFlag := true })) s)
    | .link p => s.linkTake p f
    | _ => some s)

/-- A level source's pending state is withdrawn at its unit (04 R126). -/
def Thread.withdraw (x : Thread) (n : Nat) : Thread :=
  if (x.int n).asserted then x.updInt n (fun i => { i with asserted := false, pending := false }) else x

/-! The hub interrupt router (04 R124 to R126). -/

/-- A source's entry. -/
def State.source (s : State) (n : Nat) : Word := Tbl.get routerReset s.sources n
/-- The world of a source, mirrored from its pin, channel or message attribute (04 R124; 14 R340; 16 R377). -/
def State.sourceSecure (s : State) (n : Nat) : Bool :=
  if n < 32 then bit (s.ctlGet (caddr 16 0x100 0x200)) n
  else if n < 96 then s.ctlGet (caddr 16 (0xC8 + (n - 32) / 16) (0x40 + (n - 32) % 16)) == 0xFFF
  else if n < 104 then bit (s.ctlGet (caddr 16 (0xC0 + (n - 96)) 0)) 60
  else if n < 128 then false
  else bit (s.ctlGet (caddr 16 0xD1 (0x300 + n / 64))) (n % 64)
/-- A source is assigned (04 R124). -/
def sourceExists (n : Nat) : Bool := decide (n < 104) || decide (128 ≤ n ∧ n < 4096)
/-- TRIG of an entry; only pins have one. -/
def State.trig (s : State) (n : Nat) : Nat := if n < 32 then fieldOf (s.source n) 61 60 else 0
/-- An assertion reaches the router: discarded where EN = 0, else waiting to be sent (04 R125). DESIGN CHOICE (log 20): EN is judged here alone, and a second assertion of a source that
still waits merges into the first. -/
def State.assertSource (s : State) (n : Nat) : State :=
  if sourceExists n && bit (s.source n) 63 && !s.srcPend.contains n then { s with srcPend := s.srcPend ++ [n] } else s

/-- A source whose world has changed while its assertion waited is not sent (04 R125). -/
def State.worldsMoved (before after : State) : State :=
  { after with srcPend := after.srcPend.filter (fun n => before.sourceSecure n == after.sourceSecure n) }

/-- ROUTER_SOURCE_ASSERT (04 R125). -/
def execRouterSourceAssert (src : Fin 4096) (s : State) : Host.Outcome State Fault Refusal := .next (s.assertSource src.val)

/-- ROUTER_SEND (04 R125): the message carries the entry as it stands now. DESIGN CHOICE (log 20): EN is judged when the assertion comes, so an entry whose EN was cleared since still sends.
Where a level source's assertion goes is kept for its withdrawal (R126). -/
def execRouterSend (src : Fin 4096) (s : State) : Host.Outcome State Fault Refusal :=
  let n := src.val
  if !s.srcPend.contains n then .next s
  else
    let w := s.source n
    let sec := s.sourceSecure n
    let s := { s with srcPend := s.srcPend.filter (fun x => x != n) }
    let t := thrOf (fieldOf w 51 42)
    let away := fieldOf w 52 52 ≠ s.pkgBit
    let drop := s.logError .router codeIntDropped 1 (if sec then 0xFFF else 0) none (some t)
    let msg : IntMsg := { intid := ⟨fieldOf w 9 0 % 1024, Nat.mod_lt _ (by decide)⟩, target := t, secure := sec, refusal := false,
                          sender := none, level := decide (s.trig n ≥ 2), stamp := s.stamp 16 }
    let s := if msg.level && !away && !s.srcSent.contains (n, t.val, fieldOf w 9 0) then { s with srcSent := s.srcSent ++ [(n, t.val, fieldOf w 9 0)] } else s
    if away then
      (if !s.paired || s.pairLost then .next drop
       else .next (s.send { Flit.blank .intDlv .router (.link 6) with cls := 8, msg := some msg }))
    else if !s.thrPresent t.val then .next drop
    else .next (s.send { Flit.blank .intDlv .router (.core (coreId (t.val / 2))) with cls := 8, msg := some msg })

/-- A pin as the router sees it (04 R126). -/
def State.gpio (s : State) (p : Nat) : Gpio := Tbl.get { sample := false, level := false } s.gpios p
/-- The pin's trigger finds its source asserted at a level. -/
def levelHit (trig : Nat) (level : Bool) : Bool := (trig == 2 && level) || (trig == 3 && !level)

/-- A unit that holds a level source's assertion loses it, there or on its way (04 R126). -/
def State.withdrawAt (s : State) (t id : Nat) : State :=
  let q := s.tileOf (t / 2)
  let s := { s with net := s.net.filter (fun f => !(f.op == Op.intDlv && f.src == Agent.router && (match f.msg with
                      | some m => m.level && m.intid.val == id && m.target.val == t
                      | none => false))) }
  (s.updThr t (fun x => x.withdraw id)).updTile q (fun q => { q with pend := q.pend.filter (fun m => !(m.level && m.intid.val == id && m.target.val == t)) })
/-- A level source's assertion ends: it is withdrawn wherever it was sent, unless another level source still asserts the same INTID there, and what waits is not sent (04 R126). -/
def State.deassert (s : State) (n : Nat) : State :=
  let mine := (s.srcSent.filter (fun q => q.1 == n)).map Prod.snd
  let rest := s.srcSent.filter (fun q => q.1 != n)
  let s := { s with srcPend := s.srcPend.filter (fun x => x != n), srcSent := rest }
  mine.foldl (fun s q => if rest.any (fun r => r.2 == q) then s else s.withdrawAt q.1 q.2) s

/-- GPIO_EDGE (04 R126): a sample of the pin; a level is seen when two consecutive samples find it. -/
def execGpioEdge (pin : Fin 32) (level : Bool) (s : State) : Host.Outcome State Fault Refusal :=
  let p := pin.val
  let g := s.gpio p
  let put := fun (s : State) (g : Gpio) => { s with gpios := Tbl.set { sample := false, level := false } s.gpios p g }
  if level ≠ g.sample then .next (put s { g with sample := level })
  else if level = g.level then .next s
  else
    let s := put s { g with level := level }
    match s.trig p with
    | 0 => .next (if level then s.assertSource p else s)
    | 1 => .next (if level then s else s.assertSource p)
    | trig => .next (if levelHit trig level then s.assertSource p else s)

/-- GPIO_LEVEL_DEASSERT (04 R126): the level seen no longer asserts its source. -/
def execGpioLevelDeassert (pin : Fin 32) (s : State) : Host.Outcome State Fault Refusal :=
  let p := pin.val
  if s.trig p ≥ 2 && !levelHit (s.trig p) (s.gpio p).level then .next (s.deassert p) else .next s

/-- Send again the assertion of every level source that is still asserted and whose target thread and INTID a condition names (04 R126). -/
def State.resend (s : State) (hit : Nat → Nat → Bool) : State :=
  (List.range 32).foldl (fun s p =>
    let w := s.source p
    if levelHit (s.trig p) (s.gpio p).level && hit (fieldOf w 51 42) (fieldOf w 9 0) then s.assertSource p else s) s

/-- The world bit of an INTID is written (04 R117, R126, R460): the timer follows, and level sources are sent again. -/
def State.setIntWorld (s : State) (t id : Nat) (sec : Bool) : State :=
  let st := s.tileStamp t
  let s := s.updThr t (fun x =>
    let x := x.updInt id (fun i => { i with world := sec })
    if id = 16 then x.timerSync st else x)
  s.resend (fun u n => u == t && n == id)

/-- INT_WORLD_BIT_WRITE (04 R117, R126): read only from the Normal world; the page of an absent thread is unbacked (01 R30). -/
def execIntWorldBitWrite (secure : Bool) (t : Thr) (intid : Fin 1024) (toSecure : Bool) (s : State) : Host.Outcome State Fault Refusal :=
  if secure && s.thrPresent t.val then .next (s.setIntWorld t.val intid.val toSecure) else .next s

end Sys2Proof.Machine
end

