-- ==== Sys2Proof/Machine/Filter.lean ====
section
/-! DEFINITION. The coherence of one die: what an L2, an L3 slice and the die snoop filter do with snoops, victims and requests (09 R232 to R238, R245, R461; 10). -/

namespace Sys2Proof.Machine

/-- The copy of an L2 line. -/
def L2Line.copy (l : L2Line) (dirty wb : Bool) : Copy := { data := l.data, poison := l.poison, world := l.world, dirty := dirty, wb := wb }
/-- The copy of an L3 line. -/
def L3Line.copy (l : L3Line) (wb : Bool) : Copy := { data := l.data, poison := l.poison, world := l.world, dirty := l.dirty, wb := wb }

/-- A write-back on its way from an agent, or held, was met by a snoop (09 R244): one that took the line makes it superseded. An L2's victim learns so at its filter;
a die's write-back, at home, by the die's answer (10 R256), and where home has closed the transaction before it arrives, by this mark (DEDUCED, log 8). -/
def State.markWb (s : State) (from_ : Agent) (line : Nat) (took : Bool) : State :=
  let mark := fun (f : Flit) =>
    if (f.op == Op.wbD || f.op == Op.evictC) && f.line == line && f.src == from_ then
      (if took then { f with superseded := true } else { f with wbPending := true })
    else f
  let inTxn := fun (x : Option Txn) => x.map (fun (x : Txn) => { x with held := x.held.map mark })
  { s with
    net := s.net.map mark
    txns := mapTbl none s.txns inTxn
    dies := match from_ with
      | .core c => Tbl.set Die.reset s.dies (c.val / 32) (let x := s.die (c.val / 32); { x with ftxn := mapTbl none x.ftxn inTxn })
      | _ => s.dies }

/-! An L2 (09 R234). -/

/-- SNP_U or SNP_I at an L2 (09 R234): the line leaves; a victim stays in its buffer, superseded. -/
def State.l2Take (s : State) (c line : Nat) : State × Option Copy :=
  let s := s.mirrorLine c line
  match (s.core c).l2Line line with
  | none => (s, none)
  | some l =>
    let drop := s.updCore c (fun k => k.setL2 line none)
    match l.st with
    | .m | .o => (drop, some (l.copy true false))
    | .e | .s => (drop, some (l.copy false false))
    | .smA true => (s.updCore c (fun k => k.setL2 line (some { l with st := .imAd, need := none, granted := false })), some (l.copy true false))
    | .viA d =>
      ((s.updCore c (fun k => k.setL2 line (some { l with st := .viA false }))).markWb (.core (coreId c)) line true, some (l.copy d true))
    | _ => (s, none)

/-- SNP_S at an L2 (09 R234). -/
def State.l2Share (s : State) (c line : Nat) : State × Option Copy :=
  match (s.core c).l2Line line with
  | none => (s, none)
  | some l =>
    let go := fun (st : L2State) => s.updCore c (fun k => k.setL2 line (some { l with st := st }))
    match l.st with
    | .m => (go .o, some (l.copy true false))
    | .e => (go .s, some (l.copy false false))
    | .o | .smA true => (s, some (l.copy true false))
    | .s => (s, some (l.copy false false))
    | .viA d => (s.markWb (.core (coreId c)) line false, some (l.copy d true))
    | _ => (s, none)

/-- SNP_S with CLEAN at an L2 (09 R234): M to E and O to S, the dirty data to the snooper. -/
def State.l2Clean (s : State) (c line : Nat) : State × Option Copy :=
  match (s.core c).l2Line line with
  | none => (s, none)
  | some l =>
    let go := fun (st : L2State) => s.updCore c (fun k => k.setL2 line (some { l with st := st }))
    match l.st with
    | .m => (go .e, some (l.copy true false))
    | .o => (go .s, some (l.copy true false))
    | .smA true => (go (.smA false), some (l.copy true false))
    | .viA true => (go (.viA false), some (l.copy true true))
    | _ => (s, none)

/-- The copy that serves: a dirty one before a clean one. -/
def Copy.better : Option Copy → Option Copy → Option Copy
  | none, b => b
  | some a, none => some a
  | some a, some b => if b.dirty && !a.dirty then some { b with wb := a.wb || b.wb } else some { a with wb := a.wb || b.wb }

/-! The die snoop filter's entries (09 R237, R461). -/

/-- The entry of a line. -/
def State.fent (s : State) (d line : Nat) : Option FilterEntry := Tbl.get none (s.die d).filter line
/-- Put an entry, or free it. -/
def State.setFent (s : State) (d line : Nat) (e : Option FilterEntry) : State :=
  s.updDie d (fun x => { x with filter := Tbl.set none x.filter line e })
/-- Change an entry. -/
def State.updFent (s : State) (d line : Nat) (f : FilterEntry → FilterEntry) : State := s.setFent d line ((s.fent d line).map f)
/-- The transaction open at a filter. -/
def State.ftxn (s : State) (d line : Nat) : Option Txn := Tbl.get none (s.die d).ftxn line
/-- Open or close a transaction at a filter. -/
def State.setFtxn (s : State) (d line : Nat) (x : Option Txn) : State :=
  s.updDie d (fun q => { q with ftxn := Tbl.set none q.ftxn line x })
/-- The L3 copy of a line, in its slice. -/
def State.l3Line (s : State) (d line : Nat) : Option L3Line := Tbl.get none (s.die d).l3 line
/-- The L3's write-back buffer. -/
def State.l3Buf (s : State) (d line : Nat) : Option L3Line := Tbl.get none (s.die d).l3wb line
/-- Put a line into an L3 slice or take it out. -/
def State.setL3 (s : State) (d line : Nat) (l : Option L3Line) : State := s.updDie d (fun x => { x with l3 := Tbl.set none x.l3 line l })
/-- Put a line into the write-back buffer or free it. -/
def State.setL3Buf (s : State) (d line : Nat) (l : Option L3Line) : State :=
  s.updDie d (fun x => { x with l3wb := Tbl.set none x.l3wb line l })
/-- A fresh entry. -/
def FilterEntry.fresh (used : Nat) : FilterEntry := { l2vec := 0, l3 := false, l3Dirty := false, dstate := .i, pending := false, used := used }
/-- The cores whose L2VEC bit is set. -/
def FilterEntry.cores (e : FilterEntry) (d : Nat) : List Nat := ((List.range 32).filter (fun i => bit e.l2vec i)).map (fun i => 32 * d + i)
/-- L2VEC with the bit of a core set or cleared. -/
def FilterEntry.withCore (e : FilterEntry) (c : Nat) (on : Bool) : FilterEntry :=
  { e with l2vec := setField e.l2vec (c % 32) (c % 32) (b2n on) }
/-- The bank and set of a line (09 R461). -/
def filterSet (line : Nat) : Nat :=
  let bank := (line % 16) ^^^ (line / 2 ^ 17 % 16) ^^^ (line / 2 ^ 33 % 16)
  let set := (line / 16 % 8192) ^^^ (line / 2 ^ 17 % 8192) ^^^ (line / 2 ^ 30 % 1024)
  bank * 8192 + set
/-- The lines whose entries share a set. -/
def State.filterLines (s : State) (d set : Nat) : List (Nat × FilterEntry) :=
  (s.die d).filter.filterMap (fun p => match p.2 with
    | some e => if filterSet p.1 = set then some (p.1, e) else none
    | none => none)
/-- The least recently used of some lines; among equals the lowest. -/
def lru {α : Type} (used : α → Nat) (l : List (Nat × α)) : Option (Nat × α) :=
  l.foldl (fun (a : Option (Nat × α)) p => match a with
    | some q => if used p.2 < used q.2 then some p else a
    | none => some p) none

/-! Snoops of a whole die, answered in one step (09 R234, R245; 10 R258; log 8). -/

/-- Fold a snoop over the L2s an entry names, leaving those in SM_A entered from S aside. -/
def State.overL2s (s : State) (cores : List Nat) (line : Nat) (one : State → Nat → Nat → State × Option Copy) : State × Option Copy :=
  cores.foldl (fun p c => let q := one p.1 c line; (q.1, Copy.better p.2 q.2)) (s, none)

/-- SNP_U or SNP_I at a die: every copy leaves, and an L2 in SM_A from S is told (10 R258). The first that the die holds is the L3 copy,
then the buffered victim. -/
def State.dieTake (s : State) (d line : Nat) : State × Option Copy :=
  match s.fent d line with
  | none => (s, none)
  | some e =>
    let fromS : Nat → Bool := fun c => (match (s.core c).l2Line line with | some l => l.st == .smA false | none => false)
    let r := s.overL2s (e.cores d) line State.l2Take
    let s := (e.cores d).foldl (fun s c =>
      if fromS c then s.send { Flit.blank .ack (.filter d) (.core (coreId c)) with cls := 4, line := line, noCopy := true } else s) r.1
    let inL3 := (s.l3Line d line).map (fun l => l.copy false)
    let s := s.setL3 d line none
    let inBuf := (s.l3Buf d line).map (fun l => l.copy true)
    let s := match s.l3Buf d line with
      | some l => (s.setL3Buf d line (some { l with dirty := false })).markWb (.filter d) line true
      | none => if e.pending then s.markWb (.filter d) line true else s
    let blank : FilterEntry := { e with l2vec := 0, l3 := false, l3Dirty := false, dstate := .i }
    let keep := e.pending || (s.l3Buf d line).isSome || (s.ftxn d line).isSome
    (s.setFent d line (if keep then some blank else none), Copy.better inL3 (Copy.better r.2 inBuf))

/-- SNP_S at a die: its copies become shared and one supplies the data; the grant falls to O where the die holds the line dirty, else S. -/
def State.dieShare (s : State) (d line : Nat) (home : Bool) : State × Option Copy :=
  match s.fent d line with
  | none => (s, none)
  | some e =>
    let r := s.overL2s (e.cores d) line State.l2Share
    let s := r.1
    let inL3 := (s.l3Line d line).map (fun l => l.copy false)
    let inBuf := (s.l3Buf d line).map (fun l => l.copy true)
    let got := Copy.better inL3 (Copy.better r.2 inBuf)
    let dirty := match got with | some c => c.dirty | none => false
    let got := match inL3, got with
      | some l, some g => some { l with dirty := g.dirty, wb := g.wb }
      | _, g => g
    let ds : DState := if dirty then .o else .s
    (if home && got.isSome then s.updFent d line (fun e => { e with dstate := ds }) else s, got)

/-- SNP_S with CLEAN at a die (09 R234, 08 R222): the dirty data goes to the snooper and the copies stay. -/
def State.dieClean (s : State) (d line : Nat) : State × Option Copy :=
  match s.fent d line with
  | none => (s, none)
  | some e =>
    let r := s.overL2s (e.cores d) line State.l2Clean
    let s := r.1
    let dirtyOf := fun (l : Option L3Line) (wb : Bool) => match l with
      | some l => if l.dirty then some (l.copy wb) else none
      | none => none
    let inL3 := dirtyOf (s.l3Line d line) false
    let inBuf := dirtyOf (s.l3Buf d line) true
    let clean := fun (l : L3Line) => { l with dirty := false }
    let s := (s.setL3 d line ((s.l3Line d line).map clean)).setL3Buf d line ((s.l3Buf d line).map clean)
    (s.updFent d line (fun e => { e with l3Dirty := false, dstate := if e.dstate = .o then .s else e.dstate }), Copy.better inL3 (Copy.better r.2 inBuf))

/-! Giving up the die's copy (09 R238; 10 R255). -/

/-- The filter sends home WB_D or EVICT_C for the die's last copy and marks its entry pending; the data waits in the buffer. -/
def State.giveUp (s : State) (d line : Nat) (c : Option Copy) (used : Nat) : State :=
  let dirty := match c with | some c => c.dirty | none => false
  let s := s.setFent d line (some { FilterEntry.fresh used with pending := true })
  let s := match c with
    | some c => s.setL3Buf d line (some { way := 0, dirty := c.dirty, world := c.world, data := c.data, poison := c.poison, used := used })
    | none => s
  let b := Flit.blank (if dirty then .wbD else .evictC) (.filter d) (s.homeOf d line)
  s.send (match c with
    | some c => { b with cls := 2, line := line, world := c.world, data := if dirty then c.data else 0, poison := dirty && c.poison }
    | none => { b with cls := 2, line := line })

/-- The filter keeps a free way in a set (09 R461): where no entry of a full set is on its way out, the least recently used one with nothing open and not pending leaves,
back-invalidating its holders. -/
def State.filterRoom (s : State) (d line : Nat) : State :=
  let same := s.filterLines d (filterSet line)
  if (same.filter (fun p => !p.2.pending)).length < 16 then s
  else match lru FilterEntry.used (same.filter (fun p => p.1 != line && (s.ftxn d p.1).isNone && !p.2.pending)) with
    | some (v, e) =>
      let r := s.dieTake d v
      if e.dstate = .i then r.1 else r.1.giveUp d v r.2 e.used
    | none => s

/-- A line is dropped from its L3 slice (09 R238): a copy that L2s still hold is written back with KEEP, or leaves silently; the last is given up. -/
def State.l3Drop (s : State) (d line : Nat) : State :=
  match s.l3Line d line, s.fent d line with
  | some l, some e =>
    let s := s.setL3 d line none
    if e.l2vec = 0 then s.giveUp d line (some (l.copy false)) e.used
    else
      let s := s.updFent d line (fun e => { e with l3 := false, l3Dirty := false })
      if l.dirty then
        (s.setL3Buf d line (some l)).send { Flit.blank .wbD (.filter d) (s.homeOf d line) with
          cls := 2, tid := 1, line := line, world := l.world, data := l.data, poison := l.poison, keep := true }
      else s
  | _, _ => s.setL3 d line none

/-- The other lines of a line's set in its slice (08 R207, R210). -/
def State.l3Set (s : State) (d line : Nat) : Tbl (Option L3Line) :=
  (s.die d).l3.filter (fun p => l3Slice p.1 == l3Slice line && p.1 % 2048 == line % 2048 && p.1 != line)
/-- The lines of the set that can leave: nothing is open or buffered for them. -/
def State.l3Can (s : State) (d line : Nat) : Tbl (Option L3Line) :=
  (s.l3Set d line).filter (fun p => (s.ftxn d p.1).isNone && (s.l3Buf d p.1).isNone)
/-- A line finds a way in its slice, free or to be freed. -/
def State.l3Room (s : State) (d line : Nat) : Bool := decide ((s.l3Set d line).length < 16) || !(s.l3Can d line).isEmpty
/-- A line that finds room enters its L3 slice (08 R207, R210): in a full set a drawn line that nothing waits for leaves. -/
def State.l3Put (s : State) (d line : Nat) (l : L3Line) : State :=
  let s := if (s.l3Set d line).length < 16 then s
    else
      let can := s.l3Can d line
      match can[s.draw can.length]? with
      | some (v, _) => s.drawn.l3Drop d v
      | none => s
  let left := s.l3Set d line
  match (List.range 16).find? (fun w => left.all (fun p => match p.2 with | some q => q.way != w | none => true)) with
  | some way => s.setL3 d line (some { l with way := way })
  | none => s

/-- The slice that a line of a die belongs to is retired and holds none (20 R442). -/
def State.sliceRetired (s : State) (d line : Nat) : Bool := bit (s.ctlGet (caddr d (0x40 + l3Slice line) 8)) 0

/-- An L2 victim lands in the L3 (09 R238): the bit of its core is cleared and the filter acknowledges. One that a snoop has met is acknowledged SUPERSEDED (10 R256), and its
data lands only where the copy was shared (09 R244). One bound for a retired slice leaves at once, as the die's last copy unless another L2 holds the line (20 R442). A line that
a set/way operation has discarded brings no data (08 R224). -/
def State.victimLands (s : State) (d c : Nat) (f : Flit) : State :=
  let line := f.line
  let ack := fun (s : State) (sup : Bool) => s.send { Flit.blank .ack (.filter d) (.core (coreId c)) with cls := 4, line := line, superseded := sup }
  match s.fent d line with
  | some e =>
    if f.superseded || !bit e.l2vec (c % 32) || e.pending then ack (s.updFent d line (fun e => e.withCore c false)) true
    else if f.discard then
      let s := s.updFent d line (fun e => e.withCore c false)
      ack (if (e.withCore c false).l2vec = 0 && !e.l3 && (s.l3Buf d line).isNone then s.giveUp d line none e.used else s) false
    else
      let old := s.l3Line d line
      let dirty := f.op == Op.wbD || (match old with | some o => o.dirty | none => false)
      let new : L3Line := { way := 0, dirty := dirty, world := f.world, data := f.data, poison := f.poison, used := (s.stamp d).toNat }
      let gone := s.sliceRetired d line
      let s := if gone then s.setL3 d line (some new) else s.l3Put d line new
      let s := s.updFent d line (fun e => { e.withCore c false with l3 := true, l3Dirty := dirty, used := (s.stamp d).toNat })
      ack (if gone then s.l3Drop d line else s) f.wbPending
  | none => ack s true
/-- An L2 victim reaches its filter: held while a transaction is open for the line and no snoop has met the victim (09 R244; 10 R256); none while its slice has no way. -/
def State.victim (s : State) (d c : Nat) (f : Flit) : Option State :=
  match s.ftxn d f.line with
  | some x =>
    if f.superseded || f.wbPending then some (s.victimLands d c f)
    else some (s.setFtxn d f.line (some { x with held := x.held ++ [f] }))
  | none => if f.superseded || f.discard || (s.l3Line d f.line).isSome || s.sliceRetired d f.line || s.l3Room d f.line then some (s.victimLands d c f) else none
/-- The core that a message of a die's own comes from. -/
def Flit.fromCore (f : Flit) : Nat := match f.src with | .core c => c.val | _ => 0
/-- The victims that a filter holds for a line and that a snoop has met land (10 R256). -/
def State.victimsAgain (s : State) (d line : Nat) : State :=
  match s.ftxn d line with
  | none => s
  | some x =>
    let met := fun (f : Flit) => f.superseded || f.wbPending
    (x.held.filter met).foldl (fun s f => s.victimLands d f.fromCore f) (s.setFtxn d line (some { x with held := x.held.filter (fun f => !met f) }))

/-! Requests at the filter (09 R238; 10 R253, R254). -/

/-- A transaction at a filter. -/
def Txn.opened (f : Flit) (slice : Nat) (served : Bool) (stamp : Word) : Txn :=
  { flit := f, slice := slice, served := served, snoop := f.op, tried := 0, due := 0, wbFrom := 0, got := none, held := [], waiting := [], compDue := true
    writes := [], answers := [], stamp := stamp }

/-- Forward a request to its home. -/
def State.filterForward (s : State) (d : Nat) (f : Flit) : State :=
  let s := s.setFtxn d f.line (some (Txn.opened f 0 false (s.stamp d)))
  s.relay { f with src := .filter d, dst := s.homeOf d f.line }

/-- The die alone holds a line it has in O (09 R238). -/
def State.soleOwner (s : State) (d line : Nat) : Bool :=
  match Tbl.get none s.dir line with
  | some e => e.presence == BitVec.ofNat 16 (2 ^ d) && !e.partner
  | none => false

/-- The L2s that an entry names, but for one, wait for the partner to acknowledge a mirror write of the line (13 R330). -/
def State.unmirrored (s : State) (d line : Nat) (but : Option Nat) : Bool :=
  match s.fent d line with
  | some e => (e.cores d).any (fun c => some c != but && (s.core c).mirrorBusy line)
  | none => false
/-- Those L2s send their mirror entries of the line. -/
def State.mirrorOutAll (s : State) (d line : Nat) : State :=
  match s.fent d line with
  | some e => (e.cores d).foldl (fun s c => s.mirrorLine c line) s
  | none => s
/-- Serve a request within the die, or forward it; none where it must wait: the line's entry is pending, its set is full, or another
request of the die for it is open. A request whose snoops meet an L2 that waits for a mirror write is open until that L2 answers (13 R330). -/
def State.filterServe (s : State) (d c : Nat) (f : Flit) : Option State :=
  let line := f.line
  let stamp := s.stamp d
  let data := fun (s : State) (op : Op) (k : Copy) =>
    s.send { f.answer (.filter d) op with world := k.world, data := k.data, poison := k.poison, wbPending := k.wb, size := 64 }
  let openHere := fun (s : State) => (s.setFtxn d line (some (Txn.opened f 0 true stamp))).victimsAgain d line
  let waits := fun (s : State) => (s.mirrorOutAll d line).setFtxn d line (some { Txn.opened f 0 true stamp with due := 1 })
  let pendingHere := match s.fent d line with | some e => e.pending | none => false
  if pendingHere || (s.l3Buf d line).isSome then none
  else match s.ftxn d line with
    | some x => if !x.served && x.flit.req = f.req then some (s.filterForward d f) else none
    | none =>
      match s.fent d line with
      | none =>
        if (s.filterLines d (filterSet line)).length ≥ 16 then none
        else some (((s.setFent d line (some (FilterEntry.fresh stamp.toNat))).filterForward d f).filterRoom d line)
      | some e =>
        let s := s.updFent d line (fun e => { e with used := stamp.toNat })
        match f.op with
        | .rdS =>
          if e.dstate = .i then some (s.filterForward d f)
          else if s.unmirrored d line none then some (waits s)
          else
            let r := s.dieShare d line false
            match r.2 with
            | some k => some (openHere (data r.1 .dataS k))
            | none => some (s.filterForward d f)
        | _ =>
          if e.dstate = .e || (e.dstate = .o && s.soleOwner d line) then
            if s.unmirrored d line (some c) then some (waits s)
            else
            let mine := f.op == Op.upg && bit e.l2vec (c % 32)
            let own := (s.core c).l2Line line
            let s0 := s.setFent d line (some (e.withCore c false))
            let r := s0.dieTake d line
            let back := r.1.setFent d line (some { (FilterEntry.fresh stamp.toNat).withCore c mine with dstate := .e })
            let back := if e.dstate = .o then
                { back with dir := Tbl.upd none back.dir line (fun x => x.map (fun x => { x with st := .exclusive })) }
              else back
            if mine then
              let dirty := (match r.2 with | some k => k.dirty | none => false) || (match own with | some l => l.dirty | none => false)
              some (openHere (back.send { f.answer (.filter d) .ack with dirty := dirty, grant := true }))
            else match r.2 with
              | some k => some (openHere (data back (if k.dirty then .dataM else .dataE) k))
              | none => some (s.filterForward d f)
          else some (s.filterForward d f)

/-- A transaction at a filter closes: the victims held for it land, and a full set makes room again (10 R256; 09 R461). -/
def State.ftxnClose (s : State) (d line : Nat) : State :=
  match s.ftxn d line with
  | none => s
  | some x => (x.held.foldl (fun s f => s.victimLands d f.fromCore f) (s.setFtxn d line none)).filterRoom d line
/-- The requester's COMP passes its filter (10 R254): the grant it reports, the requester's bit, and COMP goes on to home where home served. -/
def State.filterComp (s : State) (d c : Nat) (f : Flit) : State :=
  let line := f.line
  match s.ftxn d line with
  | none => s
  | some x =>
    let e := (s.fent d line).getD (FilterEntry.fresh (s.stamp d).toNat)
    let s :=
      if f.noCopy then
        (if e.l2vec = 0 && !e.l3 && !e.pending && (s.l3Buf d line).isNone then s.setFent d line none else s)
      else
        let ds : DState := if x.served then e.dstate else if f.hint = 1 then .s else .e
        s.setFent d line (some { e.withCore c true with dstate := ds })
    let s := s.ftxnClose d line
    if x.served then s
    else s.send { Flit.blank .ack (.filter d) (s.homeOf d line) with
      cls := 4, req := f.src, tid := f.tid, line := line, comp := true, noCopy := f.noCopy, hint := f.hint }

/-- Home's acknowledgement of what the die gave up (09 R238; 10 R255): TID 1 is a WB_D with KEEP's. -/
def State.filterAck (s : State) (d : Nat) (f : Flit) : State :=
  let line := f.line
  match s.fent d line with
  | some e =>
    if f.tid = 1 then
      (if e.pending then s
       else
        let s := s.setL3Buf d line none
        if e.l2vec = 0 && !e.l3 && (s.ftxn d line).isNone then s.setFent d line none
        else s.updFent d line (fun e => { e with dstate := if e.dstate = .o then .s else e.dstate })).filterRoom d line
    else if e.pending then ((s.setL3Buf d line none).setFent d line none).filterRoom d line
    else s
  | none => s.setL3Buf d line none

/-! Home's snoops at a die (09 R234, R245; 10 R258). -/

/-- Answer a snoop for the whole die, once every L2 that it snoops may answer (09 R234, R245): the data to the requester, and one ACK, with the data where a copy was dirty. -/
def State.dieAnswer (s : State) (d : Nat) (f : Flit) : State :=
  let line := f.line
  let mark := fun (g : Flit) (k : Option Copy) => match k with
    | some k => { g with wbPending := k.wb, dirty := k.dirty, world := k.world, data := if k.dirty then k.data else 0, poison := k.dirty && k.poison }
    | none => { g with noCopy := true }
  let toHome := fun (s : State) (k : Option Copy) => s.send { mark (f.answer (.filter d) .ack) k with dst := f.src }
  let give := fun (s : State) (op : Op) (k : Copy) => s.send { f.answer (.filter d) op with
    world := k.world, data := k.data, poison := k.poison, wbPending := k.wb, ackCnt := f.ackCnt, size := 64 }
  let go := fun (r : State × Option Copy) => (r.1.victimsAgain d line, r.2)
  match f.op with
  | .snpS | .snpNear =>
    if f.clean then
      let r := go (s.dieClean d line)
      toHome r.1 r.2
    else
      let r := go (s.dieShare d line true)
      match r.2 with
      | some k => if f.op = .snpNear then give r.1 .dataS k else toHome (give r.1 .dataS k) (some k)
      | none => toHome r.1 none
  | .snpU =>
    let r := go (s.dieTake d line)
    match r.2 with
    | some k => toHome (give r.1 (if k.dirty then .dataM else .dataE) k) (some k)
    | none => toHome r.1 none
  | _ =>
    let r := go (s.dieTake d line)
    let k := r.2.map (fun k => if f.discard && (f.fromM || k.world == f.world) then { k with dirty := false } else k)
    r.1.send (mark (f.answer (.filter d) .ack) k)
/-- A snoop reaches a die; none while a request that its filter serves itself is open (09 R233). The filter passes it on to its L2s; one that waits for the partner to
acknowledge a mirror write of the line sends what it has, and answers when that is done (13 R330). -/
def State.dieSnoop (s : State) (d : Nat) (f : Flit) : Option State :=
  let line := f.line
  if (match s.ftxn d line with | some x => x.served | none => false) then none
  else if s.unmirrored d line none then some ((s.mirrorOutAll d line).updDie d (fun x => { x with snoops := x.snoops ++ [f] }))
  else some (s.dieAnswer d f)
/-- An L2 of a die has its mirror write acknowledged: what waits at the filter for its answer goes on. -/
def State.filterGo (s : State) (d line : Nat) : State :=
  let s := match s.ftxn d line with
    | some x => if x.served && x.due != 0 then
        (match (s.setFtxn d line none).filterServe d (match x.flit.req with | .core c => c.val | _ => 0) x.flit with
         | some t => match t.ftxn d line with
           | some y => (t.setFtxn d line (some { y with held := x.held ++ y.held })).victimsAgain d line
           | none => t
         | none => s) else s
    | none => s
  (s.die d).snoops.foldl (fun s f =>
    if f.line = line && !s.unmirrored d line none then
      (s.updDie d (fun x => { x with snoops := x.snoops.filter (fun g => g != f) })).dieAnswer d f
    else s) s

end Sys2Proof.Machine
end

