-- ==== Sys2Proof/Machine/Home.lean ====
section
/-! DEFINITION. The home slices: the directory, transactions, queues and RETRY, the atomic buffer, and maintenance at home (09 R229 to R252, R462; 10 R256). -/

namespace Sys2Proof.Machine

/-! Slices (09 R247 to R249). -/

/-- The number of a home slice: 36 · die + tile. -/
def sliceNum (d t : Nat) : Nat := 36 * d + t
/-- The agent of a slice. -/
def sliceAgent (n : Nat) : Agent := .home (n / 36) (n % 36)
/-- HOME_QSTAT of a slice (09 R249). -/
def qstatAddr (n : Nat) : Nat := caddr (n / 36) (0x40 + n % 36) 0
/-- The transaction open for a line at its home. -/
def State.txn (s : State) (line : Nat) : Option Txn := Tbl.get none s.txns line
/-- Open or close a transaction. -/
def State.setTxn (s : State) (line : Nat) (x : Option Txn) : State := { s with txns := Tbl.set none s.txns line x }
/-- The home itself opened the transaction: to take back a directory entry (09 R236) or to write memory (09 R243). -/
def Txn.own (x : Txn) : Bool := x.flit.op == Op.wbD || x.flit.op == Op.evictC || x.flit.req == sliceAgent x.slice
/-- The requests in a slice's queue, those waiting included (09 R247). -/
def State.queued (s : State) (n : Nat) : List Flit :=
  s.txns.flatMap (fun p => match p.2 with
    | some x => if x.slice = n then (if x.own then x.waiting else x.flit :: x.waiting) else []
    | none => [])
/-- The write-backs in a slice's write-back buffer (09 R242): those held, and those whose write memory has not acknowledged. -/
def State.wbQueued (s : State) (n : Nat) : Nat :=
  (s.txns.map (fun p => match p.2 with
    | some x => if x.slice = n then x.held.length + (x.answers.filter (fun f => f.op == Op.ack && f.was == Op.wbD)).length else 0
    | none => 0)).sum
/-- OCCUPANCY follows the queue, and HIGH_WATER its highest value (09 R249). -/
def State.qsync (s : State) (n : Nat) : State :=
  let o := (s.queued n).length
  let a := qstatAddr n
  (s.ctlField a 7 0 o).ctlField a 15 8 (max o (fieldOf (s.ctlGet a) 15 8))

/-- The directory entry of a line (09 R235). -/
def State.dirEnt (s : State) (line : Nat) : Option DirEntry := Tbl.get none s.dir line
/-- Put a directory entry or free it. -/
def State.setDir (s : State) (line : Nat) (e : Option DirEntry) : State := { s with dir := Tbl.set none s.dir line e }
/-- The place of a requester: a die, or 16 for the partner package (09 R250). -/
def holderOf (a : Agent) : Nat := match a with | .link _ => 16 | a => a.dieNum
/-- OWNER of a requester (09 R235): a die of this package, or 16 + the die of the partner that the source node of its flit names. -/
def ownerOf (a : Agent) (far : BitVec 12) : Nat := match a with | .link _ => 16 + fieldOf far 10 6 | a => a.dieNum
/-- The place of an owner. -/
def ownerPlace (o : Nat) : Nat := min o 16
/-- An entry lists a holder. -/
def DirEntry.lists (e : DirEntry) (h : Nat) : Bool := if h = 16 then e.partner else bit e.presence h
/-- An entry with a holder added or removed. -/
def DirEntry.with_ (e : DirEntry) (h : Nat) (on : Bool) : DirEntry :=
  if h = 16 then { e with partner := on } else { e with presence := setField e.presence h h (b2n on) }
/-- The holders an entry lists. -/
def DirEntry.holders (e : DirEntry) : List Nat := (List.range 17).filter e.lists
/-- An entry that one owner has alone. -/
def DirEntry.sole (o : Nat) (used : Nat) : DirEntry :=
  { (({ st := .exclusive, presence := 0, partner := false, owner := o, used := used } : DirEntry).with_ (ownerPlace o) true) with owner := o }
/-- The agent through which a holder is snooped. -/
def holderAgent (h : Nat) : Agent := if h = 16 then .link 6 else .filter h
/-- An owner gives up its copy (09 R244): it leaves PRESENCE, and an Owned entry that its owner leaves is Shared; with no holder left it is Uncached. PARTNER stays while another die of
the partner may hold the line: it clears where the entry was the leaving die's alone (DEDUCED, log 8). -/
def State.dirLeave (s : State) (line o : Nat) : State :=
  match s.dirEnt line with
  | none => s
  | some e =>
    let e' := if o < 16 || (e.st == .exclusive && e.owner == o) then e.with_ (ownerPlace o) false else e
    if e'.holders.isEmpty then s.setDir line none
    else s.setDir line (some (if e.owner = o && e.st == .owned then { e' with st := .shared } else e'))
/-- The partner package holds no copy any more: it was snooped, or is lost. -/
def State.partnerLeave (s : State) (line : Nat) : State :=
  match s.dirEnt line with
  | none => s
  | some e =>
    let e' := e.with_ 16 false
    if e'.holders.isEmpty then s.setDir line none
    else s.setDir line (some (if e.owner ≥ 16 then { e' with st := .shared } else e'))
/-- The set of a line's directory entry (09 R235). -/
def dirSet (line : Nat) : Nat := (line % 4096) ^^^ (line / 4096 % 4096)
/-- The entries of a slice that share a line's set. -/
def State.dirLines (s : State) (n line : Nat) : List (Nat × DirEntry) :=
  s.dir.filterMap (fun p => match p.2 with
    | some e => if dirSet p.1 = dirSet line ∧ s.homeOf (n / 36) p.1 = sliceAgent n then some (p.1, e) else none
    | none => none)

/-! Writing memory and answering (09 R243, R462). -/

/-- Home writes a line to memory by a WB_D to its controller and waits for the acknowledgement (09 R243): the transaction of the line stays open until it has come; where
none is open, one for the write is. -/
def State.homeWrite (s : State) (n line : Nat) (d : LineData) (poison : Bool) (tag : Tag) : State :=
  let s := s.freshTid
  let f := { Flit.blank .wbD (sliceAgent n) (s.endpoint (line * 64)) with
    cls := 2, tid := s.nextTid, line := line, world := tag, data := d, poison := poison, mask := BitVec.allOnes 64 }
  let x := match s.txn line with
    | some x => x
    | none => { Txn.opened f n true (s.stamp (n / 36)) with compDue := false }
  (s.setTxn line (some { x with writes := x.writes ++ [(s.nextTid, s.stamp (n / 36))] })).send f
/-- An answer of home goes out once the writes of the line that its transaction waits for are acknowledged. -/
def State.homeReply (s : State) (line : Nat) (f : Flit) : State :=
  match s.txn line with
  | some x => if x.writes.isEmpty then s.send f else s.setTxn line (some { x with answers := x.answers ++ [f] })
  | none => s.send f
/-- Nothing is due to a transaction. -/
def Txn.idle (x : Txn) : Bool := x.served && !x.compDue && x.due == 0 && x.writes.isEmpty
/-- A transaction just opened closes where nothing is due to it. -/
def State.homeShut (s : State) (line : Nat) : State :=
  match s.txn line with
  | some x => if x.idle then s.setTxn line none else s
  | none => s

/-! Acting on every holder in one step: an access of an I/O agent, and the loss of an entry (16 R375; 19 R418; log 8). -/

/-- Take a line from every die that its entry lists; the partner is sent the snoop. -/
def State.takeAll (s : State) (line : Nat) : State × Option Copy :=
  match s.dirEnt line with
  | none => (s, none)
  | some e =>
    let r := e.holders.foldl (fun (p : State × Option Copy) h =>
      if h = 16 then (p.1.send { Flit.blank .snpI (s.homeOf 16 line) (.link 6) with cls := 4, line := line }, p.2)
      else let q := p.1.dieTake h line; (q.1, Copy.better p.2 q.2)) (s, none)
    (r.1.setDir line none, r.2)
/-- A filter or the home of a line has a transaction open for it. -/
def State.lineOpen (s : State) (line : Nat) : Bool := (s.txn line).isSome || (List.range 16).any (fun d => (s.ftxn d line).isSome)
/-- The other holders of the requester's die leave as its own filter grants it a line (09 R238). -/
def State.dieYield (s : State) (c line : Nat) : State :=
  let d := c / 32
  match s.fent d line with
  | none => s
  | some e =>
    let mine := bit e.l2vec (c % 32)
    let s := (s.setFent d line (some (e.withCore c false))).dieTake d line
    s.1.setFent d line (some { (e.withCore c mine) with l2vec := (({ e with l2vec := 0 } : FilterEntry).withCore c mine).l2vec, l3 := false, l3Dirty := false })

/-! The atomic buffer (09 R251, R462). -/

/-- The buffered line. -/
def State.atom (s : State) (line : Nat) : Option AtomLine := Tbl.get none s.atoms line
/-- Put a line into the atomic buffer or free it. -/
def State.setAtom (s : State) (line : Nat) (a : Option AtomLine) : State := { s with atoms := Tbl.set none s.atoms line a }
/-- The lines a slice buffers. -/
def State.atomLines (s : State) (n : Nat) : List (Nat × AtomLine) :=
  s.atoms.filterMap (fun p => match p.2 with
    | some a => if s.homeOf (n / 36) p.1 = sliceAgent n then some (p.1, a) else none
    | none => none)
/-- The lines that a slice buffers, or is about to buffer for an atomic under way. -/
def State.atomLoad (s : State) (n : Nat) : Nat :=
  (s.atomLines n).length + (s.txns.filter (fun p => match p.2 with
    | some x => x.slice == n && x.served && x.flit.op == Op.atomH && (s.atom p.1).isNone
    | none => false)).length
/-- Room in the buffer of 64 lines (09 R251): the least recently used one with no transaction open leaves for memory; none where each has one. -/
def State.atomRoom (s : State) (n : Nat) : Option State :=
  if s.atomLoad n < 64 then some s
  else match lru AtomLine.used ((s.atomLines n).filter (fun p => (s.txn p.1).isNone)) with
    | some (v, x) => some ((s.homeWrite n v x.data x.poison x.world).setAtom v none)
    | none => none

/-- An ATOM_H is performed on the buffered line (09 R251, R252); in a MIRRORED pair the result is written to memory before it is answered (13 R330). -/
def State.atomOn (s : State) (n : Nat) (f : Flit) (a : AtomLine) : State :=
  let a := { a with used := (s.stamp (n / 36)).toNat }
  let off := maskOff f.mask
  let old := if f.func = .read then 0 else lineVal a.data off f.size
  let b := if f.func == AmoOp.write then
      (if f.mask = BitVec.allOnes 64 then { a with data := f.data, poison := f.poison }
       else if a.poison || f.poison then { a with poison := true }
       else { a with data := mergeLine a.data f.data f.mask })
    else if a.poison then a else match f.func with
    | .read | .write => a
    | op => match amoNew op f.size old f.opA f.opB with
      | some v => { a with data := mergeLine a.data (placeVal v off) (byteMask off f.size) }
      | none => a
  let s := s.setAtom f.line (some b)
  let s := if s.mirrored && f.func != AmoOp.read && !b.poison then s.homeWrite n f.line b.data b.poison b.world else s
  s.homeReply f.line { f.answer (sliceAgent n) .dataS with
    world := a.world, poison := a.poison
    data := if f.func = .read then a.data else placeVal (extend true f.size old) 0 }
/-- No die holds the line of an atomic dirty: home reads it from memory (09 R251). -/
def State.atomRead (s : State) (n : Nat) (f : Flit) : State :=
  let s := s.freshTid
  let here := sliceAgent n
  let s := match s.txn f.line with | some x => s.setTxn f.line (some { x with compDue := true, stamp := s.stamp (n / 36) }) | none => s
  s.send { f with op := .rdNc, src := here, dst := s.endpoint (f.line * 64), req := here, tid := s.nextTid, cls := 1, mask := byteMask 0 64, size := 64, func := .read, acc := .nc, hint := 0 }

/-! Snoops (09 R243, R246). -/

/-- Snoop a holder for the requester. -/
def State.homeSnoop (s : State) (n : Nat) (f : Flit) (op : Op) (h acks : Nat) : State :=
  s.send { Flit.blank op (sliceAgent n) (holderAgent h) with
    cls := 4, req := f.req, thr := f.thr, tid := f.tid, line := f.line, world := f.world, ackCnt := acks, fromM := f.fromM, far := f.far }
/-- Snoop holders for home itself: the transaction of the line waits for the answer of each. -/
def State.homeTakes (s : State) (n : Nat) (f : Flit) (op : Op) (hs : List Nat) : State :=
  let due := BitVec.ofNat 17 ((hs.map (fun h => 2 ^ h)).sum)
  let s := match s.txn f.line with
    | some x => s.setTxn f.line (some { x with snoop := op, tried := due, due := due })
    | none => s
  hs.foldl (fun s h => s.send { Flit.blank op (sliceAgent n) (holderAgent h) with
    cls := 4, line := f.line, world := f.world, fromM := f.fromM, clean := op == Op.snpS, discard := f.discard }) s

/-! Maintenance at home, and taking back directory entries (09 R236, R243; 08 R222, R223). -/

/-- The end of a CMO_P, or of home's own eviction, which DIR_EVICT counts (09 R249). -/
def State.cmoEnd (s : State) (n : Nat) (f : Flit) : State :=
  if f.req = sliceAgent n then s.ctlCount (qstatAddr n) 31 16 else s.homeReply f.line (f.answer (sliceAgent n) .ack)
/-- CMO_P at home (09 R243; 08 R222, R223), its transaction open: hint 0 CLEAN, 1 INVAL, 2 CLEAN_INVAL. A discard spares data of another world than the issuer's. -/
def State.cmoHome (s : State) (n : Nat) (f : Flit) : State :=
  let line := f.line
  let may := fun (w : Tag) => f.discard && (f.fromM || w == f.world)
  if f.hint = 0 then
    let s := match s.atom line with
      | some a => s.homeWrite n line a.data a.poison a.world
      | none => s
    match s.dirEnt line with
    | some e => if e.st == .owned || e.st == .exclusive then s.homeTakes n f .snpS [ownerPlace e.owner] else s.cmoEnd n f
    | none => s.cmoEnd n f
  else
    let s := match s.atom line with
      | some a => (if may a.world then s else s.homeWrite n line a.data a.poison a.world).setAtom line none
      | none => s
    match s.dirEnt line with
    | some e => s.homeTakes n f .snpI e.holders
    | none => s.cmoEnd n f
/-- Every die has answered the snoops of an atomic or of maintenance (09 R243, R251): dirty data that came is written to memory, or performed on. -/
def State.homeGathered (s : State) (n line : Nat) : State :=
  match s.txn line with
  | none => s
  | some x =>
    if x.flit.op = .atomH then
      let s := s.setDir line none
      match x.got with
      | some k => s.atomOn n x.flit { world := k.world, data := k.data, poison := k.poison, used := 0 }
      | none => s.atomRead n x.flit
    else
      let s := match x.got with
        | some k => s.homeWrite n line k.data k.poison k.world
        | none => s
      let s := if x.flit.hint = 0 then s.setDir line ((s.dirEnt line).map (fun e => { e with st := if e.st = .owned then .shared else e.st }))
        else s.setDir line none
      s.cmoEnd n x.flit
/-- The home keeps a free way in a directory set (09 R236): where none is on its way out, it takes back the least recently used line with no transaction open. -/
def State.dirRoom (s : State) (n line : Nat) : State :=
  let same := s.dirLines n line
  let going := fun (p : Nat × DirEntry) => match s.txn p.1 with | some x => x.own && x.flit.op == Op.cmoP | none => false
  if (same.filter (fun p => !going p)).length < 16 then s
  else match lru DirEntry.used (same.filter (fun p => p.1 != line && (s.txn p.1).isNone)) with
    | some (v, e) =>
      let f := { Flit.blank .cmoP (sliceAgent n) (sliceAgent n) with line := v, hint := 2, acc := .dma }
      (s.setTxn v (some { Txn.opened f n true (s.stamp (n / 36)) with compDue := false })).homeTakes n f .snpI e.holders
    | none => s
/-- A line without an entry whose directory set has no free way (09 R236). -/
def State.dirFull (s : State) (n line : Nat) : Bool := (s.dirEnt line).isNone && decide ((s.dirLines n line).length ≥ 16)

/-! Reads and ownership at home (09 R243, R246). -/

/-- The hops of HOME_HOP from one die to another (09 R246). -/
def State.hops (s : State) (n from_ to_ : Nat) : Nat := fieldOf (s.ctlGet (caddr (n / 36) 0xC8 (0x2000 + from_))) (4 * to_ + 3) (4 * to_)
/-- The nearest of some holders to a requester: this package's dies first, fewest hops, then the lower number; 15 hops exclude a die. -/
def State.nearest (s : State) (n req : Nat) (hs : List Nat) : Option Nat :=
  let from_ := if req < 16 then req else n / 36
  let dies := hs.filter (fun h => h < 16 && decide (s.hops n from_ h < 15))
  match (dies.foldl (fun (a : Option Nat) h => match a with
    | some b => if s.hops n from_ h < s.hops n from_ b then some h else a
    | none => some h) none) with
  | some d => some d
  | none => if hs.contains 16 then some 16 else none

/-- Read memory for a requester: the controller answers it directly (09 R243). -/
def State.homeRead (s : State) (n : Nat) (f : Flit) (acks : Nat) : State :=
  let others := match s.dirEnt f.line with | some e => e.st == .shared || e.st == .owned | none => false
  s.send { f with clean := others, op := if f.op = .upg then .rdU else f.op, src := sliceAgent n, dst := s.endpoint (f.line * 64), fwd := true, ackCnt := acks }
/-- ATOM_H at home (09 R251), none open for its line: the buffered line serves it; else every holder gives the line up, or memory is read. None where the buffer has no room. -/
def State.atomHome (s : State) (n : Nat) (f : Flit) : Option State :=
  let line := f.line
  let pa := line * 64
  let x := { Txn.opened f n true (s.stamp (n / 36)) with compDue := false }
  let bad : Bool := match s.copyWorld line with | some w => w != f.world && !f.fromM | none => false
  if bad then some (s.answerError (sliceAgent n) f codeWorldMismatch false)
  else match s.atom line with
    | some a => some (((s.setTxn line (some x)).atomOn n f a).homeShut line)
    | none =>
      if (s.copyWorld line).isNone && !s.guardOk pa f.world true (f.func != .read) then some (s.answerError (.mem (s.chanOf pa)) f codeGrdRefused true)
      else (s.atomRoom n).map (fun s =>
        let s := s.setTxn line (some x)
        match s.dirEnt line with
        | some e => s.homeTakes n f .snpI e.holders
        | none => s.atomRead n f)

/-- A request that only the home's resources hold back can be served: a directory way, or room in the atomic buffer. -/
def State.canServe (s : State) (n : Nat) (f : Flit) : Bool :=
  match f.op with
  | .atomH => (s.atom f.line).isSome || (s.atomRoom n).isSome
  | .cmoP => true
  | _ => !s.dirFull n f.line
/-- Serve a request for a line with no transaction open (09 R243). One for which there is no directory way (09 R236) or no room in the atomic buffer waits in the queue, not yet
served. -/
def State.homeServe (s : State) (n : Nat) (f : Flit) : State :=
  let line := f.line
  let stamp := s.stamp (n / 36)
  let req := holderOf f.req
  let own := ownerOf f.req f.far
  let x := Txn.opened f n true stamp
  let opens := fun (s : State) (snoop : Op) (h : Option Nat) (acks : Nat) => s.setTxn line (some { x with
    flit := { f with ackCnt := acks }, snoop := snoop, tried := match h with | some h => BitVec.ofNat 17 (2 ^ h) | none => 0
    due := match h with | some h => BitVec.ofNat 17 (2 ^ h) | none => 0 })
  let opened := fun (s : State) (snoop : Op) (h : Option Nat) => opens s snoop h 0
  let sole := fun (s : State) => (s.setDir line (some (DirEntry.sole own stamp.toNat))).dirRoom n line
  let yield := fun (s : State) => match f.req with | .core c => s.dieYield c.val line | _ => s
  let later := fun (s : State) => s.setTxn line (some (Txn.opened f n false stamp))
  match f.op with
  | .atomH => (s.atomHome n f).getD (later s)
  | .cmoP => ((s.setTxn line (some { x with compDue := false })).cmoHome n f).homeShut line
  | .rdS | .rdU | .upg =>
    if s.dirFull n line then (later s).dirRoom n line
    else match s.atom line with
    | some a =>
      ((opened (sole s) f.op none).homeWrite n line a.data a.poison a.world).send
        { f.answer (sliceAgent n) .dataE with world := a.world, data := a.data, poison := a.poison }
    | none =>
      match s.dirEnt line with
      | none => (opened (sole s) f.op none).homeRead n f 0
      | some e =>
        let e := { e with used := stamp.toNat }
        let keeper := ownerPlace e.owner
        if f.op = .rdS then
          match e.st with
          | .shared =>
            let s := s.setDir line (some (e.with_ req true))
            match s.nearest n req (e.holders.filter (fun h => h != req)) with
            | some h => (opened s .snpNear (some h)).homeSnoop n f .snpNear h 0
            | none => (opened s .snpNear none).homeRead n f 0
          | .owned => (opened (s.setDir line (some (e.with_ req true))) .snpS (some keeper)).homeSnoop n f .snpS keeper 0
          | _ => (opened s .snpS (some keeper)).homeSnoop n f .snpS keeper 0
        else
          let listed := if req = 16 then e.owner == own else e.lists req
          let others := e.holders.filter (fun h => h != req || h == 16)
          let invs := fun (s : State) (hs : List Nat) => hs.foldl (fun s h => s.homeSnoop n f .snpI h 0) s
          if f.op = .upg && listed && (e.st = .shared || e.st = .owned) then
            if e.st = .shared || e.owner = own then
              let s := yield (opened (sole s) .snpI none)
              (invs s others).send { f.answer (sliceAgent n) .ack with dirty := e.st = .owned, ackCnt := others.length, grant := true }
            else
              let rest := others.filter (fun h => h != keeper)
              (invs (yield (opens (sole s) .snpU (some keeper) rest.length)) rest).homeSnoop n f .snpU keeper rest.length
          else
            match (if e.st = .shared then s.nearest n req e.holders else some keeper) with
            | some h =>
              let rest := others.filter (fun o => o != h)
              (invs ((if h = req then id else yield) (opens (sole s) .snpU (some h) rest.length)) rest).homeSnoop n f .snpU h rest.length
            | none => (invs (yield (opened (sole s) .snpU none)) others).homeRead n f others.length
  | _ => s

/-- Serve requests that waited for a line in turn, until one opens a transaction; the rest wait behind it (09 R247). -/
def State.homeDrain (n : Nat) : List Flit → State → State
  | [], s => s
  | f :: r, s =>
    let s := s.homeServe n f
    match s.txn f.line with
    | some x => s.setTxn f.line (some { x with waiting := x.waiting ++ r })
    | none => homeDrain n r s

/-- Requests that waited for a way of their directory set, or for room in the atomic buffer, are served once there is one, the oldest first (09 R236). -/
def State.roomAgain (s : State) (n : Nat) : State :=
  let stuck := s.txns.filterMap (fun p => match p.2 with
    | some x => if x.slice = n && !x.served then some (p.1, x.stamp.toNat) else none
    | none => none)
  let sorted := stuck.foldl (fun (l : List (Nat × Nat)) p => l.takeWhile (fun q => q.2 ≤ p.2) ++ [p] ++ l.dropWhile (fun q => q.2 ≤ p.2)) []
  sorted.foldl (fun s p =>
    match s.txn p.1 with
    | some x =>
      if !x.writes.isEmpty then s
      else if s.canServe n x.flit then State.homeDrain n (x.flit :: x.waiting) (s.setTxn p.1 none)
      else s.dirRoom n p.1
    | none => s) s

/-! Arrival at a slice (09 R230, R231, R247, R248). -/

/-- Refuse a request (09 R240). -/
def State.retryTo (s : State) (n : Nat) (f : Flit) (moved promoted : Bool) (hint : Nat) : State :=
  (s.ctlCount (qstatAddr n) 63 48).send (f.turnedAway (sliceAgent n) moved promoted hint)

/-- Accept a request into the queue: served, or behind the transaction open for its line. -/
def State.homeAccept (s : State) (n : Nat) (f : Flit) : State :=
  let s := match s.txn f.line with
    | some x => s.setTxn f.line (some { x with waiting := x.waiting ++ [f] })
    | none => s.homeServe n f
  s.qsync n

/-- The next starved node that a freed reserved entry is offered to (09 R248): after the last one served, in node-ID order with wrap, among those without an offer. -/
def Slice.nextStarved (x : Slice) : Option Nat :=
  let waiting := x.starved.filter (fun b => x.offers.all (fun o => o.1 != b))
  match waiting.filter (fun b => b > x.lastServed) with
  | [] => lowest waiting
  | l => lowest l
where
  /-- The least of a list. -/
  lowest (l : List Nat) : Option Nat := l.foldl (fun (a : Option Nat) b => match a with | some c => some (min b c) | none => some b) none

/-- Reserved entries that no request takes and none is offered. -/
def State.spare (s : State) (n : Nat) : Nat := 4 - ((s.queued n).filter (fun f => f.promoted)).length - (s.slice n).offers.length
/-- Each reserved entry that is free is offered to a starved node for 256 ns (09 R248). -/
def State.offer (s : State) (n : Nat) : State :=
  (List.range (s.spare n)).foldl (fun s _ => match (s.slice n).nextStarved with
    | some b => s.updSlice n (fun x => { x with offers := x.offers ++ [(b, s.stamp (n / 36) + 1024)] })
    | none => s) s

/-- The source node of a request (09 R247, R248): of the partner's, as the frame named it. -/
def State.askNode (s : State) (f : Flit) : Nat :=
  match f.req with
  | .link _ => f.far.toNat
  | a => (s.node a).toNat
/-- A message for a slice that its arrival order covers (09 R247). -/
def Flit.queues (f : Flit) : Bool :=
  match f.op with
  | .rdS | .rdU | .upg | .atomH | .cmoP | .wbD | .evictC => true
  | _ => false
/-- One message reached a slice before another (09 R247): by the cycle of its arrival, then its header stamp, then its source node. -/
def State.before (s : State) (g f : Flit) : Bool :=
  decide (g.came < f.came) || (g.came == f.came &&
    (decide (g.stamp.toNat < f.stamp.toNat) || (g.stamp == f.stamp && decide (s.askNode g < s.askNode f))))
/-- No message that stands at the slice came before this one (09 R247): none for its line, and no request where it is a request. -/
def State.inOrder (s : State) (f : Flit) : Bool :=
  let wb := fun (g : Flit) => g.op == Op.wbD || g.op == Op.evictC
  s.net.all (fun g => !(g.dst == f.dst && g.queues && g.hop == s.goal g && (g.line == f.line || (!wb g && !wb f)) && s.before g f))
/-- A request reaches a home slice (09 R230, R231, R248). -/
def State.homeRequest (s : State) (n : Nat) (f : Flit) : State :=
  let d := n / 36
  let w := s.homeMap d (bucketOf f.line)
  if !hasHome f.line || (f.op ≠ .cmoP && !s.backed (f.line * 64)) then s.answerError (sliceAgent n) f codeNoTarget false
  else if bit w 22 || s.held 2 (bucketOf f.line) then s.retryTo n f true false 4
  else if s.homeOf d f.line ≠ sliceAgent n then s.retryTo n f true false 0
  else
    let q := s.queued n
    let inRes := (q.filter (fun g => g.promoted)).length
    let me := s.askNode f
    let offered := f.rcnt ≥ 8 && (s.slice n).offers.any (fun o => o.1 == me)
    let reserve := fun (s : State) => ((s.ctlCount (qstatAddr n) 47 32).homeAccept n { f with promoted := true })
    if offered then
      reserve (s.updSlice n (fun x => { x with
        starved := x.starved.filter (fun b => b != me), offers := x.offers.filter (fun o => o.1 != me), lastServed := me }))
    else if q.length - inRes < 92 then s.homeAccept n { f with promoted := false }
    else if f.rcnt ≥ 8 then
      if s.spare n > 0 then reserve (s.updSlice n (fun x => { x with starved := x.starved.filter (fun b => b != me) }))
      else (s.updSlice n (fun x => { x with starved := if x.starved.contains me then x.starved else me :: x.starved })).retryTo n f false true 0
    else s.retryTo n f false false (min (q.length - 80) 15)

/-- A PREF hint 2 at home: the line is brought into an L3 slice of the home's die where no die holds it dirty (03 R81; 08 R210). -/
def State.homePrefetch (s : State) (n : Nat) (f : Flit) : State :=
  let d := n / 36
  let line := f.line
  let pa := line * 64
  let used := (s.stamp d).toNat
  let room := decide ((s.filterLines d (filterSet line)).length < 16)
  let put := fun (s : State) (ds : DState) =>
    let s := s.l3Put d line { way := 0, dirty := false, world := s.lineTag pa f.world, data := s.memLine line, poison := s.memPoison line, used := used }
    (s.setFent d line (some { FilterEntry.fresh used with l3 := true, dstate := ds })).filterRoom d line
  if (s.txn line).isSome || (s.atom line).isSome || (s.fent d line).isSome || s.sliceRetired d line || !room || !s.l3Room d line || s.dirFull n line || !s.backed pa || !s.guardOk pa f.world true false then s
  else match s.dirEnt line with
    | none => (put (s.setDir line (some (DirEntry.sole d used))) .e).dirRoom n line
    | some e => if e.st = .shared then put (s.setDir line (some (e.with_ d true))) .s else s

/-! Answers at home (09 R243, R244; 10 R254, R256). -/

/-- Apply a write-back or an eviction of a die at home, and acknowledge it once its data are written (09 R244): the marks say whether it is superseded, and whether it acts. -/
def State.homeApply (s : State) (n : Nat) (f : Flit) (sup acts : Bool) : State :=
  let s := if acts && f.op == Op.wbD then s.homeWrite n f.line f.data f.poison f.world else s
  let s :=
    if !acts then s
    else if f.keep then s.setDir f.line ((s.dirEnt f.line).map (fun e => if e.st = .owned ∧ ownerPlace e.owner = holderOf f.src then { e with st := .shared } else e))
    else s.dirLeave f.line (ownerOf f.src f.far)
  s.homeReply f.line { Flit.blank .ack (sliceAgent n) f.src with cls := 4, was := .wbD, tid := f.tid, line := f.line, superseded := sup }
/-- A write-back that home applies as it stands; one that a snoop took before home heard of it has nothing left to give (log 8). -/
def State.homeTakesWb (s : State) (n : Nat) (f : Flit) : State := s.homeApply n f f.superseded (!f.superseded)
/-- A write-back whose die answered a snoop of the open transaction with WB_PENDING: SUPERSEDED, its data written where that snoop was SNP_S (09 R244). -/
def State.homeSupersedes (s : State) (n : Nat) (x : Txn) (f : Flit) : State := s.homeApply n f true (x.snoop == Op.snpS)

/-- A write-back or an eviction reaches home (09 R244; 10 R256). -/
def State.homeWb (s : State) (n : Nat) (f : Flit) : State :=
  let s := match s.txn f.line with
    | none => s.homeTakesWb n f
    | some x =>
      if !x.served then s.homeTakesWb n f
      else if bit x.wbFrom (holderOf f.src) then s.homeSupersedes n x f
      else s.setTxn f.line (some { x with held := x.held ++ [f] })
  (s.roomAgain n).qsync n

/-- Write-backs held are examined again once a snoop answer has arrived (10 R256). -/
def State.heldAgain (s : State) (n line : Nat) : State :=
  match s.txn line with
  | none => s
  | some x =>
    let met := fun (f : Flit) => bit x.wbFrom (holderOf f.src)
    (x.held.filter met).foldl (fun s f => s.homeSupersedes n x f) (s.setTxn line (some { x with held := x.held.filter (fun f => !met f) }))

/-- A transaction whose answers and writes are in closes: write-backs held are applied, and the requests that waited are served (09 R243, R244, R247). -/
def State.homeClose (s : State) (n line : Nat) : State :=
  match s.txn line with
  | none => s
  | some x =>
    if !x.idle then s
    else
      let s := x.held.foldl (fun s f => s.homeTakesWb n f) (s.setTxn line none)
      let s := match s.txn line with
        | some y => s.setTxn line (some { y with waiting := y.waiting ++ x.waiting })
        | none => State.homeDrain n x.waiting s
      ((s.roomAgain n).qsync n).offer n

/-- The controller has acknowledged a write of the line (09 R243, R462): with none left the answers that waited go out, and a line that the atomic buffer has handed over is
freed. -/
def State.homeWritten (s : State) (n line tid : Nat) (x : Txn) : State :=
  let left := x.writes.filter (fun w => w.1 != tid)
  if !left.isEmpty then s.setTxn line (some { x with writes := left })
  else
    let s := (s.setTxn line (some { x with writes := [], answers := [] })).sendAll x.answers
    let s := match x.flit.op with
      | .rdS | .rdU | .upg => if x.served then s.setAtom line none else s
      | _ => s
    if x.served then s.homeClose n line else s.roomAgain n

/-- An acknowledgement comes from where home has written memory; one over a link answers the write that waited there. -/
def Flit.ofMemory (f : Flit) : Bool :=
  match f.src with
  | .mem _ | .port _ | .mmio => true
  | .link _ => f.was == Op.wbD
  | _ => false
/-- An acknowledgement at home: of a write of memory, the requester's COMP, or a die's answer to a snoop (09 R243; 10 R256). -/
def State.homeAck (s : State) (n : Nat) (f : Flit) : State :=
  let line := f.line
  match s.txn line with
  | none => s.logError (sliceAgent n) codeStray 3 f.world (some (line * 64)) f.thr
  | some x =>
    if !f.comp && x.writes.any (fun w => w.1 == f.tid) && f.ofMemory then s.homeWritten n line f.tid x
    else if !f.comp && f.ofMemory then s.logError (sliceAgent n) codeStray 3 f.world (some (line * 64)) f.thr
    else if f.comp then
      let s := (if f.noCopy then s.dirLeave line (ownerOf x.flit.req x.flit.far) else s).waitsDone line
      let due := if x.snoop = .snpNear then 0 else x.due
      (s.setTxn line (some { x with compDue := false, due := due })).homeClose n line
    else
      let h := holderOf f.src
      let req := holderOf x.flit.req
      let x' := { x with due := setField x.due h h 0, wbFrom := if f.wbPending then setField x.wbFrom h h 1 else x.wbFrom
                         got := if f.dirty then some { data := f.data, poison := f.poison, world := f.world, dirty := true, wb := f.wbPending } else x.got }
      let s := s.setTxn line (some x')
      let s :=
        if x.flit.op = .atomH || x.flit.op = .cmoP then (if x'.due = 0 then s.homeGathered n line else s)
        else if x.snoop = .snpNear then
          match s.dirEnt line with
          | some e =>
            let left := e.holders.filter (fun o => o != req && !bit x.tried o)
            match s.nearest n req left with
            | some o =>
              (s.setTxn line (some { x' with tried := setField x.tried o o 1, due := setField x'.due o o 1, stamp := s.stamp (n / 36) })).homeSnoop n x.flit .snpNear o 0
            | none => s.homeRead n x.flit 0
          | none => s.homeRead n x.flit 0
        else if x.snoop = .snpS then
          let s := match s.dirEnt line with
            | some e => s.setDir line (some { (e.with_ req true) with st := if e.st = .owned ∨ f.dirty then .owned else .shared })
            | none => s
          if f.noCopy then s.homeRead n x.flit 0 else s
        else if f.noCopy then s.homeRead n x.flit x.flit.ackCnt else s
      (s.heldAgain n line).homeClose n line

/-- Memory answers the read of an atomic's line: the operation is performed (09 R251). -/
def State.homeData (s : State) (n : Nat) (f : Flit) : State :=
  match s.txn f.line with
  | some x =>
    if x.flit.op ≠ .atomH || !x.compDue then s.logError (sliceAgent n) codeStray 3 f.world (some (f.line * 64)) f.thr
    else
      let s := s.setTxn f.line (some { x with compDue := false })
      let s := match f.err with
        | some _ => s.send { x.flit.answer (sliceAgent n) .dataS with err := f.err, refusal := f.refusal, opA := f.opA, opB := 0 }
        | none => s.atomOn n x.flit { world := f.world, data := f.data, poison := f.poison, used := 0 }
      s.homeClose n f.line
  | none => s.logError (sliceAgent n) codeStray 3 f.world (some (f.line * 64)) f.thr

end Sys2Proof.Machine
end

