-- ==== Sys2Proof/Machine/Setway.lean ====
section
/-! DEFINITION. CMO by set and way (08 R224). -/

namespace Sys2Proof.Machine

/-- The L2 entry of a set and way (08 R224): cleaned to memory, discarded, or both. The filter learns of a discard as of a victim (09 R232), without data where dirty data are
dropped (DEDUCED, log 8). None while the line waits for a mirror write (13 R330). -/
def State.setwayL2 (s : State) (t : Nat) (op : Fin 3) (set way : Nat) : Option State :=
  let c := t / 2
  match ((s.core c).l2Set set).find? (fun p => p.2.way == way) with
  | none => some s
  | some (line, l) =>
    let keep := !s.mayDiscard t || ((s.thr t).level != .m && l.world != (s.thr t).world)
    let clean := match l.st with
      | .m => (s.wbMem line l.data l.poison l.world).updCore c (fun k => k.setL2 line (some { l with st := .e }))
      | .o => (s.wbMem line l.data l.poison l.world).updCore c (fun k => k.setL2 line (some { l with st := .s }))
      | _ => s
    let dirty := l.st == .m || l.st == .o
    if dirty && (s.core c).mirrorBusy line then none
    else if op = 0 then some clean
    else if op = 1 && !keep && dirty then
      some ((s.updCore c (fun k => k.setL2 line (some { l with st := .viA false }))).send
        { Flit.blank .evictC (.core (coreId c)) (.filter (dieOfCore c)) with cls := 2, line := line, world := l.world, discard := true })
    else some (clean.l2Evict c line)

/-- The L3 entry of a set and way of the issuer's tile (08 R224), which only level M names, so that INVAL discards (R223). What leaves, leaves as any L3 line does: by WB_D or EVICT_C to
home where it was the die's last copy (09 R238). A CLEAN writes the line through home with KEEP. None while the line's filter entry is in use. -/
def State.setwayL3 (s : State) (t : Nat) (op : Fin 3) (set way : Nat) : Option State :=
  let d := dieOfThr t
  let mine := (s.die d).l3.filter (fun p => l3Slice p.1 == s.physTile (t / 2) && decide (p.1 % 2048 = set) &&
    (match p.2 with | some l => l.way == way | none => false))
  match mine.head? with
  | some (line, some l) =>
    if (s.ftxn d line).isSome || (s.l3Buf d line).isSome || (match s.fent d line with | some e => e.pending | none => true) then none
    else if op = 0 then
      if !l.dirty then some s
      else some ((((s.setL3 d line (some { l with dirty := false })).setL3Buf d line (some l)).updFent d line (fun e => { e with l3Dirty := false })).send
        { Flit.blank .wbD (.filter d) (s.homeOf d line) with cls := 2, tid := 1, line := line, world := l.world, data := l.data, poison := l.poison, keep := true })
    else if op = 1 then some ((s.setL3 d line (some { l with dirty := false })).l3Drop d line)
    else some (s.l3Drop d line)
  | _ => some s

/-- An entry of the Galley or Hellbox by number; none while its write-back finds the queue full. -/
def State.setwayGal (s : State) (t : Nat) (op : Fin 3) (hell : Bool) (way : Nat) : Option State :=
  let c := t / 2
  let k := s.core c
  match (if hell then k.hellbox else k.galley).find? (fun e => e.way == way) with
  | none => some s
  | some e =>
    let keep := !s.mayDiscard t || ((s.thr t).level != .m && e.world != (s.thr t).world)
    let blank := fun (x : GalEntry) => if x.tag = e.tag then { x with dirty := 0, wr := 0 } else x
    if op = 0 then
      (s.galPush c e).map (fun s => s.updCore c (fun k => { k with galley := k.galley.map blank, hellbox := k.hellbox.map blank }))
    else if op = 1 && !keep then some (s.updCore c (fun k => k.galRemove e.tag))
    else (s.galPush c e).map (fun s => s.updCore c (fun k => k.galRemove e.tag))

/-- An L1 without the line of a set and way. -/
def l1Drop (sets set way : Nat) (l : List L1Line) : List L1Line := l.filter (fun x => !(x.line % sets == set && x.way == way))

/-- A CMO BY_SETWAY of an operation (08 R224). -/
def setwayForm (op : Fin 3) (t : Thr) (rs1 : RegNo) (s : State) : Host.Outcome State Fault Refusal :=
  s.run t (fun s =>
    let x := s.thr t
    let w := x.readG rs1
    let level := fieldOf w 63 60
    let way := fieldOf w 21 16
    let set := fieldOf w 10 0
    if x.level = .u || (level = 3 && x.level != .m) then s.takeExc t (Exc.priv x.pc 2 0x10 (op.val * 256 + 128) .u)
    else
      let done := fun (s : State) => s.finish t x.npc id
      match level with
      | 0 => if set ≥ 128 ∨ way ≥ 8 ∨ op = 0 then done s else done (s.updCore (t / 2) (fun k => { k with l1d := l1Drop 128 set way k.l1d }))
      | 1 => if set ≥ 256 ∨ way ≥ 4 ∨ op = 0 then done s else done (s.updCore (t / 2) (fun k => { k with l1i := l1Drop 256 set way k.l1i }))
      | 2 => if set ≥ 1024 ∨ way ≥ 16 then done s else match s.setwayL2 t op set way with
        | some s => done s
        | none => s
      | 3 => if way ≥ 16 then done s else match s.setwayL3 t op set way with
        | some s => done s
        | none => s
      | 4 | 5 => if set ≠ 0 then done s else match s.setwayGal t op (level == 5) way with
        | some s => done s
        | none => s
      | _ => done s)

/-- CMO.CLEAN.SETWAY (08 R224). -/
def execCmoCleanSetway (t : Thr) (rs1 : RegNo) (s : State) : Host.Outcome State Fault Refusal := setwayForm 0 t rs1 s
/-- CMO.INVAL.SETWAY (08 R224). -/
def execCmoInvalSetway (t : Thr) (rs1 : RegNo) (s : State) : Host.Outcome State Fault Refusal := setwayForm 1 t rs1 s
/-- CMO.CLEAN_INVAL.SETWAY (08 R224). -/
def execCmoCleanInvalSetway (t : Thr) (rs1 : RegNo) (s : State) : Host.Outcome State Fault Refusal := setwayForm 2 t rs1 s

end Sys2Proof.Machine
end

