-- ==== Sys2Proof/Machine/Fills.lean ====
section
/-! DEFINITION. What a core does with the answers to its requests: fills, grants, device and atomic answers, errors, walks, and RETRY (07 R195, R204; 09 R232, R241, R248; 10 R253 to R258). -/

namespace Sys2Proof.Machine

/-- The record that a locator names, while it stands in its store (19 R410). -/
def State.recordAt (s : State) (loc : BitVec 32) : Option Record :=
  firstIn s.dies (fun k x => firstIn x.store (fun i r => match r with
    | some r => if s.locator k i r.gen = loc then some r else none
    | none => none))
/-- The stamp of the record that a locator names; of one that has left its store, the present stamp of a die. -/
def State.recordStamp (s : State) (d : Nat) (loc : BitVec 32) : Word := ((s.recordAt loc).map Record.stamp).getD (s.stamp d)
/-- The error code of the record that a locator names. -/
def State.recordCode (s : State) (loc : BitVec 32) : BitVec 16 := ((s.recordAt loc).map Record.code).getD 0

/-! The causes of an access whose line or answer is refused (01 R30; 12 R305; 14 R336, R337; 06 R165). -/

/-- KIND of the walk abort (06 R165): BUS, POISON or GUARD. -/
def Bad.walkKind : Bad → Nat
  | .mismatch => 3
  | .error code _ guard => if guard || code == codeWorldMismatch then 3 else 0
  | .poison _ => 2

/-- The cause for a fetch (04 R111, R113). -/
def Bad.fetchExc (b : Bad) (x : Thread) (pa : Nat) : Exc :=
  let vec := x.vecFetch.isSome
  match b with
  | .mismatch => Exc.region x.pc x.pc pa .fetch false vec
  | .error code loc guard =>
    if code = codeWorldMismatch then Exc.region x.pc x.pc pa .fetch false vec
    else if guard then Exc.region x.pc x.pc pa .fetch true vec
    else Exc.poison x.pc x.pc pa .fetch loc vec
  | .poison loc => Exc.poison x.pc x.pc pa .fetch loc vec
/-- The fetch of a thread fails. -/
def State.fetchFails (s : State) (t pa : Nat) (b : Bad) : State :=
  (s.updThr t (fun x => { x with fetchReq := none })).fetchFault t (b.fetchExc (s.thr t) pa)

/-- What a walk of a thread waits to read: the entry's address, whether it is nested, ST and LVL. -/
def State.walkNeeds (s : State) (t : Nat) : Option (Nat × Bool × Bool × Nat) :=
  match (s.thr t).walk with
  | some w =>
    match (s.translate t w.va w.acc (s.thr t).vecFetch.isSome).2 with
    | .need pa n st2 lvl => some (pa, n, st2, lvl)
    | _ => none
  | none => none

/-- A walk aborts (06 R165): the instruction takes 0x14; a prefetch hint is dropped. A pinned entry that the walk was to refresh stays removed (R170). -/
def State.walkAbort (s : State) (t kind : Nat) (st2 : Bool) (lvl pa : Nat) : State :=
  let x := s.thr t
  match x.walk with
  | none => s
  | some w =>
    let vec := x.vecFetch.isSome && w.acc == .fetch
    let e := Exc.walk x.pc w.va w.acc st2 lvl kind pa vec
    let mine := fun (e : TlbEntry) => e.hits x.tctx w.va (x.lookupTag w.va)
    let s := if (s.core (t / 2)).pinned.any mine then
        s.updCore (t / 2) (fun k => { k with pinned := k.pinned.filter (fun e => !mine e), tlbUnpinned := true })
      else s
    let s := s.updThr t (fun x => { x with walk := some { w with tid := 0 } })
    let hint : Bool := match x.memOp with | some m => (match m.req.kind with | .pref _ => true | _ => false) | none => false
    if w.acc = .fetch then (s.updThr t (fun x => { x with walk := none })).fetchFault t e
    else if hint then s.finish t x.npc id
    else s.raises t e

/-- Errors of retired stores that wait for a line, of a kind and tag that a condition names: each becomes pending (07 R204). -/
def Thread.storesFail (x : Thread) (line : Nat) (code : BitVec 16) (stamp : Word) (who : Bool → Tag → Bool) : Thread :=
  let mine := fun (e : StoreEntry) => e.issued && e.pa / 64 == line && who e.fromM e.world
  let gone := x.stb.filter mine
  let x := { x with stb := x.stb.filter (fun e => !mine e) }
  gone.foldl (fun x e => x.pendError { pa := BitVec.ofNat 57 e.pa, code := code, stamp := stamp }) x

/-- The code a failed store reports (07 R204). -/
def Bad.code : Bad → BitVec 16
  | .mismatch => codeWorldMismatch
  | .error code _ _ => code
  | .poison _ => 0

/-- The operation as its request is answered with a value. -/
def MemOp.answered (m : MemOp) (v : Word) : MemOp := { m with got := ((m.want).getD 0, v) :: m.got, want := none }
/-- The operation as its request brings no usable data. -/
def MemOp.refused (m : MemOp) (b : Bad) : MemOp := { m with errs := ((m.want).getD 0, b) :: m.errs, want := none }
/-- Whom the failure of a request for a line with a tag concerns (14 R336; 12 R305): a refusal of the tag, the accesses that carry it; every other error,
every access that waits for the line. -/
def Bad.concerns (b : Bad) (req : Tag) : Bool → Tag → Bool := fun _ tag =>
  match b with
  | .error code _ guard => !(guard || code == codeWorldMismatch) || tag == req
  | _ => true
/-- A core's request for a line has failed for those accesses of its threads that a condition on level M and tag names. -/
def State.lineFails (s : State) (c line : Nat) (b : Bad) (who : Bool → Tag → Bool) : State :=
  [2 * c, 2 * c + 1].foldl (fun s t =>
    let x := s.thr t
    let s := s.updThr t (fun x => x.storesFail line b.code (s.stamp (dieOfCore c)) who)
    let s := match x.memOp with
      | some m => match m.want with
        | some pa =>
          if pa / 64 = line && m.tid == 0 && who (x.level == Level.m) (x.tagAt (((m.pieceAt pa).map Piece.va).getD m.req.va)) then
            (s.updThr t (fun x => x.updMem (fun m => m.refused b))).wake t
          else s
        | none => s
      | none => s
    let s := match x.fetchReq with
      | some r => if r.tid = 0 && r.pa / 64 = line && who (x.level == Level.m) (x.tagAt x.pc) then s.fetchFails t r.pa b else s
      | none => s
    match s.walkNeeds t with
    | some (pa, _, st2, lvl) => if pa / 64 = line && who false x.walkWorld then s.walkAbort t b.walkKind st2 lvl pa else s
    | none => s) s

/-! Fills and grants of an L2 (09 R232, R241; 10 R254). -/

/-- The requester's completion notice (09 R240): kind 1 for shared data, 2 for exclusive data or a grant; a failed request says so. -/
def State.sendComp (s : State) (c line kind : Nat) (fail : Bool) : State :=
  s.send { Flit.blank .ack (.core (coreId c)) (.filter (dieOfCore c)) with cls := 4, line := line, comp := true, hint := kind, noCopy := fail }

/-- The state a line reaches once its answers are in. -/
def L2Line.final (l : L2Line) (op : Op) : L2State :=
  match l.st with
  | .isD => (match op with | .dataE => if l.granted then .m else .e | .dataM => .m | _ => .s)
  | _ => if l.granted then .m else .e

/-- A line has data or its grant: with every acknowledgement in, it is filled after the check of its tag (09 R241, 14 R336); one whose tag is another's leaves as a victim, by WB_D
where its response brought dirty data. -/
def State.l2Settle (s : State) (c line : Nat) (l : L2Line) (op : Op) (data : Bool) : State :=
  match l.need with
  | none => s.updCore c (fun k => k.setL2 line (some l))
  | some n =>
    if l.got < n then s.updCore c (fun k => k.setL2 line (some l))
    else
      let st := l.final op
      let kind := if st = .s then 1 else 2
      let bad : Bool := data && !l.fromM && l.world != l.reqWorld
      let l' := { l with st := if bad && l.granted then .m else st, need := none, got := 0, granted := false }
      let s := (s.updCore c (fun k => k.setL2 line (some l'))).sendComp c line kind false
      if bad then
        let s := s.logError (.core (coreId c)) codeWorldMismatch 3 l.reqWorld (some (line * 64)) none
        let s := s.l2Evict c line
        (s.lineFails c line .mismatch (fun m tag => !m && tag != l.world)).wakeCore c
      else s.wakeCore c

/-- Data of a coherence request reaches an L2 (09 R241); data that no request waits for is a stray (11 R284). -/
def State.l2Data (s : State) (c : Nat) (f : Flit) : State :=
  let stray := s.logError (.core (coreId c)) codeStray 3 f.world (some (f.line * 64)) f.thr
  match (s.core c).l2Line f.line with
  | some l =>
    match l.st with
    | .isD | .imAd | .smA _ =>
      if l.need.isSome then stray
      else
        s.l2Settle c f.line { l with
          st := (match l.st with | .isD => .isD | _ => .imAd), data := f.data, poison := f.poison, world := f.world
          need := some f.ackCnt, granted := f.op == Op.dataM || f.dirty } f.op true
    | _ => stray
  | none => stray

/-- An acknowledgement reaches an L2: of its victim, a grant, an invalidation, or the notice of R258, which an L2 that has left SM_A meanwhile needs no more. One that nothing waits for
is a stray (11 R280, R284). -/
def State.l2Ack (s : State) (c : Nat) (f : Flit) : State :=
  let line := f.line
  let put := fun (l : L2Line) => s.updCore c (fun k => k.setL2 line (some l))
  let notice := f.src == Agent.filter (dieOfCore c) && f.noCopy && !f.grant
  let stray := s.logError (.core (coreId c)) codeStray 3 f.world (some (line * 64)) f.thr
  match (s.core c).l2Line line with
  | none => if notice then s else stray
  | some l =>
    let own := f.src == Agent.filter (dieOfCore c)
    match l.st with
    | .viA _ => if own && !notice then (s.updCore c (fun k => k.setL2 line none)).wakeCore c else s
    | .smA o =>
      if notice then put { l with st := .imAd, need := none, granted := false }
      else if f.grant then s.l2Settle c line { l with need := some f.ackCnt, granted := f.dirty || o } .ack false
      else s.l2Settle c line { l with got := l.got + 1 } .ack false
    | .imAd => if notice then s else s.l2Settle c line { l with got := l.got + 1 } .dataM true
    | _ => if notice then s else stray

/-! Answers to an instruction, a store, the Galley and a walk. -/

/-- An outstanding operation of a thread is answered once more; the answer with nothing due ends it (07 R190). -/
def Thread.outDone (x : Thread) (tid : Nat) : Thread :=
  { x with outst := (x.outst.map (fun o => if o.tid = tid then { o with due := o.due - 1 } else o)).filter (fun o => o.due != 0) }
/-- An operation waits for the answer of a transaction. -/
def MemOp.waits (m : MemOp) (tid : Nat) : Bool := m.want.isSome && m.tid == tid && tid != 0
/-- The operation that waits for an answer: of the instruction in progress, or kept (04 R122). -/
def Thread.opFor (x : Thread) (tid : Nat) : Option MemOp :=
  match x.memOp with
  | some m => if m.waits tid then some m else (x.kept.find? (fun k => k.op.waits tid)).map KeptOp.op
  | none => (x.kept.find? (fun k => k.op.waits tid)).map KeptOp.op
/-- Change the operations that wait for an answer. -/
def Thread.opDo (x : Thread) (tid : Nat) (f : MemOp → MemOp) : Thread :=
  { x with memOp := x.memOp.map (fun m => if m.waits tid then f m else m)
           kept := x.kept.map (fun k => if k.op.waits tid then { k with op := f k.op } else k) }
/-- The transaction is that of an operation of the thread. -/
def Thread.opIs (x : Thread) (tid : Nat) : Bool := (x.opFor tid).isSome
/-- The transaction of the fetch that waits. -/
def Thread.fetchIs (x : Thread) (tid : Nat) : Bool := match x.fetchReq with | some r => r.tid == tid && tid != 0 | none => false
/-- The transaction of a read left behind. -/
def Thread.isLeft (x : Thread) (tid : Nat) : Bool := x.lefts.any (fun o => o.tid == tid)
/-- A read left behind is answered. -/
def Thread.leftDone (x : Thread) (tid : Nat) : Thread := { x with lefts := x.lefts.filter (fun o => o.tid != tid) }
/-- The transaction of the walk in progress. -/
def Thread.walkIs (x : Thread) (tid : Nat) : Bool := match x.walk with | some w => w.tid == tid && tid != 0 | none => false

/-- The value an answer carries: bytes at their offset of the line, or an old value in bytes 0 to 7 (09 R239, R252). -/
def Flit.value (f : Flit) (pa : Nat) : Word :=
  if f.func = .read then lineVal f.data (pa % 64) (min f.size 8) else lineVal f.data 0 8

/-- Why poisoned data are of no use to an operation: a DEV-S access reports the code of their record (07 R198). -/
def State.poisonOf (s : State) (m : MemOp) (line : Nat) : Bad :=
  let loc := s.poisonLoc line
  if m.xl.any (fun p => p.rank == 4) then .error (s.recordCode loc) loc false else .poison loc
/-- The answer of an operation: its value, or that its data are poisoned (07 R198, 09 R252); the instruction in progress carries on. -/
def State.opAnswer (s : State) (t : Nat) (f : Flit) : State :=
  match (s.thr t).opFor f.tid with
  | some _ =>
    (s.updThr t (fun x => x.opDo f.tid (fun m =>
      if f.poison then m.refused (s.poisonOf m f.line) else m.answered (f.value ((m.want).getD 0))))).wake t
  | none => s

/-- The line of a fetch fills the thread's buffer, or raises the cause of its poison (08 R211, 07 R198). -/
def State.fetchAnswer (s : State) (t : Nat) (f : Flit) : State :=
  match (s.thr t).fetchReq with
  | some r =>
    if f.poison then s.fetchFails t r.pa (.poison (s.poisonLoc f.line))
    else s.updThr t (fun x => { x with fetchReq := none, fetchBuf := some (f.line, r.world) })
  | none => s

/-- A line read from a target package arrives at the Galley (08 R214); none while its place waits for the write-back queue. -/
def State.galArrive (s : State) (c : Nat) (f : Flit) : Option State :=
  let clear := fun (s : State) => [2 * c, 2 * c + 1].foldl (fun s t =>
    if (s.thr t).opIs f.tid then s.updThr t (fun x => x.opDo f.tid (fun m => { m with want := none }))
    else if (s.thr t).isLeft f.tid then s.updThr t (fun x => x.leftDone f.tid) else s) s
  if (s.core c).galOff then some ((clear s).wakeCore c)
  else
    let s := s.galRecall c f.line
    let s? := match (s.core c).galEntry f.line with
      | some e => some (s.updCore c (fun k => k.setGal (e.fill f.data f.poison)))
      | none => s.galAlloc c { GalEntry.read f.line f.world f.data f.poison with aged := f.pf }
    s?.map (fun s => (clear s).wakeCore c)

/-- A walk's answer (06 R162, R164): the whole line, or the old value of a compare-and-write, whose entry leaves the walk cache. -/
def State.walkAnswer (s : State) (t : Nat) (f : Flit) : State :=
  match (s.thr t).walk with
  | some w =>
    let put := fun (w : Walk) => s.updThr t (fun x => { x with walk := some w })
    match w.upd with
    | some u =>
      let s := s.updCore (t / 2) (fun k => { k with walkCache := k.walkCache.filter (fun (e : WalkEntry) => e.pa != u.pa) })
      let put := fun (w : Walk) => s.updThr t (fun x => { x with walk := some w })
      if f.poison then
        ((put { w with upd := none, tid := 0 }).logError (.core (coreId (t / 2))) 0x0102 2 f.world (some u.pa) (some (thrOf t))).walkAbort t 2 u.st2 u.lvl u.pa
      else if f.value u.pa = u.old then
        (put { w with upd := none, tid := 0, answers := (u.pa, u.new) :: w.answers.filter (fun a => a.1 != u.pa) }).wake t
      else (put { w with upd := none, tid := 0, answers := [], line := none }).wake t
    | none => put { w with tid := 0, line := some (f.line, f.data) }
  | none => s

/-- Data of any class reaches a core; none where another row takes it or it must wait. -/
def State.coreData (s : State) (c : Nat) (f : Flit) : Option State :=
  if f.err.isSome || f.acc = .devLoad then none
  else match f.acc with
    | .coherent => some (s.l2Data c f)
    | .galRead => s.galArrive c f
    | _ =>
      let t := (f.thr.map Fin.val).getD (2 * c)
      let x := s.thr t
      if f.acc = .walk then
        (if x.walkIs f.tid then
           (if f.poison && (match x.walk with | some w => w.upd.isNone | none => false) then
              match s.walkNeeds t with
              | some (pa, _, st2, lvl) => some ((s.logError (.core (coreId c)) 0x0102 2 f.world (some pa) (some (thrOf t))).walkAbort t 2 st2 lvl pa)
              | none => some s
            else some (s.walkAnswer t f))
         else if x.isLeft f.tid then some (s.updThr t (fun x => x.leftDone f.tid))
         else some (s.logError (.core (coreId c)) codeStray 3 f.world (some (f.line * 64)) f.thr))
      else if x.opIs f.tid then some (s.opAnswer t f)
      else if x.fetchIs f.tid then some (s.fetchAnswer t f)
      else if x.isLeft f.tid then some (s.updThr t (fun x => x.leftDone f.tid))
      else if x.hasOut f.tid then some ((s.updThr t (fun x => x.outDone f.tid)).wakeCore c)
      else some (s.logError (.core (coreId c)) codeStray 3 f.world (some (f.line * 64)) f.thr)

/-- A mirror write of a core is acknowledged, or has failed: an error becomes pending for the threads whose stores it carried (07 R204), and what waited for it goes on. -/
def State.mirrorEnds (s : State) (c : Nat) (o : MirrorOut) (err : Option PendErr) : State :=
  let s := s.updCore c (fun k => { k with mirrorOut := k.mirrorOut.filter (fun q => q.tid != o.tid) })
  let one := fun (s : State) (i : Nat) => match err with
    | some e => if bit o.wr i then s.updThr (2 * c + i) (fun x => x.pendError e) else s
    | none => s
  ((one (one s 0) 1).filterGo (dieOfCore c) o.line).wakeCore c
/-- An answer that nothing of a core waits for (11 R284). -/
def State.coreStray (s : State) (c : Nat) (f : Flit) : State := s.logError (.core (coreId c)) codeStray 3 f.world (some (f.line * 64)) f.thr
/-- An acknowledgement reaches a core; none where another row takes it. -/
def State.coreAck (s : State) (c : Nat) (f : Flit) : Option State :=
  if f.err.isSome || f.acc = .devStore then none
  else if f.acc = .dma then
    match (s.core c).mirrorOut.find? (fun o => o.tid == f.tid) with
    | some o => some (s.mirrorEnds c o none)
    | none => some (s.coreStray c f)
  else if f.acc = .galWb then
    if !(s.core c).galWb.any (fun w => w.tid == f.tid) then some (s.coreStray c f)
    else
    let s := s.updCore c (fun k => { k with galWb := k.galWb.filter (fun w => w.tid != f.tid) })
    let s := (s.updThr (2 * c) (fun x => x.outDone f.tid)).updThr (2 * c + 1) (fun x => x.outDone f.tid)
    some (s.wakeCore c)
  else match f.thr with
    | some t => if (s.thr t.val).hasOut f.tid then some ((s.updThr t.val (fun x => x.outDone f.tid)).wakeCore c) else some (s.l2Ack c f)
    | none => some (s.l2Ack c f)

/-! Rows: device answers and errors. -/

/-- A posted write has been accepted: a thread that waits for its completion has the port read it back (16 R369). -/
def State.afterPosted (s : State) (t c : Nat) : State :=
  (if (s.thr t).hold == .fenceC || s.quiesced t then s.coverPosted t else s).wakeCore c

/-- DEVICE_RESPONSE (07 R195): data for the instruction, or the acknowledgement of a store. A DEV-P store to PCIe that the port has
accepted stays outstanding until a zero-length read covers it (07 R190, 16 R369). -/
def execDeviceResponse (k : Nat) (s : State) : Host.Outcome State Fault Refusal :=
  match s.net[k]? with
  | none => .next s
  | some f =>
    if f.err.isSome || !s.firstOfFlow k f then .next s
    else match f.dst, f.acc, f.op with
      | .core c, .devLoad, .dataS =>
        let t := (f.thr.map Fin.val).getD (2 * c.val)
        let s := s.taken k
        if (s.thr t).opIs f.tid then .next (s.opAnswer t f)
        else .next (s.logError (.core c) codeStray 3 f.world (some (f.line * 64)) f.thr)
      | .core c, .devStore, .ack =>
        let t := (f.thr.map Fin.val).getD (2 * c.val)
        let s := s.taken k
        let x := s.thr t
        if x.opIs f.tid then .next ((s.updThr t (fun x => x.opDo f.tid (fun m => m.answered 0))).wake t)
        else if !x.hasOut f.tid then .next (s.logError (.core c) codeStray 3 f.world (some (f.line * 64)) f.thr)
        else if f.promoted then
          .next ((s.updThr t (fun x => { x with outst := x.outst.map (fun o =>
            if o.tid = f.tid then { o with kind := .postedPcie, port := match f.src with | .port p => some ⟨p % 10, Nat.mod_lt _ (by decide)⟩ | _ => none } else o) }))
            |>.afterPosted t c.val)
        else .next ((s.updThr t (fun x => x.outDone f.tid)).wakeCore c.val)
      | _, _, _ => .next s

/-- The request that an error response answers is an instruction's, a walk's or a fill's; else it belongs to retired work. -/
def State.errsOf (s : State) (c : Nat) (f : Flit) : Bool :=
  let t := (f.thr.map Fin.val).getD (2 * c)
  f.acc == .coherent && f.op != Op.ack || f.acc == .galRead || (s.thr t).opIs f.tid || (s.thr t).walkIs f.tid || (s.thr t).fetchIs f.tid

/-- ERROR_RESPONSE (01 R30; 12 R305; 11 R280). -/
def execErrorResponse (k : Nat) (s : State) : Host.Outcome State Fault Refusal :=
  match s.net[k]? with
  | none => .next s
  | some f =>
    match f.dst, f.err with
    | .core c, some code =>
      if !s.firstOfFlow k f || !s.errsOf c.val f then .next s
      else
        let c := c.val
        let s := s.taken k
        let bad := Bad.error code (f.opA.setWidth 32) (f.refusal == some true)
        let t := (f.thr.map Fin.val).getD (2 * c)
        let x := s.thr t
        if f.acc = .coherent then
          match (s.core c).l2Line f.line with
          | some l => match l.st with
            | .isD | .imAd | .smA _ =>
              .next ((((s.updCore c (fun k => k.setL2 f.line none)).sendComp c f.line 0 true).lineFails c f.line bad (bad.concerns l.reqWorld)).wakeCore c)
            | _ => .next (s.coreStray c f)
          | none => .next (s.coreStray c f)
        else if x.walkIs f.tid then
          match s.walkNeeds t, x.walk with
          | some (pa, _, st2, lvl), _ => .next (s.walkAbort t bad.walkKind st2 lvl pa)
          | none, some w => match w.upd with
            | some u => .next (s.walkAbort t bad.walkKind u.st2 u.lvl u.pa)
            | none => .next s
          | none, none => .next s
        else if x.opIs f.tid then .next ((s.updThr t (fun x => x.opDo f.tid (fun m => m.refused bad))).wake t)
        else if x.fetchIs f.tid then .next (s.fetchFails t ((x.fetchReq.map (fun r => r.pa)).getD 0) bad)
        else if x.isLeft f.tid then .next (s.updThr t (fun x => x.leftDone f.tid))
        else .next s
    | _, _ => .next s

/-- An error of retired work becomes pending (07 R204): of a store, or of a Galley write-back for each thread whose WR bit is set. -/
def State.pendAt (s : State) (c : Nat) (f : Flit) (code : BitVec 16) : State :=
  let err : PendErr := { pa := BitVec.ofNat 57 (f.line * 64), code := code, stamp := s.recordStamp (dieOfCore c) (f.opA.setWidth 32) }
  if f.acc = .dma then
    match (s.core c).mirrorOut.find? (fun o => o.tid == f.tid) with
    | some o => s.mirrorEnds c o (some err)
    | none => s.coreStray c f
  else if f.acc = .galWb then
    if !(s.core c).galWb.any (fun w => w.tid == f.tid) then s.coreStray c f
    else
    let wr := ((s.core c).galWb.find? (fun w => w.tid == f.tid)).map (fun w => w.entry.wr)
    let s := s.updCore c (fun k => { k with galWb := k.galWb.filter (fun w => w.tid != f.tid) })
    let one := fun (s : State) (i : Nat) => s.updThr (2 * c + i) (fun x =>
      (if bit (wr.getD 0) i then x.pendError err else x).outDone f.tid)
    one (one s 0) 1
  else
    let t := (f.thr.map Fin.val).getD (2 * c)
    let x := s.thr t
    let pa := ((x.outst.find? (fun o => o.tid == f.tid)).map (fun o => o.pa)).getD (f.line * 64)
    if x.hasOut f.tid then s.updThr t (fun x => (x.outDone f.tid).pendError { err with pa := BitVec.ofNat 57 pa })
    else if x.isLeft f.tid then s.updThr t (fun x => x.leftDone f.tid) else s.coreStray c f

/-- PENDING_ERROR_ARRIVE (07 R204). -/
def execPendingErrorArrive (k : Nat) (s : State) : Host.Outcome State Fault Refusal :=
  match s.net[k]? with
  | none => .next s
  | some f =>
    match f.dst, f.err with
    | .core c, some code =>
      if !s.firstOfFlow k f || s.errsOf c.val f then .next s
      else .next (((s.taken k).pendAt c.val f code).wakeCore c.val)
    | _, _ => .next s

/-! Walks (06 R161 to R165). -/

/-- The walk takes the entry it read and goes on to what it needs next. -/
def State.walkTake (s : State) (t pa : Nat) (nested : Bool) (v : Word) : State :=
  let s := s.walkKeep t pa nested v
  let s := s.updThr t (fun x => { x with walk := x.walk.map (fun w => { w with answers := (pa, v) :: w.answers }) })
  match (s.thr t).memOp, (s.thr t).walk with
  | some _, _ => s.wake t
  | none, some w => match (s.translate t w.va w.acc false).2 with
    | .need pa _ _ _ => s.walkIssue t w.va w.acc pa
    | .upd u => s.walkUpdate t w.va w.acc u
    | _ => s
  | none, none => s

/-- WALK_READ_RESPONSE (06 R161, R162, R165). -/
def execWalkReadResponse (t : Thr) (s : State) : Host.Outcome State Fault Refusal :=
  let x := s.thr t
  match x.walk, s.walkNeeds t with
  | some w, some (pa, nested, st2, lvl) =>
    let line := pa / 64
    let c := t.val / 2
    match (s.core c).l2Line line with
    | some l =>
      if !l.readable then .next s
      else if l.world ≠ x.walkWorld then
        .next ((s.logError (.core (coreId c)) codeWorldMismatch 3 x.walkWorld (some pa) (some t)).walkAbort t 3 st2 lvl pa)
      else if l.poison then .next ((s.logError (.core (coreId c)) 0x0102 2 l.world (some pa) (some t)).walkAbort t 2 st2 lvl pa)
      else .next (s.walkTake t pa nested (lineVal l.data (pa % 64) 8))
    | none => match w.line with
      | some (n, d) => if n = line then .next (s.walkTake t pa nested (lineVal d (pa % 64) 8)) else .next (s.walkIssue t w.va w.acc pa)
      | none => .next (s.walkIssue t w.va w.acc pa)
  | _, _ => .next s

/-! The store buffer (07 R194 to R202; 08 R209, R214, R225). -/

/-- Entries that stand before one of the buffer. -/
def Thread.before (x : Thread) (n : Nat) : List StoreEntry := x.stb.take n
/-- The order of R181 to R197 lets entry n go now. -/
def Thread.mayDrain (x : Thread) (n : Nat) (e : StoreEntry) : Bool :=
  let b := x.before n
  !x.lineOut e.pa && b.all (fun q => !q.overlaps e.pa e.size && q.rank != 4 && !(e.rank ≥ 2 && q.rank ≥ 2 && (q.pa / 4096 == e.pa / 4096 || e.rank == 4))) &&
    (!e.release || (n == 0 && x.issuedDone)) && x.outst.all (fun o => o.kind != .devStrict) &&
    (e.rank != 4 || !x.devOut)
/-- Entry n leaves the buffer. -/
def Thread.unbuffer (x : Thread) (n : Nat) : Thread := { x with stb := listDrop x.stb n }

/-- Send a store to its end point; the thread's operation waits for the answer. -/
def State.drainTo (s : State) (t n : Nat) (e : StoreEntry) (acc : AccClass) (kind : OutKind) : State :=
  let s := s.freshTid
  let s := if acc == .devStore then s.pmc t 0x38 else if acc == .gw then s.pmc t 0x39 else s
  let s := s.updThr t (fun x => x.unbuffer n)
  let s := s.noteOut t kind e.pa 1
  (s.send { Flit.blank .wrNc (.core (coreId (t / 2))) (s.endpoint e.pa) with
    thr := some (thrOf t), tid := s.nextTid, line := e.pa / 64, world := e.world, size := e.size, mask := byteMask (e.pa % 64) e.size
    data := placeVal e.data (e.pa % 64), acc := acc, hint := e.rank, fromM := e.fromM }).wake t

/-- An entry whose line carries another tag is discarded as a pending error (14 R336, 07 R204). -/
def State.drainRefused (s : State) (t n : Nat) (e : StoreEntry) : State :=
  let s := s.logError (.core (coreId (t / 2))) codeWorldMismatch 3 e.world (some e.pa) (some (thrOf t))
  (s.updThr t (fun x => (x.unbuffer n).pendError { pa := BitVec.ofNat 57 e.pa, code := codeWorldMismatch, stamp := s.stamp (dieOfThr t) })).wake t

/-- A WB store is performed in the L2 once the line, and the line of its other piece, may be written (08 R209, 07 R201). -/
def State.drainWb (s : State) (t n : Nat) (e : StoreEntry) : State :=
  let c := t / 2
  let line := e.pa / 64
  let k := s.core c
  let mark := fun (s : State) => s.updThr t (fun x => { x with stb := listSet x.stb n { e with issued := true } })
  if k.l2Off then
    if s.lineAsked c line then s
    else
    let r := s.sendAtomH t e.pa .nc e.world .write e.size e.data 0
    let s := r.1.updThr t (fun x => x.unbuffer n)
    (s.noteOut t .homeStore e.pa 1).wake t
  else match k.l2Line line with
    | some l =>
      if l.writable then
        if !e.fromM && l.world ≠ e.world then s.drainRefused t n e
        else
          let mateOk : Bool := match e.mate with
            | some m => (match k.l2Line m with | some q => q.writable | none => false) || !(s.thr t).stb.any (fun q => q.mate == some line && q.pa / 64 == m)
            | none => true
          if mateOk then
            let s := s.updCore c (fun k => k.setL2 line (some { l with
              st := .m, data := mergeLine l.data (placeVal e.data (e.pa % 64)) (byteMask (e.pa % 64) e.size) }))
            let s := s.mirrorStore c t line l.world (placeVal e.data (e.pa % 64)) (byteMask (e.pa % 64) e.size)
            (s.updThr t (fun x => x.unbuffer n)).wakeCore c
          else match e.mate with
            | some m => mark (s.l2Request c t m true e.world e.fromM false)
            | none => s
      else mark (s.l2Request c t line true e.world e.fromM false)
    | none => mark (s.l2Request c t line true e.world e.fromM false)

/-- A GW store is performed in the Galley (08 R214). -/
def State.drainGw (s : State) (t n : Nat) (e : StoreEntry) : State :=
  let c := t / 2
  let line := e.pa / 64
  if (s.core c).galOff && !(s.core c).galHolds line then
    (if (s.core c).galBusy line then s else s.drainTo t n e .gw .gwuStore)
  else
    let s := s.galRecall c line
    let done := fun (s : State) => (s.updThr t (fun x => x.unbuffer n)).wakeCore c
    match (s.core c).galEntry line with
    | some g =>
      if !e.fromM && g.world ≠ e.world then s.drainRefused t n e
      else done (s.updCore c (fun k => k.setGal (g.store t (e.pa % 64) e.size e.data)))
    | none =>
      let g : GalEntry := { way := 0, tag := line, world := e.world, full := false, lock := false, dirty := 0, wr := 0, poison := false, data := 0, parity := 0, aged := false }
      match s.galAlloc c (g.store t (e.pa % 64) e.size e.data) with
      | some s => done s
      | none => s

/-- The 20 µs in which a reset of the core, of its die or of the package lets its store buffers drain are over: what is left is discarded (07 R202). -/
def State.drainOver (s : State) (t : Nat) : Bool :=
  let late := fun (d : Nat) (from_ : Word) => decide ((s.stamp d).toNat ≥ from_.toNat + usTicks 20)
  s.coreResets.any (fun q => q.1 == t / 2 && late (dieOfThr t) q.2) || (s.mc.resetting && s.mc.stage == 0xA && late 16 s.mc.stageStart)
/-- STORE_BUFFER_DRAIN (07 R194 to R202): in T1 the entries are kept. -/
def execStoreBufferDrain (t : Thr) (n : Nat) (s : State) : Host.Outcome State Fault Refusal :=
  let x := s.thr t
  match x.stb[n]? with
  | none => .next s
  | some e =>
    let tl := s.tile (s.tileOf (t.val / 2))
    if !s.thrPresent t || tl.st != .t0 || s.drainOver t then .next s
    else if !x.mayDrain n e then .next (if e.rank = 4 then s.coverPosted t else s)
    else match e.type with
      | .wb => .next (s.drainWb t n e)
      | .nc => .next (s.drainTo t n e .nc .ncStore)
      | .gw => .next (s.drainGw t n e)
      | .gwu => match s.bypass t e.pa with
        | some s => .next (s.drainTo t n e .gw (if e.rank = 4 then .devStrict else if e.rank ≥ 2 then .gwuDev else .gwuStore))
        | none => .next ((s.galFlush (t.val / 2) (e.pa / 64)).getD s)
      | _ => .next (s.drainTo t n e .devStore .devStore)

/-! Prefetching (08 R221). -/

/-- The lines ahead that a stream reaches: from a base, doubled after each further 8 confirmed accesses, up to a limit. -/
def streamAhead (gw : Bool) (count : Nat) : Nat :=
  let start := if gw then 1 else 2
  let top := if gw then 4 else 16
  min top (start * 2 ^ ((count - 2) / 8))
/-- How far ahead of its last access a stream reaches: so many lines; one whose stride is longer than a line, so many of the lines it visits (DEDUCED, log 3). -/
def Stream.reach (x : Stream) : Int :=
  let n : Int := streamAhead x.gw x.count
  if x.stride.natAbs ≥ 64 then n * x.stride else n * (if x.stride < 0 then -64 else 64)
/-- The leaf page of a stream's last access, by its translation in the L1 DTLB or the L2 TLB: its size; none where neither holds it. Untranslated addresses have
no leaf, and are held to 4 KiB (DESIGN CHOICE, log 3). -/
def State.streamPage (s : State) (t : Nat) (x : Stream) : Option Nat :=
  let y := s.thr t
  let k := s.core (t / 2)
  if !y.tctx.s1 && !y.tctx.s2 then some 12
  else ((k.dtlb ++ k.l2tlb).find? (fun e => e.hits y.tctx x.va (y.lookupTag x.va) && e.pa x.va == x.last)).map (fun e => e.bits)

/-- PREFETCH_ISSUE (08 R221): a confirmed stream of a core asks for a line ahead, within the leaf page of its trigger. -/
def execPrefetchIssue (c : CoreId) (n : Nat) (s : State) : Host.Outcome State Fault Refusal :=
  let k := s.core c.val
  match k.streams[n]? with
  | none => .next s
  | some st =>
    let t := 2 * c.val + b2n st.thr
    let next : Int := st.last + st.reach
    let pa := next.toNat
    let line := pa / 64
    let on := if st.gw then bit k.cacheCtl 5 && !k.galOff else bit k.cacheCtl 4 && !k.l2Off
    let ok : Bool := s.corePresent c.val && (s.tile (s.tileOf c.val)).st == .t0 && decide (st.count ≥ 2) && on &&
      decide (next ≥ 0) && (match s.streamPage t st with | some b => pa / 2 ^ b == st.last / 2 ^ b | none => false)
    if !ok then .next s
    else if st.gw then
      if (k.galEntry line).isSome || (k.hellEntry line).isSome || (k.galley.filter (fun e => e.lock)).length ≥ 48 then .next s
      else
        let s := s.freshTid
        .next (((s.pmc t 0x19).pmc t 0x39).send { Flit.blank .rdNc (.core c) (s.endpoint pa) with
          cls := 0, thr := some (thrOf t), tid := s.nextTid, line := line, world := st.world, size := 64, mask := byteMask 0 64, acc := .galRead, pf := true })
    else if !s.backed pa || !s.guardOk pa st.world true false || (k.l2Line line).isSome ||
        (match s.copyWorld line with | some w => w != st.world && (s.thr t).level != .m | none => false) then .next s
    else .next (s.l2Request c.val t line false st.world ((s.thr t).level == .m) true)

end Sys2Proof.Machine
end

