-- ==== Sys2Proof/Machine/Dram.lean ====
section
/-! DEFINITION. The memory controllers: check data, decoding, rebuilding, verification, probes, rank states, repair, scrub and fill (12 R286 to R302). -/

namespace Sys2Proof.Machine

/-! Check data (12 R288, R289). A beat is 40 bits: the four data bytes in [31:0], P in [35:32], X in [39:36] (log 5). -/

/-- The parity of a number's low bits. -/
def parity (n : Nat) (x : Nat) : Bool := (List.range n).foldl (fun a i => a != x.testBit i) false
/-- The lane turn T (12 R289). -/
def turn (n : Nat) : Nat := n % 8 * 2 + b2n (parity 4 n)
/-- Its inverse (12 R289). -/
def unturn (s : Nat) : Nat := b2n (parity 4 s) * 8 + s / 2 % 8
/-- The nibble of a data device in a beat's data. -/
def devNibble (w : Nat) (dev : Nat) : Nat := w / 2 ^ (4 * dev) % 16
/-- X of a beat's data (12 R288). -/
def xOf (w : Nat) : Nat :=
  (List.range 8).foldl (fun a dev => a ^^^ (if dev % 2 = 0 then devNibble w dev else turn (devNibble w dev))) 0
/-- P of a beat's data: odd parity of each byte (12 R288). -/
def pOf (w : Nat) : Nat := (List.range 4).foldl (fun a k => a + b2n (!parity 8 (w / 2 ^ (8 * k))) * 2 ^ k) 0
/-- A beat of a line as stored; the poison marker inverts P and X (12 R296). -/
def storedBeat (d : LineData) (marker : Bool) (b : Nat) : Nat :=
  let w := d.toNat / 2 ^ (32 * b) % 2 ^ 32
  let p := pOf w
  let x := xOf w
  w + (if marker then 15 - p else p) * 2 ^ 32 + (if marker then 15 - x else x) * 2 ^ 36

/-- A beat as read, with its flag vector F and syndrome S (12 R291). -/
structure Beat where
  w : Nat
  f : Nat
  s : Nat
deriving DecidableEq, Repr

/-- Read a beat with the bits that the DRAM flips. -/
def readBeat (d : LineData) (marker : Bool) (flips : List (BitVec 40)) (b : Nat) : Beat :=
  let r := storedBeat d marker b ^^^ (flips.getD b 0).toNat
  let w := r % 2 ^ 32
  { w := w, f := (r / 2 ^ 32 % 16) ^^^ pOf w, s := (r / 2 ^ 36 % 16) ^^^ xOf w }
/-- The sixteen beats of a line. -/
def readBeats (d : LineData) (marker : Bool) (flips : List (BitVec 40)) : List Beat := (List.range 16).map (readBeat d marker flips)
/-- A line from its beats' data. -/
def beatsLine (l : List Beat) : LineData := BitVec.ofNat 512 ((l.map Beat.w).foldr (fun w a => w + a * 2 ^ 32) 0)
/-- Rebuild a device from X in every beat (12 R292). -/
def rebuild (dev : Nat) (l : List Beat) : List Beat :=
  l.map (fun b =>
    let e := if dev % 2 = 0 then b.s else unturn b.s
    let w := b.w ^^^ (e * 2 ^ (4 * dev))
    let bit_ := 2 ^ (dev / 2)
    let fix := if parity 4 e then b.f ^^^ bit_ else b.f
    { w := w, f := fix, s := 0 })
/-- A candidate agrees with the flags of byte k in every beat (12 R292). -/
def consistent (dev k : Nat) (l : List Beat) : Bool :=
  l.all (fun b => parity 4 (if dev % 2 = 0 then b.s else unturn b.s) == b.f.testBit k)

/-! Decoding (12 R291). -/

/-- What a read decodes as: the row, the data and the device rebuilt. -/
structure Decoded where
  row : Nat
  data : LineData
  device : Nat
  good : Bool
deriving DecidableEq, Repr

/-- Decode a read by a rank's state: STATE and DEV of MEM_RANK_STAT. -/
def decodeLine (st dev : Nat) (l : List Beat) : Decoded :=
  let data := beatsLine l
  let fs0 := l.all (fun b => b.f == 0)
  let ss0 := l.all (fun b => b.s == 0)
  let fsF := l.all (fun b => b.f == 15)
  let ssF := l.all (fun b => b.s == 15)
  let plain := fun (row : Nat) (good : Bool) => ({ row := row, data := data, device := 0, good := good } : Decoded)
  if st ≥ 2 then plain 1 false
  else if st = 1 && dev < 8 then
    if l.all (fun b => b.f ||| 2 ^ (dev / 2) == 15) then plain 3 false
    else
      let r := rebuild dev l
      { row := 2, data := beatsLine r, device := dev, good := r.all (fun b => b.f == 0) }
  else if st = 1 && dev = 8 then
    if ssF then plain 3 false else if ss0 then plain 4 true else plain 5 false
  else if st = 1 then
    if fsF then plain 3 false else if fs0 then plain 4 true else plain 6 false
  else if fsF && ssF then plain 3 false
  else if fs0 && ss0 then plain 4 true
  else
    let k := (List.range 4).find? (fun k => !fs0 && l.all (fun b => (b.f == 0 || b.f == 2 ^ k) && (b.f == 0 || b.s != 0)))
    match k with
    | some k =>
      match consistent (2 * k) k l, consistent (2 * k + 1) k l with
      | true, false => { row := 7, data := beatsLine (rebuild (2 * k) l), device := 2 * k, good := true }
      | false, true => { row := 7, data := beatsLine (rebuild (2 * k + 1) l), device := 2 * k + 1, good := true }
      | _, _ => plain 7 false
    | none => if fs0 then plain 8 false else if ss0 then plain 9 true else plain 10 false

/-! Places in a channel (12 R287, R295). -/

/-- MEM_RAS_CTL of a channel. -/
def State.rasCtl (s : State) (ch : Nat) : Word := s.ctlGet (caddr 16 ch 0x100)
/-- The line of an address of a channel (12 R287). -/
def State.chanLine (s : State) (ch a : Nat) : Nat :=
  let n := s.trained.length
  let i := s.trained.findIdx (fun c => c == ch)
  let half := s.chanCap / 2
  let up := s.pairMode = 2 && decide (a ≥ half)
  let a := if up then a - half else a
  ((if up then 1 - s.pkgBit else s.pkgBit) * 2 ^ 44 + (a / 256 * n + i) * 256 + a % 256) / 64
/-- The rank, bank and row of an address (log 6). -/
def State.bankKey (s : State) (ch line dev : Nat) : Nat := (subOf line * 8 + s.rankOf ch line) * 1024 + Config.dramBank ch (s.chanAddr line) % 32 * 16 + dev

/-- Record an error of a memory controller about a line (12 R291; 19 R413); the rank counts corrected reads. -/
def State.memErr (s : State) (ch line code : Nat) (sev : BitVec 3) (world : Tag) : State :=
  let s := s.logError (.mem ch) (BitVec.ofNat 16 (0x500 + code)) sev world (some (line * 64)) none
  if sev = 1 && code != 0x05 && code != 0x0B then s.ctlCount (s.rankReg ch line) 31 0 else s

/-- Write a record of the Almanac (12 R302). -/
def State.almanacAdd (s : State) (kind ch line dev : Nat) : State :=
  { s with almanac := s.almanac ++ [{
      stamp := s.stamp 16, kind := BitVec.ofNat 8 kind, chan := BitVec.ofNat 8 ch
      loc := BitVec.ofNat 8 (subOf line * 128 + s.rankOf ch line % 8 * 16 + dev), bank := BitVec.ofNat 8 (Config.dramBank ch (s.chanAddr line) % 32)
      row := if kind ≥ 4 then 0 else BitVec.ofNat 32 (Config.dramRow ch (s.chanAddr line)) }] }

/-- A rank takes a device out of use; a second device fails it (12 R295). -/
def State.erase (s : State) (ch line dev : Nat) : State :=
  let a := s.rankReg ch line
  if fieldOf (s.ctlGet a) 63 62 = 0 then
    ((s.ctlField a 63 62 1).ctlField a 61 58 dev).almanacAdd 4 ch line dev |>.memErr ch line 0x0B 1 0xFFF
  else if fieldOf (s.ctlGet a) 63 62 = 1 && fieldOf (s.ctlGet a) 61 58 != dev then
    ((s.ctlField a 63 62 2).almanacAdd 5 ch line dev).memErr ch line 0x09 3 0xFFF
  else s

/-! Delivery. -/

/-- The new line of an atomic performed at memory (09 R251, R252). -/
def Flit.atomLine (f : Flit) (old : LineData) (off : Nat) : LineData :=
  match f.func with
  | .read => old
  | .write => mergeLine old (placeVal f.opA off) f.mask
  | op => match amoNew op f.size (lineVal old off f.size) f.opA f.opB with
    | some v => mergeLine old (placeVal v off) (byteMask off f.size)
    | none => old
/-- Deliver a line to its requester; a scrub has none (12 R298). A write of part of a line merges into what was read, whose poison it keeps
(12 R297), and an atomic is performed on it (09 R251, R252). -/
def State.deliverRead (s : State) (ch : Nat) (f : Flit) (data : LineData) (poison : Bool) : State :=
  if f.req = .mem ch then s
  else
    let pa := f.line * 64
    let plain := s.guardCrypt false f.line data
    match f.op with
    | .wrNc =>
      let new := mergeLine (if poison then s.memLine f.line else plain) f.data f.mask
      ((s.putLine f.line new (poison || f.poison)).mirrorWrite f.line new (poison || f.poison)).afterMirror f.line (f.answer (.mem ch) .ack)
    | .atomM =>
      let off := maskOff f.mask
      let old := placeVal (extend true f.size (lineVal plain off f.size)) 0
      if poison then s.send { f.answer (.mem ch) .dataS with poison := true }
      else
        let new := f.atomLine plain off
        ((s.putLine f.line new false).mirrorWrite f.line new false).afterMirror f.line { f.answer (.mem ch) .dataS with data := old }
    | op =>
      let b := f.answer (.mem ch) (if op = .rdNc || f.clean then .dataS else .dataE)
      s.send { b with world := s.lineTag pa f.world, data := plain, poison := poison, ackCnt := f.ackCnt, func := .read }

/-- Start a probe of a rank, unless one is younger than 1 ms (12 R291 row 9, R295). -/
def State.probeDue (s : State) (ch line : Nat) : Bool :=
  match (s.chan ch).probes.find? (fun p => p.1 == subOf line * 8 + s.rankOf ch line) with
  | some p => decide ((s.stamp 16).toNat ≥ p.2.toNat + usTicks 1000)
  | none => true
/-- The sixteen further lines of a probe (12 R295). -/
def State.probeLines (s : State) (ch line : Nat) : List Nat :=
  (List.range 16).map (fun i => s.chanLine ch ((s.chanAddr line + 128 * (i + 1)) % s.chanCap))
/-- No line of a probe lands in an ERASED or FAILED rank (12 R295). -/
def State.probeMay (s : State) (ch line : Nat) : Bool :=
  (s.probeLines ch line).all (fun l => let st := fieldOf (s.ctlGet (s.rankReg ch l)) 63 62; st != 1 && st != 2)
/-- Note a probe's start and put it in the channel's slot: phase 2 holds a line of row 8 back, phase 3 does not. -/
def State.probeStart (s : State) (ch line phase : Nat) (data : LineData) : State :=
  let key := subOf line * 8 + s.rankOf ch line
  s.updChan ch (fun c => { c with
    repair := some { line := line, device := 9, phase := phase, data := data, repaired := false }
    probes := (key, s.stamp 16) :: c.probes.filter (fun p => p.1 != key) })

/-- A read that decodes as poison is served from the mirror in a MIRRORED pair (13 R331), else delivered poisoned. -/
def State.poisonRead (s : State) (ch n : Nat) (f : Flit) : State :=
  let drop := fun (s : State) => s.updChan ch (fun c => { c with reads := listDrop c.reads n })
  let copy : Bool := match s.region (f.line * 64) with | .partner _ => true | _ => false
  if s.mirrored && (f.req == .mem ch || !copy) then
    let s := s.freshTid
    (s.updChan ch (fun c => { c with reads := listSet c.reads n { flit := f, again := 100 + s.nextTid, stamp := s.stamp 16 } })).send
      { Flit.blank .rdNc (.mem ch) (.link 6) with cls := 1, tid := s.nextTid, line := f.line, world := 0xFFF, mask := byteMask 0 64, acc := .dma }
  else (drop s).deliverRead ch f 0 true

/-- A row of R291 acts on a read of the channel. -/
def State.actRead (s : State) (ch n : Nat) (r : MemRead) (q : Decoded) : State :=
  let f := r.flit
  let line := f.line
  let w := f.world
  let drop := fun (s : State) => s.updChan ch (fun c => { c with reads := listDrop c.reads n })
  let again := fun (s : State) => s.updChan ch (fun c => { c with reads := listSet c.reads n { r with again := q.row } })
  let good := fun (s : State) => (drop s).deliverRead ch f q.data false
  let clean := fun (s : State) => if r.again ≠ 0 then s.memErr ch line 0x02 1 w else s
  match q.row with
  | 1 => (s.memErr ch line 0x09 2 w).poisonRead ch n f
  | 2 => if q.good then good s else (s.memErr ch line 0x07 2 w).poisonRead ch n f
  | 3 => (drop s).deliverRead ch f (s.memRaw line) true
  | 4 => good (clean s)
  | 5 | 6 => if r.again = 0 then again s else (s.memErr ch line 0x08 2 w).poisonRead ch n f
  | 7 =>
    if q.good then
      (good ((s.memErr ch line 0x01 1 w).putRaw line q.data false)).updChan ch (fun c => { c with
        repair := some { line := line, device := q.device, phase := 0, data := q.data, repaired := false } })
    else (s.memErr ch line 0x06 2 w).poisonRead ch n f
  | 8 =>
    if r.again = 0 then again s
    else if s.probeMay ch line then s.probeStart ch line 2 q.data
    else (s.memErr ch line 0x06 2 w).poisonRead ch n f
  | 9 =>
    let s' := good (s.memErr ch line 0x04 1 w)
    if s.probeDue ch line && s.probeMay ch line then s'.probeStart ch line 3 q.data else s'
  | _ => (s.memErr ch line 0x07 2 w).poisonRead ch n f

/-- The decoding needs the channel's repair slot, which another line holds. -/
def Decoded.needsSlot (q : Decoded) (again : Nat) (probe : Bool) : Bool :=
  (q.row == 7 && q.good) || (q.row == 8 && again != 0) || (q.row == 9 && probe)

/-- DRAM_READ_RETURN (12 R291 to R293). -/
def execDramReadReturn (ch : Fin 24) (n : Nat) (flips : List (BitVec 40)) (s : State) : Host.Outcome State Fault Refusal :=
  let c := s.chan ch.val
  match c.reads[n]? with
  | none => .next s
  | some r =>
    let line := r.flit.line
    let behind := (c.reads.take n).any (fun q => q.flit.line == line && q.again < 100)
    let held := (match c.repair with | some p => p.line == line | none => false) || s.bankBusy ch.val line || r.again ≥ 100
    if behind || held || c.selfRefresh then .next s
    else
      let a := s.rankReg ch.val line
      let q := decodeLine (fieldOf (s.ctlGet a) 63 62) (fieldOf (s.ctlGet a) 61 58) (readBeats (s.memRaw line) (s.memPoison line) flips)
      if q.needsSlot r.again (s.probeDue ch.val line) && c.repair.isSome then .next s else .next (s.actRead ch.val n r q)

/-! Verification (12 R294). -/

/-- A read in the verification shows a flag or a mismatch. -/
def dirtyRead (l : List Beat) : Bool := l.any (fun b => b.f != 0 || b.s != 0)

/-- A device has a resource for soft repair left in a bank (12 R294, R300). -/
def State.spprLeft (s : State) (ch key : Nat) : Bool := decide (((s.chan ch).sppr.filter (fun q => q.1 == key)).length < Config.spprRows ch key)

/-- DRAM_VERIFY_RETURN (12 R294). -/
def execDramVerifyReturn (ch : Fin 24) (flips : List (BitVec 40)) (s : State) : Host.Outcome State Fault Refusal :=
  let c := ch.val
  match (s.chan c).repair with
  | none => .next s
  | some p =>
    if p.phase ≠ 0 then .next s
    else
      let free := fun (s : State) => s.updChan c (fun x => { x with repair := none })
      let bad := dirtyRead (readBeats (s.memRaw p.line) (s.memPoison p.line) flips)
      let ras := s.rasCtl c
      if !bad then .next (free s)
      else if p.repaired then
        if bit ras 1 then .next ((free s).erase c p.line p.device)
        else .next ((free s).almanacAdd 1 c p.line p.device)
      else
        let s := (s.memErr c p.line 0x05 1 0xFFF).ctlCount (s.rankReg c p.line) 47 32
        let key := s.bankKey c p.line p.device
        if bit ras 0 && s.spprLeft c key then
          .next (s.updChan c (fun x => { x with repair := some { p with phase := 1 } }))
        else .next ((free s).almanacAdd 1 c p.line p.device)

/-- One line of a row read into the repair buffer and written back from it (12 R300), with the record of its row; the answer says whether it is to be
read again. -/
def State.repairRead (s : State) (ch : Nat) (line : Nat) (again : Bool) (flips : List (BitVec 40)) : State × Bool :=
  let a := s.rankReg ch line
  let q := decodeLine (fieldOf (s.ctlGet a) 63 62) (fieldOf (s.ctlGet a) 61 58) (readBeats (s.memRaw line) (s.memPoison line) flips)
  let good := fun (s : State) => s.putRaw line q.data false
  let mark := fun (s : State) => s.putRaw line q.data true
  match q.row with
  | 1 => (mark (s.memErr ch line 0x09 2 0xFFF), false)
  | 2 => if q.good then (good s, false) else (mark (s.memErr ch line 0x07 2 0xFFF), false)
  | 3 => (mark s, false)
  | 4 => (good (if again then s.memErr ch line 0x02 1 0xFFF else s), false)
  | 5 | 6 => if again then (mark (s.memErr ch line 0x08 2 0xFFF), false) else (s, true)
  | 7 => if q.good then (good (s.memErr ch line 0x01 1 0xFFF), false) else (mark (s.memErr ch line 0x06 2 0xFFF), false)
  | 8 => if again then (mark (s.memErr ch line 0x06 2 0xFFF), false) else (s, true)
  | 9 => (good (s.memErr ch line 0x04 1 0xFFF), false)
  | _ => (mark (s.memErr ch line 0x07 2 0xFFF), false)

/-- A line lies in the row under repair. -/
def State.inRow (s : State) (ch : Nat) (p : Repair) (line : Nat) : Bool :=
  s.bankKey ch line p.device == s.bankKey ch p.line p.device && Config.dramRow ch (s.chanAddr line) == Config.dramRow ch (s.chanAddr p.line)
/-- The lines of the row in turn, by channel address with the bits that a read flips; one that calls for a re-read takes the next entry of its own
line, else a clean read. Lines not named read clean. -/
def State.repairReads (ch : Nat) (p : Repair) : List (Nat × List (BitVec 40)) → Bool → State → State
  | [], _, s => s
  | (a, flips) :: r, again, s =>
    let line := s.chanLine ch a
    if !s.inRow ch p line then repairReads ch p r false s
    else
      let q := s.repairRead ch line again flips
      let next := match r with | (b, _) :: _ => s.chanLine ch b == line | [] => false
      if q.2 && !next then repairReads ch p r false (q.1.repairRead ch line true []).1
      else repairReads ch p r q.2 q.1

/-- SPPR_DONE (12 R300): the row is read, repaired and written back, and the line is verified again. -/
def execSpprDone (ch : Fin 24) (reads : List (Nat × List (BitVec 40))) (s : State) : Host.Outcome State Fault Refusal :=
  let c := ch.val
  match (s.chan c).repair with
  | none => .next s
  | some p =>
    if p.phase ≠ 1 then .next s
    else
      let key := s.bankKey c p.line p.device
      let s := State.repairReads c p reads false s
      let s := s.almanacAdd 0 c p.line p.device
      .next (s.updChan c (fun x => { x with sppr := (key, p.line) :: x.sppr, repair := some { p with phase := 0, repaired := true } }))

/-- PROBE_DONE (12 R295): sixteen further lines of the rank judge X or P. -/
def execProbeDone (ch : Fin 24) (reads : List (List (BitVec 40))) (s : State) : Host.Outcome State Fault Refusal :=
  let c := ch.val
  match (s.chan c).repair with
  | none => .next s
  | some p =>
    if p.phase ≠ 2 ∧ p.phase ≠ 3 then .next s
    else
      let lines := s.probeLines c p.line
      let beats := (List.range 16).map (fun i =>
        let line := lines.getD i 0
        readBeats (s.memRaw line) (s.memPoison line) (reads.getD i []))
      let noF := fun (l : List Beat) => l.all (fun b => b.f == 0)
      let noS := fun (l : List Beat) => l.all (fun b => b.s == 0)
      let xBad := decide ((beats.filter (fun l => noF l && !noS l)).length ≥ 12)
      let pBad := decide ((beats.filter (fun l => !noF l && noS l)).length ≥ 12)
      let s := s.updChan c (fun x => { x with repair := none })
      let n := (s.chan c).reads.findIdx (fun r => r.flit.line == p.line && r.again == 8)
      let w := match (s.chan c).reads[n]? with | some r => r.flit.world | none => 0xFFF
      let held := p.phase = 2 && n < (s.chan c).reads.length
      let f := match (s.chan c).reads[n]? with | some r => r.flit | none => Flit.blank .rdNc (.mem c) (.mem c)
      let s := if !held then s
        else if xBad then
          ((s.memErr c p.line 0x03 1 w).updChan c (fun x => { x with reads := listDrop x.reads n })).deliverRead c f p.data false
        else (s.memErr c p.line 0x06 2 w).poisonRead c n f
      .next (if xBad then s.erase c p.line 9 else if pBad then s.erase c p.line 8 else s)

/-! Scrub and fill (12 R298, R299). -/

/-- SCRUB_READ (12 R298): the next line of the channel is read and decoded like any read. -/
def execScrubRead (ch : Fin 24) (offset : Nat) (s : State) : Host.Outcome State Fault Refusal :=
  let c := ch.val
  let x := s.chan c
  if !s.trained.contains c || !x.filled || x.selfRefresh || s.held 3 c || !bit (s.rasCtl c) 63 || offset ≠ x.scrubAt || s.lineBusy c (s.chanLine c offset) then .next s
  else
    let f := { Flit.blank .rdNc (.mem c) (.mem c) with line := s.chanLine c offset, world := 0xFFF }
    .next (s.updChan c (fun x => { x with reads := x.reads ++ [{ flit := f, again := 0 }], scrubAt := (x.scrubAt + 64) % s.chanCap }))

/-- MEM_FILL of a channel. -/
def fillReg (ch : Nat) : Nat := caddr 16 ch 0x120

/-- Once every trained channel has filled or been excluded, the DRAM holds zero (12 R299). -/
def State.fillEnd (s : State) : State :=
  if (List.range 24).all (fun c => !(s.chan c).trained || (s.chan c).filled || (s.chan c).fillErr) then s.zeroDram else s

/-- FILL_DONE (12 R299): the channel holds zero data, and its progress reads complete. -/
def execFillDone (ch : Fin 24) (s : State) : Host.Outcome State Fault Refusal :=
  let x := s.chan ch.val
  if !x.trained || x.filled || x.fillErr || s.mc.stage.toNat ≠ 7 then .next s
  else .next (((s.updChan ch.val (fun x => { x with filled := true })).ctlField (fillReg ch.val) 63 63 1).ctlField (fillReg ch.val) 6 0 100).fillEnd

/-- DDR_ALERT_DURING_FILL (12 R299): the channel stops and is excluded, which BOOT_REASON records. -/
def execDdrAlertDuringFill (ch : Fin 24) (s : State) : Host.Outcome State Fault Refusal :=
  let x := s.chan ch.val
  if !x.trained || x.filled || x.fillErr || s.mc.stage.toNat ≠ 7 then .next s
  else
    let s := (s.updChan ch.val (fun x => { x with fillErr := true })).ctlField (fillReg ch.val) 62 62 1
    let e := Tbl.get BootEntry.empty s.mc.reasons s.mc.entry
    .next (State.fillEnd { s with mc := { s.mc with reasons := Tbl.set BootEntry.empty s.mc.reasons s.mc.entry { e with detail := e.detail ||| BitVec.ofNat 32 (2 ^ ch.val) } } })

end Sys2Proof.Machine
end

