-- ==== Sys2Proof/Machine/Enclave.lean ====
section
/-! DEFINITION. The enclave functions: building, entering, leaving and reporting (14 R339, R342 to R350). -/

namespace Sys2Proof.Machine

/-! Placement (14 R339). -/

/-- Every 64 KiB granule of a range of own DRAM is decided by an entry that satisfies a condition. -/
def State.placed (s : State) (pa n : Nat) (ok : GuardEntry → Bool) : Bool :=
  (List.range ((pa + n + 65535) / 65536 - pa / 65536)).all (fun i =>
    let a := max pa ((pa / 65536 + i) * 65536)
    match s.region a with
    | .dram off => s.dramBacked off && (match s.guardFor (s.chanOf a) a with | some e => ok e | none => false)
    | _ => false)
/-- A range decided as Secure only. -/
def State.placedSecure (s : State) (pa n : Nat) : Bool := s.placed pa n (fun e => e.owner == 0xFFF)
/-- A range decided as memory of an enclave. -/
def State.placedEncl (s : State) (pa n : Nat) (id : Tag) : Bool :=
  s.placed pa n (fun e => e.owner == id && e.enc && e.nr && e.nw && e.sr && e.sw)

/-! The descriptor (14 R342). -/

/-- Word at an offset of a descriptor. -/
def State.ecdWord (s : State) (ecd off : Nat) : Word := s.cohWord (ecd + off)
/-- STATE of a descriptor. -/
def State.ecdState (s : State) (ecd : Nat) : Nat := fieldOf (s.ecdWord ecd 0) 63 62
/-- Put a descriptor into a state. -/
def State.setEcdState (s : State) (ecd v : Nat) : State := s.putCohWord ecd (setField (s.ecdWord ecd 0) 63 62 v)
/-- ID of a descriptor. -/
def State.ecdId (s : State) (ecd : Nat) : Tag := BitVec.ofNat 12 (fieldOf (s.ecdWord ecd 0) 11 0)
/-- The entries of the page map. -/
def State.ecdPages (s : State) (ecd : Nat) : Nat := (s.ecdWord ecd 0x10).toNat / 4096
/-- The address of an entry of the page map (14 R343). -/
def State.epmAt (s : State) (ecd n : Nat) : Nat := (s.ecdWord ecd 0x18).toNat + 8 * n
/-- The fields that firmware wrote are in range (14 R342). -/
def State.ecdFields (s : State) (ecd : Nat) : Bool :=
  let w := s.ecdWord ecd 0
  let base := s.ecdWord ecd 0x08
  let size := (s.ecdWord ecd 0x10).toNat
  let epm := (s.ecdWord ecd 0x18).toNat
  let nslot := fieldOf (s.ecdWord ecd 0x28) 63 56
  let idx := fieldOf (s.ecdWord ecd 0x28) 31 0
  decide (1 ≤ fieldOf w 11 0 ∧ fieldOf w 11 0 ≤ 0xFFE) && fieldOf w 58 12 == 0 && base.toNat % 4096 == 0 && size % 4096 == 0 &&
    decide (size ≤ 2 ^ 38) && epm % 4096 == 0 && decide (epm < 2 ^ 57) && decide ((s.ecdWord ecd 0x20).toNat < size) &&
    decide (1 ≤ nslot ∧ nslot ≤ 64) && decide (idx + nslot ≤ size / 4096)

/-! Measurement (14 R347). -/

/-- The measurement as bytes. -/
def State.measure (s : State) (ecd : Nat) : List Byte := s.cohBytes (ecd + 0x30) 48
/-- Store a measurement. -/
def State.setMeasure (s : State) (ecd : Nat) (m : List Byte) : State := s.putCohBytes (ecd + 0x30) m
/-- A field as eight bytes, least significant first. -/
def leField (n : Nat) : List Byte := Crypto.leBytes 8 n
/-- The characters of INIT's label, JDNENCL1. -/
def initLabel : List Byte := [0x4A, 0x44, 0x4E, 0x45, 0x4E, 0x43, 0x4C, 0x31]
/-- The characters of SEAL's label. -/
def sealLabel : List Byte := [0x53, 0x45, 0x41, 0x4C]

/-! Shared forms. -/

/-- A function ends with a status in rd (14 R346). -/
def State.enclStatus (s : State) (t : Nat) (rd : RegNo) (v : Nat) : State :=
  s.finish t (s.thr t).npc (fun x => x.writeG rd (BitVec.ofNat 64 v))
/-- A function at the wrong level (14 R346). -/
def State.enclPriv (s : State) (t fn : Nat) : State := s.takeExc t (Exc.priv (s.thr t).pc 2 0x20 fn .u)
/-- A function of M once begun: its level, then its body on the address in rs1. -/
def enclM (fn : Nat) (t : Thr) (rs1 : RegNo) (body : Nat → State → State) (s : State) : Host.Outcome State Fault Refusal :=
  s.run t (fun s => if (s.thr t).level ≠ .m then s.enclPriv t fn else body ((s.thr t).readG rs1).toNat s)
/-- A descriptor address that a function can use: its alignment, its placement, then its data; the status or the cause otherwise. -/
def State.ecdCheck (s : State) (t ecd : Nat) : Option (Nat ⊕ Exc) :=
  if ecd % 4096 ≠ 0 ∨ ecd ≥ 2 ^ 57 then some (.inl 2)
  else if !s.placedSecure ecd 4096 then some (.inl 3)
  else if s.cohPoison ecd 0x70 then some (.inr (Exc.enclave (s.thr t).pc 0 7))
  else none
/-- Go on where the descriptor can be used. -/
def State.withEcd (s : State) (t : Nat) (rd : RegNo) (ecd : Nat) (body : State → State) : State :=
  match s.ecdCheck t ecd with
  | some (.inl v) => s.enclStatus t rd v
  | some (.inr e) => s.takeExc t e
  | none => body s

/-- ENCL.INIT (14 R346). -/
def execEnclInit (t : Thr) (rd rs1 : RegNo) (s : State) : Host.Outcome State Fault Refusal :=
  enclM 0 t rs1 (fun ecd s => s.withEcd t rd ecd (fun s =>
    let epm := (s.ecdWord ecd 0x18).toNat
    let n := s.ecdPages ecd
    if s.ecdState ecd ≠ 0 then s.enclStatus t rd 1
    else if !s.ecdFields ecd then s.enclStatus t rd 2
    else if !s.placedSecure epm (8 * n) then s.enclStatus t rd 3
    else
      let m := Crypto.sha384 (initLabel ++ leField (s.ecdWord ecd 0x10).toNat ++ leField (s.ecdWord ecd 0x20).toNat ++
        leField (fieldOf (s.ecdWord ecd 0x28) 63 56) ++ leField (fieldOf (s.ecdWord ecd 0x28) 31 0) ++ leField (fieldOf (s.ecdWord ecd 0) 61 59))
      let s := s.putCohWords epm (List.replicate n 0)
      let s := ((s.setMeasure ecd m).putCohWord (ecd + 0x60) 0).putCohWord (ecd + 0x68) 0
      (s.setEcdState ecd 1).enclStatus t rd 0)) s

/-- Bytes that Monitor firmware's tag may load by their physical address: backed, and held by a cache or permitted by the guard (12 R304; 14 R336). -/
def State.physOk (s : State) (pa n : Nat) : Bool :=
  [pa, pa + n - 1].all (fun a => s.backed a && ((s.copyWorld (a / 64)).isSome || s.guardOk a 0xFFF true false))
/-- What a load of bytes that may not be loaded takes (01 R30; 12 R305). -/
def State.physFail (s : State) (t pa n : Nat) : State × Exc :=
  let ok := s.physOk pa 1
  let a := if ok then pa + n - 1 else pa
  if !s.backed a then s.noTarget t (s.endpoint a) 0xFFF (BitVec.ofNat 64 a) a .load false
  else s.refused t 0xFFF (BitVec.ofNat 64 a) a .load false
/-- The page map or descriptor cannot be read (14 R349). -/
def State.epmBad (s : State) (t : Nat) : State := s.takeExc t (Exc.enclave (s.thr t).pc 0 7)

/-- ENCL.ADD (14 R346, R347). -/
def execEnclAdd (t : Thr) (rd rs1 : RegNo) (s : State) : Host.Outcome State Fault Refusal :=
  enclM 1 t rs1 (fun blk s =>
    let x := s.thr t
    if blk % 8 ≠ 0 ∨ blk + 32 > 2 ^ 57 then s.enclStatus t rd 2
    else if !s.physOk blk 32 then let r := s.physFail t blk 32; r.1.takeExc t r.2
    else if s.cohPoison blk 32 then s.takeExc t (Exc.poison x.pc (x.readG rs1) blk .load (s.poisonLoc (blk / 64)) false)
    else
      let ecd := (s.cohWord blk).toNat
      let src := (s.cohWord (blk + 8)).toNat
      let w := s.cohWord (blk + 16)
      let dst := (s.cohWord (blk + 24)).toNat
      let idx := fieldOf w 63 32
      let save := bit w 3
      s.withEcd t rd ecd (fun s =>
        if s.ecdState ecd ≠ 1 then s.enclStatus t rd 1
        else if src % 4096 ≠ 0 ∨ dst % 4096 ≠ 0 ∨ src ≥ 2 ^ 57 ∨ dst ≥ 2 ^ 57 ∨ fieldOf w 31 4 ≠ 0 then s.enclStatus t rd 2
        else if !s.placedEncl dst 4096 (s.ecdId ecd) then s.enclStatus t rd 3
        else if idx ≥ s.ecdPages ecd then s.enclStatus t rd 7
        else if s.cohPoison (s.epmAt ecd idx) 8 then s.epmBad t
        else if bit (s.cohWord (s.epmAt ecd idx)) 63 then s.enclStatus t rd 7
        else if !save && !s.physOk src 4096 then let r := s.physFail t src 4096; r.1.takeExc t r.2
        else if !save && s.cohPoison src 4096 then
          s.takeExc t (Exc.poison x.pc (BitVec.ofNat 64 src) src .load (s.poisonLoc (src / 64)) false)
        else
          let page := s.cohBytes src 4096
          let words := if save then List.replicate 512 (0 : Word) else (List.range 512).map (fun i => s.cohWord (src + 8 * i))
          let s := s.putCohWords dst words
          let entry := BitVec.ofNat 64 (2 ^ 63 + fieldOf w 3 3 * 2 ^ 62 + fieldOf w 2 2 * 2 ^ 61 + fieldOf w 1 1 * 2 ^ 60 +
            fieldOf w 0 0 * 2 ^ 59 + dst)
          let m := Crypto.sha384 (s.measure ecd ++ leField idx ++ leField (fieldOf w 3 0) ++
            (if save then List.replicate 48 0 else Crypto.sha384 page))
          ((s.putCohWord (s.epmAt ecd idx) entry).setMeasure ecd m).enclStatus t rd 0)) s

/-- ENCL.SEAL (14 R346, R347). -/
def execEnclSeal (t : Thr) (rd rs1 : RegNo) (s : State) : Host.Outcome State Fault Refusal :=
  enclM 2 t rs1 (fun ecd s => s.withEcd t rd ecd (fun s =>
    if s.ecdState ecd ≠ 1 then s.enclStatus t rd 1
    else ((s.setMeasure ecd (Crypto.sha384 (s.measure ecd ++ sealLabel))).setEcdState ecd 2).enclStatus t rd 0)) s

/-- Discard every copy of a line of the domain (14 R346 DESTROY). -/
def State.dropLine (s : State) (line : Nat) : State :=
  { s with
    cores := mapTbl Core.reset s.cores (fun c => c.setL2 line none)
    dies := mapTbl Die.reset s.dies (fun d =>
      { d with l3 := Tbl.set none d.l3 line none, l3wb := Tbl.set none d.l3wb line none, filter := Tbl.set none d.filter line none })
    atoms := Tbl.set none s.atoms line none
    dir := Tbl.set none s.dir line none }
/-- Discard and zero the pages of the entries from PROGRESS on. -/
def State.scrub (s : State) (ecd : Nat) : State :=
  let n := s.ecdPages ecd
  let from_ := (s.ecdWord ecd 0x68).toNat
  (List.range (n - from_)).foldl (fun s i =>
    let e := s.cohWord (s.epmAt ecd (from_ + i))
    let s := if bit e 63 then
        (List.range 64).foldl (fun s j =>
          let line := fieldOf e 56 12 * 64 + j
          (s.dropLine line).wbMem line 0 false (s.ecdId ecd)) s
      else s
    s.putCohWord (ecd + 0x68) (BitVec.ofNat 64 (from_ + i + 1))) s

/-- ENCL.DESTROY (14 R346): the pages, then the broadcast; once its acknowledgements are in, the page map and the descriptor. Interrupted, it
goes on when it is executed again. -/
def execEnclDestroy (t : Thr) (rd rs1 : RegNo) (s : State) : Host.Outcome State Fault Refusal :=
  enclM 3 t rs1 (fun ecd s => s.withEcd t rd ecd (fun s =>
    let st := s.ecdState ecd
    let n := s.ecdPages ecd
    if st ≠ 2 ∧ st ≠ 3 then s.enclStatus t rd 1
    else if s.ecdWord ecd 0x60 ≠ 0 then s.enclStatus t rd 6
    else if s.cohPoison (s.ecdWord ecd 0x18).toNat (8 * n) then s.epmBad t
    else if st = 2 || decide ((s.ecdWord ecd 0x68).toNat < n) then
      let s := (s.setEcdState ecd 3).scrub ecd
      let r : TlbiReq := { form := .all, regime := .normal, level := .m, va := 0, asid := 0, vmid := 0, pinned := true, enclave := s.ecdId ecd }
      (s.tlbiCore (t / 2) r).tlbiCast t r
    else if (s.thr t).outst.any (fun o => o.kind == .tlbi) then s
    else ((s.putCohWords (s.ecdWord ecd 0x18).toNat (List.replicate n 0)).setEcdState ecd 0).enclStatus t rd 0)) s

/-! Entering (14 R346). -/

/-- What reading a block of a thread's memory comes to. -/
inductive BRes where
  | ok (pa : Nat) (bytes : List Byte)
  | wait
  | exc (e : Exc)
deriving DecidableEq, Repr

/-- Check the lines of a block that an access of the thread reads or writes (12 R304, 14 R336). -/
def State.blockCheck (s : State) (t : Nat) (tag : Tag) (va : Word) (pa : Nat) (acc : Access) : State × Option Exc :=
  if !s.backed pa then
    let (s, e) := s.noTarget t (s.endpoint pa) tag va pa acc false
    (s, some e)
  else match s.copyWorld (pa / 64) with
    | some w =>
      if w = tag then (s, none)
      else
        let (s, e) := s.mismatch t (.core (coreId (t / 2))) tag va pa acc false
        (s, some e)
    | none =>
      if s.guardOk pa tag true (acc == .store) then (s, none)
      else
        let (s, e) := s.refused t tag va pa acc false
        (s, some e)

/-- Read the 32 bytes of ENTER's block: its first and last byte are translated as loads. -/
def State.readBlock (s : State) (t : Nat) (va : Word) : State × BRes :=
  match s.xlate t va .load false with
  | (s, .wait) => (s, .wait)
  | (s, .fault e) => (s, .exc e)
  | (s, .ok pa _ _) =>
    match s.xlate t (va + 31) .load false with
    | (s, .wait) => (s, .wait)
    | (s, .fault e) => (s, .exc e)
    | (s, .ok last _ _) =>
      match s.blockCheck t 0 va pa .load with
      | (s, some e) => (s, .exc e)
      | (s, none) =>
        match s.blockCheck t 0 (va + 31) last .load with
        | (s, some e) => (s, .exc e)
        | (s, none) =>
          let first := min 32 (4096 - pa % 4096)
          if s.cohPoison pa first || s.cohPoison last 1 then
            (s, .exc (Exc.poison (s.thr t).pc va pa .load (s.poisonLoc (pa / 64)) false))
          else (s, .ok pa (s.cohBytes pa first ++ (if first < 32 then s.cohBytes (last / 4096 * 4096) (32 - first) else [])))

/-- A number of the bytes of a block. -/
def blockWord (b : List Byte) (i : Nat) : Word := BitVec.ofNat 64 (Crypto.leNat ((b.drop (8 * i)).take 8))

/-- The registers of a slot restored into a thread (14 R346 RESUME, R348). -/
def State.restoreSlot (s : State) (t slotPa : Nat) : State :=
  let w := fun (i : Nat) => s.cohWord (slotPa + 8 * i)
  s.updThr t (fun x =>
    let x := (List.range 32).foldl (fun x i => x.writeG ⟨i % 32, Nat.mod_lt _ (by decide)⟩ (w i)) x
    let x := (List.range 32).foldl (fun x i => x.writeF ⟨i % 32, Nat.mod_lt _ (by decide)⟩ (w (32 + i))) x
    { x with fcsr := writeFields (x.sysFields 0x008) x.fcsr (w 64) })

/-- Enter through a slot whose checks have passed (14 R346). -/
def State.enclGo (s : State) (t : Nat) (rd rs1 : RegNo) (va : Word) (ecd slot slotPa : Nat) (resume : Bool) : State :=
  let x := s.thr t
  let id := s.ecdId ecd
  let w := s.ecdWord ecd 0
  let base := s.ecdWord ecd 0x08
  let ctx : EnclCtx :=
    { ecd := ecd, id := id, base := base, size := s.ecdWord ecd 0x10, epm := (s.ecdWord ecd 0x18).toNat, slot := slot, slotPa := slotPa
      forceNp := bit w 61, debug := bit w 59, enterVa := x.pc, blockVa := va, rs1 := rs1 }
  let pc := if resume then s.cohWord (slotPa + 0x208) else base + s.ecdWord ecd 0x20
  if pc.toNat % 4 ≠ 0 then s.takeExc t { Exc.plain 0x01 x.pc with faddr := pc }
  else
    let s := s.putCohWord (ecd + 0x60) (setField (s.ecdWord ecd 0x60) slot slot 1)
    let s := s.putCohWords (slotPa + 0x220) [x.pc, va, BitVec.ofNat 64 rs1.val]
    let s := if resume then (s.restoreSlot t slotPa).putCohWord (slotPa + 0x210) (setField (s.cohWord (slotPa + 0x210)) 63 63 0)
      else s.updThr t (fun x => x.writeG rd 0)
    let s := (s.predClear t).updThr t (fun x => { x with world := id, encl := some ctx })
    s.retire t pc (x.stepDue && bit w 59)

/-- ENCL.ENTER (14 R346). -/
def execEnclEnter (t : Thr) (rd rs1 : RegNo) (s : State) : Host.Outcome State Fault Refusal :=
  s.run t (fun s =>
    let x := s.thr t
    let va := x.readG rs1
    if x.level ≠ .u || x.secure then s.enclPriv t 4
    else if x.encl.isSome then s.takeExc t (Exc.enclave x.pc 0 6)
    else match s.readBlock t va with
      | (s, .wait) => s
      | (s, .exc e) => s.takeExc t e
      | (s, .ok _ b) =>
        let ecd := (blockWord b 0).toNat
        let w := blockWord b 1
        let slot := fieldOf w 5 0
        let mode := fieldOf w 9 8
        if mode = 3 ∨ fieldOf w 7 6 ≠ 0 ∨ fieldOf w 63 10 ≠ 0 ∨ blockWord b 2 ≠ 0 ∨ blockWord b 3 ≠ 0 then s.enclStatus t rd 2
        else s.withEcd t rd ecd (fun s =>
          if s.ecdState ecd ≠ 2 then s.enclStatus t rd 1
          else if slot ≥ fieldOf (s.ecdWord ecd 0x28) 63 56 then s.enclStatus t rd 2
          else
            let entry := s.cohWord (s.epmAt ecd (fieldOf (s.ecdWord ecd 0x28) 31 0 + slot))
            let slotPa := fieldOf entry 56 12 * 4096
            let saved := bit (s.cohWord (slotPa + 0x210)) 63
            let idx := fieldOf (s.ecdWord ecd 0x28) 31 0 + slot
            if bit (s.ecdWord ecd 0x60) slot then s.enclStatus t rd 4
            else if s.cohPoison (s.epmAt ecd idx) 8 then s.epmBad t
            else if !bit entry 63 then s.takeExc t (Exc.enclave x.pc 0 1)
            else if !bit entry 62 then s.takeExc t (Exc.enclave x.pc 0 3)
            else if s.cohPoison slotPa 0x240 then
              s.takeExc t (Exc.poison x.pc (s.ecdWord ecd 0x08 + BitVec.ofNat 64 (4096 * idx)) slotPa .load (s.poisonLoc (slotPa / 64)) false)
            else if (mode = 0 && saved) || (mode = 1 && !saved) then s.enclStatus t rd 4
            else if bit (s.ecdWord ecd 0) 60 && !(s.core (t / 2)).smtFix then s.enclStatus t rd 5
            else s.enclGo t rd rs1 va ecd slot slotPa saved))

/-- ENCL.EXIT (14 R346). -/
def execEnclExit (t : Thr) (rd rs1 : RegNo) (s : State) : Host.Outcome State Fault Refusal :=
  s.run t (fun s =>
    let x := s.thr t
    let target := x.readG rs1
    if rd ≠ 0 then s.illegal t (sysWord rd rs1 0x20 5)
    else if x.level ≠ .u || x.secure then s.enclPriv t 5
    else match x.encl with
      | none => s.takeExc t (Exc.enclave x.pc 0 6)
      | some e =>
        if e.holds target then s.takeExc t (Exc.enclave x.pc target 5)
        else if target.toNat % 4 ≠ 0 then s.takeExc t { Exc.plain 0x01 x.pc with faddr := target }
        else
          let s := s.putCohWord (e.ecd + 0x60) (setField (s.ecdWord e.ecd 0x60) e.slot e.slot 0)
          (s.predClear t).finish t target (fun x => { x with world := 0, encl := none }))

/-- The reports pending in the package (14 R350). -/
def State.reportsPending (s : State) : Nat := (s.threads.filter (fun p => p.2.hold == .report)).length
/-- ENCL.REPORT begins (14 R350): the thread waits for the key engine, which takes sixteen at a time. -/
def execEnclReport (t : Thr) (rd rs1 : RegNo) (s : State) : Host.Outcome State Fault Refusal :=
  s.run t (fun s =>
    let x := s.thr t
    let va := x.readG rs1
    if x.level ≠ .u || x.secure then s.enclPriv t 6
    else match x.encl with
      | none => s.takeExc t (Exc.enclave x.pc 0 6)
      | some e =>
        if va.toNat % 64 ≠ 0 || decide (va.toNat % 4096 > 3840) || !e.holds va || !e.holds (va + 255) then s.enclStatus t rd 2
        else match s.xlate t va .store false with
          | (s, .wait) => s
          | (s, .fault f) => s.takeExc t f
          | (s, .ok pa _ _) =>
            match s.blockCheck t e.id va pa .store with
            | (s, some f) => s.takeExc t f
            | (s, none) =>
              if s.cohPoison pa 256 then s.takeExc t (Exc.poison x.pc va pa .load (s.poisonLoc (pa / 64)) false)
              else if s.reportsPending ≥ 16 then s
              else s.updThr t (fun x => { x with hold := .report, report := some (pa, rd) }))

/-- The signed bytes of a report, 0x00 to 0x7F (14 R350). -/
def State.reportBody (s : State) (t : Nat) (e : EnclCtx) (pa : Nat) : List Byte :=
  s.cohBytes pa 64 ++ s.measure e.ecd ++
    leField (s.pkgId.toNat * 2 ^ 48 + fieldOf (s.ecdWord e.ecd 0) 61 59 * 2 ^ 12 + e.id.toNat) ++
    leField (s.stamp (dieOfThr t)).toNat

/-- REPORT_COMPLETE (14 R350): the signature is a free value (log 6). -/
def execReportComplete (t : Thr) (s : State) : Host.Outcome State Fault Refusal :=
  let x := s.thr t
  match x.encl, x.report with
  | some e, some (pa, rd) =>
    if s.awake t && x.hold == .report then
      let body := s.reportBody t e pa
      let sig := ((Config.reportSignature body s.free) ++ List.replicate 96 0).take 96
      let s := s.drawn.putCohBytes (pa + 0x40) (body.drop 64 ++ sig ++ List.replicate 32 0)
      .next (s.finish t x.npc (fun x => { x.writeG rd 0 with hold := .none, report := none }))
    else .next s
  | _, _ => .next s

end Sys2Proof.Machine
end

