-- ==== Sys2Proof/Machine/Links.lean ====
section
/-! DEFINITION. The system links as they receive, their bring-up, loss and time, and the pair: mirroring and partner loss (02 R43 to R46; 13). -/

namespace Sys2Proof.Machine

/-! States of a port (13 R312 to R315). -/

/-- A port changes state: a LINK event, and its source at the hub interrupt router. -/
def State.linkState (s : State) (p : Nat) (st : LinkState) : State :=
  if (s.link p).st = st then s
  else ((s.updLink p (fun l => { l with st := st })).noteFree (.link p) 5).assertSource (96 + p)
/-- SYL_CTL of a port. -/
def State.sylCtl (s : State) (p : Nat) : Word := s.ctlGet (caddr 16 (0xC0 + p) 0)
/-- A port in DOWN trains where EN = 1 and its partner's presence land is asserted (13 R312); in minimal mode none does (18 R405). -/
def State.tryTrain (s : State) (p : Nat) : State :=
  if (s.link p).st = .down && bit (s.sylCtl p) 63 && (s.link p).present && !s.minimalRun then s.linkState p .training else s
/-- The number of a state in SYL_STAT. -/
def LinkState.num : LinkState → Nat
  | .down => 0 | .training => 1 | .auth => 2 | .up => 3 | .lost => 4 | .refused => 5
/-- SYL_STAT of a port as it reads (13 R315). -/
def State.sylStat (s : State) (p : Nat) : Word :=
  let l := s.link p
  BitVec.ofNat 64 (l.st.num * 2 ^ 61 + l.partner.toNat * 2 ^ 49 + b2n l.enc * 2 ^ 48 + l.lanes.toNat * 2 ^ 44 + l.refuse.toNat * 2 ^ 40 +
    min l.replays 65535 * 2 ^ 16 + min l.fecCe 65535)
/-- A write of SYL_STAT: its two counters (13 R315). -/
def State.sylStatPut (s : State) (p : Nat) (w : Word) : State :=
  s.updLink p (fun l => { l with replays := fieldOf w 31 16, fecCe := fieldOf w 15 0 })

/-- EN of SYL_CTL is written (13 R312). -/
def State.sylEn (s : State) (p : Nat) (en : Bool) : State :=
  let s := s.ctlField (caddr 16 (0xC0 + p) 0) 63 63 (b2n en)
  if en then s.tryTrain p
  else s.updLink p (fun l => { l with lanes := 0, refuse := 0, hello := none }) |>.linkState p .down

/-- SYL_EN_WRITE (13 R312). -/
def execSylEnWrite (port : Fin 8) (en : Bool) (s : State) : Host.Outcome State Fault Refusal := .next (s.sylEn port.val en)

/-- SYL_PRSNT_N_CHANGE (13 R312). -/
def execSylPrsntNChange (port : Fin 8) (present : Bool) (s : State) : Host.Outcome State Fault Refusal :=
  .next ((s.updLink port.val (fun l => { l with present := present })).tryTrain port.val)

/-- Set bits of a word. -/
def popBits {n : Nat} (w : BitVec n) : Nat := ((List.range n).filter (fun i => bit w i)).length

/-- LINK_TRAINED (13 R312, R315): 4 or more lanes of LANE_MASK. -/
def execLinkTrained (port : Fin 8) (lanes : BitVec 4) (s : State) : Host.Outcome State Fault Refusal :=
  let p := port.val
  let mask := BitVec.ofNat 8 (fieldOf (s.sylCtl p) 55 48)
  if (s.link p).st ≠ .training || decide (lanes.toNat < 4) || decide (lanes.toNat > popBits mask) then .next s
  else .next ((s.updLink p (fun l => { l with lanes := lanes, hello := none, authStart := s.stamp 16 })).linkState p .auth)

/-- HELLO (13 R313): the partner's claims are kept until its AUTH. -/
def execHello (port : Fin 8) (h : HelloIn) (s : State) : Host.Outcome State Fault Refusal :=
  if (s.link port.val).st = .auth then .next (s.updLink port.val (fun l => { l with hello := some h })) else .next s

/-- A port refuses its partner (13 R314). -/
def State.refuseLink (s : State) (p : Nat) (code : Nat) : State :=
  let s := s.logError (.link p) 0x0703 3 0xFFF none none
  (s.updLink p (fun l => { l with refuse := BitVec.ofNat 4 code })).linkState p .refused

/-- The first refusal of R314 that a HELLO and an AUTH meet; 0 for none. -/
def State.refusal (s : State) (p : Nat) (h : HelloIn) (a : AuthIn) : Nat :=
  let c := s.sylCtl p
  if !a.chainOk then 1
  else if bit c 61 && !(h.ownerCert && a.ownerOk) then 2
  else if !a.sigOk then 3
  else if h.pkgId = s.pkgId then 4
  else if bit c 62 && !h.encOffered then 5
  else if p ≥ 6 && s.paired && (h.mode.toNat != s.pairMode || h.part != s.part || h.stepping != s.stepping || h.pairSide == s.pairPkg) then 6
  else 0

/-- The 2 ms of AUTH have passed (13 R312). -/
def State.authLate (s : State) (p : Nat) : Bool := decide ((s.stamp 16).toNat ≥ (s.link p).authStart.toNat + usTicks 2000)

/-- AUTH (13 R311, R314). -/
def execAuth (port : Fin 8) (a : AuthIn) (s : State) : Host.Outcome State Fault Refusal :=
  let p := port.val
  match (s.link p).st, (s.link p).hello with
  | .auth, some h =>
    if s.authLate p then .next (s.refuseLink p 7)
    else match s.refusal p h a with
      | 0 =>
        let now := s.stamp 16
        let s := s.updLink p (fun l => { l with
          partner := h.pkgId, enc := bit (s.sylCtl p) 62 || h.encRequired, refuse := 0, nakRun := 0, nakOut := none, lastHeart := now, heartAt := now
          hearts := 0, rekeys := 0, frames := 0, sent := 0, rxSeq := 0, out := [], waits := [], serves := [], queue := [], snoops := [], exchanges := 0, claim := none })
        let s := if p ≥ 6 && s.paired then s.ctlField pairAddr 60 49 h.pkgId.toNat else s
        .next (s.linkState p .up)
      | code => .next (s.refuseLink p code)
  | _, _ => .next s

/-- AUTH_TIMEOUT (13 R314). -/
def execAuthTimeout (port : Fin 8) (s : State) : Host.Outcome State Fault Refusal :=
  if (s.link port.val).st = .auth && s.authLate port.val then .next (s.refuseLink port.val 7) else .next s

/-! Loss of the partner (13 R332 to R334). -/

/-- Every home forgets the partner: what it owned is lost in a COHERENT pair, and stands in memory in a MIRRORED one. -/
def State.forgetPartner (s : State) : State :=
  (s.dir.map Prod.fst).foldl (fun s line =>
    match s.dirEnt line with
    | some e =>
      if !e.partner then s
      else if e.owner ≥ 16 && (e.st == .owned || e.st == .exclusive) && s.pairMode = 1 then
        let s := { s with poisoned := if s.poisoned.contains line then s.poisoned else line :: s.poisoned }
        (s.logError (.link 6) 0x0709 3 0xFFF (some (line * 64)) none).setDir line none
      else s.partnerLeave line
    | none => s) s
/-- Transactions that wait on the partner take NOCOPY, and those it opened close (13 R332 step 3). -/
def State.partnerAnswers (s : State) : State :=
  (s.txns.map Prod.fst).foldl (fun s line =>
    match s.txn line, s.homeOf 16 line with
    | some x, .home d t =>
      let n := sliceNum d t
      let s := if bit x.due 16 then s.homeAck n { Flit.blank .ack (.link 6) (.home d t) with line := line, noCopy := true } else s
      (match s.txn line with
       | some x => if holderOf x.flit.req = 16 then (s.setTxn line (some { x with compDue := false, due := 0 })).homeClose n line else s
       | none => s)
    | _, _ => s) s
/-- What waited on a lost link. With the partner lost, mirror writes of cores go to the promoted copy and those of controllers end, write-backs of a home do as `wbGone` says and a
die's wait for the scan, coherent requests ask again, an invalidation is answered to its requester, and the rest end in error; with one port lost every request ends in error, and
a snoop's answer may still come over the other. -/
def State.lostWait (s : State) (p : Nat) (w : LinkReq) : State :=
  let f := w.flit
  if s.pairLost && p ≥ 6 then
    match f.op, f.src with
    | .wbD, _ | .evictC, _ => (s.wbGone f).getD s
    | .snpI, _ => s.snpNone (.link 6) f
    | .snpS, _ | .snpU, _ | .snpNear, _ => s
    | .wrNc, .mem _ => s
    | .wrNc, .core _ => if f.acc == .dma then s.relay { f with dst := s.endpoint (f.line * 64) } else s.pairGone f
    | _, _ => s.pairGone f
  else if f.op.snoops then s.updLink p (fun l => { l with waits := l.waits ++ [w] })
  else s.answerError (.link p) f codeLinkLost false
/-- The partner is lost: LOST, containment of every thread, and the homes' part; the scan of the filters begins (13 R332). -/
def State.partnerLoss (s : State) : State :=
  let waits := (s.link 6).waits ++ (s.link 7).waits
  let s := (s.updLink 6 (fun l => { l with waits := [], queue := [], snoops := [] })).updLink 7 (fun l => { l with waits := [], queue := [], snoops := [] })
  let s := s.ctlField pairAddr 61 61 1
  let (s, loc) := s.errorAt (.link 6) 0x0708 3 0xFFF none none
  let s := s.sendContain (.die 16) (s.wholeLoc 16 (s.node (.link 6)) loc) 3 0
  let s := s.forgetPartner.partnerAnswers
  let s := waits.foldl (fun s w => s.lostWait 6 w) s
  let s := (List.range 24).foldl (fun s ch =>
    let held := (s.chan ch).mirrors.filterMap MirrorWait.answer
    (s.updChan ch (fun c => { c with mirrors := [] })).sendAll held) s
  { s with pair := { scanning := true } }

/-- The link of a port is lost (13 R315, R332). -/
def State.linkLoss (s : State) (p : Nat) : State :=
  let s := s.linkState p .lost
  if p ≥ 6 && s.paired && !s.pairLost && (s.link (13 - p)).st = .lost then s.partnerLoss
  else
    let waits := (s.link p).waits
    waits.foldl (fun s w => s.lostWait p w) (s.updLink p (fun l => { l with waits := [] }))

/-- LINK_LOST (13 R310, R315): 3.5 µs without a heartbeat, or sixteen failures of one frame. -/
def execLinkLost (port : Fin 8) (s : State) : Host.Outcome State Fault Refusal :=
  let p := port.val
  let l := s.link p
  if l.st = .up && (decide ((s.stamp 16).toNat ≥ l.lastHeart.toNat + 14000) || decide (l.nakRun ≥ 16)) then .next (s.linkLoss p) else .next s

/-- NAK (13 R310): the sender sends again from the frame named, and gives the link up at the sixteenth failure of one frame. -/
def execNak (port : Fin 8) (seq : BitVec 16) (s : State) : Host.Outcome State Fault Refusal :=
  let p := port.val
  let l := s.link p
  if l.st ≠ .up || !l.out.any (fun f => f.seq == seq) then .next s
  else
    let run := if l.nakSeq = seq && l.nakRun > 0 then l.nakRun + 1 else 1
    let s := (s.updLink p (fun l => { l with nakSeq := seq, nakRun := run, replays := min (l.replays + 1) 65535 })).logError (.link p) 0x0701 1 0xFFF none none
    if run ≥ 16 then .next (s.linkLoss p) else .next s

/-- HEARTBEAT_SEND (13 R315): every µs. -/
def execHeartbeatSend (port : Fin 8) (s : State) : Host.Outcome State Fault Refusal :=
  let l := s.link port.val
  if l.st = .up && decide ((s.stamp 16).toNat ≥ l.heartAt.toNat + 4000) then
    .next (s.updLink port.val (fun l => { l with hearts := l.hearts + 1, heartAt := s.stamp 16 }))
  else .next s

/-- REKEY (13 R311): after 2^32 frames of an encrypted port. -/
def execRekey (port : Fin 8) (s : State) : Host.Outcome State Fault Refusal :=
  let l := s.link port.val
  if l.st = .up && l.enc && decide (l.frames ≥ 2 ^ 32) then
    .next (s.updLink port.val (fun l => { l with rekeys := l.rekeys + 1, frames := l.frames - 2 ^ 32 }))
  else .next s

/-! Frames that arrive (13 R310, R318 to R324). -/

/-- The opcode of a frame's code. -/
def Op.ofCode (c : BitVec 8) : Op :=
  match c.toNat with
  | 0x10 => .rdS | 0x11 => .rdU | 0x12 => .upg | 0x13 => .rdNc | 0x14 => .wrNc | 0x15 => .atomH | 0x16 => .atomM | 0x17 => .cmoP
  | 0x18 => .tlbiB | 0x1C => .wbD | 0x1D => .evictC | 0x20 => .snpS | 0x21 => .snpU | 0x22 => .snpI | 0x23 => .snpNear
  | 0x30 => .dataS | 0x31 => .dataE | 0x32 => .dataM | 0x38 => .ack | 0x39 => .retry | 0x40 => .intDlv | 0x41 => .sevtB
  | _ => .reserved c
/-- The flit a frame carries, with its flags by opcode group (09 R240); an ACK from a tile's stop of a compute die is a home's grant. -/
def frameFlit (fr : FrameIn) (op : Op) (src dst : Agent) : Flit :=
  let g := fr.flags
  let f := { Flit.blank op src dst with
    far := fr.node, tid := fr.tid.toNat, line := fr.addr.toNat / 64, world := fr.world, mask := fr.mask, data := fr.data, poison := fr.poison
    func := AmoOp.ofCode fr.func, dword := fr.dword, opA := fr.opA, opB := fr.opB, stamp := fr.stamp
    size := if op.asks then (let n := popBits fr.mask; if n = 0 then 64 else n) else 64 }
  match op with
  | .rdS | .rdU | .upg | .rdNc | .wrNc | .atomH | .atomM | .cmoP | .tlbiB | .wbD | .evictC =>
    { f with rcnt := fieldOf g 9 6, fwd := bit g 5, keep := bit g 1, pf := bit g 0, hint := if op = .cmoP then fr.opA.toNat % 4 else 0, discard := op = .cmoP && fr.dword }
  | .retry => { f with promoted := bit g 6, moved := bit g 5, hint := fieldOf g 4 1 }
  | .snpS | .snpU | .snpI | .snpNear => { f with clean := bit g 8, discard := bit g 7 }
  | .dataS | .dataE | .dataM => { f with wbPending := bit g 9, dirty := bit g 8, ackCnt := fieldOf g 5 1 }
  | .ack => { f with
    wbPending := bit g 9, dirty := bit g 8, noCopy := bit g 7, comp := bit g 6, superseded := bit g 0, ackCnt := fieldOf g 5 1
    grant := !bit g 6 && decide (fieldOf fr.node 10 6 < 16) && decide (fieldOf fr.node 5 0 < 36) }
  | _ => f
/-- Answer a frame's sender with an error (13 R319, R321); the locator stands in the second operand. -/
def State.frameError (s : State) (p : Nat) (fr : FrameIn) (code : BitVec 16) (loc : BitVec 32) : State :=
  match s.routeTo p fr.srcPkg.toNat with
  | some q => s.putFrame q { fr with
      dstPkg := fr.srcPkg, srcPkg := s.pkgId, hopsLeft := BitVec.ofNat 4 (s.maxHops q), kind := .error, opA := code.setWidth 64, opB := loc.setWidth 64
      data := 0, dword := false, stamp := s.stamp 16 }
  | none => s
/-- The frame asks for something. -/
def frameAsks : FrameKind → Bool
  | .read | .write | .atomHome | .atomMem => true
  | .other c => (Op.ofCode c).asks
  | _ => false
/-- A frame for another package is forwarded (13 R318, R319, R322). -/
def State.forwardFrame (s : State) (p : Nat) (fr : FrameIn) : State :=
  if fr.hopsLeft = 0 then s.logError (.link p) 0x0705 3 fr.world (some fr.addr.toNat) none
  else
    let refuse := fun (s : State) => if frameAsks fr.kind then
        let (s, loc) := s.errorAt (.link p) codeUnreach 3 fr.world (some fr.addr.toNat) none
        s.frameError p fr codeUnreach loc
      else s
    match s.routeTo p fr.dstPkg.toNat with
    | none => refuse s
    | some q => if fr.world = 0xFFF && !(s.link q).enc then refuse s else s.putFrame q { fr with hopsLeft := fr.hopsLeft - 1 }

/-- A request of this package that waits on a port, by transaction, the package asked and, in pair traffic, the line. -/
def State.waitFor (s : State) (fr : FrameIn) : Option (Nat × LinkReq) :=
  let same := fun (w : LinkReq) => w.dstPkg == fr.srcPkg && decide (w.flit.tid % 4096 = fr.tid.toNat) && (match fr.kind with
    | .other _ => w.flit.line == fr.addr.toNat / 64
    | _ => true)
  (List.range 8).findSome? (fun p => ((s.link p).waits.find? same).map (fun w => (p, w)))
/-- An answer ends the wait, or comes too late (11 R284). -/
def State.frameAnswer (s : State) (p : Nat) (fr : FrameIn) (f : Flit) (keep : Bool) : State :=
  match s.waitFor fr with
  | some (q, w) =>
    let s := if keep then s else s.updLink q (fun l => { l with waits := l.waits.filter (fun x => x != w) })
    s.send (w.flit.delivered f (.link p))
  | none =>
    if f.op == Op.ack && !f.dirty then s
    else s.logError (.link p) codeStray 3 fr.world (some fr.addr.toNat) none

/-- The die of this package that answers a snoop for data: the one that has the line in E or O, else the lowest that holds it (09 R245, R250). -/
def State.supplier (s : State) (line : Nat) : Option Nat :=
  let has := fun (ok : FilterEntry → Bool) => (List.range 16).find? (fun d => match s.fent d line with | some e => ok e | none => false)
  (has (fun e => e.dstate == .e || e.dstate == .o)).or (has (fun e => e.dstate != .i || e.pending))
/-- The partner's home snoops this package (09 R250): the hub passes SNP_S and SNP_NEAR to the die that supplies the line, and an invalidation to every die that has an entry,
whose answers it merges; the supplier of SNP_U comes last, so that no other copy is left. The requester is the request of this package that waits for the answer, or the
partner's. The L2s beside a requester of this package give the line up to it. -/
def State.pairSnoop (s : State) (p : Nat) (fr : FrameIn) (f : Flit) : State :=
  let line := f.line
  let f := match s.waitFor fr with
    | some (_, w) => { f with req := w.flit.req, thr := w.flit.thr, tid := w.flit.tid }
    | none => { f with req := .link p }
  let own : Option Nat := match f.req with | .core c => some (dieOfCore c.val) | _ => none
  let give := s.supplier line
  let others := (List.range 16).filter (fun d => (s.fent d line).isSome && own != some d && (f.op != Op.snpU || give != some d))
  let q : PairSnoop := { flit := f, due := BitVec.ofNat 16 ((others.map (fun d => 2 ^ d)).sum), last := none, got := none, found := false, wb := false }
  let yield := fun (s : State) => match f.req with
    | .core c => if f.op == Op.snpU && give == some (dieOfCore c.val) then s else s.dieYield c.val line
    | _ => s
  let merge := fun (s : State) (q : PairSnoop) =>
    others.foldl (fun s d => s.hubSnoop p f .snpI (.link p) d) (s.updLink p (fun l => { l with snoops := l.snoops ++ [q] }))
  match f.op, give with
  | .snpI, _ => if others.isEmpty then (yield s).pairAnswer p q else merge (yield s) q
  | .snpU, some d => if others.isEmpty then (yield s).hubSnoop p f .snpU f.req d else merge (yield s) { q with last := some d }
  | op, some d => s.hubSnoop p f op f.req d
  | _, none => s.pairAnswer p q

/-- The interrupt message of a frame (11 R266). -/
def frameMsg (fr : FrameIn) (stamp : Word) : IntMsg :=
  let a := fr.opA
  { intid := ⟨fieldOf a 9 0 % 1024, Nat.mod_lt _ (by decide)⟩, target := thrOf (fieldOf a 31 16), secure := bit a 32, refusal := bit a 40
    sender := if bit a 63 then some (thrOf (fieldOf a 62 48)) else none, level := false, stamp := stamp, away := true }
/-- The TLBI of a frame (09 R239). -/
def frameTlbi (fr : FrameIn) : TlbiReq :=
  let a := fr.opA
  { form := (match fieldOf a 1 0 with | 0 => .va | 1 => .asid | 2 => .vmid | _ => .all)
    regime := (match fieldOf a 4 2 with | 0 => .none | 1 => .normalH | 2 => .guest | 3 => .normal | _ => .secure)
    level := Level.ofNum (fieldOf a 6 5), va := fr.opB, asid := BitVec.ofNat 16 (fieldOf a 35 20), vmid := BitVec.ofNat 16 (fieldOf a 51 36)
    pinned := bit a 7, enclave := BitVec.ofNat 12 (fieldOf a 19 8) }

/-- A request that a link port brings in travels on the device channel, by the port's regulator for the package (09 R239; 11 R275). -/
def State.linkAsk (s : State) (p : Nat) (fr : FrameIn) (f : Flit) : State := s.sendDevice (0xC0 + p) (fieldOf (s.routeWord p fr.srcPkg.toNat) 45 40) f
/-- A pair message (13 R327): a write-back is the home's where that lies in this package, else one of the partner's home for memory here, as is a read that it forwards. -/
def State.pairFrame (s : State) (p : Nat) (fr : FrameIn) (op : Op) : State :=
  let line := fr.addr.toNat / 64
  let home := s.homeOf 16 line
  let f := frameFlit fr op (.link 6) home
  match op with
  | .rdS | .rdU | .upg => s.linkAsk p fr (if f.fwd then { f with dst := s.endpoint (line * 64) } else f)
  | .cmoP => s.linkAsk p fr f
  | .wbD | .evictC => s.send { f with cls := 2, dst := match home with | .home _ _ => home | _ => s.endpoint (line * 64) }
  | .snpS | .snpU | .snpI | .snpNear => s.pairSnoop p fr f
  | .dataS | .dataE | .dataM => s.frameAnswer p fr f true
  | .retry => s.frameAnswer p fr f false
  | .ack =>
    let ours : Bool := match s.txn line with | some x => f.comp || bit x.due 16 | none => false
    let wrote : Bool := match s.waitFor fr with | some (_, w) => w.flit.op == Op.wbD || w.flit.op == Op.evictC | none => false
    if !wrote && ours && (match home with | .home _ _ => true | _ => false) then s.send { f with cls := 4 }
    else s.frameAnswer p fr f (match s.waitFor fr with | some (_, w) => w.flit.acc == .coherent && w.flit.op != Op.wbD && w.flit.op != Op.evictC | none => false)
  | .intDlv =>
    let m := frameMsg fr fr.stamp
    let mode := fieldOf fr.opA 42 41
    let s := s.freshTid
    let one := fun (s : State) (d : Nat) => s.send { f with dst := .die d, cls := 8, hint := mode, msg := some { m with batch := s.nextTid } }
    (match mode with
     | 1 => ((List.range 16).filter s.dieAlive).foldl one s
     | 2 => if s.dieAlive (m.target.val / 64) then one s (m.target.val / 64) else s
     | _ => s.send { f with dst := .core (coreId (m.target.val / 2)), cls := 8, msg := some m })
  | .sevtB => (List.range 16).foldl (fun s d => if s.dieAlive d then s.send { f with dst := .die d, cls := 8 } else s) s
  | .tlbiB =>
    let r := frameTlbi fr
    let s := ((List.range 16).flatMap s.dieCores).foldl (fun s c => s.tlbiAt c r) s
    s.send { f with dst := .iommu, tlbi := some r }
  | _ => s.logError (.link p) 0x0402 3 fr.world (some fr.addr.toNat) none

/-- A frame for this package (13 R318, R321 to R323): a request with tag 0xFFF is not accepted from a port without encryption. -/
def State.frameHere (s : State) (p : Nat) (fr : FrameIn) : State :=
  let pa := fr.addr.toNat
  let pairPort := s.paired && decide (p ≥ 6)
  if fr.world = 0xFFF && !(s.link p).enc && frameAsks fr.kind && pairPort && decide (pa < 2 ^ 56) then
    let (s, loc) := s.errorAt (.link p) codeUnreach 3 fr.world (some pa) none
    s.frameError p fr codeUnreach loc
  else
  let ask := fun (op : Op) =>
    if pa ≥ 2 ^ 56 then
      let r : WinReq := { src := fr.srcPkg, off := pa % 2 ^ 44 / 64 * 64, world := fr.world, wr := op = .wrNc, atom := op = .atomH || op = .atomM }
      let open_ := !(fr.world == 0xFFF && !(s.link p).enc)
      match (if open_ then s.exported p r else none) with
      | some q => s.serveWindow p (frameFlit fr op (.link p) (.link p)) q fr.tid fr.srcPkg
      | none =>
        let (s, loc) := s.errorAt (.link p) codeGwRefused 3 fr.world (some pa) none
        s.frameError p fr codeGwRefused loc
    else if pairPort then
      let dst : Agent := match op, s.region pa with
        | .atomH, _ => s.homeOf 16 (pa / 64)
        | _, .partner off => .mem (s.place off).1
        | _, _ => s.endpoint pa
      s.linkAsk p fr { frameFlit fr op (.link 6) dst with acc := .nc }
    else s.logError (.link p) codeNoTarget 3 fr.world (some pa) none
  match fr.kind with
  | .read => ask .rdNc
  | .write => ask .wrNc
  | .atomHome => ask .atomH
  | .atomMem => ask .atomM
  | .data => s.frameAnswer p fr (frameFlit fr .dataS (.link p) (.link p)) false
  | .ack => s.frameAnswer p fr (frameFlit fr .ack (.link p) (.link p)) false
  | .error =>
    match s.waitFor fr with
    | some (_, w) => s.frameAnswer p fr { frameFlit fr w.flit.op.reply (.link p) (.link p) with
        err := some (fr.opA.setWidth 16), refusal := some fr.dword, opA := fr.opB } false
    | none => s
  | .heartbeat => s
  | .other c => if pairPort then s.pairFrame p fr (Op.ofCode c) else s.logError (.link p) 0x0402 3 fr.world (some pa) none

/-- FRAME_RECEIVE (13 R309 to R311, R315, R318); in P1 a frame other than a heartbeat waits for the exit (17 R388). -/
def execFrameReceive (port : Fin 8) (f : FrameIn) (s : State) : Host.Outcome State Fault Refusal :=
  let p := port.val
  let l := s.link p
  if l.st ≠ .up then .next s
  else if f.kind = .heartbeat then
    (if f.crcOk && (f.tagOk || !l.enc) then .next (s.updLink p (fun l => { l with lastHeart := s.stamp 16 })) else .next s)
  else if s.outsideWaits then .next s
  else
    let tagBad := l.enc && f.crcOk && !f.tagOk
    if !f.crcOk || tagBad then
      let s := s.updLink p (fun l => { l with nakOut := some l.rxSeq })
      .next (if tagBad then s.logError (.link p) 0x0702 3 0xFFF none none else s)
    else if f.seq ≠ l.rxSeq then .next (if l.nakOut.isSome then s else s.updLink p (fun l => { l with nakOut := some l.rxSeq }))
    else
      let s := (s.updLink p (fun l => { l with rxSeq := l.rxSeq + 1, nakOut := none })).raise 16 (s.node (.link p)) f.stamp
      .next (if f.dstPkg = s.pkgId then s.frameHere p f else s.forwardFrame p f)

/-! Time across links (02 R43 to R46). -/

/-- The packages a route reaches (13 R316). -/
def State.reaches (s : State) : List Nat :=
  s.ctl.filterMap (fun q => match q.2 with
    | some w => if caddrDie q.1 == 16 && caddrUnit q.1 == 0xC0 && decide (0x1000 ≤ caddrReg q.1 ∧ caddrReg q.1 < 0x2000) && bit w 63
        then some (caddrReg q.1 - 0x1000) else none
    | none => none)
/-- What is claimed of the time root: by this package, by each linked one in its last exchange, and by the routes (02 R45). -/
def State.timeClaims (s : State) : List (Bool × Nat) :=
  let linked := (List.range 8).filterMap (fun p =>
    let l := s.link p
    if l.st = .up then some (match l.claim with | some c => (c.set, c.root.toNat) | none => (false, l.partner.toNat)) else none)
  (s.mc.cfg.root, s.pkgId.toNat) :: linked ++ s.reaches.map (fun n => (false, n))
/-- The time root: the package whose root bit is set, else the lowest PKG_ID among the connected packages (02 R45). -/
def State.timeRoot (s : State) : Nat :=
  let all := s.timeClaims
  let set := all.filter Prod.fst
  ((if set.isEmpty then all else set).map Prod.snd).foldl min 4096
/-- The hops from the neighbour of a port to the time root: none where it claims no way there. -/
def State.timeHops (s : State) (p : Nat) : Option Nat :=
  let l := s.link p
  let root := s.timeRoot
  if l.st ≠ .up then none
  else if l.partner.toNat = root then some 0
  else match l.claim with
    | some c => if c.root.toNat = root then some c.hops.toNat else none
    | none => none
/-- The port of the neighbour followed: the one with the fewest hops to the root, the lower PKG_ID where two tie (02 R45). -/
def State.timePort (s : State) : Option Nat :=
  ((List.range 8).foldl (fun (a : Option (Nat × Nat × Nat)) p =>
    match s.timeHops p, a with
    | none, _ => a
    | some h, none => some (p, h, (s.link p).partner.toNat)
    | some h, some (_, h', n') =>
      if h < h' ∨ (h = h' ∧ (s.link p).partner.toNat < n') then some (p, h, (s.link p).partner.toNat) else a) none).map Prod.fst

/-- LINK_TIME_EXCHANGE (02 R43 to R46): the neighbour's stamp at this moment and what it claims of the root. A package that first synchronises with the root and is
more than 1 µs behind steps once; one that is otherwise off slews. DESIGN CHOICE (log 6): TIME_STEP holds the old count in PAYLOAD [63:0] and the new one
in [127:64]; the spec names both and not their places. -/
def execLinkTimeExchange (port : Fin 8) (said : TimeSaid) (s : State) : Host.Outcome State Fault Refusal :=
  let stamp := said.stamp
  let p := port.val
  let l := s.link p
  if l.st ≠ .up then .next s
  else
    let s := s.updLink p (fun l => { l with exchanges := l.exchanges + 1, claim := some said.claim })
    if s.timeRoot = s.pkgId.toNat || s.timePort ≠ some p then .next s
    else
      let diff : Int := (stamp.toNat : Int) - (s.now.toNat : Int)
      let first := !s.rootSeen
      let s := { s with rootSeen := true }
      if first && decide (diff > 4000) then
        let code := BitVec.ofNat 16 (Config.freeValue s.free)
        let old := s.now
        .next ({ s.drawn with now := stamp, slew := 0 }.note .meridian 7 code (BitVec.ofNat 128 (old.toNat + stamp.toNat * 2 ^ 64)))
      else .next { s with slew := -diff }

/-! The pair (13 R330, R332 to R334). -/

/-- MIRROR_FLUSH (13 R330): an entry of a mirror buffer is written. -/
def execMirrorFlush (c : CoreId) (n : Nat) (s : State) : Host.Outcome State Fault Refusal :=
  match (s.core c.val).mirror[n]? with
  | some e => .next (s.mirrorSend c.val e)
  | none => .next s

/-- A line homed in the partner by a die's copy of HOME_MAP. -/
def State.partnerHomed (s : State) (d line : Nat) : Bool := hasHome line && fieldOf (s.homeMap d (bucketOf line)) 10 10 != s.pkgBit
/-- A die's write-backs of a line on their way to the partner's home are gone with it. -/
def State.dropWb (s : State) (d line : Nat) : State :=
  { s with net := s.net.filter (fun f => !((f.op == Op.wbD || f.op == Op.evictC) && f.src == .filter d && f.line == line)) }
/-- A die snoop filter discards the copies of lines homed in the partner (13 R332 step 5). -/
def State.discardPartner (s : State) (d : Nat) : State :=
  ((s.die d).filter.map Prod.fst).foldl (fun s line =>
    if s.partnerHomed d line then
      let s := (s.dieTake d line).1
      let s := ((s.setFent d line none).setFtxn d line none).setL3Buf d line none
      (s.updDie d (fun x => { x with snoops := x.snoops.filter (fun f => f.line != line) })).dropWb d line
    else s) s
/-- PKG of every bucket homed in the partner is set to the survivor in a copy of HOME_MAP (13 R332 step 6). -/
def State.rehome (s : State) (d : Nat) : State :=
  (List.range 8192).foldl (fun s b =>
    let a := if d < 16 then caddr d 0xC8 b else caddr 16 0xD2 b
    if fieldOf (s.ctlGet a) 10 10 = s.pkgBit then s else s.ctlField a 10 10 s.pkgBit) s
/-- The events that order a MIRRORED partner's last writes (13 R334): their code is free (log 6). -/
def State.mirrorEvents (s : State) (ch : Nat) : State :=
  let now := (s.stamp 16).toNat
  let l := (s.chan ch).mirrorLog.filter (fun p => decide (p.1.toNat + usTicks 10 ≥ now))
  let s := (l.drop (l.length - 256)).foldl (fun s p =>
    s.drawn.note (.mem ch) 5 (BitVec.ofNat 16 (Config.freeValue s.free)) (BitVec.ofNat 128 (p.2.2 + p.2.1.toNat * 2 ^ 64))) s
  s.updChan ch (fun c => { c with mirrorLog := [] })

/-- PARTNER_SCAN_DONE (13 R332, R334). -/
def execPartnerScanDone (s : State) : Host.Outcome State Fault Refusal :=
  if !s.pair.scanning then .next s
  else
    let s := (List.range 16).foldl State.discardPartner s
    let s := if s.pairMode = 2 then (List.range 24).foldl State.mirrorEvents s else s
    let s := (List.range 17).foldl State.rehome s
    .next { s with pair := { scanning := false } }

end Sys2Proof.Machine
end

