-- ==== Sys2Proof/Machine/Guards.lean ====
section
/-! DEFINITION. The registers of the region guards and of world attributes (12 R303 to R307; 14 R338, R341). -/

namespace Sys2Proof.Machine

/-- A unit of a gated island: every unit of a die out of service, the L3 slices and the filter of one in D3, and a hub block that is off (01 R37; 17 R387). -/
def State.regOff (s : State) (a : Nat) : Bool :=
  let d := caddrDie a
  let u := caddrUnit a
  if d < 16 then !(s.die d).inService || ((s.die d).parked && (decide (u < 0x64) || u == 0xC8))
  else
    let i : Option Nat :=
      if u < 0x18 then some u else if 0x40 ≤ u ∧ u < 0x58 then some (u - 0x40) else if 0x80 ≤ u ∧ u < 0x8A then some (u - 0x80 + 24)
      else if 0xC0 ≤ u ∧ u < 0xC8 then some (u - 0xC0 + 34) else if 0xC8 ≤ u ∧ u < 0xCC then some (u - 0xC8 + 42)
      else if u = 0xD1 ∨ u = 0xD2 then some 46 else none
    match i with
    | some i => s.power.hubOff.contains i
    | none => false

/-- The control-space address of a register of a guard. -/
def guardReg (ch reg : Nat) : Nat := caddr 16 (0x40 + ch) reg
/-- The active copy of an entry is locked (12 R303). -/
def State.guardLocked (s : State) (ch n : Nat) : Bool := bit (s.ctlGet (guardReg ch (2 * n))) 62
/-- A write of a word of an entry, staged or active (12 R303). -/
def State.guardEntryPut (s : State) (ch reg : Nat) (w : Word) : State :=
  if s.guardLocked ch (reg % 0x100 / 2) then s
  else s.ctlPut (guardReg ch reg) (writeFields (guardEntryDesc reg).fields (s.ctlGet (guardReg ch reg)) w)
/-- GRD_COMMIT (12 R307): the staged entries whose active LOCK is 0 become active, and VERSION the version. -/
def State.guardCommit (s : State) (ch v : Nat) : State :=
  let staged := fieldOf (s.ctlGet (guardReg ch 0x201)) 31 0
  let version := fieldOf (s.ctlGet (guardReg ch 0x200)) 63 32
  if staged = v && decide (version < v) then
    let s := (List.range 128).foldl (fun s n =>
      if s.guardLocked ch n then s
      else
        let put := fun (s : State) (i : Nat) =>
          let a := s.ctlGet (guardReg ch (0x100 + 2 * n + i))
          if s.ctlGet (guardReg ch (2 * n + i)) = a then s else s.ctlPut (guardReg ch (2 * n + i)) a
        put (put s 0) 1) s
    s.ctlField (guardReg ch 0x200) 63 32 v
  else s
/-- A slot is named by an active VALID entry with ENC = 1 (12 R306). -/
def State.slotInUse (s : State) (ch slot : Nat) : Bool :=
  (List.range 128).any (fun n => match s.guardEntry ch n with
    | some e => e.enc && e.key == slot
    | none => false)
/-- A write of a key word (12 R306). -/
def State.guardKeyPut (s : State) (ch slot w : Nat) (v : Word) : State :=
  if s.slotInUse ch slot then s.ctlField (guardReg ch 0x200) 3 3 1
  else { s with keys := Tbl.set 0 s.keys (ch * 512 + slot * 8 + w) v }
/-- A write of a register of a guard. -/
def State.guardPut (s : State) (ch reg : Nat) (w : Word) : State :=
  if reg < 0x200 then s.guardEntryPut ch reg w
  else if reg = 0x200 then s.ctlPut (guardReg ch reg) (writeFields grdCtlDesc.fields (s.ctlGet (guardReg ch reg)) w)
  else if reg = 0x201 then s.ctlPut (guardReg ch reg) (BitVec.ofNat 64 (fieldOf w 31 0))
  else if reg = 0x202 then s.guardCommit ch (fieldOf w 31 0)
  else s.guardKeyPut ch ((reg - 0x1000) / 8) (reg % 8) w
/-- A class of forme may write a register of a guard (14 R338): 0 vendor, 1 owner, 2 ephemeral; a locked entry ignores the write (00 R8, 12 R303). -/
def State.guardRight (s : State) (ch reg cls : Nat) (w : Word) : Bool :=
  if reg < 0x200 then cls < 2 || decide (reg % 0x100 / 2 ≥ 16)
  else if reg = 0x200 then cls < 2 || fieldOf w 2 0 == fieldOf (s.ctlGet (guardReg ch reg)) 2 0
  else if reg < 0x1000 then true
  else cls < 2 || decide ((reg - 0x1000) / 8 ≥ 8)

/-- GRD_COMMIT_WRITE (12 R307); a gated guard is not written (01 R37). -/
def execGrdCommitWrite (guard : Fin 24) (version : BitVec 32) (s : State) : Host.Outcome State Fault Refusal :=
  .next (if s.regOff (guardReg guard.val 0x202) then s else s.guardCommit guard.val version.toNat)
/-- GRD_KEY_WRITE (12 R306); a gated guard is not written (01 R37). -/
def execGrdKeyWrite (guard : Fin 24) (slot : Fin 64) (w : Fin 8) (val : Word) (s : State) : Host.Outcome State Fault Refusal :=
  .next (if s.regOff (guardReg guard.val 0x1000) then s else s.guardKeyPut guard.val slot.val w.val val)

/-! Pins (14 R340, R341). -/

/-- MC_GPIO_WORLD. -/
def gpioWorldReg : Nat := caddr 16 0x100 0x200
/-- MC_GPIO_WORLD is written: a pin that passes to the other world becomes an input (14 R341), and its waiting assertion is dropped (04 R125). -/
def State.gpioWorldPut (s : State) (sec : BitVec 32) : State :=
  let moved := sec ^^^ BitVec.ofNat 32 (s.ctlGet gpioWorldReg).toNat
  State.worldsMoved s
    ({ s with gpioOut := s.gpioOut &&& ~~~ moved, gpioOe := s.gpioOe &&& ~~~ moved }.ctlPut gpioWorldReg (sec.setWidth 64))
/-- MC_GPIO_WORLD_WRITE (14 R340, R341). -/
def execMcGpioWorldWrite (sec : BitVec 32) (s : State) : Host.Outcome State Fault Refusal := .next (s.gpioWorldPut sec)

end Sys2Proof.Machine
end

