-- ==== Sys2Proof/Machine/Records.lean ====
section
/-! DEFINITION. The error records, the summary, the Ephemeris and their window (02 R51 to R54; 19 R410, R419 to R422, R463). -/

namespace Sys2Proof.Machine

/-! Words of a record (19 R410). -/

/-- Word w of a record slot. -/
def Record.word (r : Record) (w : Nat) : Word :=
  match w with
  | 0 => r.stamp
  | 1 => BitVec.ofNat 64 (r.node.toNat * 2 ^ 52 + r.code.toNat / 256 * 2 ^ 44 + r.sev.toNat * 2 ^ 41 + r.world.toNat * 2 ^ 29 + b2n r.addrV * 2 ^ 28 +
      b2n r.thrV * 2 ^ 27 + r.thread.toNat * 2 ^ 17 + r.code.toNat)
  | 2 => r.addr.setWidth 64
  | 3 => BitVec.ofNat 64 (b2n r.valid * 2 ^ 63 + r.gen.toNat * 2 ^ 32 + r.count.toNat)
  | n => BitVec.ofNat 64 (r.synd.toNat / 2 ^ (64 * (n - 4)))
/-- A record as a world reads it through the window (19 R419). -/
def Record.seen (r : Record) (sec : Bool) (w : Nat) : Word :=
  if sec then r.word w
  else if r.valid && r.world == 0xFFF then 0
  else if r.valid && r.world != 0 then
    (if w = 2 then r.word 2 &&& ~~~ 0xFFF else if w ≥ 4 then 0 else r.word w)
  else r.word w
/-- Free a record: word 3 written with VALID = 1 and the slot's GEN (19 R420). -/
def State.freeRecord (s : State) (d slot : Nat) (v : Word) : State :=
  let r := s.slot d slot
  if bit v 63 && r.valid && fieldOf v 47 32 == r.gen.toNat then s.setSlot d slot (Record.free r.gen) else s
/-- RECORD_FREE (19 R420): a Normal write frees only a record that it can read. -/
def execRecordFree (secure : Bool) (die : Fin 17) (slot : Fin 512) (val : Word) (s : State) : Host.Outcome State Fault Refusal :=
  if secure || (s.slot die.val slot.val).world != 0xFFF then .next (s.freeRecord die.val slot.val val) else .next s

/-! The summary (19 R420). -/

/-- The bits of ERR_SUMMARY of the Normal view. -/
def summaryN : Word := 0x2A00000000000000
/-- Write ERR_SUMMARY: 1 clears (19 R420). -/
def State.summaryPut (s : State) (sec : Bool) (v : Word) : State :=
  let m := if sec then v else v &&& summaryN
  { s with errs := { s.errs with summary := s.errs.summary &&& ~~~ m } }
/-- The sticky summary is emptied (19 R420, 02 R52). -/
def State.stickyClear (s : State) : State := { s with errs := { s.errs with first := [], latest := [] } }
/-- ERR_CTL as it reads. -/
def State.errCtl (s : State) : Word := BitVec.ofNat 64 (b2n s.errs.errnUcc * 2 ^ 62)
/-- Write ERR_CTL (19 R420). -/
def State.errCtlPut (s : State) (v : Word) : State :=
  let s := if bit v 63 then s.stickyClear else s
  { s with errs := { s.errs with errnUcc := bit v 62 } }
/-- SUMMARY_CLR (19 R420): only a Secure write clears. -/
def execSummaryClr (secure : Bool) (s : State) : Host.Outcome State Fault Refusal :=
  if secure then .next s.stickyClear else .next s

/-- Write ERR_CE_NOTIFY of a world side (19 R421). -/
def State.notifyPut (s : State) (sec : Bool) (v : Word) : State :=
  let old := if sec then s.errs.notifyS else s.errs.notifyN
  let pk : Legal := if s.paired then .any else .range 0 0
  let new := writeFields [fld 63 63 .rw 0, fld 47 32 .rw 16 (.range 1 65535), fld 10 10 .rw 0 pk, fld 9 0 .rw 0] old v
  let restart := (bit new 63 && !bit old 63) || fieldOf new 47 32 != fieldOf old 47 32
  let e := s.errs
  { s with errs := if sec then { e with notifyS := new, countS := if restart then 0 else e.countS }
                   else { e with notifyN := new, countN := if restart then 0 else e.countN } }
/-- ERR_CE_NOTIFY_WRITE (19 R421). -/
def execErrCeNotifyWrite (secure : Bool) (val : Word) (s : State) : Host.Outcome State Fault Refusal := .next (s.notifyPut secure val)

/-! The Ephemeris (02 R54; 19 R422). -/

/-- Word w of an event, of four. -/
def Event.word (e : Event) (w : Nat) : Word :=
  match w with
  | 0 => e.stamp
  | 1 => BitVec.ofNat 64 (e.node.toNat * 2 ^ 52 + e.cls.toNat * 2 ^ 48 + e.world.toNat * 2 ^ 36 + b2n e.unsync * 2 ^ 35 + e.sev.toNat * 2 ^ 32 +
      e.code.toNat * 2 ^ 16 + e.seq.toNat)
  | 2 => BitVec.ofNat 64 e.payload.toNat
  | _ => BitVec.ofNat 64 (e.payload.toNat / 2 ^ 64)
/-- An event as a world reads it: STAMP and SEQ alone of one with WORLD 0xFFF (19 R419). -/
def Event.seen (e : Event) (sec : Bool) (w : Nat) : Word :=
  if sec || e.world != 0xFFF then e.word w
  else if w = 0 then e.stamp else if w = 1 then e.seq.setWidth 64 else 0
/-- The event at an index of a ring (19 R422). -/
def Die.ringAt (x : Die) (cap i : Nat) : Option Event :=
  let oldest := (x.head + cap - x.ring.length) % cap
  x.ring[(i % cap + cap - oldest) % cap]?
/-- EPH_CTL as it reads: HEAD from the ring (19 R422). -/
def Die.ephRead (x : Die) : Word := setField x.ephCtl 48 32 x.head
/-- Write EPH_CTL (19 R422). -/
def State.ephPut (s : State) (d : Nat) (v : Word) : State := s.updDie d (fun x => { x with ephCtl := writeFields ephCtlDesc.fields x.ephCtl v })
/-- The EPH_POS of a world. -/
def Die.ephPos (x : Die) (sec : Bool) : Word := if sec then x.ephPosS else x.ephPosN

/-! The window (19 R419). -/

/-- A word of the error window, by its offset; none where it is unbacked. -/
def State.errRead (s : State) (sec : Bool) (off : Nat) : Option Word :=
  if off < 0x88000 then
    let d := off / 0x8000
    some ((s.slot d (off % 0x8000 / 64)).seen sec (off % 64 / 8))
  else if 0x90000 ≤ off ∧ off < 0xA1000 then
    let d := (off - 0x90000) / 0x1000
    let o := off % 0x1000
    let x := s.die d
    if o < 8 then some x.ephRead
    else if o < 0x10 then some (x.ephPos sec)
    else if o < 0x800 then some 0
    else match x.ringAt (ringCap d) ((x.ephPos sec).toNat + (o - 0x800) / 32) with
      | some e => some (e.seen sec (o % 32 / 8))
      | none => some 0
  else if 0xB0000 ≤ off ∧ off < 0xB4000 then
    let i := (off - 0xB0000) / 32
    if !sec then some 0
    else match (if i < 256 then s.errs.first[i]? else s.errs.latest[i - 256]?) with
      | some e => some (e.word (off % 32 / 8))
      | none => some 0
  else if 0xB4000 ≤ off ∧ off < 0xB4008 then some (if sec then s.errs.summary else s.errs.summary &&& summaryN)
  else if 0xB4008 ≤ off ∧ off < 0xB4010 then some (if sec then s.errCtl else 0)
  else if 0xB4010 ≤ off ∧ off < 0xB4018 then some (if sec then s.errs.notifyS else s.errs.notifyN)
  else none

/-- Write a word of the error window. -/
def State.errWrite (s : State) (sec : Bool) (off : Nat) (v : Word) : State :=
  if off < 0x88000 then
    let d := off / 0x8000
    let slot := off % 0x8000 / 64
    if off % 64 / 8 = 3 && (sec || (s.slot d slot).world != 0xFFF) then s.freeRecord d slot v else s
  else if 0x90000 ≤ off ∧ off < 0xA1000 then
    let d := (off - 0x90000) / 0x1000
    let o := off % 0x1000
    if o < 8 then (if sec then s.ephPut d v else s)
    else if o < 0x10 then s.updDie d (fun x => if sec then { x with ephPosS := v } else { x with ephPosN := v })
    else s
  else if 0xB4000 ≤ off ∧ off < 0xB4008 then s.summaryPut sec v
  else if 0xB4008 ≤ off ∧ off < 0xB4010 then (if sec then s.errCtlPut v else s)
  else if 0xB4010 ≤ off ∧ off < 0xB4018 then s.notifyPut sec v
  else s

end Sys2Proof.Machine
end

