-- ==== Sys2Proof/Machine/Iommu.lean ====
section
/-! DEFINITION. The I/O MMU and the accesses of its streams: stream entries, walks, coherent reads and writes of I/O agents, messages, ATS and page requests (15 R359; 16 R373 to R377). -/

namespace Sys2Proof.Machine

/-! Accesses of I/O agents to coherent memory (15 R359; 16 R375). -/

/-- How an access of an I/O agent fails. -/
inductive IoFail where
  | xlate | type | refused | target | busy
deriving DecidableEq, Repr

/-- A line is reached in this package: its home and its memory are here, and the partner does not hold it. -/
def State.ioLocal (s : State) (line : Nat) : Bool :=
  (match s.homeOf 16 line with | .home _ _ => true | _ => false) && s.backed (line * 64) &&
    (match s.region (line * 64) with | .partner _ => false | _ => true) && (match s.dirEnt line with | some e => !e.partner | none => true)
/-- The home slice of a line homed in this package. -/
def State.homeSlice (s : State) (line : Nat) : Nat := match s.homeOf 16 line with | .home d t => sliceNum d t | _ => 0
/-- An access of an I/O agent to a line here waits: a transaction stands on it (09 R247), or its controller blocks it (12 R293). -/
def State.ioWaits (s : State) (line : Nat) : Bool := s.lineOpen line || s.lineBlocked line
/-- The checks on an access to a line: backed memory, a cached copy's tag, else the region guard and, for a read, the tag that the line takes
(12 R304; 14 R335, R336); a read of memory in a FAILED rank is recorded, and its data are poison (12 R291). DEDUCED (log 8): no DRAM bit flips in the read of an I/O agent. -/
def State.ioCheck (s : State) (line : Nat) (tag : Tag) (rd wr : Bool) (a : Agent) : State × Option IoFail :=
  let pa := line * 64
  if !s.backed pa then (s.logError (s.endpoint pa) codeNoTarget 3 tag (some pa) none, some .target)
  else match s.copyWorld line with
    | some w => if w = tag then (s, none) else (s.logError a codeWorldMismatch 3 tag (some pa) none, some .refused)
    | none =>
      if !s.guardOk pa tag rd wr then (s.logError (.mem (s.chanOf pa)) codeGrdRefused 3 tag (some pa) none, some .refused)
      else if rd && s.lineTag pa tag != tag then (s.logError a codeWorldMismatch 3 tag (some pa) none, some .refused)
      else if rd && s.rankFailed line then (s.logError (s.endpoint pa) 0x0509 2 tag (some pa) none, none)
      else (s, none)
/-- Every copy of a line leaves, and the line as it then stands. -/
def State.ioOwn (s : State) (line : Nat) (tag : Tag) : State × LineData × Bool × Tag :=
  match s.atom line with
  | some a => (s.setAtom line none, a.data, a.poison, a.world)
  | none =>
    let r := s.takeAll line
    match r.2 with
    | some k => (r.1, k.data, k.poison, k.world)
    | none => (r.1, s.memLine line, s.memPoison line || s.rankFailed line, s.lineTag (line * 64) tag)
/-- Write bytes of a line coherently: a full line takes it without reading memory, a partial one merges at home and keeps a marker (12 R297). -/
def State.ioPut (s : State) (line : Nat) (tag : Tag) (data : LineData) (mask : BitVec 64) (poison : Bool) : State :=
  let (s, old, bad, w) := s.ioOwn line tag
  if mask = BitVec.allOnes 64 then s.wbMem line data poison w
  else s.wbMem line (if bad then old else mergeLine old data mask) (bad || poison) w

/-! Streams (16 R373, R374). -/

/-- IOMMU_ST_BASE. -/
def State.streamTable (s : State) : Nat := fieldOf (s.ctlGet (caddr 16 0xD1 0x200)) 56 12 * 4096
/-- Word 0 has its unnamed bits zero and VALID set. -/
def streamValid (ws : List Word) : Bool := bit (ws.getD 0 0) 63 && fieldOf (ws.getD 0 0) 57 0 == 0 && ws.getD 3 0 == 0
/-- The entry of a stream: cached, or read from the table with tag 0x000. -/
def State.streamEntry (s : State) (n : BitVec 16) : State × Option (List Word) :=
  match s.iommu.streams.find? (fun p => p.1 == n) with
  | some p => (s, some p.2)
  | none =>
    let pa := s.streamTable + 32 * n.toNat
    let line := pa / 64
    if !walkable pa || !s.ioLocal line || !s.backed pa then (s, none)
    else match s.ioCheck line 0 true false .iommu with
      | (s, some _) => (s, none)
      | (s, none) =>
        if (s.cohLine line).2 then (s, none)
        else
          let ws := (List.range 4).map (fun i => s.cohWord (pa + 8 * i))
          if streamValid ws then ({ s with iommu := { s.iommu with streams := s.iommu.streams ++ [(n, ws)] } }, some ws) else (s, none)
/-- The context of a stream's walks (16 R374): U and X are ignored. -/
def streamCtx (ws : List Word) (world : Tag) : TCtx :=
  let w := ws.getD 0 0
  { s1 := bit w 62, s2 := bit w 61, root1 := ws.getD 1 0, root2 := ws.getD 2 0, had := bit w 58, had2 := bit w 58, wxn := false, sum := false
    user := false, io := true, regime := streamRegime ws world }
/-- A walk of a stream may read a table entry: not where the memory, the tag, the guard or the marker stops it (06 R162, R165). -/
def State.ioWalkOk (s : State) (tag : Tag) (pa : Nat) : Bool :=
  walkable pa && (s.ioCheck (pa / 64) tag true false .iommu).2.isNone && !(s.cohLine (pa / 64)).2
/-- The record of what stopped the read (12 R305; 14 R336). -/
def State.ioWalkBad (s : State) (tag : Tag) (pa : Nat) : State := if walkable pa then (s.ioCheck (pa / 64) tag true false .iommu).1 else s
/-- Walk for a stream, setting A and D where HAD does so (06 R164); the first operand bounds the updates of one walk. -/
def State.ioWalk (c : TCtx) (tag : Tag) (acc : Access) (va : Word) : Nat → State → State × WRes
  | 0, s => (s, .fault 0x12 false 4 0 0)
  | n + 1, s =>
    match walkAll c (s.ioWalkOk tag) (fun _ pa => some (s.cohWord pa)) acc va with
    | .upd u => ioWalk c tag acc va n (s.putCohWord u.pa u.new)
    | r => (s, r)
/-- An IOMMU_FAULT record: the stage and level are part of its syndrome (16 R374). -/
def State.ioFault (s : State) (world : Tag) (iova : Word) : State := s.logError .iommu 0x0901 3 world (some (iova.toNat % 2 ^ 57)) none
/-- Translate an address of a stream: the PA, or how it fails. -/
def State.ioXlate (s : State) (n : BitVec 16) (acc : Access) (iova : Word) : State × (Nat ⊕ IoFail) :=
  let world := s.streamWorld n.toNat
  let (s, ent) := s.streamEntry n
  let fail := fun (s : State) => (s.ioFault world iova, Sum.inr IoFail.xlate)
  match ent with
  | none => fail s
  | some ws =>
    let c := streamCtx ws world
    if !c.s1 && !c.s2 then (if iova.toNat < 2 ^ 57 then (s, .inl iova.toNat) else fail s)
    else
      match s.iommu.tlb.find? (fun p => p.1 == n && p.2.hits c iova 0 && p.2.permits c acc) with
      | some p => (s, .inl (p.2.pa iova))
      | none =>
        match State.ioWalk c (if world = 0xFFF then 0xFFF else 0) acc iova 8 s with
        | (s, .done e) => ({ s with iommu := { s.iommu with tlb := (n, e) :: s.iommu.tlb } }, .inl (e.pa iova))
        | (s, .abort _ _ _ pa) => fail (s.ioWalkBad (if world = 0xFFF then 0xFFF else 0) pa)
        | (s, _) => fail s

/-! Messages (16 R377). -/

/-- A write of a message page: the source is asserted, or the write is refused. -/
def State.msi (s : State) (secureView : Bool) (stream : BitVec 16) (data : Nat) : State :=
  let w := s.streamWorld stream.toNat
  let n := data % 4096
  if (secureView && w ≠ 0xFFF) || (!secureView && w ≠ 0) || n < 128 || s.sourceSecure n ≠ secureView then s.logError .iommu 0x0902 3 w none none
  else s.assertSource n
/-- The view whose message page holds an address (16 R377). -/
def msiPage (pa : Nat) : Option Bool :=
  if 0x800001000000 ≤ pa ∧ pa < 0x800001001000 then some false
  else if 0x800001800000 ≤ pa ∧ pa < 0x800001801000 then some true else none

/-! ATS and page requests (16 R376). -/

/-- A function has completed an invalidation, or has lost its admission: the broadcast that waited for it is acknowledged with its last one. -/
def State.atsDone (s : State) (stream : BitVec 16) : State :=
  match s.iommu.atsWaits.find? (fun w => w.1 == stream) with
  | none => s
  | some w =>
    let io := s.iommu
    let i := io.atsWaits.findIdx (fun w => w.1 == stream)
    let s := { s with iommu := { io with atsWaits := listDrop io.atsWaits i } }
    match s.iommu.tlbiWaits.find? (fun q => q.1.tid == w.2.1) with
    | none => s
    | some q =>
      let rest := s.iommu.tlbiWaits.filter (fun x => x.1.tid != w.2.1)
      if q.2 ≤ 1 then
        { s with iommu := { s.iommu with tlbiWaits := rest } }.send { Flit.blank .ack .iommu q.1.src with cls := 4, tid := q.1.tid, thr := q.1.thr }
      else { s with iommu := { s.iommu with tlbiWaits := rest ++ [(q.1, q.2 - 1)] } }
/-- ATS_INVALIDATE_COMPLETION (16 R376). -/
def execAtsInvalidateCompletion (stream : BitVec 16) (s : State) : Host.Outcome State Fault Refusal := .next (s.atsDone stream)
/-- The root port whose bridge has a bus behind it; port 0 for a bus no bridge claims (16 R368). -/
def State.busPort (s : State) (bus : Nat) : Option (Nat × Nat) :=
  if bus = 0 then none
  else (List.range 40).findSome? (fun i =>
    let w := Tbl.get 0 (s.port (i / 4)).buses (i % 4)
    if decide (fieldOf w 15 8 ≤ bus ∧ bus ≤ fieldOf w 23 16) && fieldOf w 15 8 ≠ 0 then some (i / 4, i % 4) else none)
/-- ATS_TIMEOUT (16 R376): ATS_TMO of the function's port has passed. -/
def execAtsTimeout (stream : BitVec 16) (s : State) : Host.Outcome State Fault Refusal :=
  match s.iommu.atsWaits.find? (fun w => w.1 == stream) with
  | none => .next s
  | some w =>
    let p := ((s.busPort (stream.toNat / 256)).map Prod.fst).getD (stream.toNat / 8 % 32 % 10)
    if (s.stamp 16).toNat < w.2.2.toNat + usTicks (fieldOf (s.pcieCtl p) 47 32) then .next s
    else
      let s := { s with iommu := { s.iommu with atsLost := if s.iommu.atsLost.contains stream then s.iommu.atsLost else stream :: s.iommu.atsLost } }
      .next (s.atsDone stream)

/-- Entries of the page-request ring. -/
def State.prqSize (s : State) : Nat := 2 ^ fieldOf s.iommu.prqBase 3 0
/-- PRI_PAGE_REQUEST (16 R376): the group index of a refused request stands in bits [11:3] of its second word, as PCIe lays it out. -/
def execPriPageRequest (stream : BitVec 16) (w0 w1 : Word) (s : State) : Host.Outcome State Fault Refusal :=
  let (s, ent) := s.streamEntry stream
  let pri := match ent with | some ws => bit (ws.getD 0 0) 59 | none => false
  let io := s.iommu
  let full := decide ((io.prqTail + 65536 - io.prqHead) % 65536 ≥ s.prqSize)
  let pa := fieldOf io.prqBase 56 12 * 4096 + 16 * (io.prqTail % s.prqSize)
  if !pri || full then
    .next { s with iommu := { io with failures := io.failures ++ [(stream, BitVec.ofNat 9 (fieldOf w1 11 3))] } }
  else if s.ioWaits (pa / 64) then .next s
  else match s.ioCheck (pa / 64) 0 false true .iommu with
    | (s, some _) => .next s
    | (s, none) =>
      let s := s.ioPut (pa / 64) 0 (BitVec.ofNat 512 ((w0.toNat + w1.toNat * 2 ^ 64) * 2 ^ (8 * (pa % 64)))) (byteMask (pa % 64) 16) false
      let empty := io.prqTail == io.prqHead
      let s := { s with iommu := { s.iommu with prqTail := (io.prqTail + 1) % 65536 } }
      .next (if empty then s.assertSource io.prqSrc else s)
/-- PRG_RESP_WRITE (16 R376). -/
def State.prgResp (s : State) (val : Word) : State := { s with iommu := { s.iommu with responses := s.iommu.responses ++ [val] } }
/-- PRG_RESP_WRITE (16 R376). -/
def execPrgRespWrite (val : Word) (s : State) : Host.Outcome State Fault Refusal := .next (s.prgResp val)

end Sys2Proof.Machine
end

