-- ==== Sys2Proof/Machine/Pcie.lean ====
section
/-! DEFINITION. The PCIe root ports: requests and completions, zero-length reads, containment, link state, and inbound requests (07 R190, R199; 16 R366 to R377). -/

namespace Sys2Proof.Machine

/-! Sub-ports (16 R366, R367). -/

/-- ENDPT_TIMEOUT (07 R199). -/
def codeEndptTimeout : BitVec 16 := 0x0801
/-- PCIE_UR (16 R369). -/
def codePcieUr : BitVec 16 := 0x0802
/-- PCIE_CA (16 R369). -/
def codePcieCa : BitVec 16 := 0x0803
/-- CXL_POISON (16 R372). -/
def codeCxlPoison : BitVec 16 := 0x0806

/-- Change a sub-port. -/
def State.updSub (s : State) (p k : Nat) (f : SubPort → SubPort) : State :=
  s.updPort p (fun r => { r with subs := Tbl.set SubPort.reset r.subs k (f (Tbl.get SubPort.reset r.subs k)) })
/-- PCIE_CTL of a port. -/
def pcieCtlAddr (p : Nat) : Nat := caddr 16 (0x80 + p) 0
/-- ENDPT_TMO of a port in ticks (16 R366). -/
def State.endptLimit (s : State) (p : Nat) : Nat := usTicks (fieldOf (s.pcieCtl p) 21 0)

/-! Ends of requests (16 R369, R370). -/

/-- A request that has left the queue ends in error, and every store that its read covers with it. -/
def State.reqFails (s : State) (p : Nat) (r : PortReq) (code : BitVec 16) : State :=
  let own := r.flit.req != .port p
  let (s, loc) := s.coversFail p r code (if own then some (r.flit.line * 64) else none)
  if own then s.send { r.flit.answer (.port p) r.flit.op.reply with err := some code, refusal := some false, opA := loc.setWidth 64, opB := 0 } else s
/-- Every outstanding request of a sub-port ends with a code. -/
def State.subFails (s : State) (p k : Nat) (code : BitVec 16) : State :=
  let mine := (s.port p).reqs.filter (fun r => r.sub == k)
  mine.foldl (fun s r => s.reqFails p r code) ((s.updPort p (fun x => { x with reqs := x.reqs.filter (fun r => r.sub != k) })).coverOwed p)
/-- A sub-port is contained (16 R370): the bit, its requests, its router source. -/
def State.containSub (s : State) (p k : Nat) : State :=
  ((s.ctlField (pcieCtlAddr p) (56 + k) (56 + k) 1).subFails p k codeContained).assertSource (128 + 4 * p + k)

/-! Requests at a port (16 R369 to R372). -/

/-- The sub-port that an address belongs to, and whether it is CXL memory. -/
def State.portSub (s : State) (pa : Nat) : Option (Nat × Bool) :=
  match s.region pa with
  | .cxl off => (s.cxlSub off).map (fun q => (q.2, true))
  | .pcie _ => (s.mmioClaim pa).map (fun q => (q.2, false))
  | _ => none
/-- A DEV-N write of a thread behind which the next request in the port's queue is another DEV-N write of that thread: one read covers both (07 R195; 16 R369). -/
def State.moreBehind (s : State) (p : Nat) (f : Flit) : Bool :=
  let devN := fun (g : Flit) => g.op == Op.wrNc && g.acc == .devStore && g.hint == 3 && g.thr.isSome
  devN f && (match s.net.find? (fun g => g.dst == .port p && g.hop == s.goal g && g.err.isNone && g.op.asks) with
    | some g => devN g && g.thr == f.thr && (match s.portSub (g.line * 64), s.portSub (f.line * 64) with | some a, some b => a == b | _, _ => false)
    | none => false)
/-- A request reaches a root port; none while 1,024 requests are outstanding. -/
def State.portTake (s : State) (p : Nat) (f : Flit) : Option State :=
  match s.portSub (f.line * 64) with
  | none => some (s.answerError (.port p) f codeNoTarget false)
  | some (k, cxl) =>
    if s.isContained p k then some (s.answerError (.port p) f codeContained false)
    else if !(s.sub p k).up then some (s.answerError (.port p) f codePcieDown false)
    else if !cxl && f.op == Op.wrNc && f.acc == .devStore && f.hint == 2 && f.thr.isSome then
      let t := f.thr.getD 0
      some ((s.updPort p (fun r => { r with posted := r.posted ++ [(t, f.tid, k)] })).send { f.answer (.port p) .ack with promoted := true })
    else if !cxl && (f.op == Op.atomM || f.op == Op.atomH) && (s.sub p k).cxl then some (s.answerError (.port p) f codePcieUr false)
    else if !cxl && s.moreBehind p f then some (s.updPort p (fun r => { r with posted := r.posted ++ [(f.thr.getD 0, f.tid, k)] }))
    else if (s.port p).reqs.length ≥ 1024 then none
    else
      let zero := !cxl && f.op == Op.wrNc
      let mine := if zero then (s.port p).posted.filter (fun q => f.thr == some q.1) else []
      some (s.updPort p (fun r => { r with
        posted := r.posted.filter (fun q => !mine.contains q)
        reqs := r.reqs ++ [{ flit := f, sub := k, zeroRead := zero, covers := mine.map (fun q => (q.1, q.2.1)), stamp := s.stamp 16 }] }))

/-! Completions (16 R369, R372). -/

/-- CXL memory performs a request and answers it; a poison indication marks the line's data (16 R372). -/
def State.cxlDone (s : State) (p : Nat) (f : Flit) (bad : Bool) : State :=
  let off := maskOff f.mask
  let old := s.memLine f.line
  let poison := s.memPoison f.line || bad
  let s := if bad then s.logError (.port p) codeCxlPoison 2 f.world (some (f.line * 64)) f.thr else s
  match f.op with
  | .wrNc | .wbD =>
    let full := decide (f.mask = BitVec.allOnes 64)
    let s := s.putLine f.line (if full then f.data else if poison then old else mergeLine old f.data f.mask) (if full then f.poison else poison || f.poison)
    s.send (f.answer (.port p) .ack)
  | .atomM | .atomH =>
    let s := if poison || f.func == AmoOp.read then s else s.putLine f.line (f.atomLine old off) false
    s.send { f.answer (.port p) .dataS with
      poison := poison, data := if f.func = .read then old else placeVal (extend true f.size (lineVal old off f.size)) 0 }
  | op =>
    s.send { f.answer (.port p) (if op = .rdNc || f.clean then .dataS else .dataE) with
      world := s.lineTag (f.line * 64) f.world, data := old, poison := poison, ackCnt := f.ackCnt, func := .read }
/-- A line of CXL memory. -/
def State.isCxl (s : State) (line : Nat) : Bool := match s.region (line * 64) with | .cxl _ => true | _ => false
/-- PCIE_COMPLETION (16 R369): one that comes at ENDPT_TMO or later is a stray (07 R199). Poisoned data of a device access write a record of class UCC (R198); DESIGN CHOICE
(log 17): its code is CXL_POISON, the one code of poison that the list has for a port. -/
def execPcieCompletion (port : Fin 10) (n : Nat) (status : CplStatus) (data : Word) (s : State) : Host.Outcome State Fault Refusal :=
  let p := port.val
  match (s.port p).reqs[n]? with
  | none => .next s
  | some r =>
    let f := r.flit
    if (s.stamp 16).toNat ≥ r.stamp.toNat + s.endptLimit p then
      .next (s.logError (.port p) codeStray 3 f.world (some (f.line * 64)) f.thr)
    else
      let s := (s.updPort p (fun x => { x with reqs := listDrop x.reqs n })).coverOwed p
      match status with
      | .unsupported => .next (s.reqFails p r codePcieUr)
      | .aborted => .next (s.reqFails p r codePcieCa)
      | st =>
        let bad := st == .poisoned
        let s := s.sendAll (r.covers.map (fun q => coverAck p q none 0))
        if f.req = .port p then .next s
        else if s.isCxl f.line then .next (s.cxlDone p f bad)
        else if r.zeroRead then .next (s.send (f.answer (.port p) .ack))
        else
          let s := if bad then s.logError (.port p) codeCxlPoison 3 f.world (some (f.line * 64)) f.thr else s
          let off := maskOff f.mask
          .next (s.send { f.answer (.port p) .dataS with
            poison := bad, data := if f.op = .rdNc then placeVal data off else placeVal (extend true f.size (data &&& BitVec.ofNat 64 (2 ^ (8 * f.size) - 1))) 0 })
/-- ENDPT_TIMEOUT (07 R199; 16 R370): DPC_EN as it stands now decides containment. -/
def execEndptTimeout (port : Fin 10) (n : Nat) (s : State) : Host.Outcome State Fault Refusal :=
  let p := port.val
  match (s.port p).reqs[n]? with
  | none => .next s
  | some r =>
    if (s.stamp 16).toNat < r.stamp.toNat + s.endptLimit p then .next s
    else
      let s := ((s.updPort p (fun x => { x with reqs := listDrop x.reqs n })).coverOwed p).reqFails p r codeEndptTimeout
      .next (if bit (s.pcieCtl p) 60 then s.containSub p r.sub else s)

/-! Containment, link state and resets of sub-ports (16 R367, R370, R371). -/

/-- Writing 1 to CONTAINED of a contained sub-port starts its hot reset; the bit stays. -/
def State.containRelease (s : State) (p : Nat) (mask : BitVec 4) : State :=
  (List.range 4).foldl (fun s k =>
    if bit mask k && s.isContained p k then s.updSub p k (fun x => { x with up := false, perst := true, hotReset := true }) else s) s
/-- CONTAINED_WRITE (16 R370). -/
def execContainedWrite (port : Fin 10) (mask : BitVec 4) (s : State) : Host.Outcome State Fault Refusal := .next (s.containRelease port.val mask)
/-- CONTAINMENT_RELEASE_DONE (16 R370): the link has retrained to L0. -/
def execContainmentReleaseDone (port : Fin 10) (sub : Fin 4) (s : State) : Host.Outcome State Fault Refusal :=
  let p := port.val
  let k := sub.val
  if s.isContained p k && (s.sub p k).hotReset then
    .next ((s.updSub p k (fun x => { x with up := true, perst := false, hotReset := false })).ctlField (pcieCtlAddr p) (56 + k) (56 + k) 0)
  else .next s
/-- PCIE_LINK_DOWN (16 R369, R370): DPC that the link triggers contains the sub-port where DPC_EN = 1. -/
def execPcieLinkDown (port : Fin 10) (sub : Fin 4) (dpc : Bool) (s : State) : Host.Outcome State Fault Refusal :=
  let p := port.val
  let k := sub.val
  if !(s.sub p k).up then .next s
  else
    let s := s.updSub p k (fun x => { x with up := false })
    if dpc && bit (s.pcieCtl p) 60 then .next (s.containSub p k) else .next (s.subFails p k codePcieDown)
/-- The sub-ports that exist once a sub-port trains: the bifurcation in force while one is up, else BIFUR as it stands (16 R366); one in minimal mode
(18 R405). -/
def State.trainBifur (s : State) (p : Nat) : Nat :=
  if s.minimalRun then 0 else if (List.range 4).any (fun k => (s.sub p k).up) then (s.port p).bifur else fieldOf (s.pcieCtl p) 63 62
/-- PCIE_LINK_UP (16 R366, R371); in minimal mode port 0 alone trains, without CXL (18 R405). -/
def execPcieLinkUp (port : Fin 10) (sub : Fin 4) (cxlOffered : Bool) (s : State) : Host.Outcome State Fault Refusal :=
  let p := port.val
  let k := sub.val
  let b := s.trainBifur p
  if (s.sub p k).up || (s.sub p k).perst || s.isContained p k || k ≥ subCount b || (s.minimalRun && p != 0) then .next s
  else .next ((s.updPort p (fun r => { r with bifur := b })).updSub p k (fun x => { x with up := true, cxl := cxlOffered && bit (s.pcieCtl p) 61 && !s.minimalRun }))
/-- PERST_N_RELEASE (16 R367): 100 ms after HUB_PG rose, for a sub-port that BIFUR creates, and not while a hot reset holds it. -/
def execPerstNRelease (port : Fin 10) (sub : Fin 4) (s : State) : Host.Outcome State Fault Refusal :=
  let p := port.val
  let k := sub.val
  if !s.mc.hubPg || (s.stamp 16).toNat < s.mc.hubRise.toNat + usTicks 100000 || (s.sub p k).hotReset then .next s
  else .next (s.updSub p k (fun x => { x with perst := false }))
/-- A Secondary Bus Reset of a sub-port's root-port function begins or ends (16 R367). -/
def State.busReset (s : State) (p k : Nat) (on : Bool) : State :=
  if s.isContained p k then s
  else if on then (s.updSub p k (fun x => { x with up := false, perst := true, hotReset := true })).subFails p k codePcieDown
  else s.updSub p k (fun x => { x with perst := false, hotReset := false })

/-! Inbound requests (16 R374, R375, R377). -/

/-- An earlier write of an agent through a home is still unanswered (16 R375): the hint of its flits names its sub-port. -/
def State.writesAway (s : State) (a : Agent) (k : Nat) : Bool :=
  let is := fun (f : Flit) => f.src == a && f.op == Op.atomH && f.func == AmoOp.write && f.hint == k
  s.net.any is || s.txns.any (fun p => match p.2 with | some x => is x.flit || x.waiting.any is | none => false) || [6, 7].any (fun q => (s.link q).waits.any (fun w => is w.flit))
/-- The flit that asks the home of a line that the partner holds or homes, for an I/O agent: read, written under a mask, or one atomic on it (09 R251). -/
def awayFlit (a dst : Agent) (tid k line : Nat) (tag : Tag) (op : AmoOp) (mask : BitVec 64) (size : Nat) (data : LineData) (poison : Bool) (opA opB : Word) : Flit :=
  { Flit.blank .atomH a dst with
    cls := 3, tid := tid, line := line, world := tag, acc := .dma, func := op, size := size, dword := size == 8, data := data, poison := poison
    opA := opA, opB := opB, mask := mask, hint := k }
/-- The operation of an inbound request at the home of a line away; the port completes no AtomicOp (16 R366). -/
def inboundOp : InboundKind → AmoOp
  | .write => .write
  | .read | .atomicSwap | .atomicAdd | .atomicCas => .read
/-- An answer reaches a root port: of a request of its functions that went to another home or package (16 R375). -/
def State.portAnswer (s : State) (p : Nat) (f : Flit) : State :=
  if (s.port p).away.any (fun q => q.tid == f.tid) then s.updPort p (fun x => { x with away := x.away.filter (fun q => q.tid != f.tid) })
  else s.logError (.port p) codeStray 3 f.world (some (f.line * 64)) none
/-- An inbound access to coherent memory, once translated. -/
def State.inboundAt (s : State) (a : Agent) (k : Nat) (tag : Tag) (r : InboundReq) (pa : Nat) : State :=
  let line := pa / 64
  let off := pa % 64
  let n := r.size.val
  let data : LineData := r.data <<< (8 * off)
  let mask := byteMask off n
  if !s.ioLocal line && s.backed pa then
    let s := s.freshTid
    let s := s.updPort (match a with | .port p => p | _ => 0) (fun x => { x with away := x.away ++ [{ tid := s.nextTid, line := line, stamp := s.stamp 16 }] })
    s.send (awayFlit a (s.homeOf 16 line) s.nextTid k line tag (inboundOp r.kind) (if r.kind = .read then byteMask 0 64 else mask) n data false 0 0)
  else
    match s.ioCheck line tag (r.kind != .write) (r.kind == .write) a with
    | (s, some _) => s
    | (s, none) => if r.kind = .write then s.ioPut line tag data mask false else s
/-- The regulator of a stream at its root port (16 R374; 11 R275). -/
def State.streamReg (s : State) (p : Nat) (stream : BitVec 16) : Nat :=
  regAddr (0x80 + p) (fieldOf (s.ctlGet (caddr 16 0xD1 (0x10000 + stream.toNat))) 17 12)
/-- An inbound request at its root port (16 R366, R374, R375): an AtomicOp completes as unsupported, since the port is never its completer. A line on which a transaction
stands and an earlier posted write to the partner hold the request back; so does P1 until its exit (17 R388). A request from outside comes to its stream's regulator, and waits
in the queue there unless it may leave at once (11 R275); one that leaves that queue is translated as the I/O MMU stands then. -/
def State.inbound (s : State) (port : Fin 10) (sub : Fin 4) (r : InboundReq) (waited : Bool) : Host.Outcome State Fault Refusal :=
  let p := port.val
  let k := sub.val
  let a := Agent.port p
  let tag := s.streamWorld r.stream.toNat
  let regu := s.streamReg p r.stream
  let atomic : Bool := match r.kind with | .atomicSwap | .atomicAdd | .atomicCas => true | _ => false
  if s.isContained p k || !(s.sub p k).up || s.outsideWaits || atomic then .next s
  else if r.kind == .write && !r.relaxed && s.writesAway a k then .next s
  else
    let acc : Access := if r.kind = .write then .store else .load
    let x : State × (Nat ⊕ IoFail) :=
      if r.translated then
        let (s, ent) := s.streamEntry r.stream
        let ats := match ent with | some ws => bit (ws.getD 0 0) 60 && !s.iommu.atsLost.contains r.stream | none => false
        if ats && decide (r.iova.toNat < 2 ^ 57) then (s, .inl r.iova.toNat) else (s.ioFault tag r.iova, .inr .xlate)
      else s.ioXlate r.stream acc r.iova
    match x with
    | (s', .inr _) => .next s'
    | (s', .inl pa) =>
      match msiPage pa with
      | some view => if r.kind = .write && r.size.val = 4 then .next (s'.msi view r.stream (fieldOf r.data 31 0)) else .next (s'.ioFault tag r.iova)
      | none =>
        let mem : Bool := match s.region pa with | .dram _ | .partner _ | .cxl _ => true | _ => false
        if !mem then .next (s'.ioFault tag r.iova)
        else if s.ioWaits (pa / 64) then .next s
        else match (if !waited && s'.regBusy regu then none else s'.regLeave regu) with
          | some s' => .next (s'.inboundAt a k tag r pa)
          | none => .next (if waited then s else { s with regWaits := s.regWaits ++ [{ reg := regu, port := port, sub := sub, req := r }] })
/-- PCIE_INBOUND_REQUEST (16 R374). -/
def execPcieInboundRequest (port : Fin 10) (sub : Fin 4) (r : InboundReq) (s : State) : Host.Outcome State Fault Refusal :=
  s.inbound port sub r false
/-- REGULATOR_RELEASE (11 R275): the oldest flit of a regulator's queue leaves for one whole token, and takes its stamp as it is injected (R264). Flits of the net are numbered
first, then the inbound requests that wait. -/
def execRegulatorRelease (k : Nat) (s : State) : Host.Outcome State Fault Refusal :=
  match s.net[k]? with
  | some f =>
    match f.gate with
    | none => .next s
    | some a =>
      if (s.net.take k).any (fun g => g.gate == some a) then .next s
      else match s.regLeave a with
        | some s => .next ({ s with net := listDrop s.net k }.send { f with gate := none })
        | none => .next s
  | none =>
    let i := k - s.net.length
    match s.regWaits[i]? with
    | none => .next s
    | some q =>
      if (s.regWaits.take i).any (fun w => w.reg == q.reg) then .next s
      else match s.regLeave q.reg with
        | some _ => State.inbound { s with regWaits := listDrop s.regWaits i } q.port q.sub q.req true
        | none => .next s
/-- MSI_WRITE (16 R377): a write whose address has been translated to a message page. -/
def execMsiWrite (port : Fin 10) (sub : Fin 4) (stream : BitVec 16) (secureView : Bool) (data : BitVec 32) (s : State) : Host.Outcome State Fault Refusal :=
  if s.isContained port.val sub.val || !(s.sub port.val sub.val).up || s.writesAway (.port port.val) sub.val || s.outsideWaits then .next s
  else .next (s.msi secureView stream data.toNat)

end Sys2Proof.Machine
end

