-- ==== Sys2Proof/Machine/Mover.lean ====
section
/-! DEFINITION. The Data Movers: channels, slots and instances, descriptors and segments, completions, the mailbox, migration and reset (14 R340; 15 R354 to R365). -/

namespace Sys2Proof.Machine

/-! Channels and slots (15 R354, R355; 14 R340). -/

/-- DMV_SLOT_s of an engine. -/
def slotAddr (e slot : Nat) : Nat := caddr 16 (0xC8 + e) (0x100 + slot)
/-- A bound instance answers an access of a world side (15 R356). -/
def State.instOpen (s : State) (i : Nat) (secure : Bool) : Bool :=
  (s.inst i).st != .unbound && (s.instWorld i == 0xFFF) == secure
/-- The instance that a slot holds. -/
def State.slotInst (s : State) (e slot : Nat) : Option Nat :=
  let w := s.ctlGet (slotAddr e slot)
  if bit w 63 then some (fieldOf w 8 0) else none
/-- Descriptors that an instance has not finished (15 R358). -/
def Inst.outstanding (x : Inst) : Nat := (x.tail - x.head).toNat
/-- A write of DMV_CH_WORLD; none while the channel has descriptors outstanding, which fails the forme step. -/
def State.chWorldPut (s : State) (e ch : Nat) (world : Tag) : Option State :=
  let busy := (List.range 4).any (fun i => match s.slotInst e (4 * ch + i) with
    | some n => (s.inst n).outstanding != 0 || (s.inst n).started
    | none => false)
  if busy then none else some (s.worldsMoved (s.ctlPut (caddr 16 (0xC8 + e) (0x40 + ch)) (world.setWidth 64)))
/-- DMV_CH_WORLD_WRITE (14 R340); a gated engine is not written (01 R37). -/
def execDmvChWorldWrite (engine : Fin 4) (ch : Fin 16) (world : Tag) (s : State) : Host.Outcome State Fault Refusal :=
  .next (if s.regOff (caddr 16 (0xC8 + engine.val) (0x40 + ch.val)) then s else (s.chWorldPut engine.val ch.val world).getD s)
/-- A write of DMV_SLOT_s (15 R355); none fails the forme step. -/
def State.slotPut (s : State) (e slot : Nat) (val : Word) : Option State :=
  let a := slotAddr e slot
  let w := writeFields [fld 63 63 .rw 0, fld 8 0 .rw 0] (s.ctlGet a) val
  let n := fieldOf w 8 0
  let old := s.slotInst e slot
  let leaves := match old with | some o => !bit w 63 || o != n | none => false
  let free := match old with | some o => (s.inst o).st == .frozen | none => true
  let taken := bit w 63 && (s.inst n).st != .unbound
  if taken || (leaves && !free) then none
  else
    let s := match old with | some o => if leaves then s.updInst o (fun _ => Inst.reset) else s | none => s
    let s := s.ctlPut a w
    some (if bit w 63 then s.updInst n (fun _ => { Inst.reset with st := .frozen, engine := e, slot := slot }) else s)
/-- DMV_SLOT_WRITE (15 R355); a gated engine is not written (01 R37). -/
def execDmvSlotWrite (engine : Fin 4) (slot : Fin 64) (val : Word) (s : State) : Host.Outcome State Fault Refusal :=
  .next (if s.regOff (slotAddr engine.val slot.val) then s else (s.slotPut engine.val slot.val val).getD s)

/-! Interrupts (15 R357). -/

/-- Send the interrupt that a target register names, where EN = 1. -/
def State.sendTarget (s : State) (e : Nat) (reg : Word) (secure : Bool) : State :=
  let t := thrOf (fieldOf reg 51 42)
  let away := fieldOf reg 52 52 ≠ s.pkgBit
  let msg : IntMsg := { intid := ⟨fieldOf reg 9 0 % 1024, Nat.mod_lt _ (by decide)⟩, target := t, secure := secure, refusal := false,
                        sender := none, level := false, stamp := s.stamp 16 }
  let drop := s.logError (.mover e) codeIntDropped 1 (if secure then 0xFFF else 0) none (some t)
  if !bit reg 63 then s
  else if away then
    (if !s.paired || s.pairLost then drop else s.send { Flit.blank .intDlv (.mover e) (.link 6) with cls := 8, tid := s.nextTid, msg := some msg })
  else if !s.thrPresent t.val then drop
  else s.send { Flit.blank .intDlv (.mover e) (.core (coreId (t.val / 2))) with cls := 8, msg := some msg }

/-! Accesses of an instance (15 R359). -/

/-- Where an address that an instance reaches lies. -/
inductive Reach where
  | here | away | window | bad | gone
deriving DecidableEq, Repr

/-- What gathering data comes to: all of it, an answer to wait for, a line on which a transaction stands, or a completion status. -/
inductive Gather where
  | ok | wait | busy | fail (status : Nat)
deriving DecidableEq, Repr

/-- DRAM, CXL memory or the global window; anything else is of the wrong type (15 R359). -/
def State.reach (s : State) (pa : Nat) : Reach :=
  if pa ≥ 2 ^ 57 then .bad
  else if pa ≥ 2 ^ 56 then .window
  else if pa ≥ 2 ^ 46 then .bad
  else if !s.backed pa then .gone
  else if s.ioLocal (pa / 64) then .here else .away
/-- The status of a failed access. -/
def IoFail.status : IoFail → Nat
  | .xlate => 2 | .type => 6 | .refused => 3 | .target => 5 | .busy => 5
/-- The status of an error response (15 R361). -/
def errStatus (code : BitVec 16) : Nat := if code = codeGwRefused ∨ code = codeGrdRefused ∨ code = codeWorldMismatch then 3 else 5
/-- The instance waits for answers. -/
def Inst.waits (x : Inst) : Bool := !x.ioAsk.isEmpty || !x.ioWrites.isEmpty
/-- A segment is in progress. -/
def Inst.inSegment (x : Inst) : Bool := x.waits || !x.ioGot.isEmpty || x.flight != 0
/-- Send a flit of an instance through its slot's regulator (15 R354). -/
def State.moverSend (s : State) (i : Nat) (f : Flit) : State := s.sendDevice (0xC8 + (s.inst i).engine) (s.inst i).slot f
/-- Ask for a line that lies in another package. -/
def State.moverAsk (s : State) (i line : Nat) (window : Bool) : State :=
  let s := s.freshTid
  let e := (s.inst i).engine
  let tag := s.instWorld i
  let all := byteMask 0 64
  let f := if window then { Flit.blank .rdNc (.mover e) .gwHub with cls := 3, tid := s.nextTid, line := line, world := tag, mask := all, acc := .dma }
    else awayFlit (.mover e) (s.homeOf 16 line) s.nextTid 0 line tag .read all 64 0 false 0 0
  (s.updInst i (fun x => { x with ioAsk := x.ioAsk ++ [{ tid := s.nextTid, line := line, stamp := s.stamp 16 }] })).moverSend i f
/-- Gather one line for reading: checked here, or asked for and answered. -/
def State.gatherLine (s : State) (i line : Nat) : State × Gather :=
  let pa := line * 64
  let x := s.inst i
  let e := x.engine
  match s.reach pa with
  | .bad => (s, .fail 6)
  | .gone => (s.logError (s.endpoint pa) codeNoTarget 3 (s.instWorld i) (some pa) none, .fail 5)
  | .here =>
    if s.ioWaits line then (s, .busy)
    else match s.ioCheck line (s.instWorld i) true false (.mover e) with
      | (s, some q) => (s, .fail q.status)
      | (s, none) => (s, .ok)
  | r =>
    if x.ioGot.any (fun g => g.1 == line) then (s, .ok)
    else if x.ioAsk.any (fun g => g.line == line) then (s, .wait)
    else (s.moverAsk i line (r == .window), .wait)
/-- The first failure, else a busy line, else a wait. -/
def Gather.and : Gather → Gather → Gather
  | .fail n, _ => .fail n
  | _, .fail n => .fail n
  | .busy, _ => .busy
  | _, .busy => .busy
  | .wait, _ => .wait
  | .ok, b => b
/-- Gather lines for reading. -/
def State.gather (s : State) (i : Nat) (lines : List Nat) : State × Gather :=
  lines.foldl (fun (p : State × Gather) l => let q := p.1.gatherLine i l; (q.1, p.2.and q.2)) (s, .ok)
/-- A gathered line. -/
def State.gathered (s : State) (i line : Nat) : LineData × Bool :=
  match (s.inst i).ioGot.find? (fun g => g.1 == line) with
  | some g => g.2
  | none => s.cohLine line
/-- The check before a line is written. -/
def State.mayPut (s : State) (i line : Nat) : State × Gather :=
  let pa := line * 64
  match s.reach pa with
  | .bad => (s, .fail 6)
  | .gone => (s.logError (s.endpoint pa) codeNoTarget 3 (s.instWorld i) (some pa) none, .fail 5)
  | .here =>
    if s.ioWaits line then (s, .busy)
    else match s.ioCheck line (s.instWorld i) false true (.mover (s.inst i).engine) with
      | (s, some q) => (s, .fail q.status)
      | (s, none) => (s, .ok)
  | _ => (s, .ok)
/-- Write bytes of a line, here or by a request that is acknowledged. -/
def State.moverPut (s : State) (i line : Nat) (data : LineData) (mask : BitVec 64) (poison : Bool) : State :=
  let tag := s.instWorld i
  match s.reach (line * 64) with
  | .here => s.ioPut line tag data mask poison
  | r =>
    let s := s.freshTid
    let e := (s.inst i).engine
    let f := if r = .window then { Flit.blank .wrNc (.mover e) .gwHub with
        cls := 3, tid := s.nextTid, line := line, world := tag, mask := mask, data := data, poison := poison, acc := .dma }
      else awayFlit (.mover e) (s.homeOf 16 line) s.nextTid 0 line tag .write mask 64 data poison 0 0
    (s.updInst i (fun x => { x with ioWrites := x.ioWrites ++ [{ tid := s.nextTid, line := line, stamp := s.stamp 16 }] })).moverSend i f
/-- An answer reaches an engine (15 R359). -/
def State.moverAnswer (s : State) (e : Nat) (f : Flit) : State :=
  match s.insts.find? (fun p => p.2.ioAsk.any (fun q => q.tid == f.tid) || p.2.ioWrites.any (fun q => q.tid == f.tid)) with
  | none => s.logError (.mover e) codeStray 3 f.world (some (f.line * 64)) none
  | some (i, x) =>
    let asked := x.ioAsk.find? (fun q => q.tid == f.tid)
    let bad := match f.err with | some c => errStatus c | none => x.ioErr
    s.updInst i (fun x => { x with
      ioAsk := x.ioAsk.filter (fun q => q.tid != f.tid), ioWrites := x.ioWrites.filter (fun q => q.tid != f.tid), ioErr := bad
      ioGot := match asked, f.err with
        | some q, none => x.ioGot ++ [(q.line, f.data, f.poison)]
        | _, _ => x.ioGot })

/-- Read up to 64 bytes at an IOVA of an instance: the bytes and whether they are poisoned. -/
def State.ioBytes (s : State) (i : Nat) (iova : Word) (n : Nat) : State × Gather × List Byte × Bool :=
  let off := iova.toNat % 64
  let n1 := min n (64 - off)
  let bytes := fun (d : LineData) (o k : Nat) => (List.range k).map (fun j => lineByte d (o + j))
  match s.ioXlate (s.inst i).stream .load iova with
  | (s, .inr q) => (s, .fail q.status, [], false)
  | (s, .inl pa) =>
    match s.gatherLine i (pa / 64) with
    | (s, .ok) =>
      let d := s.gathered i (pa / 64)
      if n1 = n then (s, .ok, bytes d.1 off n, d.2)
      else match s.ioXlate (s.inst i).stream .load (iova + BitVec.ofNat 64 n1) with
        | (s, .inr q) => (s, .fail q.status, [], false)
        | (s, .inl pb) =>
          match s.gatherLine i (pb / 64) with
          | (s, .ok) =>
            let g := s.gathered i (pb / 64)
            (s, .ok, bytes d.1 off n1 ++ bytes g.1 0 (n - n1), d.2 || g.2)
          | (s, g) => (s, g, [], false)
    | (s, g) => (s, g, [], false)

/-! Descriptors (15 R358). -/

/-- The first words of a byte string. -/
def bytesWords : Nat → List Byte → List Word
  | 0, _ => []
  | n + 1, b => BitVec.ofNat 64 (Crypto.leNat (b.take 8)) :: bytesWords n (b.drop 8)

/-- OP of a descriptor. -/
def descOp (d : List Word) : Nat := fieldOf (d.getD 0 0) 7 0
/-- SRC, DST and LEN of a descriptor. -/
def descSrc (d : List Word) : Word := d.getD 1 0
/-- DST. -/
def descDst (d : List Word) : Word := d.getD 2 0
/-- LEN. -/
def descLen (d : List Word) : Nat := (d.getD 3 0).toNat
/-- INT. -/
def descInt (d : List Word) : Bool := bit (d.getD 0 0) 9
/-- The reserved fields, the OP and LEN are as R358 asks. -/
def descOk (d : List Word) : Bool :=
  fieldOf (d.getD 0 0) 31 10 == 0 && !bit (d.getD 0 0) 8 && decide (1 ≤ descOp d ∧ descOp d ≤ 6) && decide (1 ≤ descLen d ∧ descLen d ≤ 2 ^ 30) &&
    (descOp d == 4 || d.getD 4 0 == 0) && d.getD 5 0 == 0 && d.getD 6 0 == 0 && d.getD 7 0 == 0
/-- Two ranges overlap. -/
def overlap (a n b m : Nat) : Bool := decide (a < b + m ∧ b < a + n)
/-- The entries of a list that sum to LEN; a status where the list is refused (15 R358). -/
def State.ioList (i : Nat) (len : Nat) : Nat → Word → Nat → List (Nat × Nat) → State → State × Gather × List (Nat × Nat)
  | 0, _, _, _, s => (s, .fail 1, [])
  | n + 1, at_, sum, got, s =>
    match s.ioBytes i at_ 16 with
    | (s, .ok, b, bad) =>
      let v := Crypto.leNat b
      let l := v / 2 ^ 64 % 2 ^ 32
      let got := got ++ [(v % 2 ^ 64, l)]
      if bad then (s, .fail 4, [])
      else if v / 2 ^ 96 ≠ 0 || sum + l > len then (s, .fail 1, [])
      else if sum + l = len then (s, .ok, got)
      else ioList i len n (at_ + 16) (sum + l) got s
    | (s, g, _, _) => (s, g, [])
/-- The ranges of a descriptor's source and of its destination; none for FILL's source and CRC32C's destination. -/
def State.descRanges (s : State) (i : Nat) (d : List Word) : State × Gather × List (Nat × Nat) × List (Nat × Nat) :=
  let src := [((descSrc d).toNat, descLen d)]
  let dst := [((descDst d).toNat, descLen d)]
  match descOp d with
  | 2 => (s, .ok, [], dst)
  | 4 => (s, .ok, src, [])
  | 5 => match State.ioList i (descLen d) 256 (descSrc d) 0 [] s with
    | (s, g, l) => (s, g, l, dst)
  | 6 => match State.ioList i (descLen d) 256 (descDst d) 0 [] s with
    | (s, g, l) => (s, g, src, l)
  | _ => (s, .ok, src, dst)
/-- The place of byte j in ranges: its IOVA and the bytes left there. -/
def rangeAt : List (Nat × Nat) → Nat → Option (Nat × Nat)
  | [], _ => none
  | (a, n) :: r, j => if j < n then some (a + j, n - j) else rangeAt r (j - n)
/-- The range that byte j lies in. -/
def rangeIndex : List (Nat × Nat) → Nat → Nat
  | [], _ => 0
  | (_, n) :: r, j => if j < n then 0 else rangeIndex r (j - n) + 1
/-- Ranges of source and destination overlap (15 R358). -/
def rangesOverlap (a b : List (Nat × Nat)) : Bool := a.any (fun x => b.any (fun y => overlap x.1 x.2 y.1 y.2))
/-- Every page of some ranges that translates has a type of R359. -/
def State.typesOk (s : State) (i : Nat) (acc : Access) (l : List (Nat × Nat)) : Bool :=
  l.all (fun r => (List.range ((r.1 % 4096 + r.2 + 4095) / 4096)).all (fun k =>
    match (s.ioXlate (s.inst i).stream acc (BitVec.ofNat 64 (r.1 / 4096 * 4096 + 4096 * k))).2 with
    | .inl pa => s.reach pa != .bad
    | .inr _ => true))

/-! Segments (15 R360). -/

/-- Bytes of a segment that lie in one line of their source and of their destination; the address is an IOVA, then a PA. -/
structure Part where
  src : Option Nat
  dst : Option Nat
  pos : Nat
  len : Nat
deriving DecidableEq, Repr

/-- Cut the bytes from one position up to another into pieces. -/
def cutParts (a b : List (Nat × Nat)) : Nat → Nat → Nat → List Part
  | 0, _, _ => []
  | n + 1, j, e =>
    if j ≥ e then []
    else
      let x := rangeAt a j
      let y := rangeAt b j
      let room := fun (v : Option (Nat × Nat)) => match v with | some (p, l) => min l (64 - p % 64) | none => 64
      let len := min (e - j) (min (room x) (room y))
      { src := x.map Prod.fst, dst := y.map Prod.fst, pos := j, len := len } :: cutParts a b n (j + len) e
/-- Translate the pieces; the first failure ends it. -/
def State.xlateParts (i : Nat) (wr : Bool) : List Part → State → State × Gather × List Part
  | [], s => (s, .ok, [])
  | p :: r, s =>
    let one := fun (s : State) (v : Option Nat) (acc : Access) => match v with
      | none => (s, Gather.ok, none)
      | some a => match s.ioXlate (s.inst i).stream acc (BitVec.ofNat 64 a) with
        | (s, .inl pa) => (s, Gather.ok, some pa)
        | (s, .inr q) => (s, Gather.fail q.status, none)
    match one s p.src .load with
    | (s, .ok, a) =>
      match one s p.dst (if wr then .store else .load) with
      | (s, .ok, b) =>
        match xlateParts i wr r s with
        | (s, g, l) => (s, g, { p with src := a, dst := b } :: l)
      | (s, g, _) => (s, g, [])
    | (s, g, _) => (s, g, [])
/-- The bytes of a piece at one of its addresses, from byte 0 of the value. -/
def State.partData (s : State) (i : Nat) (pa len : Nat) : LineData × Bool :=
  let q := s.gathered i (pa / 64)
  ((q.1 >>> (8 * (pa % 64))) &&& BitVec.ofNat 512 (2 ^ (8 * len) - 1), q.2)
/-- The bytes of FILL's pattern from a position. -/
def patternData (w : Word) (pos len : Nat) : LineData :=
  lineOf ((List.range len).map (fun k => BitVec.ofNat 8 (w.toNat / 2 ^ (8 * ((pos + k) % 8)))))
/-- Add a piece to the lines that a segment writes. -/
def addWrite (l : List (Nat × LineData × BitVec 64 × Bool)) (pa : Nat) (data : LineData) (len : Nat) (poison : Bool) : List (Nat × LineData × BitVec 64 × Bool) :=
  let line := pa / 64
  let m := byteMask (pa % 64) len
  let d : LineData := data <<< (8 * (pa % 64))
  match l.find? (fun q => q.1 == line) with
  | some (_, d0, m0, p0) => l.map (fun q => if q.1 == line then (line, mergeLine d0 d m, m0 ||| m, p0 || poison) else q)
  | none => l ++ [(line, d, m, poison)]
/-- The first byte at which two values of a length differ. -/
def firstDiff (a b : LineData) (len : Nat) : Option Nat := (List.range len).find? (fun k => lineByte a k != lineByte b k)
/-- A piece acts: what the segment writes, and the instance's CRC, first difference and poison. -/
def State.partAct (s : State) (i : Nat) (d : List Word) (acc : List (Nat × LineData × BitVec 64 × Bool) × Inst) (p : Part) :
    List (Nat × LineData × BitVec 64 × Bool) × Inst :=
  let a := match p.src with | some pa => s.partData i pa p.len | none => (patternData (descSrc d) p.pos p.len, false)
  let x := acc.2
  match descOp d with
  | 3 =>
    let b := match p.dst with | some pa => s.partData i pa p.len | none => (0, false)
    (acc.1, { x with poisoned := x.poisoned || a.2 || b.2, diff := x.diff.or ((firstDiff a.1 b.1 p.len).map (· + p.pos)) })
  | 4 => (acc.1, { x with poisoned := x.poisoned || a.2, crc := ((List.range p.len).map (lineByte a.1)).foldl Crypto.crcByte x.crc })
  | _ => (match p.dst with | some pa => addWrite acc.1 pa a.1 p.len a.2 | none => acc.1, { x with poisoned := x.poisoned || a.2 })
/-- What a step of an instance comes to: nothing can move now, the state after, or the descriptor completes with a status. -/
inductive Serve where
  | stay
  | go (s : State)
  | ends (s : State) (status : Nat)
deriving DecidableEq, Repr

/-- Take tokens of a slot's regulator for a segment's flits within the package, as they come, behind the flits that wait there: the mark says whether all of
them are paid, and the instance keeps how many are (11 R275, R276; log 18). -/
def State.segTokens (s : State) (i flits : Nat) : State × Bool :=
  let a := regAddr (0xC8 + (s.inst i).engine) (s.inst i).slot
  let w := s.ctlGet a
  if s.regBusy a then (s, false)
  else if !bit w 63 then (s.updInst i (fun x => { x with paid := 0 }), true)
  else
    let left := flits - (s.inst i).paid
    let now := if fieldOf w 11 0 = 0 then 0 else min left (fieldOf w 43 32)
    let s := s.ctlField a 43 32 (fieldOf w 43 32 - now)
    if now = left then (s.updInst i (fun x => { x with paid := 0 }), true) else (s.updInst i (fun x => { x with paid := x.paid + now }), false)
/-- Carry out the next segment of the descriptor in progress. -/
def State.segment (s : State) (i : Nat) : Serve :=
  let x := s.inst i
  let d := x.desc
  let len := descLen d
  let stop := fun (s : State) (g : Gather) => match g with
    | .fail n => Serve.ends s n
    | .wait => .go s
    | _ => .stay
  match s.descRanges i d with
  | (s, .ok, a, b) =>
    let n := min 4096 (len - x.done)
    let wr := descOp d != 3
    let pieces := cutParts a b n x.done (x.done + n)
    match State.xlateParts i wr pieces s with
    | (s, .ok, ps) =>
      let reads := ((ps.filterMap (fun p => p.src)) ++ (if wr then [] else ps.filterMap (fun p => p.dst))).map (· / 64)
      match s.gather i reads.eraseDups with
      | (s, .ok) =>
        let r := ps.foldl (s.partAct i d) ([], s.inst i)
        let chk := r.1.foldl (fun (p : State × Gather) q => let g := p.1.mayPut i q.1; (g.1, p.2.and g.2)) (s, Gather.ok)
        match chk with
        | (s, .ok) =>
          match s.segTokens i ((reads.eraseDups ++ r.1.map Prod.fst).filter s.ioLocal).length with
          | (s, false) => .go s
          | (s, true) =>
            let s := s.updInst i (fun _ => { r.2 with ioGot := [], flight := n, listPos := rangeIndex (if descOp d = 5 then a else if descOp d = 6 then b else []) (x.done + n) })
            .go (r.1.foldl (fun s q => s.moverPut i q.1 q.2.1 q.2.2.1 q.2.2.2) s)
        | (s, g) => stop s g
      | (s, g) => stop s g
    | (s, g, _) => stop s g
  | (s, g, _, _) => stop s g
/-- Begin the descriptor at DB_HEAD: fetched, checked, its types seen (15 R358, R361). -/
def State.beginDesc (s : State) (i : Nat) : Serve :=
  let x := s.inst i
  match s.ioBytes i (x.descBase + BitVec.ofNat 64 (64 * (x.head.toNat % 2 ^ x.log2))) 64 with
  | (s, .ok, b, bad) =>
    let d := bytesWords 8 b
    let s := s.updInst i (fun x => { x with started := true, desc := d, done := 0, crc := BitVec.ofNat 32 (d.getD 4 0).toNat, diff := none, poisoned := false, listPos := 0 })
    if bad then .ends s 4
    else if !descOk d then .ends s 1
    else match s.descRanges i d with
      | (s, .ok, a, c) =>
        if (descOp d == 1 || descOp d == 5 || descOp d == 6) && rangesOverlap a c then .ends s 1
        else if !(s.typesOk i .load a && s.typesOk i (if descOp d = 3 then .load else .store) c) then .ends s 6
        else .go s
      | (s, .fail n, _, _) => .ends s n
      | (s, .wait, _, _) => .go (s.updInst i (fun x => { x with started := false, desc := [] }))
      | _ => .stay
  | (s, .fail n, _, _) => .ends s n
  | (s, .wait, _, _) => .go s
  | _ => .stay

/-! Completions (15 R361). -/

/-- Passes round the ring between two indices are odd in number. -/
def passesOdd (log2 head : Nat) (n : Nat) : Bool := (head + n) / 2 ^ log2 % 2 != head / 2 ^ log2 % 2
/-- DB_HEAD moves on, PHASE with it. -/
def Inst.advance (x : Inst) (n : Nat) : Inst :=
  { x with head := x.head + BitVec.ofNat 16 n, phase := if passesOdd x.log2 x.head.toNat n then !x.phase else x.phase
           started := false, desc := [], done := 0, doing := .none, flight := 0 }
/-- The end of RESET: DB_HEAD takes DB_TAIL and both PEND masks clear (15 R363). -/
def Inst.resetEnd (x : Inst) : Inst :=
  { x.advance x.outstanding with st := .frozen, resetting := false, h2gPend := 0, g2hPend := 0 }
/-- The completion record has been written. -/
def State.cplDone (s : State) (i : Nat) : State :=
  let x := s.inst i
  match x.doing with
  | .finishing int =>
    let s := s.updInst i (fun x => x.advance 1)
    if int then s.sendTarget x.engine x.intCpl (s.instWorld i == 0xFFF) else s
  | .draining => s.updInst i (fun x => x.advance x.outstanding)
  | .aborting => s.updInst i Inst.resetEnd
  | _ => s
/-- The completion write has failed: FROZEN, a record, and the channel's router source (15 R361). -/
def State.cplFail (s : State) (i : Nat) : State :=
  let x := s.inst i
  let s := s.logError (.mover x.engine) 0x0A08 3 (s.instWorld i) none none
  let s := s.updInst i (fun x => if x.doing == .aborting then x.resetEnd else { x with st := .frozen, doing := .none })
  s.assertSource (32 + 16 * x.engine + x.slot / 4)
/-- Write the completion record of the entry at DB_HEAD; none while its line is busy or a mirrored write is not acknowledged (13 R330). -/
def State.complete (s : State) (i status : Nat) (doing : Doing) : Option State :=
  let x := s.inst i
  let op := descOp x.desc
  let open_ := (op == 3 || op == 4) && status != 0 && status != 4
  let result : Word :=
    if open_ then BitVec.ofNat 64 (Config.freeValue s.free)
    else if status ≠ 0 then 0
    else if op = 3 then (match x.diff with | some n => BitVec.ofNat 64 n | none => BitVec.allOnes 64)
    else if op = 4 then x.crc.setWidth 64 else 0
  let tag := if x.started && !x.desc.isEmpty then fieldOf (x.desc.getD 0 0) 63 32 else Config.freeValue s.free % 2 ^ 32
  let bytes := if status = 0 ∨ status = 4 then (if status = 4 && x.done < descLen x.desc then x.done else descLen x.desc) else x.done
  let w0 := tag * 2 ^ 32 + b2n x.phase * 2 ^ 16 + status
  let value := w0 + result.toNat * 2 ^ 64 + bytes * 2 ^ 128 + (s.stampAt 16 (s.node (.mover x.engine))).toNat * 2 ^ 192
  let s := s.drawn
  let s := if status ≠ 0 then s.logError (.mover x.engine) (BitVec.ofNat 16 (0x0A00 + status)) 3 (s.instWorld i) none none else s
  let s := s.updInst i (fun x => { x with doing := doing })
  if s.mirrored && s.chans.any (fun c => !c.2.mirrors.isEmpty) then none
  else match s.ioXlate x.stream .store (x.cplBase + BitVec.ofNat 64 (32 * (x.head.toNat % 2 ^ x.log2))) with
    | (s, .inr _) => some (s.cplFail i)
    | (s, .inl pa) =>
      match s.mayPut i (pa / 64) with
      | (s, .ok) =>
        let s := s.moverPut i (pa / 64) (BitVec.ofNat 512 (value * 2 ^ (8 * (pa % 64)))) (byteMask (pa % 64) 32) false
        some (if (s.inst i).waits then s else s.cplDone i)
      | (s, .fail _) => some (s.cplFail i)
      | _ => none

/-! Serving a slot (15 R360). -/

/-- What a channel's turn does with an instance. -/
def State.serveInst (s : State) (i : Nat) : Serve :=
  let x := s.inst i
  let run := x.st == .running
  let ended := fun (x : Inst) => if x.poisoned then 4 else 0
  if x.waits then .stay
  else if x.ioErr ≠ 0 then
    let s := s.updInst i (fun x => { x with ioErr := 0, ioGot := [], flight := 0 })
    if x.doing = .none then .ends s x.ioErr else .go (s.cplFail i)
  else if x.doing ≠ .none then .go (s.cplDone i)
  else if x.flight ≠ 0 then
    let s := s.updInst i (fun x => { x with done := x.done + x.flight, flight := 0 })
    if run && (s.inst i).done ≥ descLen x.desc then .ends s (ended x) else .go s
  else if !run && !(x.started && x.inSegment) then .stay
  else if x.started then (if x.done ≥ descLen x.desc then .ends s (ended x) else s.segment i)
  else if x.outstanding = 0 then .stay
  else if x.outstanding > 2 ^ x.log2 then .ends s 1
  else match s.beginDesc i with
    | .go s => if (s.inst i).started then s.segment i else .go s
    | r => r
/-- A turn of an instance, its completion written where the descriptor ends; none where nothing moves. -/
def State.turnOf (s : State) (i : Nat) : Option State :=
  match s.serveInst i with
  | .stay => none
  | .go t =>
    let x := t.inst i
    if !x.waits && x.doing == .none && x.flight != 0 && x.st == .running && x.done + x.flight ≥ descLen x.desc then
      let t' := t.updInst i (fun x => { x with done := x.done + x.flight, flight := 0 })
      some ((t'.complete i (if x.poisoned then 4 else 0) (.finishing (descInt x.desc))).getD t)
    else some t
  | .ends t status =>
    let x := t.inst i
    t.complete i status (if !x.started && decide (x.outstanding > 2 ^ x.log2) then .draining else .finishing (x.started && descInt x.desc))
/-- DMV_SEGMENT (15 R354, R360): the next slot of the channel, in turn, that can move. -/
def execDmvSegment (engine : Fin 4) (ch : Fin 16) (s : State) : Host.Outcome State Fault Refusal :=
  let e := engine.val
  let key := 16 * e + ch.val
  let first := Tbl.get 0 s.served key
  let hit := (List.range 4).findSome? (fun k =>
    let q := (first + k) % 4
    match s.slotInst e (4 * ch.val + q) with
    | some i =>
      if (s.inst i).st == .running || (s.inst i).st == .freezing then (s.turnOf i).map (fun t => (q, t)) else none
    | none => none)
  match hit with
  | some (q, t) => .next { t with served := Tbl.set 0 t.served key ((q + 1) % 4) }
  | none => .next s

/-! Commands (15 R363 to R365). -/

/-- A command is refused (15 R357). -/
def Inst.refuse (x : Inst) : Inst := { x with cmdErr := true }
/-- A write of INST_CTL.CMD: 1 FREEZE, 2 THAW, 3 SAVE, 4 RESTORE, 5 RESET. -/
def Inst.command (x : Inst) (cmd : Nat) : Inst :=
  match cmd, x.st with
  | 1, .running => { x with st := .freezing }
  | 2, .frozen => { x with st := .running }
  | 3, .frozen => { x with st := .busy, doing := .saving }
  | 4, .frozen => { x with st := .busy, doing := .restoring }
  | 5, .running => { x with st := .freezing, resetting := true }
  | 5, .frozen => { x with st := .freezing, resetting := true }
  | _, _ => x.refuse
/-- A command through the hypervisor page. -/
def State.instCommand (s : State) (secure : Bool) (i cmd : Nat) : State :=
  if s.instOpen i secure then s.updInst i (fun x => x.command cmd) else s
/-- INST_FREEZE (15 R363). -/
def execInstFreeze (secure : Bool) (inst : Fin 512) (s : State) : Host.Outcome State Fault Refusal := .next (s.instCommand secure inst.val 1)
/-- INST_THAW (15 R363). -/
def execInstThaw (secure : Bool) (inst : Fin 512) (s : State) : Host.Outcome State Fault Refusal := .next (s.instCommand secure inst.val 2)
/-- INST_SAVE (15 R363). -/
def execInstSave (secure : Bool) (inst : Fin 512) (s : State) : Host.Outcome State Fault Refusal := .next (s.instCommand secure inst.val 3)
/-- INST_RESTORE (15 R363, R365). -/
def execInstRestore (secure : Bool) (inst : Fin 512) (s : State) : Host.Outcome State Fault Refusal := .next (s.instCommand secure inst.val 4)
/-- INST_RESET (15 R363). -/
def execInstReset (secure : Bool) (inst : Fin 512) (s : State) : Host.Outcome State Fault Refusal := .next (s.instCommand secure inst.val 5)
/-- INST_FREEZE_DONE (15 R363): the writes of the segment in progress are complete; a RESET aborts the descriptor in progress. -/
def execInstFreezeDone (inst : Fin 512) (s : State) : Host.Outcome State Fault Refusal :=
  let i := inst.val
  let x := s.inst i
  if x.st ≠ .freezing || x.waits then .next s
  else if x.doing = .aborting then
    .next (if x.ioErr ≠ 0 then (s.updInst i (fun x => { x with ioErr := 0 })).cplFail i else s.cplDone i)
  else if x.doing ≠ .none || (x.started && (!x.ioGot.isEmpty || x.ioErr != 0)) then .next s
  else
    let t := s.updInst i (fun x => { x with done := x.done + x.flight, flight := 0, ioGot := [], ioErr := 0 })
    if !x.resetting then .next (t.updInst i (fun x => { x with st := .frozen }))
    else if x.started then .next ((t.complete i 7 .aborting).getD s)
    else .next (t.updInst i Inst.resetEnd)

/-! The state record (15 R364, R365). -/

/-- DESC_RING as it reads. -/
def Inst.descRing (x : Inst) : Word := x.descBase ||| BitVec.ofNat 64 x.log2
/-- The words of a state record but its checksum: what the record's own writer put in and the instance's state. -/
def Inst.words (x : Inst) (world : Tag) (num : Nat) (pkg : BitVec 12) (rate stamp : Word) : List Word :=
  [BitVec.ofNat 64 (0x49564D44 + 2 ^ 32), BitVec.ofNat 64 (world.toNat + num * 2 ^ 16 + pkg.toNat * 2 ^ 32),
   x.descRing, x.cplBase, x.stream.setWidth 64, x.intCpl, x.intGmbx, x.intHmbx,
   BitVec.ofNat 64 (x.head.toNat + x.tail.toNat * 2 ^ 16 + b2n x.phase * 2 ^ 32), 0,
   BitVec.ofNat 64 (x.done + b2n x.poisoned * 2 ^ 63), BitVec.ofNat 64 x.listPos, x.crc.setWidth 64,
   (match x.diff with | some n => BitVec.ofNat 64 n | none => BitVec.allOnes 64), 0, 0] ++
  (if x.started then (List.range 8).map (fun k => x.desc.getD k 0) else List.replicate 8 0) ++
  (List.range 8).map (Tbl.get 0 x.h2g) ++ (List.range 8).map (Tbl.get 0 x.g2h) ++
  [BitVec.ofNat 64 (x.h2gPend.toNat + x.g2hPend.toNat * 2 ^ 8), rate, stamp] ++ List.replicate 84 0
/-- The bytes of a record, its checksum in the last four. -/
def recordBytes (ws : List Word) : List Byte :=
  let b := (ws.flatMap (fun w => Crypto.leBytes 8 w.toNat)) ++ Crypto.leBytes 4 0
  b ++ Crypto.leBytes 4 (Crypto.crc32c b).toNat
/-- RATE and BURST of a slot's regulator, in their places of TRN_REG. -/
def State.slotRate (s : State) (x : Inst) : Word := s.ctlGet (regAddr (0xC8 + x.engine) x.slot) &&& 0x0FFF0FFF
/-- A SAVE or RESTORE has met a read or write error (15 R363). -/
def State.stateIoFail (s : State) (i : Nat) : State :=
  (s.logError (.mover (s.inst i).engine) 0x0A09 3 (s.instWorld i) none none).updInst i (fun x =>
    { x with st := .frozen, doing := .none, cmdErr := true, ioAsk := [], ioGot := [], ioWrites := [], ioErr := 0 })
/-- The lines of a state record. -/
def Inst.recordLines (x : Inst) : List Nat := (List.range 16).map (fun k => x.savePa.toNat / 64 + k)
/-- INST_SAVE_DONE (15 R363, R364). -/
def execInstSaveDone (inst : Fin 512) (s : State) : Host.Outcome State Fault Refusal :=
  let i := inst.val
  let x := s.inst i
  let done := fun (s : State) => s.updInst i (fun x => { x with st := .frozen, doing := .none })
  let unsettled := fun (s : State) => (s.inst i).waits || (s.mirrored && s.chans.any (fun c => !c.2.mirrors.isEmpty))
  if x.st ≠ .busy then .next s
  else match x.doing with
    | .saving =>
      let g := x.recordLines.foldl (fun (p : State × Gather) l => let q := p.1.mayPut i l; (q.1, p.2.and q.2)) (s, Gather.ok)
      match g with
      | (s, .ok) =>
        let b := recordBytes (x.words (s.instWorld i) i s.pkgId (s.slotRate x) (s.stamp 16))
        let s := (List.range 16).foldl (fun s k => s.moverPut i (x.savePa.toNat / 64 + k) (lineOf ((b.drop (64 * k)).take 64)) (byteMask 0 64) false) s
        .next (if unsettled s then s.updInst i (fun x => { x with doing := .savingSent }) else done s)
      | (s, .fail _) => .next (s.stateIoFail i)
      | _ => .next s
    | .savingSent =>
      if x.ioErr ≠ 0 then .next (s.stateIoFail i)
      else if unsettled s then .next s
      else .next (done s)
    | _ => .next s
/-- The fields of an interrupt target: PKG = 1 is reserved on an unpaired package, TARGET names a present thread of the package that PKG is left at, INTID lies in 32 to 1022
(04 R124; 15 R357). DEDUCED (log 20): the partner's threads are those of its cores, which are as many to a die as here (13 R314). -/
def State.targetFields (s : State) (old w : Word) : List Field :=
  let pkg := if s.paired then fieldOf w 52 52 else fieldOf old 52 52
  let here := fun (t : Nat) => if pkg = s.pkgBit then s.thrPresent t else s.paired && decide (t / 2 % 32 < s.perDie)
  [fld 63 63 .rw 0, fld 52 52 .rw 0 (if s.paired then .any else .range 0 0),
   fld 51 42 .rw 0 (.values ((List.range 1024).filter here)), fld 9 0 .rw 0 (.range 32 1022)]
/-- An interrupt target as a record may hold it: never written, or without reserved encodings. -/
def State.targetOk (s : State) (w : Word) : Bool :=
  w == 0 || (writeFields (s.targetFields 0 w) 0 w == w)
/-- The instance that a record describes, bound where the old one is; none where RESTORE refuses it (15 R365). -/
def State.recordInst (s : State) (i : Nat) (b : List Byte) : Option Inst :=
  let ws := bytesWords 128 b
  let w := fun (k : Nat) => ws.getD k 0
  let old := s.inst i
  let desc := (ws.drop 16).take 8
  let started := desc.any (· ≠ 0)
  let tbl := fun (k : Nat) => (List.range 8).foldl (fun (t : Tbl Word) n => Tbl.set 0 t n (w (k + n))) []
  let x : Inst := { Inst.reset with
    st := .frozen, cmdErr := old.cmdErr, engine := old.engine, slot := old.slot, savePa := old.savePa
    descBase := w 2 &&& ~~~ (0xFFF : Word), log2 := fieldOf (w 2) 4 0, cplBase := w 3, stream := (w 4).setWidth 16
    intCpl := w 5, intGmbx := w 6, intHmbx := w 7
    head := (w 8).setWidth 16, tail := BitVec.ofNat 16 (fieldOf (w 8) 31 16), phase := bit (w 8) 32
    started := started, desc := if started then desc else [], done := fieldOf (w 10) 62 0, poisoned := bit (w 10) 63, listPos := (w 11).toNat
    crc := (w 12).setWidth 32, diff := if w 13 = BitVec.allOnes 64 then none else some (w 13).toNat
    h2g := tbl 24, g2h := tbl 32, h2gPend := (w 40).setWidth 8, g2hPend := BitVec.ofNat 8 (fieldOf (w 40) 15 8) }
  let again := recordBytes (x.words (s.instWorld i) (fieldOf (w 1) 24 16) (BitVec.ofNat 12 (fieldOf (w 1) 43 32)) (w 41 &&& 0x0FFF0FFF) (w 42))
  let fine := again == b && decide (4 ≤ x.log2 ∧ x.log2 ≤ 16) && fieldOf x.cplBase 11 0 == 0 &&
    s.targetOk x.intCpl && s.targetOk x.intGmbx && s.targetOk x.intHmbx &&
    (!started || (descOk desc && decide (x.done ≤ descLen desc ∧ x.listPos ≤ 256))) && (started || x.done == 0)
  if fine then some x else none
/-- INST_RESTORE_DONE (15 R365). -/
def execInstRestoreDone (inst : Fin 512) (s : State) : Host.Outcome State Fault Refusal :=
  let i := inst.val
  let x := s.inst i
  if x.st ≠ .busy || x.doing ≠ .restoring then .next s
  else if x.ioErr ≠ 0 then .next (s.stateIoFail i)
  else if x.waits then .next s
  else match s.gather i x.recordLines with
    | (t, .ok) =>
      let ls := x.recordLines.map (t.gathered i)
      if ls.any (fun q => q.2) then .next (t.stateIoFail i)
      else match t.recordInst i (ls.flatMap (fun q => lineBytes q.1)) with
        | some y => .next (t.updInst i (fun _ => y))
        | none => .next (t.updInst i (fun x => { Inst.reset with st := .frozen, engine := x.engine, slot := x.slot, savePa := x.savePa, cmdErr := true }))
    | (t, .fail _) => .next (t.stateIoFail i)
    | (t, .wait) => .next t
    | _ => .next s

/-! Doorbells, the mailbox and the pages of an instance (15 R356 to R358, R362). -/

/-- DB_TAIL_WRITE (15 R358). -/
def execDbTailWrite (secure : Bool) (inst : Fin 512) (tail : BitVec 16) (s : State) : Host.Outcome State Fault Refusal :=
  .next (if s.instOpen inst.val secure then s.updInst inst.val (fun x => { x with tail := tail }) else s)
/-- A doorbell of the hypervisor or of the guest. -/
def State.doorbell (s : State) (i : Nat) (toGuest : Bool) (mask : BitVec 8) : State :=
  let x := s.inst i
  let s := s.updInst i (fun x => if toGuest then { x with h2gPend := x.h2gPend ||| mask } else { x with g2hPend := x.g2hPend ||| mask })
  s.sendTarget x.engine (if toGuest then x.intGmbx else x.intHmbx) (s.instWorld i == 0xFFF)
/-- H2G_DB (15 R362). -/
def execH2gDb (secure : Bool) (inst : Fin 512) (mask : BitVec 8) (s : State) : Host.Outcome State Fault Refusal :=
  .next (if s.instOpen inst.val secure then s.doorbell inst.val true mask else s)
/-- G2H_DB (15 R362). -/
def execG2hDb (secure : Bool) (inst : Fin 512) (mask : BitVec 8) (s : State) : Host.Outcome State Fault Refusal :=
  .next (if s.instOpen inst.val secure then s.doorbell inst.val false mask else s)
/-- The number of a state in INST_CTL. -/
def InstState.num : InstState → Nat
  | .unbound => 0 | .running => 1 | .freezing => 2 | .frozen => 3 | .busy => 4
/-- A register of an instance's pages, at an offset that is a multiple of 8 (15 R356); the pages of an unbound instance read zero. -/
def State.instRead (s : State) (i off : Nat) : Word :=
  let x := s.inst i
  let n := off / 8 % 8
  if x.st = .unbound then 0
  else match off with
    | 0 => x.tail.setWidth 64
    | 8 => x.head.setWidth 64
    | 0x1188 => x.h2gPend.setWidth 64
    | 0x2000 => BitVec.ofNat 64 (x.st.num * 2 ^ 61 + b2n x.cmdErr * 2 ^ 60 + x.engine * 2 ^ 56 + x.slot * 2 ^ 50)
    | 0x2008 => x.descRing
    | 0x2010 => x.cplBase
    | 0x2018 => x.stream.setWidth 64
    | 0x2020 => x.savePa
    | 0x2028 => x.intCpl
    | 0x2030 => x.intGmbx
    | 0x2038 => x.intHmbx
    | 0x2188 => x.g2hPend.setWidth 64
    | _ =>
      if (0x1100 ≤ off ∧ off < 0x1140) ∨ (0x2100 ≤ off ∧ off < 0x2140) then Tbl.get 0 x.h2g n
      else if (0x1140 ≤ off ∧ off < 0x1180) ∨ (0x2140 ≤ off ∧ off < 0x2180) then Tbl.get 0 x.g2h n else 0
/-- A write of an instance's pages: the bytes written, and which they are (log 19). -/
def State.instWrite (s : State) (i off : Nat) (w m : Word) : State :=
  let x := s.inst i
  let n := off / 8 % 8
  let full := fun (old : Word) => (old &&& ~~~ m) ||| (w &&& m)
  let set_ := fun (f : Inst → Inst) => s.updInst i f
  let frozen := x.st == .frozen
  let target := fun (old : Word) => writeFields (s.targetFields old (full old)) old (full old)
  if x.st = .unbound then s
  else match off with
    | 0 => set_ (fun x => { x with tail := (full (x.tail.setWidth 64)).setWidth 16 })
    | 0x1180 => s.doorbell i false ((w &&& m).setWidth 8)
    | 0x2180 => s.doorbell i true ((w &&& m).setWidth 8)
    | 0x1188 => set_ (fun x => { x with h2gPend := x.h2gPend &&& ~~~ (w &&& m).setWidth 8 })
    | 0x2188 => set_ (fun x => { x with g2hPend := x.g2hPend &&& ~~~ (w &&& m).setWidth 8 })
    | 0x2000 =>
      let s := if bit (w &&& m) 60 then set_ (fun x => { x with cmdErr := false }) else s
      let c := fieldOf (w &&& m) 2 0
      if c = 0 then s else s.updInst i (fun x => x.command c)
    | 0x2008 => if frozen then set_ (fun x =>
        let v := full x.descRing
        { x with descBase := v &&& ~~~ (0xFFF : Word), log2 := if 4 ≤ fieldOf v 4 0 ∧ fieldOf v 4 0 ≤ 16 then fieldOf v 4 0 else x.log2 }) else s
    | 0x2010 => if frozen then set_ (fun x => { x with cplBase := full x.cplBase &&& ~~~ (0xFFF : Word) }) else s
    | 0x2018 => if frozen then set_ (fun x => { x with stream := (full (x.stream.setWidth 64)).setWidth 16 }) else s
    | 0x2020 => set_ (fun x => { x with savePa := full x.savePa &&& 0x1FFFFFFFFFFFC00 })
    | 0x2028 => if frozen then set_ (fun x => { x with intCpl := target x.intCpl }) else s
    | 0x2030 => if frozen then set_ (fun x => { x with intGmbx := target x.intGmbx }) else s
    | 0x2038 => if frozen then set_ (fun x => { x with intHmbx := target x.intHmbx }) else s
    | _ =>
      if 0x2100 ≤ off ∧ off < 0x2140 then set_ (fun x => { x with h2g := Tbl.set 0 x.h2g n (full (Tbl.get 0 x.h2g n)) })
      else if 0x1140 ≤ off ∧ off < 0x1180 then set_ (fun x => { x with g2h := Tbl.set 0 x.g2h n (full (Tbl.get 0 x.g2h n)) }) else s

end Sys2Proof.Machine
end

