-- ==== Sys2Proof/Machine/Power.lean ====
section
/-! DEFINITION. Power and clocks: requests and their worlds, tile states, the slew governor, Vernier, P1, thermal signals and PMBus (14 R352, R353; 17; 04 R123; 06 R174, R179; 07 R202; 08 R228). -/

namespace Sys2Proof.Machine

/-! Requests (14 R352; 17 R385). -/

/-- PWR_REQ of a block of a die. -/
def pwrReqAddr (d i : Nat) : Nat := caddr d 0xD8 (0x300 + i)
/-- PWR_SEC of a block of a die. -/
def pwrSecAddr (d i : Nat) : Nat := caddr d 0xD8 (0x400 + i)
/-- SEC_HOLD of a block. -/
def State.secHold (s : State) (d i : Nat) : Bool := bit (s.ctlGet (pwrSecAddr d i)) 15
/-- SEC_FLOOR of a block. -/
def State.secFloor (s : State) (d i : Nat) : Nat := fieldOf (s.ctlGet (pwrSecAddr d i)) 5 0
/-- S_VALID of a block. -/
def State.secReq (s : State) (d i : Nat) : Bool := bit (s.ctlGet (pwrReqAddr d i)) 31
/-- The state that a block's request in force names. -/
def State.effState (s : State) (d i : Nat) : Nat :=
  let w := s.ctlGet (pwrReqAddr d i)
  if bit w 31 then fieldOf w 30 29 else fieldOf w 14 13
/-- The clock that a tile's request in force names, a Normal one clamped to the floor. -/
def State.effFreq (s : State) (d i : Nat) : Nat :=
  let w := s.ctlGet (pwrReqAddr d i)
  if bit w 31 then fieldOf w 28 23 else max (fieldOf w 12 7) (s.secFloor d i)
/-- LAST of a block: 0 DONE, 1 HELD, 2 CLAMPED, 3 WAITING. -/
def State.setLast (s : State) (d i v : Nat) : State := s.ctlField (pwrReqAddr d i) 55 54 v
/-- A POWER event of a die's power controller, whose code and payload the spec does not state (02 R54; log 6). -/
def State.powerEvent (s : State) (d : Nat) : State := s.noteFree (.power d) 2
/-- A Normal request is refused or clamped: status, event and REFUSED (14 R352). -/
def State.refusePower (s : State) (d i status : Nat) : State := ((s.setLast d i status).powerEvent d).ctlCount (pwrSecAddr d i) 63 48

/-! The slew governor's queue (17 R392). -/

/-- The node of a tile. -/
def State.tileNode (s : State) (n : Nat) : Nat := (s.node (.home (n / 36) (n % 36))).toNat
/-- The current of a tile in a state at a clock, in mA (17 R383, R392). -/
def tileCurrent (st : TileState) (freq : Nat) : Int := match st with | .t0 => 30 * freq | .t1 => 120 | .t2 => 35 | .t3 => 2
/-- Two changes concern the same thing. -/
def SlewKind.same : SlewKind → SlewKind → Bool
  | .clock a _, .clock b _ => a == b
  | .uncore a _, .uncore b _ => a == b
  | .enter a, .enter b => a == b
  | .wake a, .wake b => a == b
  | _, _ => false
/-- Put a request into its place: by stamp, then node (09 R247). -/
def slewInsert (r : SlewReq) : List SlewReq → List SlewReq
  | [] => [r]
  | q :: l => if r.stamp.toNat < q.stamp.toNat ∨ (r.stamp = q.stamp ∧ r.node < q.node) then r :: q :: l else q :: slewInsert r l
/-- Ask the governor for a change, in place of an earlier request for the same thing. -/
def State.slewAsk (s : State) (d node : Nat) (kind : SlewKind) (delta : Int) : State :=
  let rest := s.power.waiting.filter (fun q => !q.kind.same kind)
  { s with power := { s.power with waiting := slewInsert { node := node, kind := kind, delta := delta, stamp := s.stamp d, ready := none } rest } }
/-- A request stands before the governor. -/
def State.slewAsked (s : State) (kind : SlewKind) : Bool := s.power.waiting.any (fun q => q.kind.same kind)
/-- A change has been admitted and not used. -/
def State.slewGranted (s : State) (kind : SlewKind) : Bool := s.power.granted.any (fun q => q.kind.same kind)
/-- Withdraw a change, waiting or admitted. -/
def State.slewDrop (s : State) (kind : SlewKind) : State :=
  { s with power := { s.power with waiting := s.power.waiting.filter (fun q => !q.kind.same kind), granted := s.power.granted.filter (fun q => !q.kind.same kind) } }

/-! Clocks (17 R380, R385, R390, R391). -/

/-- The clock a tile is to run at: its request, its limit, and 0.8 GHz while PROCHOT_N is low. -/
def State.goalFreq (s : State) (n : Nat) : Nat :=
  if s.power.prochot then 8 else min (s.effFreq (n / 36) (n % 36)) (s.tile n).limit
/-- A running tile asks for its clock where it runs at another. -/
def State.retarget (s : State) (n : Nat) : State :=
  let q := s.tile n
  let g := s.goalFreq n
  if q.st ≠ .t0 then s
  else if q.freq = g then s.slewDrop (.clock n g)
  else s.slewAsk (n / 36) (s.tileNode n) (.clock n g) (30 * (g : Int) - 30 * (q.freq : Int))
/-- A Normal request for an uncore state: D1 is refused where a floor stands (14 R352). -/
def State.uncoreGoal (s : State) (d : Nat) : Bool := s.effState d 36 == 1 && (s.secReq d 36 || s.secFloor d 36 == 0)
/-- An uncore moves toward a state. -/
def State.uncoreAsk (s : State) (d : Nat) (slow : Bool) : State :=
  if (s.die d).parked || !(s.die d).inService then s
  else if (s.die d).slow = slow then s.slewDrop (.uncore d slow)
  else s.slewAsk d (s.node (.power d)).toNat (.uncore d slow) (if slow then 550 - 5000 else 5000 - 550)

/-- The port of a hub block at the crossbar (11 R285). -/
def hubPort (i : Nat) : Nat := caddr 16 0xD1 (0x100 + i)
/-- A hub block has nothing under way: the queue of a memory channel, the requests of a root port, the frames and waits of a system link, the
descriptors of a Data Mover engine (11 R283). -/
def State.hubDrained (s : State) (i : Nat) : Bool :=
  if i < 24 then (s.chan i).reads.isEmpty && (s.chan i).repair.isNone && (s.chan i).mirrors.isEmpty
  else if i < 34 then (s.port (i - 24)).posted.isEmpty && (s.port (i - 24)).reqs.isEmpty && (s.port (i - 24)).away.isEmpty
  else if i < 42 then (s.link (i - 34)).waits.isEmpty && (s.link (i - 34)).serves.isEmpty && (s.link (i - 34)).queue.isEmpty && (s.link (i - 34)).snoops.isEmpty
  else if i < 46 then s.insts.all (fun p => p.2.engine != i - 42 || p.2.st != .running || (p.2.outstanding == 0 && !p.2.started))
  else true
/-- A hub block that is asked to go off has drained: its island goes off and its port is CLOSING (11 R283). -/
def State.hubClose (s : State) (i : Nat) : State :=
  if s.power.hubAsk.contains i && s.hubDrained i then
    let s := { s with power := { s.power with hubAsk := s.power.hubAsk.filter (· ≠ i), hubOff := i :: s.power.hubOff } }
    (if i < 46 then s.setPortSt (hubPort i) 1 else s).setLast 16 i 0
  else s
/-- A hub island is asked to go off or on: off waits until its block has drained; on, its port is OPENING (11 R283); in minimal mode the Data Mover engines
stay off (18 R405). -/
def State.hubIsland (s : State) (i : Nat) (off : Bool) : State :=
  let p := s.power
  if off then
    (if p.hubOff.contains i then s
     else ({ s with power := { p with hubAsk := i :: p.hubAsk.filter (· ≠ i) } }.setLast 16 i 3).hubClose i)
  else if s.minimalRun && decide (42 ≤ i ∧ i < 46) then s
  else
    let s := { s with power := { p with hubAsk := p.hubAsk.filter (· ≠ i), hubOff := p.hubOff.filter (· ≠ i) } }
    if p.hubOff.contains i && decide (i < 46) then s.setPortSt (hubPort i) 3 else s
/-- A write of PWR_REQ (17 R385; 14 R352). -/
def State.pwrReqPut (s : State) (d i : Nat) (w : Word) : State :=
  let a := pwrReqAddr d i
  let kind := if d = 16 then 2 else if i = 36 then 1 else 0
  let s := s.ctlPut a (writeFields (pwrReqDesc kind 0).fields (s.ctlGet a) w)
  let n := fieldOf (s.ctlGet a)
  let normal := !s.secReq d i
  let floor := s.secFloor d i
  if kind = 0 then
    let s := if normal && decide (n 12 7 < floor) then s.refusePower d i 2 else s.setLast d i 0
    s.retarget (36 * d + i)
  else if kind = 1 then
    let s := if normal && s.effState d 36 == 1 && floor != 0 then s.refusePower d i 2 else s.setLast d i 0
    s.uncoreAsk d (s.uncoreGoal d)
  else if s.effState 16 i = 3 then
    (if normal && s.secHold 16 i then s.refusePower 16 i 1 else (s.setLast 16 i 0).hubIsland i true)
  else (s.setLast 16 i 0).hubIsland i false
/-- PWR_REQ as it reads: the state and the clock of the block. -/
def State.pwrReqRead (s : State) (d i : Nat) : Word :=
  let w := s.ctlGet (pwrReqAddr d i)
  if d = 16 then setField w 63 62 (if s.power.hubOff.contains i then 3 else 0)
  else if i = 36 then setField w 63 62 (if (s.die d).parked then 3 else if (s.die d).slow then 1 else 0)
  else
    let q := s.tile (36 * d + i)
    setField (setField w 63 62 (match q.st with | .t0 => 0 | .t1 => 1 | .t2 => 2 | .t3 => 3)) 61 56 (if q.st = .t0 then q.freq else 0)

/-! The governor's slots (17 R392, R393). -/

/-- What a change does once admitted. -/
def State.slewApply (s : State) (r : SlewReq) : State :=
  match r.kind with
  | .clock n f => (s.updTile n (fun q => { q with freq := f })).setLast (n / 36) (n % 36) 0
  | .uncore d slow => (s.updDie d (fun x => { x with slow := slow })).powerEvent d
  | .wake n =>
    let s := { s with power := { s.power with granted := s.power.granted ++ [r] } }
    if (s.tile n).st = .t3 then s.setPortSt (tilePort n) 3 else s
  | .enter _ => { s with power := { s.power with granted := s.power.granted ++ [r] } }
/-- The magnitude of the changes of a direction in a list. -/
def slewSum (up : Bool) (l : List Int) : Nat := (l.filter (fun x => decide (0 < x) == up && x != 0)).foldl (fun a x => a + x.natAbs) 0
/-- The requests of a direction that a step of at most 400 A announces: from the first on, while they fit. -/
def annTake (up : Bool) : List SlewReq → Nat → List SlewReq
  | [], _ => []
  | r :: l, sum =>
    if r.ready.isNone && decide (0 < r.delta) == up then
      (if sum + r.delta.natAbs ≤ 400000 then r :: annTake up l (sum + r.delta.natAbs) else [])
    else annTake up l sum
/-- Announce the changes of a direction that exceed ANN_THRESH with the unannounced ones of the last µs; 200 ns lie between announcements. -/
def State.slewAnnounce (s : State) (up : Bool) : State :=
  let c := s.ctlGet (caddr 16 0xD8 0x10)
  let p := s.power
  let now := s.stamp 16
  let fresh := annTake up p.waiting 0
  let total := slewSum up ((p.waiting.filter (fun r => r.ready.isNone)).map (fun r => r.delta))
  let lately := slewSum up ((p.recent.filter (fun q => !q.2.2)).map (fun q => q.2.1))
  let spaced := match p.annAt with | some t => decide (now.toNat ≥ t.toNat + 800) | none => true
  if bit c 63 && spaced && total != 0 && decide (total + lately > fieldOf c 45 39 * 1000) then
    let sum := slewSum up (fresh.map (fun r => r.delta))
    let n := (sum + 49999) / 50000 - 1
    { s with power := { p with
        waiting := p.waiting.map (fun r => if fresh.contains r then { r with ready := some (now + BitVec.ofNat 64 (fieldOf c 52 46 * 40)) } else r)
        annAt := some now, vrAnnounce := BitVec.ofNat 4 (b2n up * 8 + n), stb := true } }
  else s
/-- Admit requests in order until one does not fit; the operands are the requests left, and the net change and the room used so far. -/
def State.slewAdmit (cap thresh : Nat) (ann : Bool) : List SlewReq → Int → State → State
  | [], _, s => s
  | r :: l, net, s =>
    let up := decide (0 < r.delta)
    let now := s.stamp 16
    let lately := slewSum up (s.power.recent.map (fun q => q.2.1))
    let unann := slewSum up ((s.power.recent.filter (fun q => !q.2.2)).map (fun q => q.2.1))
    let may := match r.ready with
      | some t => decide (now.toNat ≥ t.toNat)
      | none => if ann then decide (unann + r.delta.natAbs ≤ thresh) else decide (lately + r.delta.natAbs ≤ thresh)
    if may && decide ((net + r.delta).natAbs ≤ cap) then
      let s := { s with power := { s.power with waiting := s.power.waiting.filter (fun q => q != r), recent := s.power.recent ++ [(now, r.delta, r.ready.isSome)] } }
      slewAdmit cap thresh ann l (net + r.delta) (s.slewApply r)
    else s
/-- SLEW_SLOT (17 R392): one slot of 100 ns. -/
def execSlewSlot (s : State) : Host.Outcome State Fault Refusal :=
  let now := s.stamp 16
  if s.power.slotAt ≠ 0 && decide (now.toNat < s.power.slotAt.toNat + 400) then .next s
  else
    let c := s.ctlGet (caddr 16 0xD8 0x10)
    let s := { s with power := { s.power with slotAt := now, stb := false, recent := s.power.recent.filter (fun q => decide (now.toNat < q.1.toNat + 4000)) } }
    let s := s.slewAnnounce true
    let s := if s.power.stb then s else s.slewAnnounce false
    .next (State.slewAdmit (fieldOf c 62 53 * 100) (fieldOf c 45 39 * 1000) (bit c 63) s.power.waiting 0 s)

/-! Tiles (17 R383, R384, R386). -/

/-- The earliest non-zero WAIT_DEADLINE of a tile's threads. -/
def State.tileDeadline (s : State) (n : Nat) : Option Nat :=
  let ds := (s.tileThreads n).flatMap (fun t => [(s.thr t).intN.waitDeadline.toNat, (s.thr t).intS.waitDeadline.toNat])
  (ds.filter (· ≠ 0)).foldl (fun (a : Option Nat) x => match a with | some b => some (min b x) | none => some x) none
/-- The deepest state that the request and the deadlines allow. -/
def State.tileGoal (s : State) (n : Nat) : Nat :=
  let req := s.effState (n / 36) (n % 36)
  match s.tileDeadline n with
  | none => req
  | some t =>
    let now := (s.stamp (n / 36)).toNat
    min req (if t ≥ now + usTicks 1000 then 3 else if t ≥ now + usTicks 20 then 2 else 1)
/-- A thread lets its tile leave T0: it waits in WAITE, or it is held or stopped and fetches nothing. -/
def Thread.rests (x : Thread) : Bool := x.run == .waiting || x.run == .held || x.run == .stopped
/-- A waiting thread of the tile has a wake condition. -/
def State.tileWoken (s : State) (n : Nat) : Bool :=
  (s.tileThreads n).any (fun t => (s.thr t).run == .waiting && (s.thr t).wakeReady (s.stamp (n / 36)))
/-- The stores and outstanding accesses of a tile are done; where not, posted writes are read back (07 R202; 16 R369). -/
def State.tileDrained (s : State) (n : Nat) : Bool :=
  (s.tileThreads n).all (fun t => (s.thr t).stb.isEmpty && (s.thr t).outst.isEmpty && s.mirrorClear t)
/-- The core of a tile holds no L2 line and no Galley entry, and no write-back of the Galley is out. -/
def Core.bare (k : Core) : Bool := k.l2.isEmpty && k.galley.isEmpty && k.hellbox.isEmpty && k.galWb.isEmpty
/-- The core as T3 leaves it: GAL_STAT and TLB_STAT clear, with what the wake is to tell (06 R174; 08 R228). -/
def Core.off (k : Core) : Core :=
  { k with l1i := [], l1d := [], itlb := [], dtlb := [], l2tlb := [], pinned := [], walkCache := [], streams := []
           galRefused := false, galUnlocked := false, galLockFull := false, galLost := false, tlbUnpinned := false, tlbLockFull := false, tlbLost := false }
/-- A tile enters a state. -/
def State.tileEnter (s : State) (n c st : Nat) : State :=
  let s := (s.powerEvent (n / 36)).setLast (n / 36) (n % 36) 0
  let k := s.core c
  match st with
  | 1 => s.updTile n (fun q => { q with st := .t1 })
  | 2 => (s.updTile n (fun q => { q with st := .t2 })).updCore c (fun k => { k with l1i := [], l1d := [] })
  | _ =>
    let s := s.updTile n (fun q => { q with st := .t3, tlbLost := q.tlbLost || !k.pinned.isEmpty })
    let s := (s.updCore c Core.off).setPortSt (tilePort n) 1
    [2 * c, 2 * c + 1].foldl (fun s t => (s.predClear t).updThr t (fun x => { x with hist := 0, path := [], fetchBuf := none })) s
/-- Write the L2 and the Galley back on the way to T3; a lock that goes is remembered for the wake (08 R228). -/
def State.tileEmpty (s : State) (n c : Nat) : State :=
  let locked := (s.core c).locked != 0
  (((s.updTile n (fun q => { q with galLost := q.galLost || locked })).updCore c (fun k => { k with l1i := [], l1d := [] })).emptyL2 c).emptyGal c
/-- TILE_STATE_ENTERED (17 R384, R386): what must come before an entry is begun where it is not done. -/
def execTileStateEntered (tile : Fin 576) (s : State) : Host.Outcome State Fault Refusal :=
  let n := tile.val
  let d := n / 36
  let q := s.tile n
  let cur := match q.st with | .t0 => 0 | .t1 => 1 | .t2 => 2 | .t3 => 3
  match s.tileCore n with
  | none => .next s
  | some c =>
    if q.waking || !(s.tileThreads n).all (fun t => (s.thr t).rests) then .next s
    else if s.tileWoken n then .next (s.slewDrop (.enter n))
    else
      let goal := s.tileGoal n
      let normal := !s.secReq d (n % 36)
      let held := normal && decide (goal ≥ 2) && s.secHold d (n % 36)
      let s := if held && !s.power.refusedOnce.contains n then
          { s.refusePower d (n % 36) 1 with power := { s.power with refusedOnce := n :: s.power.refusedOnce } } else s
      let goal := if held then 1 else goal
      let inEncl := (s.tileThreads n).filter (fun t => (s.thr t).encl.isSome)
      if goal ≤ cur then .next s
      else if goal ≥ 2 && normal && !inEncl.isEmpty then
        .next (inEncl.foldl (fun s t => match (s.thr t).encl with
          | some e => (s.enclExit t e (s.thr t).npc 0).updThr t (fun x => { x with hold := .left })
          | none => s) s)
      else if goal ≥ 2 && !s.tileDrained n then
        .next ((s.tileThreads n).foldl (fun s t => s.coverPosted t) (((s.core c).mirror).foldl (fun s e => s.mirrorSend c e) s))
      else if goal = 3 && !(s.core c).bare then .next (s.tileEmpty n c)
      else
        let kind := SlewKind.enter n
        let st : TileState := if goal = 1 then .t1 else if goal = 2 then .t2 else .t3
        if s.slewGranted kind then .next ((s.slewDrop kind).tileEnter n c goal)
        else if s.slewAsked kind then .next s
        else .next ((s.slewAsk d (s.tileNode n) kind (tileCurrent st 0 - tileCurrent q.st q.freq)).setLast d (n % 36) 3)
/-- The interrupts and events that a tile's pending register holds reach its threads (04 R123); a die refuses a message only once (04 R119). -/
def State.pendRelease (s : State) (n c : Nat) : State :=
  let q := s.tile n
  let s := (q.pend.foldl (fun (p : State × List Nat) m =>
    let r := p.1.deliver m.target.val m m.stamp (m.quiet || p.2.contains m.batch)
    (r.1, if r.2 && m.batch != 0 then m.batch :: p.2 else p.2)) (s.updTile n (fun q => { q with pend := [], sevt := false }), [])).1
  if q.sevt then [2 * c, 2 * c + 1].foldl (fun s t => s.updThr t (fun x => { x with eventFlag := true })) s else s
/-- An engine's quiesces are released, all or those that a condition names: their scopes reopen, and a core that runs takes the interrupts held for it
(20 R437; 04 R123). -/
def State.quiesceEnd (s : State) (e : Nat) (which : Quiesce → Bool) : State :=
  let gone := s.quiesces.filter (fun q => q.engine == e && which q)
  let s := { s with quiesces := s.quiesces.filter (fun q => !(q.engine == e && which q)) }
  gone.foldl (fun s q =>
    if q.scope = 1 && !s.quiesced (2 * q.target) && (s.tile (s.tileOf q.target)).st != .t3 && s.portSt (tilePort (s.tileOf q.target)) == 0 then
      s.pendRelease (s.tileOf q.target) q.target
    else s) s
/-- What a waking tile applies before either thread fetches: TLBIs recorded in T2, held interrupts and events, and the marks of what T3 lost. -/
def State.tileResume (s : State) (n c : Nat) : State :=
  let q := s.tile n
  let s := q.tlbis.foldl (fun s r => s.tlbiCore c r) s
  let s := if q.fullDiscard then s.updCore c Core.tlbFlush else s
  let s := s.updCore c (fun k => { k with galLost := k.galLost || q.galLost, tlbLost := k.tlbLost || q.tlbLost })
  if s.quiesced (2 * c) then s else s.pendRelease n c
/-- TILE_WAKE_DONE (17 R384; 04 R123; 06 R179). -/
def execTileWakeDone (tile : Fin 576) (s : State) : Host.Outcome State Fault Refusal :=
  let n := tile.val
  let d := n / 36
  let q := s.tile n
  match s.tileCore n with
  | none => .next s
  | some c =>
    if !q.waking || q.st = .t0 || s.power.pkg ≠ .p0 || s.halted then .next s
    else
      let kind := SlewKind.wake n
      let f := s.goalFreq n
      if s.slewGranted kind then
        let s := (s.slewDrop kind).tileResume n c
        let s := s.updTile n (fun q => { q with st := .t0, waking := false, tlbis := [], fullDiscard := false, tlbLost := false, galLost := false, freq := f })
        let s := if q.st = .t3 then (s.setPortSt (tilePort n) 0).ctlField (tilePort n) 47 40 0 else s
        .next (({ s with power := { s.power with refusedOnce := s.power.refusedOnce.filter (· ≠ n) } }.powerEvent d).setLast d (n % 36) 0)
      else if s.slewAsked kind then .next s
      else .next (((s.slewDrop (.enter n)).slewAsk d (s.tileNode n) kind (tileCurrent .t0 f - tileCurrent q.st 0)).setLast d (n % 36) 3)

/-! Ports that close and open (11 R283). -/

/-- The hub block whose port stands at an address; none for another port. -/
def portBlock (a : Nat) : Option Nat := (List.range 46).find? (fun i => hubPort i == a)
/-- PORT_CLOSED (11 R283): a drained hub block's port begins to close, and a port is CLOSED once every flit accepted while it was OPEN has been delivered. -/
def execPortClosed (port : PortId) (s : State) : Host.Outcome State Fault Refusal :=
  let a := portAddr port
  let s := match portBlock a with | some i => s.hubClose i | none => s
  if s.portSt a = 1 && !s.net.any (fun f => f.inside && s.portOf f == some a) then .next (s.setPortSt a 2) else .next s
/-- The domain behind a port is ready (11 R283): its tile has left T3, its die is out of D3, its hub island is on. -/
def State.domainReady (s : State) (a : Nat) : Bool :=
  (List.range 576).all (fun n => tilePort n != a || (s.tile n).st != .t3) && (List.range 16).all (fun d => caddr 16 0xD1 (0x140 + d) != a || s.dieOn d) &&
    (match portBlock a with | some i => !s.power.hubOff.contains i | none => true)
/-- PORT_OPENED (11 R283). -/
def execPortOpened (port : PortId) (s : State) : Host.Outcome State Fault Refusal :=
  let a := portAddr port
  if s.portSt a = 3 && s.domainReady a then .next ((s.setPortSt a 0).ctlField a 47 40 0) else .next s

/-! Vernier (17 R382). -/

/-- An island is present: tiles 0 to 35 and the uncore of a compute die, 0 to 46 of the hub die. -/
def islandOk (d i : Nat) : Bool := d == 16 || decide (i ≤ 36)
/-- The island's clock is stretched. -/
def State.stretched (s : State) (d i : Nat) : Bool :=
  if d = 16 then s.power.hubStretch.contains i else if i = 36 then (s.die d).stretched else (s.tile (36 * d + i)).stretched
/-- Stretch or release an island's clock. -/
def State.setStretch (s : State) (d i : Nat) (on : Bool) : State :=
  if d = 16 then { s with power := { s.power with hubStretch := if on then i :: s.power.hubStretch else s.power.hubStretch.filter (· ≠ i) } }
  else if i = 36 then s.updDie d (fun x => { x with stretched := on })
  else s.updTile (36 * d + i) (fun q => { q with stretched := on })
/-- VERNIER_DROOP (17 R382). -/
def execVernierDroop (die : Fin 17) (island : Fin 47) (s : State) : Host.Outcome State Fault Refusal :=
  if !islandOk die.val island.val || s.stretched die.val island.val then .next s
  else .next ((s.setStretch die.val island.val true).ctlCount (pwrReqAddr die.val island.val) 53 38)
/-- VERNIER_RELEASE (17 R382). -/
def execVernierRelease (die : Fin 17) (island : Fin 47) (s : State) : Host.Outcome State Fault Refusal :=
  if islandOk die.val island.val && s.stretched die.val island.val then .next (s.setStretch die.val island.val false) else .next s

/-! Limits and thermal signals (17 R390, R391). -/

/-- POWER_LIMIT_TICK (17 R390): a limit never goes below the tile's floor. -/
def execPowerLimitTick (limits : List (Fin 576 × Fin 40)) (s : State) : Host.Outcome State Fault Refusal :=
  .next (limits.foldl (fun s p =>
    let n := p.1.val
    (s.updTile n (fun q => { q with limit := max p.2.val (s.secFloor (n / 36) (n % 36)) })).retarget n) s)
/-- Every tile's clock is looked at again. -/
def State.retargetAll (s : State) : State := (s.tiles.map Prod.fst).foldl State.retarget s
/-- PROCHOT_ASSERT (17 R391). -/
def execProchotAssert (s : State) : Host.Outcome State Fault Refusal := .next { s with power := { s.power with prochot := true } }.retargetAll
/-- PROCHOT_DEASSERT (17 R391). -/
def execProchotDeassert (s : State) : Host.Outcome State Fault Refusal := .next { s with power := { s.power with prochot := false } }.retargetAll
/-- THERMTRIP (17 R391): every island clock stops, and the sticky summary takes a FAT event. -/
def execThermtrip (s : State) : Host.Outcome State Fault Refusal :=
  let r : RecordIn := { node := s.node (.power 16), code := 0x0E01, sev := 4, world := 0xFFF, addr := none, thread := none, synd := 0 }
  let s := s.event 16 r.node 0 0xFFF 4 0x0E01 (s.stamp 16) (errorPayload (s.locator 16 0 0) r)
  .next { s with power := { s.power with thermtrip := true }, errs := { s.errs with summary := s.errs.summary ||| summaryBits 4 0xFFF } }

/-! P1 (17 R388). -/

/-- Every tile is in T2 or T3, none waking. -/
def State.tilesDeep (s : State) : Bool := s.tiles.all (fun p => (p.2.st == .t2 || p.2.st == .t3) && !p.2.waking)
/-- A Data Mover instance runs with descriptors outstanding. -/
def State.moversBusy (s : State) : Bool := s.insts.any (fun p => p.2.st == .running && (p.2.outstanding != 0 || p.2.started))
/-- P1_ENTER (17 R388; 14 R352). -/
def execP1Enter (s : State) : Host.Outcome State Fault Refusal :=
  if !bit (s.ctlGet (caddr 16 0xD8 0x10)) 9 || s.power.pkg ≠ .p0 || !s.tilesDeep || s.moversBusy then .next s
  else
    let s := (List.range 16).foldl (fun s d =>
      if !s.dieOn d then s
      else if s.secFloor d 36 ≠ 0 && !s.secReq d 36 then s.refusePower d 36 2 else s.uncoreAsk d true) s
    let s := s.trained.foldl (fun s ch =>
      if s.secHold 16 ch then s.refusePower 16 ch 1 else s.updChan ch (fun c => { c with selfRefresh := true })) s
    .next ({ s with power := { s.power with pkg := .p1 } }.powerEvent 16)
/-- P1_EXIT (17 R388). -/
def execP1Exit (s : State) : Host.Outcome State Fault Refusal :=
  if s.power.pkg ≠ .p1 then .next s
  else
    let s := (List.range 16).foldl (fun s d => s.uncoreAsk d (s.uncoreGoal d)) s
    let s := s.trained.foldl (fun s ch => s.updChan ch (fun c => { c with selfRefresh := false })) s
    .next ({ s with power := { s.power with pkg := .p0 } }.powerEvent 16)

/-! PMBus (17 R395). -/

/-- PMBUS_POLL (17 R395). -/
def execPmbusPoll (vout iout temp : BitVec 16) (s : State) : Host.Outcome State Fault Refusal :=
  .next { s with mc := { s.mc with telemetry := some (vout, iout, temp) } }
/-- PMB_ALERT (17 R395): an event, a CE record whose syndrome holds STATUS_WORD (log 6), and the fault is cleared. -/
def execPmbAlert (status : BitVec 16) (s : State) : Host.Outcome State Fault Refusal :=
  let s := (s.powerEvent 16).record 16 { node := s.node .mc, code := 0x0D01, sev := 1, world := 0xFFF, addr := none, thread := none, synd := BitVec.ofNat 256 (Config.syndrome 0x0D01 (s.stamp 16).toNat status.toNat) }
  .next { s.1 with mc := { s.1.mc with pmbAlert := false } }

end Sys2Proof.Machine
end

