-- ==== Sys2Proof/Machine/Reset.lean ====
section
/-! DEFINITION. Resets and boot: what each reset clears and keeps, attempts and their record, the boot stages, the Secure watchdog and P5 (14 R351; 17 R389; 18; 21 R447, R454). -/

namespace Sys2Proof.Machine

/-! The MC's events and record of attempts (18 R404, R407). -/

/-- The MC. -/
def State.mcAgent (_ : State) : Agent := .mc
/-- A RESET event: a request discarded (18 R397). -/
def State.resetEvent (s : State) : State := s.noteFree s.mcAgent 1
/-- COUNT of BOOT_TRIES (18 R404). -/
def Mc.count (m : Mc) : Nat := fieldOf m.tries 2 0
/-- MINIMAL of BOOT_TRIES (18 R405). -/
def Mc.minimal (m : Mc) : Bool := bit m.tries 6
/-- HALTED of BOOT_TRIES (18 R406). -/
def Mc.haltedBit (m : Mc) : Bool := bit m.tries 7
/-- LIMIT of BOOT_TRIES (18 R404). -/
def Mc.limit (m : Mc) : Nat := fieldOf m.tries 5 3
/-- Replace a field of BOOT_TRIES. -/
def State.setTries (s : State) (hi lo v : Nat) : State := { s with mc := { s.mc with tries := setField s.mc.tries hi lo v } }
/-- The attempt's entry of BOOT_REASON. -/
def State.bootEntry (s : State) : BootEntry := Tbl.get BootEntry.empty s.mc.reasons s.mc.entry
/-- Change the attempt's entry. -/
def State.updEntry (s : State) (f : BootEntry → BootEntry) : State :=
  { s with mc := { s.mc with reasons := Tbl.set BootEntry.empty s.mc.reasons s.mc.entry (f s.bootEntry) } }
/-- The three signals that stage 0x1 waits for are high (18 R399). -/
def Mc.powered (m : Mc) : Bool := m.stbyPg && m.hubPg && m.vinPg && m.resetN
/-- A stage begins; the entry keeps its code. -/
def State.enterStage (s : State) (n : BitVec 4) : State :=
  ({ s with mc := { s.mc with stage := n, stageStart := s.stamp 16 } }).updEntry (fun e => { e with stage := n })
/-- An attempt begins: its entry, and minimal mode where LIMIT attempts have failed (18 R404, R405, R407). -/
def State.startAttempt (s : State) (kind trigger stage : BitVec 4) (upgraded : Bool) : State :=
  let s := if !s.mc.minimal && decide (s.mc.count ≥ s.mc.limit) then (s.setTries 6 6 1).setTries 2 0 0 else s
  let n := (s.mc.entry + 1) % 16
  let e := { BootEntry.empty with
    stamp := s.stamp 16, seq := s.mc.seq + 1, kind := kind, stage := stage, trigger := trigger, min := s.mc.minimal, upgraded := upgraded }
  { s with mc := { s.mc with entry := n, seq := s.mc.seq + 1, stage := stage, stageStart := s.stamp 16, resetting := true
                             reasons := Tbl.set BootEntry.empty s.mc.reasons n e } }

/-! The sessions of the Frisket (21 R454). -/

/-- An opening or a close of a session: a BOOT event whose code and payload the spec does not state (log 6), kept in the sticky summary as well. -/
def State.sessionEvent (s : State) : State :=
  let e := s.newEvent 16 (s.node s.mcAgent) 4 0xFFF 0 (BitVec.ofNat 16 (Config.freeValue s.free)) (s.stampAt 16 (s.node s.mcAgent)) (BitVec.ofNat 128 (Config.freeValue (s.free + 1)))
  let s := { s with free := s.free + 2 }.putEvent 16 e
  { s with errs := s.errs.keep e }
/-- A thread that a debug session has stopped runs on. -/
def Thread.resumed (x : Thread) : Thread := if x.run == .debug then { x with run := .running } else x
/-- A session closes; threads it stopped run on. -/
def State.closeSession (s : State) : State :=
  if s.frisket.session = 0 then s
  else ({ s with frisket := { s.frisket with session := 0 }
                 threads := mapTbl Thread.reset s.threads Thread.resumed }).sessionEvent

/-! The watchdog (14 R351). -/

/-- Ticks of a time in ms. -/
def msTicks (n : Nat) : Nat := usTicks (1000 * n)
/-- The boot count restarts: 64 s. -/
def State.swdBoot (s : State) : State :=
  { s with wd := { s.wd with booting := true, paused := none, deadline := some (s.stamp 16 + BitVec.ofNat 64 (msTicks 64000)) } }
/-- The run count restarts at PERIOD. -/
def State.swdRun (s : State) : State :=
  { s with wd := { s.wd with booting := false, deadline := if s.wd.start then some (s.stamp 16 + BitVec.ofNat 64 (msTicks s.wd.period.toNat)) else none } }

/-! What resets clear (00 R13; 18 R401, R402, R408). -/

/-- Control-space registers with the fields of the Kept codes given at their reset values, where an address is named. -/
def State.clearCtl (s : State) (named : Nat → Bool) (ks : List Kept) : State :=
  { s with ctl := s.ctl.foldl (fun r p =>
      if named p.1 then
        (match s.reg p.1, p.2 with
         | some d, some w =>
           let v := clearFields d.fields ks w
           Tbl.set none r p.1 (if v = resetFields d.fields then none else some v)
         | _, _ => Tbl.set none r p.1 none)
      else Tbl.set none r p.1 p.2) [] }
/-- STB_STAT after stores are discarded (07 R203). -/
def Thread.stbLost (x : Thread) : Word :=
  match x.stb with
  | [] => x.stbStat
  | e :: _ =>
    let w := if bit x.stbStat 63 then x.stbStat else BitVec.ofNat 64 (2 ^ 63 + e.pa % 2 ^ 57)
    setField w 62 57 (min 63 (fieldOf w 62 57 + x.stb.length))
/-- A thread that a reset of rank core to warm leaves held (18 R408). -/
def Thread.cleared (x : Thread) : Thread := { Thread.reset with stbStat := x.stbLost }
/-- Every thread of a list is cleared and held. -/
def State.clearThreads (s : State) (l : List Nat) : State := l.foldl (fun s t => s.updThr t Thread.cleared) s
/-- A thread stops at its next instruction boundary (18 R401, R402). -/
def Thread.halt (x : Thread) : Thread := if x.run == .held then x else { x with run := .stopped }
/-- Threads whose stores and accesses are done, and that stand at a boundary. -/
def State.threadsDone (s : State) (l : List Nat) : Bool :=
  l.all (fun t => (s.thr t).stb.isEmpty && (s.thr t).outst.isEmpty && (s.thr t).idle)
/-- The lines that some cache, transaction or flit may hold newer than memory. -/
def State.heldLines (s : State) : List Nat :=
  let ofTxns := fun (t : Tbl (Option Txn)) => t.flatMap (fun p => match p.2 with | some x => (match x.got with | some _ => [x.flit.line] | none => []) ++ x.held.map Flit.line | none => [])
  (s.cores.flatMap (fun p => p.2.l2.map Prod.fst) ++ s.dies.flatMap (fun p => p.2.l3.map Prod.fst ++ p.2.l3wb.map Prod.fst ++ ofTxns p.2.ftxn) ++
    s.atoms.map Prod.fst ++ ofTxns s.txns ++ s.net.map Flit.line).dedup
/-- Every dirty line is written back; what fails is recorded and lost (18 R401). -/
def State.writeBackAll (s : State) : State :=
  s.heldLines.foldl (fun s line =>
    match s.dirtyCopy line with
    | some (d, p) =>
      let tag := (s.copyWorld line).getD (s.lineTag (line * 64) 0xFFF)
      { s.wbMem line d p tag with cores := s.cores }.dropLine line
    | none => s) s
/-- Every L3, filter and home is empty, and no transaction is open. -/
def State.emptyFabric (s : State) : State :=
  { s with
    dies := mapTbl Die.reset s.dies (fun x => { x with filter := [], l3 := [], l3wb := [], ftxn := [], snoops := [] })
    dir := [], txns := [], atoms := [], slices := [], net := [], backoffs := []
    chans := mapTbl Channel.reset s.chans (fun c => { c with reads := [], repair := none, probes := [], mirrors := [], mirrorLog := [], selfRefresh := false })
    rootPorts := mapTbl RootPort.reset s.rootPorts (fun r => { r with posted := [], owed := [], away := [], reqs := [] })
    iommu := { s.iommu with tlb := [], streams := [], tlbiWaits := [] } }
/-- A Forme engine whose formes a reset abandons: LAST reads ABANDONED where one was queued or ran (20 R439). -/
def FrmEngine.abandoned (x : FrmEngine) : FrmEngine :=
  { FrmEngine.reset with last := if x.st == .idle && x.queue.isEmpty then 0 else 4 }
/-- Every system-link port goes DOWN (18 R398). -/
def State.linksDown (s : State) : State :=
  (List.range 8).foldl (fun s p =>
    (s.updLink p (fun l => { LinkPort.reset with present := l.present, st := l.st, replays := l.replays, fecCe := l.fecCe })).linkState p .down)
    (s.updLink 8 (fun l => { l with waits := [], serves := [], queue := [], snoops := [] }))
/-- The ports of domains that stay gated read CLOSED (11 R285). -/
def State.gatePorts (s : State) : State :=
  let s := (List.range 16).foldl (fun s d => if (s.die d).inService && !(s.die d).parked then s else s.setPortSt (caddr 16 0xD1 (0x140 + d)) 2) s
  let off := if s.mc.minimal then [42, 43, 44, 45] else []
  let s := { s with power := { s.power with hubOff := off ++ s.power.hubOff.filter (fun i => !off.contains i), hubAsk := [] } }
  s.power.hubOff.foldl (fun s i => if i < 46 then s.setPortSt (hubPort i) 2 else s) s

/-! Package resets (18 R396 to R401, R408). -/

/-- Everything a package cold reset clears, which samples PAIR_SIDE again (01 R23); Kept A and N fields, the Almanac with its map and the tiles it records as failed, the count and the pins stay. -/
def State.wipe (s : State) : State :=
  { State.reset with
    pending := s.pending, free := s.free, now := s.now, part := s.part, stepping := s.stepping, pairPkg := s.pairSide, pairSide := s.pairSide, coreTile := s.coreTile
    tiles := mapTbl Tile.reset s.tiles (fun q => { Tile.reset with failed := q.failed })
    dies := mapTbl Die.reset s.dies (fun x => { Die.reset with time := { x.time with synced := false }, frm := x.frm.abandoned })
    mem := s.mem, poisoned := s.poisoned, nextTid := s.nextTid, almanac := s.almanac
    links := mapTbl LinkPort.reset s.links (fun l => { LinkPort.reset with present := l.present })
    gpios := s.gpios, frisket := { s.frisket with challenges := [] }, ppsLast := s.ppsLast, syncAt := s.syncAt, slew := s.slew, slewPhase := s.slewPhase
    errs := { ErrGlobal.reset with summary := s.errs.summary, first := s.errs.first, latest := s.errs.latest }
    wd := s.wd, power := { Power.reset with prochot := s.power.prochot, thermtrip := s.power.thermtrip }
    mc := { s.mc with
      stage := 1, resetting := true, rvbar := 0, release := [], fatHold := false, restarting := false, req := [], rsp := []
      rspPend := false, inHand := none, restartReq := none, telemetry := none, bmcOut := [], pmbAlert := false } }
/-- A package cold reset, or one of its rank or higher with power kept: the links fall, everything is cleared and stage 0x1 begins. -/
def State.coldReset (s : State) (kind trigger : BitVec 4) (upgraded : Bool) : State :=
  ((s.closeSession.wipe).startAttempt kind trigger 1 upgraded).swdBoot
/-- The MC stops starting the package (18 R406): every other island stays in reset. -/
def State.haltBoot (s : State) : State := ((s.closeSession.wipe).setTries 7 7 1).updEntry (fun e => e)
/-- The attempt fails (18 R404): its entry is finished, COUNT grows, and the next attempt begins unless the package halts (R406). -/
def State.failAttempt (s : State) (fail : BitVec 8) (detail : BitVec 32) : State :=
  let s := s.updEntry (fun e => { e with fail := fail, detail := detail })
  let s := { s with mc := { s.mc with okRun := 0 } }.setTries 2 0 (min 7 (s.mc.count + 1))
  if s.mc.minimal && decide (s.mc.count ≥ s.mc.limit) then s.haltBoot else s.coldReset 1 7 false
/-- An attempt runs and BOOT_OK has not come. -/
def State.attempting (s : State) : Bool := s.mc.resetting && !s.mc.haltedBit
/-- A package reset is in progress: its stages before the Monitor's (18 R397). -/
def State.inReset (s : State) : Bool := s.mc.resetting && s.mc.stage != 9
/-- The rank of the reset in progress (18 R397). -/
def State.resetRank (s : State) : Nat :=
  if !s.inReset then 0 else match s.bootEntry.kind.toNat with | 0 => 7 | 2 => 6 | 1 => 5 | _ => 4

/-- The boot thread: thread 0 of local index 0 of the lowest-numbered compute die in service (18 R400). -/
def State.bootThread (s : State) : Option Nat := ((List.range 16).find? s.dieOn).map (fun d => 64 * d)
/-- A thread is released: it starts at M, in the Secure world, at BOOT_RVBAR.PC, and its tile leaves T3 (18 R400). -/
def State.releaseThread (s : State) (t : Nat) : State :=
  let pc := BitVec.ofNat 64 (fieldOf s.mc.rvbar 56 12 * 4096)
  let s := s.updThr t (fun x => { Thread.reset with
    stbStat := x.stbStat, pc := pc, run := .running, excM := { ExcRegs.reset 0xE00 with vbase := pc } })
  s.updTile (s.tileOf (t / 2)) (fun q => if q.st == .t0 then q else { q with waking := true })
/-- A write of BOOT_RELEASE_n: bits of absent threads stay 0, and a bit that is 1 has no effect (18 R400). -/
def State.releasePut (s : State) (n : Nat) (v : Word) : State :=
  (List.range 64).foldl (fun s m =>
    let old := Tbl.get 0 s.mc.release n
    if bit v m && !bit old m && s.thrPresent (64 * n + m) then
      ({ s with mc := { s.mc with release := Tbl.set 0 s.mc.release n (old ||| BitVec.ofNat 64 (2 ^ m)) } }).releaseThread (64 * n + m)
    else s) s
/-- BOOT_RELEASE_WRITE (18 R400). -/
def execBootReleaseWrite (n : Fin 16) (val : Word) (s : State) : Host.Outcome State Fault Refusal := .next (s.releasePut n.val val)
/-- The boot thread is released, the boot count stops and stage 0x9 begins (14 R351; 18 R399). -/
def State.monitorStage (s : State) : State :=
  let s := match s.bootThread with
    | some t => s.releasePut (t / 64) (BitVec.ofNat 64 (2 ^ (t % 64)))
    | none => s
  (s.swdRun).enterStage 9

/-- The last steps of a package warm reset: what has not drained is discarded, what has not left is written back, links go DOWN, every tile
enters T3, the W and T fields are reset, level sources are sent again (04 R126) and the boot thread is released (18 R401). -/
def State.warmEnd (s : State) : State :=
  let s := s.writeBackAll
  let s := (s.clearThreads (s.threads.map Prod.fst)).emptyFabric
  let s := { s with
    cores := [], tiles := mapTbl Tile.reset s.tiles (fun q => { Tile.reset with failed := q.failed, limit := q.limit })
    dies := mapTbl Die.reset s.dies (fun x => { x with frm := x.frm.abandoned, ephPosN := 0, ephPosS := 0, stretched := false })
    quiesces := [], coreResets := []
    power := { s.power with pkg := .p0, sleepN := true, waiting := [], granted := [], hubStretch := [], refusedOnce := [], p5Asked := false, p5Leave := false }
    mc := { s.mc with release := [], inHand := none, restartReq := none } }
  let s := (s.clearCtl (fun _ => true) [.w, .t]).linksDown.gatePorts
  (s.resend (fun t _ => s.thrPresent t)).monitorStage
/-- A RUNNING instance is frozen as FREEZE does. -/
def Inst.freezeNow (x : Inst) : Inst := if x.st == .running then x.command 1 else x
/-- A package warm reset begins (18 R401): threads stop, stores drain, instances freeze and caches are written back. -/
def State.warmStart (s : State) (kind trigger : BitVec 4) : State :=
  let s := (s.closeSession.startAttempt kind trigger 10 false).swdBoot
  let s := { s with threads := mapTbl Thread.reset s.threads Thread.halt, insts := mapTbl Inst.reset s.insts Inst.freezeNow, mc := { s.mc with fatHold := false } }
  (s.cores.map Prod.fst).foldl (fun s c => (s.emptyL2 c).emptyGal c) s
/-- A request for a package warm reset; of a package of a pair it is performed as a cold one (18 R397, R398). -/
def State.warmReset (s : State) (trigger : BitVec 4) : State :=
  if s.mc.haltedBit || s.power.thermtrip then s
  else if s.resetRank ≥ 4 then s.resetEvent
  else if s.paired then s.coldReset 1 trigger true
  else s.warmStart 3 trigger
/-- A request for a package cold reset (18 R397). -/
def State.askCold (s : State) (trigger : BitVec 4) : State :=
  if s.mc.haltedBit then s
  else if s.resetRank ≥ 5 then s.resetEvent
  else s.coldReset 1 trigger false
/-- PACKAGE_COLD_RESET (18 R396). -/
def execPackageColdReset (trigger : BitVec 4) (s : State) : Host.Outcome State Fault Refusal := .next (s.askCold trigger)
/-- PACKAGE_WARM_RESET (18 R401), at the Monitor's request. -/
def execPackageWarmReset (s : State) : Host.Outcome State Fault Refusal := .next (s.warmReset 3)
/-- The power-on state: every field but N at its reset value, the count from 0, and the pins as they stand (00 R14; 18 R396, R408; 21 R458). -/
def State.powerOn (s : State) : State :=
  let k := s.wipe
  let f : Frisket := { Frisket.reset with life := s.frisket.life, slots := s.frisket.slots, savedFails := s.frisket.savedFails }
  let f := if f.savedFails ≥ 8 then { f with locked := true, fails := 8, lockUntil := BitVec.ofNat 64 (msTicks 86400000) } else f
  { k with
    now := 0, slew := 0, slewPhase := false, ppsLast := none, syncAt := 0, wd := Watchdog.reset, errs := ErrGlobal.reset, frisket := f, power := { Power.reset with prochot := s.power.prochot }
    dies := mapTbl Die.reset k.dies (fun x => { x with time := LocalTime.reset, frm := FrmEngine.reset })
    mc := { Mc.reset with
      hubPg := s.mc.hubPg, vinPg := s.mc.vinPg, resetN := s.mc.resetN, cfg := s.mc.cfg, imageB := s.mc.imageB, okRun := s.mc.okRun
      minSvn := s.mc.minSvn, curSvn := s.mc.curSvn } }

/-! Pins (18 R396, R399). -/

/-- STBY_PG_RISE (18 R396). -/
def execStbyPgRise (s : State) : Host.Outcome State Fault Refusal := if s.mc.stbyPg then .next s else .next s.powerOn
/-- STBY_PG_FALL (18 R396): all power is gone, and nothing runs until the next rise. -/
def execStbyPgFall (s : State) : Host.Outcome State Fault Refusal :=
  let s := s.powerOn
  .next { s with mc := { s.mc with stbyPg := false } }
/-- A signal of stage 0x1 rises; its limit runs from when all are high. -/
def State.wasPowered (s : State) (before : Bool) : State :=
  if !before && s.mc.powered && s.mc.stage == 1 then { s with mc := { s.mc with stageStart := s.stamp 16 } } else s
/-- POWER_GOOD_RISE (18 R399; 02 R42). -/
def execPowerGoodRise (hub : Bool) (s : State) : Host.Outcome State Fault Refusal :=
  let b := s.mc.powered
  let m := s.mc
  if hub then
    if m.hubPg then .next s else .next (State.wasPowered { s with mc := { m with hubPg := true, hubRise := s.stamp 16 } } b)
  else .next (State.wasPowered { s with mc := { m with vinPg := true } } b)
/-- POWER_GOOD_FALL (18 R396, R404): outside P5 a cold reset, or the failure of an attempt. -/
def execPowerGoodFall (hub : Bool) (s : State) : Host.Outcome State Fault Refusal :=
  let was := if hub then s.mc.hubPg else s.mc.vinPg
  let s := { s with mc := if hub then { s.mc with hubPg := false } else { s.mc with vinPg := false } }
  if !was || s.power.pkg == .p5 || s.mc.haltedBit || !s.mc.stbyPg then .next s
  else if s.attempting then .next (s.failAttempt 9 (if hub then 1 else 2))
  else .next (s.coldReset 1 (if hub then 5 else 6) false)
/-- RESET_N_ASSERT (18 R396). -/
def execResetNAssert (s : State) : Host.Outcome State Fault Refusal :=
  let s := { s with mc := { s.mc with resetN := false } }
  if s.mc.stbyPg then .next (s.askCold 1) else .next s
/-- RESET_N_RISE (18 R399). -/
def execResetNRise (s : State) : Host.Outcome State Fault Refusal := .next (State.wasPowered { s with mc := { s.mc with resetN := true } } s.mc.powered)

/-! Boot stages (18 R399, R405). -/

/-- The configuration record's values reach their registers (18 R399; 01 R23; 17 R394). -/
def State.configure (s : State) : State :=
  let c := s.mc.cfg
  let put := fun (f : Field) (v : Nat) (w : Word) => if f.legal.ok v then setField w f.hi f.lo v else w
  let w := put (fld 29 28 .rw 0 (.range 0 2)) c.fatKind.toNat s.mc.tries
  let w := put (fld 27 12 .rw 0 (.range 10 65535)) c.okTmo.toNat w
  let w := put (fld 5 3 .rw 0 (.range 1 7)) c.limit.toNat (setField w 11 8 c.dieLimit.toNat)
  let a := caddr 16 0xD8 0x10
  ({ s with pkgId := c.pkgId, mc := { s.mc with tries := w } }).ctlPut a (writeFields (pwrPkgDesc s.part.toNat).fields (s.ctlGet a) c.pwrPkgCtl)
/-- Stage 0x2: the image that runs, or none (18 R399, R406; 21 R447). -/
def State.mcStage (s : State) (o : StageIn) : State :=
  let okA := o.imageAOk && decide (o.svnA ≥ s.mc.minSvn)
  let okB := o.imageBOk && decide (o.svnB ≥ s.mc.minSvn)
  let preferred := s.mc.imageB
  let runB := if preferred then okB else !okA && okB
  if !okA && !okB then
    State.haltBoot (s.updEntry (fun e => { e with fail := 5, detail := 3 }))
  else
    let s := s.updEntry (fun e => { e with imgB := runB, detail := if runB && !preferred then 1 else if !runB && preferred then 2 else 0 })
    ({ s with mc := { s.mc with curSvn := if runB then o.svnB else o.svnA } }).configure.enterStage 3
/-- At Proof the Almanac's records of KIND 4 and 5 set the states of ranks (12 R302). -/
def State.almanacRanks (s : State) : State :=
  s.almanac.foldl (fun s r =>
    let a := caddr 16 r.chan.toNat (0x110 + r.loc.toNat / 16 % 16)
    if r.kind = 4 then (s.ctlField a 63 62 1).ctlField a 61 58 (r.loc.toNat % 16)
    else if r.kind = 5 then s.ctlField a 63 62 2 else s) s
/-- One hard repair that training performs: done, or without a resource unrepairable, which nothing states (12 R301; log 6). -/
def State.hardRepair (s : State) (r : AlmRec) : State × AlmRec :=
  if r.kind = 1 then (s.drawn, { r with kind := if s.draw 2 = 0 then 2 else 3 }) else (s, r)
/-- DDR training performs the hard repairs pending and applies the soft ones again (12 R300 to R302). -/
def State.almanacRepairs (s : State) : State :=
  let p := s.almanac.foldl (fun (q : State × List AlmRec) r => let x := q.1.hardRepair r; (x.1, q.2 ++ [x.2])) (s, [])
  let s := { p.1 with almanac := p.2 }
  s.almanac.foldl (fun s r =>
    if r.kind = 0 then s.updChan r.chan.toNat (fun c => { c with sppr := (r.loc.toNat / 16 * 1024 + r.bank.toNat * 16 + r.loc.toNat % 16, 0) :: c.sppr })
    else s) s
/-- A free tile of a die that is good: the lowest that carries no core and whose complex has not failed (01 R19, R20). -/
def State.spareTile (s : State) (d : Nat) : Option Nat :=
  (List.range 36).find? (fun t => !(s.tile (36 * d + t)).failed && (List.range s.perDie).all (fun i => s.physTile (32 * d + i) != t))
/-- The Almanac places the cores of a die on good tiles (01 R19). DESIGN CHOICE (log 4): a core whose tile is good stays; another takes the lowest good tile that is free. -/
def State.placeCores (s : State) (d : Nat) : State :=
  (List.range s.perDie).foldl (fun s i =>
    if (s.tile (s.tileOf (32 * d + i))).failed then
      (match s.spareTile d with
       | some t => { s with coreTile := Tbl.set none s.coreTile (32 * d + i) (some t) }
       | none => s)
    else s) s
/-- The complexes of a die that are good. -/
def State.goodTiles (s : State) (d : Nat) : Nat := ((List.range 36).filter (fun t => !(s.tile (36 * d + t)).failed)).length
/-- Stage 0x3: complexes that fail Proof carry no core; dies whose arrays fail, or with too few good complexes, are out of service; in minimal mode one
compute die serves (01 R19; 18 R399, R404, R405). -/
def State.proofStage (s : State) (o : StageIn) : State :=
  let s := o.failTiles.foldl (fun s n => s.updTile n.val (fun q => { q with failed := true })) s
  let fails := fun (d : Nat) => bit o.failDies d || decide (s.goodTiles d < s.perDie)
  let bad := (List.range 16).filter fails
  let good := (List.range 16).filter (fun d => !fails d)
  let serve := if s.mc.minimal then good.take 1 else good
  if bit o.failDies 16 then s.failAttempt 3 0
  else if good.isEmpty || (!s.mc.minimal && decide (bad.length > fieldOf s.mc.tries 11 8)) then s.failAttempt 2 (BitVec.ofNat 32 (bad.foldl (fun a d => a + 2 ^ d) 0))
  else
    let s := good.foldl State.placeCores s
    let s := (List.range 16).foldl (fun s d => s.updDie d (fun x => { x with inService := serve.contains d })) s
    s.almanacRanks.gatePorts.enterStage 4
/-- The bring-up formes' HOME_MAP: it names slices of dies in service alone; which of them takes a bucket of a die out of service they choose (log 6). -/
def State.homeDies (s : State) : State :=
  let dies := (List.range 16).filter s.dieOn
  let lost := (List.range 16).filter (fun d => !s.dieOn d)
  lost.foldl (fun s d => (List.range 512).foldl (fun s k =>
      let b := 16 * k + d
      let home := dies.getD (Config.homeDie (lost.foldl (fun a d => a + 2 ^ d) 0) b % dies.length) 0
      (List.range 17).foldl (fun s c => s.ctlField (if c < 16 then caddr c 0xC8 b else caddr 16 0xD2 b) 9 6 home) s) s) s
/-- Stage 0x4 (18 R399): the bring-up formes have run; the links that the record enables begin to train, and the pair's mode stands. -/
def State.dieUpStage (s : State) : State :=
  let s := s.homeDies
  let s := s.enterStage 5
  if s.mc.minimal then s
  else
    let s := if s.mc.cfg.pair = 0 then s else s.ctlField pairAddr 63 62 s.mc.cfg.pair.toNat
    (List.range 8).foldl (fun s p => if bit s.mc.cfg.links p then s.sylEn p true else s) s
/-- The pair set-up forme spreads the buckets over both packages (09 R230; 18 R399): which of them takes a bucket it chooses (log 6); every copy changes in one step. -/
def State.pairSpread (s : State) : State :=
  (List.range 8192).foldl (fun s b => (List.range 17).foldl (fun s c =>
    s.ctlField (if c < 16 then caddr c 0xC8 b else caddr 16 0xD2 b) 10 10 (Config.pairHome b % 2)) s) s
/-- Stage 0x5: Meridian is synchronised (02 R44), and a pair that the record names is set up. -/
def State.transitStage (s : State) : State :=
  let s := if s.paired then s.pairSpread else s
  ((List.range 17).foldl (fun s d => s.updDie d (fun x => { x with time := { x.time with synced := true } })) s).enterStage 6
/-- Stage 0x6: the channels that trained; hard repairs pending are performed (12 R301; 18 R404, R405). -/
def State.ddrStage (s : State) (o : StageIn) : State :=
  let good := (List.range 24).filter (fun c => !bit o.failChannels c)
  let good := if s.mc.minimal then good.take 1 else good
  if good.isEmpty then s.failAttempt 4 (BitVec.ofNat 32 o.failChannels.toNat)
  else
    let s := (List.range 24).foldl (fun s c =>
      let s := s.updChan c (fun x => { x with trained := good.contains c })
      if good.contains c then s else (List.range 16).foldl (fun s r => s.ctlField (caddr 16 c (0x110 + r)) 63 62 3) s) s
    s.almanacRepairs.enterStage 7
/-- Stage 0x7 is over once every trained channel is filled or excluded (12 R299). -/
def State.fillStage (s : State) : State :=
  let all := (List.range 24).filter (fun c => (s.chan c).trained)
  if !all.all (fun c => (s.chan c).filled || (s.chan c).fillErr) then s
  else if s.trained.isEmpty then s.failAttempt 4 (BitVec.ofNat 32 (all.foldl (fun a c => a + 2 ^ c) 0))
  else s.enterStage 8
/-- Stage 0x8: the image is placed at its load address and verified, and its vector goes to BOOT_RVBAR (18 R399). -/
def State.imageStage (s : State) (o : StageIn) : State :=
  if !o.imageOk then s.failAttempt 6 (if s.mc.minimal then 1 else 0)
  else
    let s := s.putCohBytes o.loadAddr.toNat (o.words.flatMap (fun w => Crypto.leBytes 4 w.toNat))
    ({ s with mc := { s.mc with rvbar := BitVec.ofNat 64 (fieldOf o.vector 56 12 * 4096) } }).monitorStage
/-- Stage 0xA is over once stores have drained or had 20 µs, instances stand and caches are empty or have had 2 ms more (18 R401). -/
def State.warmStage (s : State) : State :=
  let gone := (s.stamp 16).toNat - s.mc.stageStart.toNat
  let all := s.threads.map Prod.fst
  let drained := s.threadsDone all || decide (gone ≥ usTicks 20)
  let bare := s.cores.all (fun p => p.2.bare) || decide (gone ≥ usTicks 2020)
  let still := s.insts.all (fun p => p.2.st != .freezing)
  if drained && bare && still then s.warmEnd
  else (s.cores.map Prod.fst).foldl (fun s c => (s.emptyL2 c).emptyGal c) s
/-- BOOT_STAGE_DONE (18 R399, R401). -/
def execBootStageDone (o : StageIn) (s : State) : Host.Outcome State Fault Refusal :=
  if !s.attempting || !s.mc.powered then .next s
  else match s.mc.stage.toNat with
    | 1 => .next (s.enterStage 2)
    | 2 => .next (s.mcStage o)
    | 3 => .next (s.proofStage o)
    | 4 => .next s.dieUpStage
    | 5 => .next s.transitStage
    | 6 => .next (s.ddrStage o)
    | 7 => .next s.fillStage
    | 8 => .next (s.imageStage o)
    | 10 => .next s.warmStage
    | _ => .next s
/-- The limit of a stage in ms (18 R399, R401). -/
def State.stageLimit (s : State) : Nat :=
  match s.mc.stage.toNat with
  | 1 => 1000 | 2 => 2000 | 3 => 2000 | 4 => 1000 | 5 => 1000 | 6 => 10000 | 7 => 15000 | 8 => 5000 | 10 => 100
  | _ => fieldOf s.mc.tries 27 12 * 1000
/-- BOOT_STAGE_TIMEOUT (18 R399, R404). -/
def execBootStageTimeout (s : State) : Host.Outcome State Fault Refusal :=
  let waits := s.mc.stage == 1 && !s.mc.powered
  if !s.attempting || waits || decide ((s.stamp 16).toNat < s.mc.stageStart.toNat + msTicks s.stageLimit) then .next s
  else .next (s.failAttempt 1 (s.mc.stage.setWidth 32))
/-- BOOT_OK ends stage 0x9: COUNT is clear, and after three in a row the minimum SVN is the image's (18 R404, R405; 21 R447). -/
def State.bootOk (s : State) : State :=
  if !s.mc.resetting || s.mc.stage ≠ 9 then s
  else
    let s := (s.updEntry (fun e => { e with ok := true, fail := 0 })).setTries 2 0 0
    let n := s.mc.okRun + 1
    { s with mc := { s.mc with resetting := false, okRun := n, minSvn := if n ≥ 3 then max s.mc.minSvn s.mc.curSvn else s.mc.minSvn } }

/-! The Secure watchdog (14 R351). -/

/-- START is written 1. -/
def State.swdStart (s : State) : State :=
  if s.wd.start then s
  else
    let s := { s with wd := { s.wd with start := true } }
    if s.wd.booting then s else s.swdRun
/-- A kick restarts the run count. -/
def State.swdKick (s : State) : State := if s.wd.booting || !s.wd.start then s else s.swdRun
/-- MC_SWD_CTL as it reads. -/
def Watchdog.ctl (w : Watchdog) : Word := BitVec.ofNat 64 (b2n w.start * 2 ^ 63 + w.period.toNat)
/-- A write of MC_SWD_CTL: PERIOD is locked by START as it stood. -/
def State.swdPut (s : State) (v : Word) : State :=
  let p := fieldOf v 15 0
  let s := if !s.wd.start && decide (1 ≤ p ∧ p ≤ 64000) then { s with wd := { s.wd with period := BitVec.ofNat 16 p } } else s
  if bit v 63 then s.swdStart else s
/-- MC_SWD_STAT as it reads. -/
def State.swdStat (s : State) : Word :=
  let left := match s.wd.paused, s.wd.deadline with
    | some r, _ => r.toNat
    | none, some t => t.toNat - (s.stamp 16).toNat
    | none, none => 0
  BitVec.ofNat 64 (b2n s.wd.fired * 2 ^ 63 + s.wd.count.toNat * 2 ^ 32 + left / msTicks 1)
/-- SWD_START (14 R351). -/
def execSwdStart (s : State) : Host.Outcome State Fault Refusal := .next s.swdStart
/-- SWD_KICK (14 R351). -/
def execSwdKick (s : State) : Host.Outcome State Fault Refusal := .next s.swdKick
/-- SWD_EXPIRE (14 R351; 18 R396, R404): a secure-watchdog reset; one before release is a failure that the next attempt counts. -/
def execSwdExpire (s : State) : Host.Outcome State Fault Refusal :=
  match s.wd.deadline, s.wd.paused with
  | some t, none =>
    if decide ((s.stamp 16).toNat < t.toNat) || s.mc.haltedBit || !s.mc.stbyPg then .next s
    else
      let early := s.wd.booting
      let s := { s with wd := { s.wd with fired := true, count := if s.wd.count = 0xFFFF then s.wd.count else s.wd.count + 1 } }
      if s.resetRank ≥ 6 && !early then .next s.resetEvent
      else if early then
        let s := (s.updEntry (fun e => { e with fail := 7, detail := 0 }))
        let s := { s with mc := { s.mc with okRun := 0 } }.setTries 2 0 (min 7 (s.mc.count + 1))
        if s.mc.minimal && decide (s.mc.count ≥ s.mc.limit) then .next s.haltBoot else .next (s.coldReset 2 8 false)
      else .next (s.coldReset 2 8 false)
  | _, _ => .next s

/-! P5 (17 R389; 18 R403). -/

/-- The conditions of P5: every tile in T3 and no instance RUNNING (17 R389). -/
def State.p5Ready (s : State) : Bool :=
  s.power.pkg == .p0 && !s.mc.resetting && s.tiles.all (fun p => p.2.st == .t3 && !p.2.waking) && s.insts.all (fun p => p.2.st != .running)
/-- The blocks, by die and number, that are held against a Normal request (14 R352). -/
def State.heldBlocks (s : State) : List (Nat × Nat) :=
  ((List.range 16).flatMap (fun d => (List.range 37).map (fun i => (d, i))) ++ (List.range 47).map (fun i => (16, i))).filter (fun p => s.secHold p.1 p.2)
/-- A request for P5: refused unless its conditions hold; a request of the BMC, which is none of the Secure world, also where a block is held (14 R352). -/
def State.askP5 (s : State) (secure : Bool) : State × Bool :=
  if !s.p5Ready then (s, false)
  else if !secure && !s.heldBlocks.isEmpty then (s.heldBlocks.foldl (fun s p => s.refusePower p.1 p.2 1) s, false)
  else ({ s with power := { s.power with p5Asked := true } }, true)
/-- P5_ENTER (17 R389; 18 R403): caches and filters are written back, channels refresh themselves, links go DOWN, SLEEP_N falls and the watchdog pauses. -/
def execP5Enter (s : State) : Host.Outcome State Fault Refusal :=
  if !s.power.p5Asked then .next s
  else
    let s := { s with power := { s.power with p5Asked := false } }
    if !s.p5Ready then .next s
    else
      let s := s.writeBackAll.emptyFabric.linksDown
      let left := s.wd.deadline.map (fun t => t - s.stamp 16)
      .next { s with
        cores := mapTbl Core.reset s.cores (fun k => { k with l2 := [], galley := [], hellbox := [], galWb := [] })
        chans := (List.range 24).foldl (fun r c => Tbl.set Channel.reset r c { s.chan c with selfRefresh := true }) []
        rootPorts := mapTbl RootPort.reset s.rootPorts (fun r => { r with subs := mapTbl SubPort.reset r.subs (fun q => { q with up := false, perst := true }) })
        power := { s.power with pkg := .p5, sleepN := false }, wd := { s.wd with paused := left } }
/-- P5_EXIT (17 R389; 18 R403): SLEEP_N rises; once both supplies are good, a package warm reset. -/
def execP5Exit (s : State) : Host.Outcome State Fault Refusal :=
  if s.power.pkg ≠ .p5 || !s.power.p5Leave then .next s
  else
    let s := { s with power := { s.power with sleepN := true } }
    if !s.mc.hubPg || !s.mc.vinPg then .next s
    else
      let s := { s with power := { s.power with pkg := .p0, p5Leave := false }, wd := { s.wd with paused := none } }
      if s.paired then .next (s.coldReset 1 9 true) else .next (s.warmStart 4 9)

/-! Die and core resets (18 R402). -/

/-- A die reset: a parked die's units and threads return to their reset values, but for its ring and record store, and level sources that target it are sent
again (04 R126); none where the die is not in D3. -/
def State.dieReset (s : State) (d : Nat) : Option State :=
  if !(s.die d).parked then none
  else
    let s := s.clearThreads ((List.range 64).map (fun i => 64 * d + i))
    let s := (List.range 32).foldl (fun s i => s.setCore (32 * d + i) Core.reset) s
    let s := (List.range 36).foldl (fun s i => (s.updTile (36 * d + i) (fun q => { Tile.reset with failed := q.failed })).updSlice (36 * d + i) (fun _ => Slice.reset)) s
    let s := s.updDie d (fun x => { Die.reset with
      inService := x.inService, parked := true, time := x.time, ring := x.ring, head := x.head, seq := x.seq, store := x.store, frm := x.frm.abandoned })
    let s := s.clearCtl (fun a => caddrDie a == d) [.a, .c, .w, .t]
    let s := { s.quiesceEnd d (fun _ => true) with mc := { s.mc with release := Tbl.set 0 s.mc.release d 0 } }
    some (s.resend (fun t _ => dieOfThr t == d))
/-- DIE_RESET (18 R402). -/
def execDieReset (die : Fin 16) (s : State) : Host.Outcome State Fault Refusal := .next ((s.dieReset die.val).getD s)
/-- The end of a core reset: the core and its threads at their reset values, held, in a tile that sleeps; level sources are sent again (04 R126). -/
def State.coreEnd (s : State) (c : Nat) : State :=
  let s := (s.clearThreads [2 * c, 2 * c + 1]).setCore c Core.reset
  let n := 2 * c / 64
  let m := BitVec.ofNat 64 (3 * 2 ^ (2 * c % 64))
  let s := { s with mc := { s.mc with release := Tbl.set 0 s.mc.release n (Tbl.get 0 s.mc.release n &&& ~~~ m) }
                    coreResets := s.coreResets.filter (fun q => q.1 != c) }
  let s := s.resend (fun t _ => t / 2 == c)
  if (s.tile (s.tileOf c)).st = .t3 then s
  else (s.updTile (s.tileOf c) (fun q => { q with st := .t3, waking := false, pend := [], sevt := false, tlbis := [], fullDiscard := false,
                                                   tlbLost := false, galLost := false })).setPortSt (tilePort (s.tileOf c)) 1
/-- A core reset of a core that is present: its threads stop, their stores drain for up to 20 µs, its caches are written back; then it ends. The answer says whether it has. -/
def State.coreReset (s : State) (c : Nat) : State × Bool :=
  if !s.corePresent c then (s, true)
  else
    let s := match s.coreResets.find? (fun q => q.1 == c) with
      | some _ => s
      | none =>
        [2 * c, 2 * c + 1].foldl (fun s t => s.updThr t Thread.halt) { s with coreResets := (c, s.stamp (c / 32)) :: s.coreResets }
    let since := match s.coreResets.find? (fun q => q.1 == c) with | some q => (s.stamp (c / 32)).toNat - q.2.toNat | none => 0
    let drained := s.threadsDone [2 * c, 2 * c + 1] || decide (since ≥ usTicks 20)
    if drained && (s.core c).bare then (s.coreEnd c, true)
    else if drained && decide (since ≥ usTicks 500) then (s.coreEnd c, true)
    else ((s.updCore c (fun k => { k with l1i := [], l1d := [] })).emptyL2 c |>.emptyGal c, false)
/-- CORE_RESET (18 R402). -/
def execCoreReset (c : CoreId) (s : State) : Host.Outcome State Fault Refusal := .next (s.coreReset c.val).1

/-! FAT errors (18 R396, R404; 19 R417). -/

/-- What a FAT error does: the failure of an attempt, else the reset that FAT_KIND names, or a hold for the BMC. -/
def State.fatAction (s : State) (loc : BitVec 32) : State :=
  if s.attempting then s.failAttempt 8 loc
  else match fieldOf s.mc.tries 29 28 with
    | 0 => s.askCold 4
    | 1 => s.warmReset 4
    | _ => { s with mc := { s.mc with fatHold := true } }
/-- ERROR_N is driven low (19 R417). -/
def State.errorLow (s : State) : Bool :=
  bit s.errs.summary 63 || (s.errs.errnUcc && (bit s.errs.summary 62 || bit s.errs.summary 61)) || s.mc.haltedBit

end Sys2Proof.Machine
end

