-- ==== Sys2Proof/Machine/Mmio.lean ====
section
/-! DEFINITION. Control space and package MMIO: every register at its home, as formes, the MC and device accesses reach it (00 R6 to R11; 01 R30 to R37; 04 R117, R124; 16 R368; 19 R419, R463; 20 R433; 21 R448). -/

namespace Sys2Proof.Machine

/-! Control space: reads (01 R34 to R37). -/

/-- Word B of a BOOT_REASON entry (18 R407). -/
def BootEntry.wordB (e : BootEntry) : Word :=
  BitVec.ofNat 64 (e.seq.toNat * 2 ^ 56 + e.kind.toNat * 2 ^ 52 + e.stage.toNat * 2 ^ 48 + e.fail.toNat * 2 ^ 40 + b2n e.ok * 2 ^ 39 + b2n e.min * 2 ^ 38 +
    b2n e.imgB * 2 ^ 37 + b2n e.upgraded * 2 ^ 36 + e.trigger.toNat * 2 ^ 32 + e.detail.toNat)
/-- Word w of BOOT_REASON, two words an entry. -/
def State.bootReason (s : State) (w : Nat) : Word :=
  let e := Tbl.get BootEntry.empty s.mc.reasons (w / 2)
  if w % 2 = 0 then e.stamp else e.wordB
/-- The number of a lifecycle state (21 R453). -/
def Life.num : Life → Nat
  | .factory => 0 | .opened => 1 | .owner => 2 | .field => 3 | .returned => 4
/-- The owner key slot in force: the last one written that is not revoked (21 R452). -/
def Frisket.ownerSlot (f : Frisket) : Option Nat := ((List.range f.slots.length).filter (fun i => (f.slots[i]?).any (fun q => !q.2))).getLast?
/-- FRK_STAT (21 R458). -/
def Frisket.stat (f : Frisket) : Word :=
  BitVec.ofNat 64 (f.life.num * 2 ^ 61 + f.session.toNat * 2 ^ 59 + b2n f.locked * 2 ^ 58 + min f.fails 8 * 2 ^ 48 + f.ownerSlot.getD 0)
/-- A TRN_PORT register as it reads: HELD counts the flits that the port holds now (11 R285). -/
def State.portRead (s : State) (a : Nat) : Word :=
  setField (s.ctlGet a) 47 40 (min 255 (s.net.filter (fun f => f.hop == s.goal f && s.portOf f == some a && s.portHolds f)).length)
/-- A control-space register as it reads; none where the access is refused (01 R36, R37). -/
def State.regRead (s : State) (a : Nat) : Option Word :=
  let d := caddrDie a
  let u := caddrUnit a
  let r := caddrReg a
  if (s.reg a).isNone || s.regOff a then none
  else some (
    if u = 0xE0 then
      (if r = 0 then (s.die d).ephRead
       else if r = 0x10 then s.errs.summary
       else if r = 0x11 then s.errCtl
       else if r = 0x12 then s.errs.notifyS
       else if r = 0x13 then s.errs.notifyN
       else (s.slot d ((r - 0x100) / 8)).word ((r - 0x100) % 8))
    else if u = 0x100 then
      (if r = 0 then s.mc.tries
       else if r = 0x10 then s.mc.rvbar
       else if r < 0x50 then Tbl.get 0 s.mc.release (r - 0x40)
       else if r < 0x120 then s.bootReason (r - 0x100)
       else if r = 0x300 then s.frisket.stat
       else if r = 0x301 then s.frisket.lockUntil
       else s.ctlGet a)
    else if u = 0xD8 ∧ 0x300 ≤ r ∧ r < 0x400 then s.pwrReqRead d (r - 0x300)
    else if d = 16 ∧ 0xC0 ≤ u ∧ u < 0xC8 ∧ r = 1 then s.sylStat (u - 0xC0)
    else if d = 16 ∧ 0xC0 ≤ u ∧ u < 0xC8 ∧ 0x1000 ≤ r then setField (s.ctlGet a) 51 50 (s.selField (s.ctlGet a))
    else if (d < 16 ∧ u = 0xC0 ∨ d = 16 ∧ u = 0xD1) ∧ 0x100 ≤ r ∧ r < 0x150 then s.portRead a
    else s.ctlGet a)

/-! Control space: writes. -/

/-- A rank's state or device is written: the reserved writes change nothing, and an entry into ERASED or FAILED is recorded (12 R295, MEM_RANK_STAT). -/
def State.rankPut (s : State) (ch r : Nat) (w : Word) : State :=
  let a := caddr 16 ch r
  let old := s.ctlGet a
  let was := fieldOf old 63 62
  let new := writeFields memRankDesc.fields old w
  let st := fieldOf new 63 62
  let keep := was = 3 ∨ st = 3 ∨ (st = 0 ∧ was ≠ 0)
  let new := if keep then setField new 63 62 was else new
  let new := if was = 3 then setField new 61 58 (fieldOf old 61 58) else new
  let s := s.ctlPut a new
  let st := fieldOf new 63 62
  if st = was ∨ st = 0 then s
  else
    let s := { s with almanac := s.almanac ++ [({
      stamp := s.stamp 16, kind := if st = 1 then 4 else 5, chan := BitVec.ofNat 8 ch, loc := BitVec.ofNat 8 ((r - 0x110) * 16 + fieldOf new 61 58)
      bank := BitVec.ofNat 8 (s.draw 32), row := 0 } : AlmRec)] }
    s.drawn.logError (.mem ch) (if st = 1 then 0x50B else 0x509) (if st = 1 then 1 else 3) 0xFFF none none
/-- PCIE_CTL is written: CONTAINED starts releases and keeps its bits until they are done (16 R366, R370). -/
def State.pcieCtlPut (s : State) (p : Nat) (w : Word) : State :=
  let old := s.pcieCtl p
  let new := setField (writeFields (pcieCtlDesc p).fields old w) 59 56 (fieldOf old 59 56)
  (s.ctlPut (pcieCtlAddr p) new).containRelease p (BitVec.ofNat 4 (fieldOf w 59 56))
/-- SYL_CTL is written: EN acts on the port, and the link's source takes its world (13 R312; 04 R124). -/
def State.sylCtlPut (s : State) (p : Nat) (w : Word) : State :=
  let a := caddr 16 (0xC0 + p) 0
  let old := s.ctlGet a
  let t := State.worldsMoved s (s.ctlPut a (setField (writeFields sylCtlDesc.fields old w) 63 63 (fieldOf old 63 63)))
  if bit w 63 = bit old 63 then t else t.sylEn p (bit w 63)
/-- A write that retires a slice: it writes back what it holds (20 R442). -/
def State.slicePut (s : State) (d t : Nat) (w : Word) : State :=
  let a := caddr d (0x40 + t) 8
  let new := s.ctlPut a (BitVec.ofNat 64 (fieldOf w 0 0))
  if bit w 0 then ((s.die d).l3.map Prod.fst).foldl (fun s line => if l3Slice line = t then s.l3Drop d line else s) new else new
/-- A regulator is written: it holds no more tokens than BURST (11 R275, R276). -/
def State.trnRegPut (s : State) (a : Nat) (w : Word) : State :=
  let new := writeFields trnRegDesc.fields (s.ctlGet a) w
  let cut := decide (fieldOf new 43 32 ≥ fieldOf new 27 16)
  { s.ctlPut a (setField new 43 32 (min (fieldOf new 43 32) (fieldOf new 27 16))) with regFrac := if cut then Tbl.set 0 s.regFrac a 0 else s.regFrac }
/-- A block's holds and floor are written: a running tile follows (14 R352). -/
def State.pwrSecPut (s : State) (d i : Nat) (w : Word) : State :=
  let a := pwrSecAddr d i
  let s := s.ctlPut a (writeFields (pwrSecDesc (decide (d < 16 ∧ i < 36))).fields (s.ctlGet a) w)
  if d < 16 ∧ i < 36 then s.retarget (36 * d + i) else s
/-- A write of a control-space register by its access codes and its effects; none where the step that writes fails (00 R6; 01 R36, R37). -/
def State.regPut (s : State) (a : Nat) (w : Word) : Option State :=
  let d := caddrDie a
  let u := caddrUnit a
  let r := caddrReg a
  match s.reg a with
  | none => none
  | some q =>
    if s.regOff a then none
    else
      let plain := s.ctlPut a (writeFields q.fields (s.ctlGet a) w)
      if u = 0xE0 then some (if r = 0 then s.ephPut d w else s)
      else if u = 0x100 then
        some (if r = 0 then { s with mc := { s.mc with tries := writeFields bootTriesDesc.fields s.mc.tries w } }
          else if r = 0x10 then { s with mc := { s.mc with rvbar := BitVec.ofNat 64 (fieldOf w 56 12 * 4096) } }
          else if 0x40 ≤ r ∧ r < 0x50 then s.releasePut (r - 0x40) w
          else if r = 0x200 then s.gpioWorldPut (w.setWidth 32)
          else s)
      else if u = 0xD8 then
        some (if d = 16 ∧ r = 0x10 then plain else if r < 0x400 then s.pwrReqPut d (r - 0x300) w else s.pwrSecPut d (r - 0x400) w)
      else if d < 16 then some (if u < 0x64 ∧ r = 8 then s.slicePut d (u - 0x40) w else plain)
      else if u < 0x18 then some (if 0x110 ≤ r ∧ r < 0x120 then s.rankPut u r w else plain)
      else if u < 0x58 then some (s.guardPut (u - 0x40) r w)
      else if u < 0x8A then some (if r = 0 then s.pcieCtlPut (u - 0x80) w else s.trnRegPut a w)
      else if u < 0xC8 then
        some (if r = 0 then s.sylCtlPut (u - 0xC0) w else if r = 1 then s.sylStatPut (u - 0xC0) w
          else if 0x800 ≤ r ∧ r < 0x840 then s.trnRegPut a w else plain)
      else if u < 0xCC then
        (if r < 0x50 then s.chWorldPut (u - 0xC8) (r - 0x40) (BitVec.ofNat 12 (fieldOf w 11 0))
         else if r < 0x140 then s.slotPut (u - 0xC8) (r - 0x100) w
         else some (s.trnRegPut a w))
      else if u = 0xD1 ∧ ((0x300 ≤ r ∧ r < 0x340) ∨ 0x10000 ≤ r) then some (State.worldsMoved s plain)
      else some plain
/-- A class of forme may write a register (20 R433; 14 R338): 0 vendor, 1 owner, 2 ephemeral. -/
def State.mayWrite (s : State) (cls a : Nat) (w : Word) : Bool :=
  match s.reg a with
  | none => true
  | some q => match q.rights with
    | .vendor => cls == 0
    | .owner => decide (cls ≤ 1)
    | .all => true
    | .guard => s.guardRight (caddrUnit a - 0x40) (caddrReg a) cls w
    | .none => false
/-- A forme's write; none where its step fails. -/
def State.formePut (s : State) (cls a : Nat) (w : Word) : Option State := if s.mayWrite cls a w then s.regPut a w else none
/-- The registers that the MC writes on its own path (00 R4): BOOT_TRIES, BOOT_RVBAR, BOOT_RELEASE, PWR_PKG_CTL and those of 19 R463. -/
def mcWrites (a : Nat) : Bool :=
  let u := caddrUnit a
  let r := caddrReg a
  u == 0xE0 || (caddrDie a == 16 && ((u == 0x100 && (r == 0 || r == 0x10 || decide (0x40 ≤ r ∧ r < 0x50))) || (u == 0xD8 && r == 0x10)))
/-- A write on the MC's own path (00 R4; 19 R463); none where it is refused: of an address that names nothing (01 R36), of a gated unit (01 R37), and of a
register that the MC does not write (DESIGN CHOICE, log 11: the spec forbids such a write and says no more of it). -/
def State.mcPut (s : State) (a : Nat) (w : Word) : Option State :=
  let r := caddrReg a
  if (s.reg a).isNone || !mcWrites a then none
  else if caddrUnit a = 0xE0 ∧ r ≠ 0 then
    (if r = 0x10 then some (s.summaryPut true w) else if r = 0x11 then some (s.errCtlPut w) else if r = 0x12 then some (s.notifyPut true w)
     else if r = 0x13 then some (s.notifyPut false w)
     else some (if (r - 0x100) % 8 = 3 then s.freeRecord (caddrDie a) ((r - 0x100) / 8) w else s))
  else s.regPut a w
/-- An access of the MC ends: the status that its firmware sees (01 R36). -/
def State.mcStatus (s : State) (t : Option State) : State :=
  { t.getD s with mc := { (t.getD s).mc with ctlErr := t.isNone } }

/-! Local interrupt units (04 R117). -/

/-- A byte of a thread's page as a world side reads it. -/
def State.intByte (s : State) (sec : Bool) (t o : Nat) : Option Byte :=
  let x := s.thr t
  let seen := fun (n : Nat) => sec || !(x.int n).world
  let bits := fun (f : IntId → Bool) => some (BitVec.ofNat 8 ((List.range 8).foldl (fun a j =>
    let n := 8 * (o % 128) + j
    if seen n && f (x.int n) then a + 2 ^ j else a) 0))
  if o < 0x400 then some (if seen o then (x.int o).prio else 0)
  else if o < 0x480 then bits IntId.enable
  else if o < 0x580 then bits IntId.pending
  else if o < 0x600 then bits IntId.active
  else if o < 0x680 then bits IntId.world
  else none
/-- A bit of a thread's page is written: enable, pending set, pending clear or world. -/
def State.intBitPut (s : State) (t o n : Nat) (b : Bool) : State :=
  if o < 0x480 then s.updThr t (fun x => x.updInt n (fun i => { i with enable := b }))
  else if o < 0x500 then (if b then s.updThr t (fun x => x.pend n (s.tileStamp t)) else s)
  else if o < 0x580 then (if b then s.updThr t (fun x => x.updInt n (fun i => { i with pending := i.asserted && !i.active })) else s)
  else if o < 0x600 then s
  else s.setIntWorld t n b
/-- A byte of a thread's page is written; the Normal world changes only its own INTIDs, and no world bit. -/
def State.intBytePut (s : State) (sec : Bool) (t o : Nat) (b : Byte) : State :=
  let seen := fun (n : Nat) => sec || !((s.thr t).int n).world
  if o < 0x400 then (if seen o then s.updThr t (fun x => x.updInt o (fun i => { i with prio := b })) else s)
  else if o ≥ 0x600 && !sec then s
  else (List.range 8).foldl (fun s j =>
    let n := 8 * (o % 128) + j
    if seen n then s.intBitPut t o n (bit b j) else s) s

/-! The hub interrupt router (04 R124; 14 R340, R341). -/

/-- An entry as it reads. -/
def State.sourceRead (s : State) (n : Nat) : Word :=
  if !sourceExists n then 0
  else setField (setField (s.source n) 62 62 (b2n (s.sourceSecure n))) 59 59 (b2n (s.srcPend.contains n))
/-- An entry is written (04 R124). DESIGN CHOICE (log 20): a level source that is enabled, or given a level trigger, while its pin stands at that level asserts nothing until the
level is seen to change; the spec names only the two cases of R126. -/
def State.sourcePut (s : State) (n : Nat) (w : Word) : State :=
  if !sourceExists n then s
  else
    let trig := if n < 32 then [fld 61 60 .rw 0] else []
    { s with sources := Tbl.set routerReset s.sources n (writeFields (s.targetFields (s.source n) w ++ trig) (s.source n) w) }
/-- The pins that a view shows. -/
def State.pinMask (s : State) (sec : Bool) : BitVec 32 := if sec then BitVec.allOnes 32 else ~~~ (BitVec.ofNat 32 (s.ctlGet gpioWorldReg).toNat)
/-- A word of a view of the router; none where it is unbacked. -/
def State.routerRead (s : State) (sec : Bool) (o : Nat) : Option Word :=
  if 0x10000 ≤ o ∧ o < 0x18000 then
    let n := (o - 0x10000) / 8
    some (if !sec && s.sourceSecure n then 0 else s.sourceRead n)
  else if o = 0x20000 then
    some ((BitVec.ofNat 32 ((List.range 32).foldl (fun a p => if (s.gpio p).sample then a + 2 ^ p else a) 0) &&& s.pinMask sec).setWidth 64)
  else if o = 0x20008 then some ((s.gpioOut &&& s.pinMask sec).setWidth 64)
  else if o = 0x20010 then some ((s.gpioOe &&& s.pinMask sec).setWidth 64)
  else if o = 0x20018 then some (s.ctlGet gpioWorldReg)
  else none
/-- A word of a view of the router is written: the bytes of w that m names. -/
def State.routerWrite (s : State) (sec : Bool) (o : Nat) (w m : Word) : State :=
  let full := fun (old : Word) => (old &&& ~~~ m) ||| (w &&& m)
  let pins := s.pinMask sec
  let put := fun (old : BitVec 32) => (old &&& ~~~ pins) ||| ((full (old.setWidth 64)).setWidth 32 &&& pins)
  if 0x10000 ≤ o ∧ o < 0x18000 then
    let n := (o - 0x10000) / 8
    if !sec && s.sourceSecure n then s else s.sourcePut n (full (s.source n))
  else if o = 0x20008 then { s with gpioOut := put s.gpioOut }
  else if o = 0x20010 then { s with gpioOe := put s.gpioOe }
  else s

/-! The ECAM (16 R368, R376). -/

/-- The bus, device, function and offset of an ECAM address. -/
def ecamParts (o : Nat) : Nat × Nat × Nat × Nat := (o / 2 ^ 20 % 256, o / 2 ^ 15 % 32, o / 2 ^ 12 % 8, o % 4096)
/-- A Normal access to a function of a Secure stream, or to a bus that no bridge assigns, finds nothing; nor does one to an absent function. -/
def State.ecamAbsent (s : State) (sec : Bool) (o : Nat) : Bool :=
  let (b, d, f, _) := ecamParts o
  let stream := b * 256 + d * 8 + f
  (!sec && s.streamWorld stream == 0xFFF) ||
    (if b = 0 then !((decide (d < 10) && decide (f < subCount (s.port d).bifur)) || (d == 31 && f == 0)) else (s.busPort b).isNone)
/-- The registers of bus 0 that the spec places, an aligned doubleword at a time; the rest reads a free value (log 17). -/
def State.ecamRead (s : State) (o : Nat) : State × Word :=
  let (_, d, f, r) := ecamParts o
  let free : State × Word := ({ s with free := s.free + 1 }, BitVec.ofNat 64 (Config.freeValue s.free))
  let hi := fun (v : Nat) => (s.drawn, BitVec.ofNat 64 (v * 2 ^ 32 + Config.freeValue s.free % 2 ^ 32))
  let lo := fun (v : Nat) => (s.drawn, BitVec.ofNat 64 (Config.freeValue s.free % 2 ^ 32 * 2 ^ 32 + v))
  if d = 31 then
    (match r with
     | 0x100 => (s, s.iommu.prqBase)
     | 0x108 => (s, BitVec.ofNat 64 (s.iommu.prqTail * 2 ^ 16 + s.iommu.prqHead))
     | 0x110 => (s, BitVec.ofNat 64 s.iommu.prqSrc)
     | 0x118 => (s, 0)
     | _ => free)
  else
    let p := s.port d
    let w := Tbl.get 0 p.windows f
    match r with
    | 0x18 => lo (Tbl.get 0 p.buses f).toNat
    | 0x20 => hi (fieldOf w 31 0)
    | 0x28 => (s, BitVec.ofNat 64 (fieldOf w 95 32))
    | 0x38 => hi (b2n (s.sub d f).hotReset * 2 ^ 22)
    | _ => free
/-- A doubleword of bus 0 is written. -/
def State.ecamWrite (s : State) (o : Nat) (w m : Word) : State :=
  let (_, d, f, r) := ecamParts o
  let full := fun (old : Word) => (old &&& ~~~ m) ||| (w &&& m)
  let io := s.iommu
  if d = 31 then
    (match r with
     | 0x100 =>
       let v := full io.prqBase
       { s with iommu := { io with prqBase := BitVec.ofNat 64 (fieldOf v 56 12 * 4096 + (if 4 ≤ fieldOf v 3 0 ∧ fieldOf v 3 0 ≤ 12 then fieldOf v 3 0 else fieldOf io.prqBase 3 0)) } }
     | 0x108 => { s with iommu := { io with prqHead := fieldOf (full (BitVec.ofNat 64 io.prqHead)) 15 0 } }
     | 0x110 =>
       let v := fieldOf (full (BitVec.ofNat 64 io.prqSrc)) 11 0
       { s with iommu := { io with prqSrc := if v ≥ 128 then v else io.prqSrc } }
     | 0x118 => s.prgResp (w &&& m)
     | _ => s)
  else
    let win := Tbl.get 0 (s.port d).windows f
    let put := fun (v : Nat) => s.updPort d (fun p => { p with windows := Tbl.set 0 p.windows f (BitVec.ofNat 96 v) })
    match r with
    | 0x18 => s.updPort d (fun p => { p with buses := Tbl.set 0 p.buses f (BitVec.ofNat 64 (fieldOf (full (Tbl.get 0 p.buses f)) 31 0)) })
    | 0x20 => put (fieldOf win 95 32 * 2 ^ 32 + fieldOf (full (BitVec.ofNat 64 (fieldOf win 31 0 * 2 ^ 32))) 63 32)
    | 0x28 => put ((full (BitVec.ofNat 64 (fieldOf win 95 32))).toNat * 2 ^ 32 + fieldOf win 31 0)
    | 0x38 => if bit m 54 then s.busReset d f (bit w 54) else s
    | _ => s

/-! Forme submissions and the mailbox page (20 R439; 21 R447 to R449; 14 R351). -/

/-- A submission is queued, or FULL is set where sixteen wait (20 R439). -/
def State.frmSubmit (s : State) (e pa group : Nat) (fromMc : Bool) : State :=
  s.updDie e (fun x => { x with frm := if x.frm.queue.length ≥ 16 || x.frm.fault then { x.frm with full := true } else { x.frm with queue := x.frm.queue ++ [(pa, group, fromMc)] } })
/-- FRM_SUB_WRITE (20 R439). -/
def execFrmSubWrite (engine : Fin 17) (val : Word) (s : State) : Host.Outcome State Fault Refusal :=
  .next (s.frmSubmit engine.val (fieldOf val 56 3 * 8) (fieldOf val 63 60) false)
/-- The number of a state of an engine. -/
def FrmState.num : FrmState → Nat
  | .idle => 0 | .verifying => 1 | .running => 2 | .rollback => 3
/-- FRM_STAT as it reads (20 R439). -/
def FrmEngine.stat (x : FrmEngine) : Word :=
  BitVec.ofNat 64 (x.st.num * 2 ^ 60 + min x.queue.length 16 * 2 ^ 55 + b2n x.full * 2 ^ 54 + x.id.toNat * 2 ^ 32 + x.last.toNat * 2 ^ 24 + x.step.toNat)

/-- The MC answers a request: OP and TAG of its word 0, a status and a payload; RSP_PEND is set and INTID 19, which is Secure only (04 R116), becomes pending (21 R448). -/
def State.mcAnswer (s : State) (word0 : Word) (status : Nat) (payload : List Word) : State :=
  let w0 := BitVec.ofNat 64 (fieldOf word0 63 48 * 2 ^ 48 + payload.length * 2 ^ 40 + status * 2 ^ 32 + fieldOf word0 31 0)
  let rsp := ((List.range 32).zip (w0 :: payload)).foldl (fun (r : Tbl Word) p => Tbl.set 0 r p.1 p.2) []
  let t := s.mc.cfg.mbxThread
  { s with mc := { s.mc with rsp := rsp, rspPend := true } }.send { Flit.blank .intDlv .mc (.core (coreId (t.val / 2))) with
    cls := 8, msg := some { intid := 19, target := t, secure := true, refusal := false, sender := none, level := false, stamp := s.stamp 16 } }
/-- A request of a known OP with the payload words its OP needs (21 R449). -/
def mcKnown (req : List Word) : Bool :=
  let w := req.getD 0 0
  let p := (req.getD 1 0).toNat
  let some_ := decide (1 ≤ fieldOf w 47 40)
  match fieldOf w 63 48 with
  | 1 => true
  | 3 => some_
  | 4 => some_
  | 5 => true
  | 6 => true
  | 7 => some_ && decide (p < 16)
  | 8 => true
  | 9 => some_ && p % 4 != 3
  | _ => false
/-- REQ_DB: REQ passes to the MC, BUSY is answered while a request is in hand, and ARG to one the table does not name (21 R448, R449; log 25). -/
def State.reqDb (s : State) : State :=
  let req := (List.range 32).map (Tbl.get 0 s.mc.req)
  if s.mc.inHand.isSome || s.mc.restartReq.isSome then s.mcAnswer (req.getD 0 0) 1 []
  else if !mcKnown req then s.mcAnswer (req.getD 0 0) 3 []
  else { s with mc := { s.mc with inHand := some req } }
/-- A word of the mailbox page or of the page of forme queues; none where it is unbacked. -/
def State.mailRead (s : State) (o : Nat) : Option Word :=
  if o < 0x100 then some (Tbl.get 0 s.mc.req (o / 8))
  else if o = 0x100 then some 0
  else if 0x800 ≤ o ∧ o < 0x900 then some (Tbl.get 0 s.mc.rsp ((o - 0x800) / 8))
  else if o = 0x900 then some (BitVec.ofNat 64 (b2n s.mc.rspPend))
  else if o = 0xF000 then some s.wd.ctl
  else if o = 0xF008 then some 0
  else if o = 0xF010 then some s.swdStat
  else if 0x10000 ≤ o ∧ o < 0x10000 + 17 * 0x40 then
    some (if o % 0x40 = 8 then (s.die ((o - 0x10000) / 0x40)).frm.stat else 0)
  else none
/-- A word of those pages is written. -/
def State.mailWrite (s : State) (o : Nat) (w m : Word) : State :=
  let full := fun (old : Word) => (old &&& ~~~ m) ||| (w &&& m)
  let v := w &&& m
  if o < 0x100 then { s with mc := { s.mc with req := Tbl.set 0 s.mc.req (o / 8) (full (Tbl.get 0 s.mc.req (o / 8))) } }
  else if o = 0x100 then (if bit v 0 then s.reqDb else s)
  else if o = 0x900 then (if bit v 0 then { s with mc := { s.mc with rspPend := false } } else s)
  else if o = 0xF000 then s.swdPut (setField (full s.wd.ctl) 63 63 (fieldOf v 63 63))
  else if o = 0xF008 then (if bit v 0 then s.swdKick else s)
  else if o = 0xF010 then (if bit v 63 then { s with wd := { s.wd with fired := false } } else s)
  else if 0x10000 ≤ o ∧ o < 0x10000 + 17 * 0x40 then
    let e := (o - 0x10000) / 0x40
    if o % 0x40 = 0 then s.frmSubmit e (fieldOf v 56 3 * 8) (fieldOf v 63 60) false
    else if o % 0x40 = 8 && bit v 54 then s.updDie e (fun x => { x with frm := { x.frm with full := false } }) else s
  else s

/-! Package MMIO (01 R30 to R32). -/

/-- An offset of the Data Mover range: its instance and the offset in it; none for the pages 3 to 15 and for a world that its channel does not admit. -/
def State.moverPage (s : State) (sec : Bool) (off : Nat) : Option (Nat × Nat) :=
  let i := (off - 0x02000000) / 0x10000
  let o := off % 0x10000
  if o < 0x3000 && ((s.inst i).st == .unbound || s.instOpen i sec) then some (i, o) else none
/-- The aligned 8 bytes at an offset of package MMIO as a world side reads them; none where the address is unbacked. DESIGN CHOICE (log 19): so are the Reserved offsets 0x680 to 0xFFF
of a present thread's page (04 R117). -/
def State.mmioRead (s : State) (sec : Bool) (off : Nat) : State × Option Word :=
  if off < 0x01000000 then
    let t := off / 0x1000
    if off < 0x00400000 && s.thrPresent t && decide (off % 0x1000 < 0x680) then
      (s, some (BitVec.ofNat 64 ((List.range 8).foldl (fun a i => a + ((s.intByte sec t (off % 0x1000 + i)).getD 0).toNat * 2 ^ (8 * i)) 0)))
    else (s, none)
  else if off < 0x02000000 then (s, s.routerRead (decide (0x01800000 ≤ off)) (off % 0x800000))
  else if off < 0x04000000 then (s, (s.moverPage sec off).map (fun p => s.instRead p.1 p.2))
  else if off < 0x10000000 then (s, none)
  else if off < 0x20000000 then
    (if s.ecamAbsent sec (off - 0x10000000) then (s, some (BitVec.allOnes 64)) else let r := s.ecamRead (off - 0x10000000); (r.1, some r.2))
  else if off < 0x20100000 then (s, s.errRead sec (off - 0x20000000))
  else if off < 0x20120000 then (s, if sec then s.mailRead (off - 0x20100000) else none)
  else (s, none)
/-- The word that a write presents to the error window: bytes it does not write keep what they hold, but for those that act on ones (log 19). -/
def State.errWord (s : State) (sec : Bool) (off : Nat) (w m : Word) : Word :=
  let old := (s.errRead sec off).getD 0
  let acts := off < 0x88000 || off = 0xB4000 || off = 0xB4008
  if acts then (if off = 0xB4008 then setField ((old &&& ~~~ m) ||| (w &&& m)) 63 63 (fieldOf (w &&& m) 63 63) else w &&& m) else (old &&& ~~~ m) ||| (w &&& m)
/-- The bytes of w that m names are written to the aligned 8 bytes at an offset of package MMIO; none where the address is unbacked. -/
def State.mmioWrite (s : State) (sec : Bool) (off : Nat) (w m : Word) : Option State :=
  if off < 0x01000000 then
    let t := off / 0x1000
    if off < 0x00400000 && s.thrPresent t && decide (off % 0x1000 < 0x680) then
      some ((List.range 8).foldl (fun s i => if bit m (8 * i) then s.intBytePut sec t (off % 0x1000 + i) (BitVec.ofNat 8 (fieldOf w (8 * i + 7) (8 * i))) else s) s)
    else none
  else if off < 0x02000000 then
    let view := decide (0x01800000 ≤ off)
    (s.routerRead view (off % 0x800000)).map (fun _ => s.routerWrite view (off % 0x800000) w m)
  else if off < 0x04000000 then (s.moverPage sec off).map (fun p => s.instWrite p.1 p.2 w m)
  else if off < 0x10000000 then none
  else if off < 0x20000000 then some (if s.ecamAbsent sec (off - 0x10000000) then s else s.ecamWrite (off - 0x10000000) w m)
  else if off < 0x20100000 then
    (s.errRead sec (off - 0x20000000)).map (fun _ => s.errWrite sec (off - 0x20000000) (s.errWord sec (off - 0x20000000) w m))
  else if off < 0x20120000 then (if sec then (s.mailRead (off - 0x20100000)).map (fun _ => s.mailWrite (off - 0x20100000) w m) else none)
  else none

/-- An ECAM access beyond bus 0 goes to the port whose bridge has its bus (16 R368). -/
def State.ecamPort (s : State) (sec : Bool) (off : Nat) : Option (Nat × Nat) :=
  if 0x10000000 ≤ off ∧ off < 0x20000000 then
    (if (ecamParts (off - 0x10000000)).1 = 0 || s.ecamAbsent sec (off - 0x10000000) then none else s.busPort (ecamParts (off - 0x10000000)).1)
  else none
/-- An access reaches the agent that decodes package MMIO and what nothing backs (01 R30, R31). -/
def State.mmioTake (s : State) (f : Flit) : Option State :=
  let pa := f.line * 64 + maskOff f.mask
  let dev := (f.acc == .devLoad || f.acc == .devStore) && (f.op == Op.rdNc || f.op == Op.wrNc)
  let sec := f.world == 0xFFF
  match s.region pa with
  | .pkg off =>
    if !dev then some (s.answerError .mmio f codeNoTarget false)
    else if s.secureMmio off && !sec then some (s.answerError (s.mmioOwner off) f codeWorldMismatch false)
    else match s.ecamPort sec off with
      | some (p, k) =>
        if s.portSt (hubPort (24 + p)) = 3 then none
        else if s.portSt (hubPort (24 + p)) ≠ 0 then some ((s.ctlCount (hubPort (24 + p)) 63 48).answerError .mmio f codeDomainOff false)
        else if s.isContained p k then some (s.answerError (.port p) f codeContained false)
        else if !(s.sub p k).up then some (s.answerError (.port p) f codePcieDown false)
        else if (s.port p).reqs.length ≥ 1024 then none
        else some (s.updPort p (fun r => { r with reqs := r.reqs ++ [{ flit := f, sub := k, zeroRead := f.op == Op.wrNc, covers := [], stamp := s.stamp 16 }] }))
      | none =>
        let o := off - off % 8
        let at_ := (pa - pa % 8) % 64
        if f.op = .rdNc then
          (match s.mmioRead sec o with
           | (s, some w) => some (s.send { f.answer .mmio .dataS with data := placeVal w at_ })
           | (s, none) => some (s.answerError .mmio f codeNoTarget false))
        else match s.mmioWrite sec o (lineVal f.data at_ 8) (lineVal (maskBits f.mask) at_ 8) with
          | some s => some (s.send (f.answer .mmio .ack))
          | none => some (s.answerError .mmio f codeNoTarget false)
  | _ => some (s.answerError .mmio f codeNoTarget false)

/-- REGISTER_WRITE (00 R6 to R11; 01 R36; 20 R433): a whole word, written on one of the paths that reach registers; a write that is refused changes no register,
and the MC's firmware sees an error status. -/
def execRegisterWrite (path : WritePath) (addr : BitVec 57) (val : Word) (s : State) : Host.Outcome State Fault Refusal :=
  let a := addr.toNat % 2 ^ 40
  let page := fun (sec : Bool) => match s.region addr.toNat with
    | .pkg off => if !sec && s.secureMmio off then s else (s.mmioWrite sec (off - off % 8) val (BitVec.allOnes 64)).getD s
    | _ => s
  match path with
  | .vendorForme => .next ((s.formePut 0 a val).getD s)
  | .ownerForme => .next ((s.formePut 1 a val).getD s)
  | .ephemeralForme => .next ((s.formePut 2 a val).getD s)
  | .mc => .next (s.mcStatus (s.mcPut a val))
  | .secureWindow => .next (page true)
  | .normalWindow => .next (page false)

end Sys2Proof.Machine
end

