-- ==== Sys2Proof/Machine/Serve.lean ====
section
/-! DEFINITION. The rows of the coherence messages: each agent takes the flit that reaches it (09 R234, R239 to R252; 13 R323, R330, R331), RETRY and its wait (09 R248), and requests and snoops that get no answer (11 R280, R281). -/

namespace Sys2Proof.Machine

/-! Memory controllers (09 R239; 12 R293 to R297, R304, R305; 13 R329 to R331). -/

/-- A write for part of a line, or an atomic, waits at a controller for its line's data. -/
def MemRead.writes (r : MemRead) : Bool := r.flit.op == .wrNc || r.flit.op == .atomM
/-- The permission that a request needs of the guard: read, then write (12 R304). -/
def Op.needs : Op → Bool × Bool
  | .rdU | .atomM | .atomH | .upg => (true, true)
  | .wrNc | .wbD => (false, true)
  | _ => (true, false)
/-- A mirror write from the partner is noted for the 10 µs in which its event may be asked for (13 R334). -/
def State.noteMirror (s : State) (ch : Nat) (f : Flit) : State :=
  let now := s.stamp 16
  s.updChan ch (fun c => { c with
    mirrorLog := c.mirrorLog.filter (fun p => decide (p.1.toNat + usTicks 10 ≥ now.toNat)) ++ [(now, f.stamp, f.line * 64)] })
/-- A request reaches a memory controller: a write of a whole line is made at once, anything else once the line is read. None while a quiesce holds the channel (20 R437), the
line is blocked for a write (12 R293), or an earlier write of part of it waits. -/
def State.memTake (s : State) (ch : Nat) (f : Flit) : Option State :=
  let line := f.line
  let pa := line * 64
  let copy : Bool := match s.region pa with | .partner _ => true | _ => false
  if s.held 3 ch then none
  else if !copy && !s.backed pa then some (s.answerError (.mem ch) f codeNoTarget false)
  else if !copy && !s.guardOk pa f.world f.op.needs.1 f.op.needs.2 then some (s.answerError (.mem ch) f codeGrdRefused true)
  else if (f.op == .wrNc && f.mask == BitVec.allOnes 64) || f.op == .wbD then
    if s.lineBusy ch line || s.bankBusy ch line || (s.chan ch).reads.any (fun r => r.flit.line == line && r.writes) then none
    else
      let s := if copy then s.noteMirror ch f else s
      some (((s.putLine line f.data f.poison).mirrorWrite line f.data f.poison).afterMirror line (f.answer (.mem ch) .ack))
  else some (s.updChan ch (fun c => { c with reads := c.reads ++ [{ flit := f, again := 0 }] }))
/-- The partner's copy answers a poisoned read (13 R331): a clean line is written back and delivered. -/
def State.memData (s : State) (ch : Nat) (f : Flit) : State :=
  let c := s.chan ch
  let n := c.reads.findIdx (fun r => r.again == 100 + f.tid)
  match c.reads[n]? with
  | none => s.logError (.mem ch) codeStray 3 f.world (some (f.line * 64)) none
  | some r =>
    let s := s.updChan ch (fun c => { c with reads := listDrop c.reads n })
    if f.err.isSome || f.poison then s.deliverRead ch r.flit 0 true
    else
      let s := (s.putLine f.line f.data false).memErr ch f.line 0x0A 1 r.flit.world
      s.deliverRead ch r.flit (s.memRaw f.line) false
/-- The partner's controller has acknowledged a mirror write: the answer that waited for it goes out (13 R330). -/
def State.mirrorAck (s : State) (ch : Nat) (f : Flit) : State :=
  match (s.chan ch).mirrors.find? (fun m => m.tid == f.tid) with
  | none => s
  | some m =>
    let s := s.updChan ch (fun c => { c with mirrors := c.mirrors.filter (fun q => q.tid != f.tid) })
    match m.answer with
    | some g => s.send g
    | none => s

/-! Home slices. -/

/-- A window request at the home slice of its line (13 R323): the atomic buffer serves it, or it goes on to the agent that plays the controller's role.
None while the line's bucket moves, or a transaction stands on it. -/
def State.homeWindow (s : State) (n : Nat) (f : Flit) : Option State :=
  let line := f.line
  if bit (s.homeMap (n / 36) (bucketOf line)) 22 then none
  else if (s.txn line).isSome then none
  else if s.homeOf (n / 36) line ≠ sliceAgent n then some (s.relay { f with dst := s.homeOf (n / 36) line })
  else match s.atom line with
    | none => some (s.relay { f with dst := s.endpoint (line * 64), fwd := true })
    | some a =>
      if a.world ≠ f.world then some (s.answerError (sliceAgent n) f codeWorldMismatch false)
      else if f.op ≠ .wrNc then
        some (s.send { f.answer (sliceAgent n) .dataS with world := a.world, data := a.data, poison := a.poison, func := .read })
      else
        let full := decide (f.mask = BitVec.allOnes 64)
        let b : AtomLine := { a with
          data := if full then f.data else mergeLine a.data f.data f.mask, poison := f.poison || (!full && a.poison), used := (s.stamp (n / 36)).toNat }
        let s := s.setAtom line (some b)
        let s := if s.mirrored && !b.poison then s.homeWrite n line b.data b.poison b.world else s
        some (s.homeReply line (f.answer (sliceAgent n) .ack))
/-- A message for a home slice; none while one that came before it stands there (09 R247), or, of a write-back, while the buffer of 32 is full and the agent that sends it has no
credit (09 R242). -/
def State.homeTake (s : State) (n : Nat) (f : Flit) : Option State :=
  match f.op with
  | .rdNc | .wrNc => s.homeWindow n f
  | .wbD | .evictC => if s.inOrder f && decide (s.wbQueued n < 32) then some (s.homeWb n f) else none
  | _ =>
    if !s.inOrder f then none
    else some (if f.op == Op.rdS && f.pf && f.hint == 2 then s.homePrefetch n f else s.homeRequest n f)

/-! Requests and write-backs: RD_S, RD_U, UPG, RD_NC, WR_NC, ATOM_H, ATOM_M, CMO_P, WB_D, EVICT_C (09 R239). -/

/-- A request or a write-back reaches the agent it is sent to; none while that agent cannot take it. -/
def State.askTake (s : State) (f : Flit) : Option State :=
  match f.dst with
  | .filter d => if f.op = .wbD ∨ f.op = .evictC then s.victim d f.fromCore f else s.filterServe d f.fromCore f
  | .home d t => s.homeTake (sliceNum d t) f
  | .mem ch => s.memTake ch f
  | .port p => s.portTake p f
  | .link p => if f.pf && f.hint == 2 then some s else s.linkTake p f
  | .gwHub => some (s.windowOut f)
  | .mmio => s.mmioTake f
  | _ => some s

/-- RD_S (09 R238, R243). -/
def execRdS (k : Nat) (s : State) : Host.Outcome State Fault Refusal := s.receive k .rdS (fun f s => s.askTake f)
/-- RD_U (09 R238, R243). -/
def execRdU (k : Nat) (s : State) : Host.Outcome State Fault Refusal := s.receive k .rdU (fun f s => s.askTake f)
/-- UPG (09 R238, R243). -/
def execUpg (k : Nat) (s : State) : Host.Outcome State Fault Refusal := s.receive k .upg (fun f s => s.askTake f)
/-- RD_NC (09 R239). -/
def execRdNc (k : Nat) (s : State) : Host.Outcome State Fault Refusal := s.receive k .rdNc (fun f s => s.askTake f)
/-- WR_NC (09 R239). -/
def execWrNc (k : Nat) (s : State) : Host.Outcome State Fault Refusal := s.receive k .wrNc (fun f s => s.askTake f)
/-- ATOM_H (09 R251, R252). -/
def execAtomH (k : Nat) (s : State) : Host.Outcome State Fault Refusal := s.receive k .atomH (fun f s => s.askTake f)
/-- ATOM_M (09 R251, R252). -/
def execAtomM (k : Nat) (s : State) : Host.Outcome State Fault Refusal := s.receive k .atomM (fun f s => s.askTake f)
/-- CMO_P (09 R243). -/
def execCmoP (k : Nat) (s : State) : Host.Outcome State Fault Refusal := s.receive k .cmoP (fun f s => s.askTake f)
/-- WB_D (09 R238, R244; 10 R256). -/
def execWbD (k : Nat) (s : State) : Host.Outcome State Fault Refusal := s.receive k .wbD (fun f s => s.askTake f)
/-- EVICT_C (09 R238, R244). -/
def execEvictC (k : Nat) (s : State) : Host.Outcome State Fault Refusal := s.receive k .evictC (fun f s => s.askTake f)

/-! Snoops (09 R234, R246, R250). -/

/-- A snoop reaches a die, or goes on to the partner. -/
def State.snoopTake (s : State) (f : Flit) : Option State :=
  match f.dst with
  | .filter d => s.dieSnoop d f
  | .link p => s.linkTake p f
  | _ => some s

/-- SNP_S (09 R234). -/
def execSnpS (k : Nat) (s : State) : Host.Outcome State Fault Refusal := s.receive k .snpS (fun f s => s.snoopTake f)
/-- SNP_U (09 R234). -/
def execSnpU (k : Nat) (s : State) : Host.Outcome State Fault Refusal := s.receive k .snpU (fun f s => s.snoopTake f)
/-- SNP_I (09 R234). -/
def execSnpI (k : Nat) (s : State) : Host.Outcome State Fault Refusal := s.receive k .snpI (fun f s => s.snoopTake f)
/-- SNP_NEAR (09 R246). -/
def execSnpNear (k : Nat) (s : State) : Host.Outcome State Fault Refusal := s.receive k .snpNear (fun f s => s.snoopTake f)

/-! Answers (09 R241, R244, R251; 10 R254 to R256). -/

/-- The hub's own window request is answered (13 R319). -/
def State.hubTake (s : State) (f : Flit) : State :=
  match (s.link 8).serves.find? (fun e => e.tid == f.tid) with
  | some e => s.windowBack 8 f e
  | none => s.logError .gwHub codeStray 3 f.world (some (f.line * 64)) none
/-- Data reaches the agent that asked for it; none where another row takes it or it must wait. -/
def State.dataTake (s : State) (f : Flit) : Option State :=
  match f.dst with
  | .core c => s.coreData c.val f
  | .home d t => some (s.homeData (sliceNum d t) f)
  | .mem ch => some (s.memData ch f)
  | .link p => s.linkTake p f
  | .gwHub => some (s.hubTake f)
  | .mover e => some (s.moverAnswer e f)
  | .port p => some (s.portAnswer p f)
  | _ => some s
/-- An acknowledgement reaches its agent; none where another row takes it. -/
def State.ackTake (s : State) (f : Flit) : Option State :=
  match f.dst with
  | .core c => s.coreAck c.val f
  | .filter d => some (if f.comp then s.filterComp d f.fromCore f else s.filterAck d f)
  | .home d t => some (if f.acc == .dma then s else s.homeAck (sliceNum d t) f)
  | .mem ch => some (s.mirrorAck ch f)
  | .link p => s.linkTake p f
  | .gwHub => some (s.hubTake f)
  | .mover e => some (s.moverAnswer e f)
  | .port p => some (s.portAnswer p f)
  | _ => some s

/-- DATA_S (09 R241). -/
def execDataS (k : Nat) (s : State) : Host.Outcome State Fault Refusal := s.receive k .dataS (fun f s => s.dataTake f)
/-- DATA_E (09 R241). -/
def execDataE (k : Nat) (s : State) : Host.Outcome State Fault Refusal := s.receive k .dataE (fun f s => s.dataTake f)
/-- DATA_M (09 R241). -/
def execDataM (k : Nat) (s : State) : Host.Outcome State Fault Refusal := s.receive k .dataM (fun f s => s.dataTake f)
/-- ACK (09 R239, R244; 10 R254). -/
def execAck (k : Nat) (s : State) : Host.Outcome State Fault Refusal := s.receive k .ack (fun f s => s.ackTake f)

/-! RETRY (09 R248; 10 R253). -/

/-- The class of a request of an agent (09 R239; 11 R265): its write-back, a prefetch, a device access, or any other. -/
def Flit.ownClass (f : Flit) (a : Agent) : BitVec 4 :=
  match f.was, a with
  | .wbD, _ | .evictC, _ => 2
  | _, .port _ | _, .mover _ | _, .link _ | _, .gwHub | _, .iommu => 3
  | _, _ => if f.pf then 0 else 1
/-- A refused request waits HINT × 5 ns, which are 20 ticks each. -/
def State.retried (s : State) (a : Agent) (f : Flit) : State :=
  let req : Flit := { f with op := f.was, src := a, dst := a, rcnt := min (f.rcnt + 1) 15, cls := f.ownClass a
                             moved := false, promoted := false, hint := f.ackCnt, ackCnt := 0 }
  { s with backoffs := s.backoffs ++ [{ flit := req, untilStamp := s.stamp a.dieNum + BitVec.ofNat 64 (20 * f.hint), moved := f.moved }] }
/-- RETRY reaches a requester; one for the partner's goes on over the link, and a port asks again for a window request it serves. -/
def execRetry (k : Nat) (s : State) : Host.Outcome State Fault Refusal :=
  s.receive k .retry (fun f s =>
    match f.dst with
    | .link p => if (s.link p).serves.any (fun e => e.tid == f.tid) then some (s.retried f.dst f) else s.linkTake p f
    | a => some (s.retried a f))

/-- RETRY_BACKOFF_EXPIRE: the request is sent again, through its die's filter or to the slice HOME_MAP names now; one of the device channel passes its regulator (11 R275). -/
def execRetryBackoffExpire (n : Nat) (s : State) : Host.Outcome State Fault Refusal :=
  match s.backoffs[n]? with
  | none => .next s
  | some b =>
    let d := b.flit.src.dieNum
    if (s.stamp d).toNat < b.untilStamp.toNat then .next s
    else
      let s := { s with backoffs := listDrop s.backoffs n }
      let home := s.homeOf d b.flit.line
      let dst : Agent := match b.flit.src, b.flit.op with
        | .core c, .rdS | .core c, .rdU | .core c, .upg => if b.flit.hint = 2 then home else .filter (c.val / 32)
        | .core c, .wbD | .core c, .evictC => .filter (c.val / 32)
        | _, _ => home
      let f := { b.flit with dst := dst }
      .next (match f.regu with
        | some a => s.regulate a f
        | none => s.send f)

/-- RESERVATION_LAPSE (09 R248): an offer not taken within 256 ns moves on, and its node stays starved. -/
def execReservationLapse (slice : Fin 576) (s : State) : Host.Outcome State Fault Refusal :=
  let n := slice.val
  match (s.slice n).offers.find? (fun o => decide ((s.stamp (n / 36)).toNat ≥ o.2.toNat)) with
  | none => .next s
  | some o => .next ((s.updSlice n (fun x => { x with offers := x.offers.erase o, lastServed := o.1 })).offer n)

/-! Requests and snoops that get no answer (11 R280, R281). -/

/-- The limit of a request for an address from a die, in ticks (11 R280). -/
def State.limitOf (s : State) (d pa : Nat) : Nat :=
  match s.endpoint pa with
  | .port p => s.endptLimit p + usTicks 1
  | .link _ | .gwHub => s.gwLimit d
  | _ => s.pkgLimit d
/-- A request for an address, sent at a stamp, has reached its limit. -/
def State.late (s : State) (d pa : Nat) (stamp : Word) : Bool := decide ((s.stamp d).toNat ≥ stamp.toNat + s.limitOf d pa)
/-- The record of a request that has reached its limit. -/
def State.timedOut (s : State) (t pa : Nat) : State × BitVec 32 :=
  let x := s.thr t
  s.errorAt (.core (coreId (t / 2))) codeTrnTimeout 3 x.world (some pa) (some (thrOf t))
/-- A line that an L2 waits for has reached its limit: its transaction ends for every access of the core that waits for it. -/
def State.lineLate (s : State) (t line : Nat) : State :=
  let c := t / 2
  match (s.core c).l2Line line with
  | none => s
  | some l =>
    let waiting : Bool := match l.st with | .isD | .imAd | .smA _ => true | _ => false
    if !waiting || !s.late (dieOfCore c) (line * 64) l.stamp then s
    else
      let r := s.timedOut t (line * 64)
      (((r.1.updCore c (fun k => k.setL2 line none)).sendComp c line 0 true).lineFails c line (.error codeTrnTimeout r.2 false) (fun _ _ => true)).wakeCore c
/-- The fetch that waits: its own request, or the line it waits for. -/
def State.fetchLate (s : State) (t : Nat) : State :=
  match (s.thr t).fetchReq with
  | none => s
  | some r =>
    if r.tid = 0 then s.lineLate t (r.pa / 64)
    else if !s.late (dieOfThr t) r.pa r.stamp then s
    else
      let q := s.timedOut t r.pa
      q.1.fetchFails t r.pa (.error codeTrnTimeout q.2 false)
/-- A read left behind: its record, and no more. -/
def State.leftLate (s : State) (t n : Nat) : State :=
  match (s.thr t).lefts[n]? with
  | none => s
  | some o => if !s.late (dieOfThr t) o.pa o.stamp then s else (s.timedOut t o.pa).1.updThr t (fun x => x.leftDone o.tid)
/-- The instruction in progress: its own request, or the line it waits for. -/
def State.opLate (s : State) (t : Nat) : State :=
  let x := s.thr t
  match x.memOp with
  | some m => match m.want with
    | some pa =>
      if ((s.core (t / 2)).l2Line (pa / 64)).isSome then s.lineLate t (pa / 64)
      else if m.tid = 0 || !s.late (dieOfThr t) pa m.stamp then s
      else
        let r := s.timedOut t pa
        (r.1.updThr t (fun x => x.updMem (fun m => m.refused (.error codeTrnTimeout r.2 false)))).wake t
    | none => s
  | none => s.fetchLate t
/-- A walk: it aborts with kind BUS. -/
def State.walkLate (s : State) (t : Nat) : State :=
  match (s.thr t).walk with
  | none => s
  | some w =>
    let place : Option (Nat × Bool × Nat) := match w.upd with
      | some u => some (u.pa, u.st2, u.lvl)
      | none => (s.walkNeeds t).map (fun q => (q.1, q.2.2.1, q.2.2.2))
    match place with
    | none => s
    | some (pa, st2, lvl) =>
      if w.upd.isNone && ((s.core (t / 2)).l2Line (pa / 64)).isSome then s.lineLate t (pa / 64)
      else if w.tid = 0 || !s.late (dieOfThr t) pa w.stamp then s
      else (s.timedOut t pa).1.walkAbort t 0 st2 lvl pa
/-- An access performed exactly once that its instruction has left (04 R122). -/
def State.keptLate (s : State) (t n : Nat) : State :=
  match (s.thr t).kept[n]? with
  | none => s
  | some k => match k.op.want with
    | some pa =>
      if k.op.tid = 0 || !s.late (dieOfThr t) pa k.op.stamp then s
      else
        let r := s.timedOut t pa
        r.1.updThr t (fun x => x.opDo k.op.tid (fun m => m.refused (.error codeTrnTimeout r.2 false)))
    | none => s
/-- A thread's open transactions are numbered: 0 its instruction or the fetch of it, 1 its walk, then its outstanding operations, its stores that wait for a line, the
write-backs of its core's Galley, the reads that it has left behind, and the accesses kept for an instruction. -/
def State.thrLate (s : State) (t : Thr) (n : Nat) : State :=
  let x := s.thr t.val
  let c := t.val / 2
  let stores := x.stb.filter (fun e => e.issued)
  if n = 0 then s.opLate t.val
  else if n = 1 then s.walkLate t.val
  else match x.outst[n - 2]?, stores[n - 2 - x.outst.length]?, (s.core c).galWb[n - 2 - x.outst.length - stores.length]? with
    | some o, _, _ =>
      if o.kind == .postedPcie || !s.late (dieOfThr t.val) o.pa o.stamp then s
      else ((s.timedOut t.val o.pa).1.updThr t.val (fun x =>
        ({ x with outst := x.outst.filter (fun q => q.tid != o.tid) }).pendError { pa := BitVec.ofNat 57 o.pa, code := codeTrnTimeout, stamp := s.stamp (dieOfThr t) })).wakeCore c
    | none, some e, _ => s.lineLate t.val (e.pa / 64)
    | none, none, some w =>
      let pa := w.entry.tag * 64
      if !s.late (dieOfThr t.val) pa w.stamp then s
      else
        let f := { Flit.blank .ack .gwHub (.core (coreId c)) with tid := w.tid, line := w.entry.tag, acc := .galWb }
        ((s.timedOut t.val pa).1.pendAt c f codeTrnTimeout).wakeCore c
    | none, none, none =>
      let k := n - 2 - x.outst.length - stores.length - (s.core c).galWb.length
      if k < x.lefts.length then s.leftLate t k else s.keptLate t (k - x.lefts.length)

/-- A request sent at a stamp by an agent of a die has waited for a limit. -/
def State.overdue (s : State) (d : Nat) (stamp : Word) (limit : Nat) : Bool := decide ((s.stamp d).toNat ≥ stamp.toNat + limit)
/-- The record of an overdue request of an agent other than a thread. -/
def State.overdueAt (s : State) (a : Agent) (world : Tag) (line : Nat) : State × BitVec 32 := s.errorAt a codeTrnTimeout 3 world (some (line * 64)) none
/-- The limit of a request of an agent of the hub die to the home of a line, or over the window (11 R280). -/
def State.hubLimit (s : State) (line : Nat) : Nat :=
  match s.homeOf 16 line with
  | .link _ => s.gwLimit 16
  | _ => s.limitOf 16 (line * 64)
/-- A core's open transactions: its mirror writes, then its victims on their way to the filter. A dirty victim that is lost is a pending error of both threads, since the
line does not say whose stores it holds (DESIGN CHOICE, log 12). -/
def State.coreLate (s : State) (c n : Nat) : State :=
  let k := s.core c
  let d := dieOfCore c
  let victims := k.l2.filterMap (fun p => match p.2 with
    | some l => (match l.st with | .viA dirty => some (p.1, dirty, l) | _ => none)
    | none => none)
  let err := fun (line : Nat) => ({ pa := BitVec.ofNat 57 (line * 64), code := codeTrnTimeout, stamp := s.stamp d } : PendErr)
  match k.mirrorOut[n]?, victims[n - k.mirrorOut.length]? with
  | some o, _ =>
    if !s.overdue d o.stamp (s.gwLimit d) then s else (s.overdueAt (.core (coreId c)) 0xFFF o.line).1.mirrorEnds c o (some (err o.line))
  | none, some (line, dirty, l) =>
    if !s.overdue d l.stamp (s.pkgLimit d) then s
    else
      let s := (s.overdueAt (.core (coreId c)) l.world line).1.updCore c (fun k => k.setL2 line none)
      let one := fun (s : State) (t : Nat) => if dirty then s.updThr t (fun x => x.pendError (err line)) else s
      (one (one s (2 * c)) (2 * c + 1)).wakeCore c
  | none, none => s
/-- A controller's open transactions: its mirror writes, then its reads of the partner's copy. The answer that waited for a mirror write carries the error. -/
def State.chanLate (s : State) (ch n : Nat) : State :=
  let c := s.chan ch
  let asked := c.reads.filter (fun r => decide (r.again ≥ 100))
  match c.mirrors[n]?, asked[n - c.mirrors.length]? with
  | some m, _ =>
    if !s.overdue 16 m.stamp (s.gwLimit 16) then s
    else
      let (s, loc) := s.overdueAt (.mem ch) 0xFFF m.line
      let s := s.updChan ch (fun c => { c with mirrors := c.mirrors.filter (fun q => q.tid != m.tid) })
      match m.answer with
      | some g => s.send { g with err := some codeTrnTimeout, refusal := some false, opA := loc.setWidth 64, opB := 0 }
      | none => s
  | none, some r =>
    if !s.overdue 16 r.stamp (s.gwLimit 16) then s
    else ((s.overdueAt (.mem ch) r.flit.world r.flit.line).1.updChan ch (fun c => { c with reads := c.reads.filter (fun q => q.again != r.again) })).deliverRead ch r.flit 0 true
  | none, none => s
/-- A request of a root port's functions to another home or package. -/
def State.portLate (s : State) (p n : Nat) : State :=
  match (s.port p).away[n]? with
  | some q =>
    if !s.overdue 16 q.stamp (s.hubLimit q.line) then s
    else (s.overdueAt (.port p) 0xFFF q.line).1.updPort p (fun x => { x with away := x.away.filter (fun r => r.tid != q.tid) })
  | none => s
/-- A request of a Data Mover instance to another home or package, reads first: its descriptor ends with status 5 (15 R361). -/
def State.instLate (s : State) (i n : Nat) : State :=
  let x := s.inst i
  match (x.ioAsk ++ x.ioWrites)[n]? with
  | some q =>
    if !s.overdue 16 q.stamp (s.hubLimit q.line) then s
    else (s.overdueAt (.mover x.engine) (s.instWorld i) q.line).1.updInst i (fun x => { x with
      ioAsk := x.ioAsk.filter (fun r => r.tid != q.tid), ioWrites := x.ioWrites.filter (fun r => r.tid != q.tid), ioErr := 5 })
  | none => s
/-- A window request that a port serves for another package: the error goes back to it. -/
def State.linkLate (s : State) (p n : Nat) : State :=
  match (s.link p).serves[n]? with
  | some e =>
    if !s.overdue 16 e.stamp (s.hubLimit e.line) then s
    else
      let a : Agent := if p = 8 then .gwHub else .link p
      let (s, loc) := s.overdueAt a 0xFFF e.line
      s.windowBack p { Flit.blank (if e.wr then .ack else .dataS) a a with
        tid := e.tid, line := e.line, err := some codeTrnTimeout, refusal := some false, opA := loc.setWidth 64 } e
  | none => s
/-- The open requests of a home slice: its writes of memory by line and transaction, and, as transaction 0, its reads for an atomic. -/
def State.homeAsks (s : State) (n : Nat) : List (Nat × Nat × Word) :=
  s.txns.flatMap (fun p => match p.2 with
    | some x =>
      if x.slice = n then x.writes.map (fun w => (p.1, w.1, w.2)) ++ (if x.flit.op == Op.atomH && x.served && x.compDue then [(p.1, 0, x.stamp)] else []) else []
    | none => [])
/-- A write of memory that is not acknowledged is over; an atomic whose line is not read answers with the error. -/
def State.homeLate (s : State) (n k : Nat) : State :=
  match (s.homeAsks n)[k]? with
  | some (line, tid, stamp) =>
    if !s.overdue (n / 36) stamp (s.limitOf (n / 36) (line * 64)) then s
    else
      let r := s.overdueAt (sliceAgent n) 0xFFF line
      match r.1.txn line with
      | some x =>
        if tid = 0 then r.1.homeData n { Flit.blank .dataS (sliceAgent n) (sliceAgent n) with
          line := line, err := some codeTrnTimeout, refusal := some false, opA := r.2.setWidth 64 }
        else r.1.homeWritten n line tid x
      | none => r.1
  | none => s
/-- TRANSACTION_TIMEOUT (11 R280; 07 R192): the requester and its number of the transaction. -/
def execTransactionTimeout (r : Requester) (n : Nat) (s : State) : Host.Outcome State Fault Refusal :=
  .next (match r with
    | .thread t => s.thrLate t n
    | .core c => s.coreLate c.val n
    | .chan ch => s.chanLate ch.val n
    | .port p => s.portLate p.val n
    | .inst i => s.instLate i.val n
    | .link p => s.linkLate p.val n
    | .home h => s.homeLate h.val n)

/-- The record of a snoop without an answer, which names the silent die or tile (11 R281). -/
def State.silent (s : State) (d line : Nat) (node : BitVec 12) (f : Flit) : State :=
  (s.record d { node := node, code := 0x0204, sev := 3, world := f.world, addr := some (BitVec.ofNat 57 (line * 64)), thread := f.thr
                synd := BitVec.ofNat 256 (Config.syndrome 0x0204 (s.stamp d).toNat node.toNat) }).1
/-- A home ends a transaction whose snoop a die does not answer (11 R281): the poison goes to the requester, where it waits, and to memory, and the entry is Uncached. -/
def State.homeSilent (s : State) (line : Nat) : State :=
  match s.txn line with
  | none => s
  | some x =>
    let n := x.slice
    let d := n / 36
    let limit := if bit x.due 16 then s.gwLimit d else s.pkgLimit d
    if x.due = 0 || !s.overdue d x.stamp limit then s
    else
      let f := x.flit
      let s := ((List.range 17).filter (fun h => bit x.due h)).foldl (fun s h => s.silent d line (s.node (holderAgent h)) f) s
      let s := ((s.setTxn line (some { x with due := 0 })).setDir line none).homeWrite n line (s.memLine line) true f.world
      let s := match f.op with
        | .cmoP => s.cmoEnd n f
        | .atomH => s.homeReply line { f.answer (sliceAgent n) .dataS with poison := true }
        | .rdS => if x.compDue then s.send { f.answer (sliceAgent n) .dataS with poison := true } else s
        | _ => if x.compDue then s.send { f.answer (sliceAgent n) .dataE with poison := true, ackCnt := f.ackCnt } else s
      s.homeClose n line
/-- A die snoop filter ends a transaction that it serves itself and whose snoop an L2 does not answer (11 R281): the line goes home poisoned, and its entry with it. -/
def State.filterSilent (s : State) (d line : Nat) : State :=
  match s.ftxn d line, s.fent d line with
  | some x, some e =>
    if !x.served || x.due = 0 || !s.overdue d x.stamp (s.pkgLimit d) then s
    else
      let f := x.flit
      let late := (e.cores d).filter (fun c => (s.core c).mirrorBusy line)
      let s := late.foldl (fun s c => s.silent d line (s.node (.core (coreId c))) f) s
      let s := s.send { f.answer (.filter d) (if f.op == Op.rdS then .dataS else .dataE) with poison := true }
      ((s.setL3 d line none).giveUp d line (some { data := 0, poison := true, world := f.world, dirty := true, wb := false }) e.used).ftxnClose d line
  | _, _ => s
/-- SNOOP_TIMEOUT (11 R281): of a line's home, or of a die's snoop filter. -/
def execSnoopTimeout (snoop : SilentSnoop) (s : State) : Host.Outcome State Fault Refusal :=
  .next (match snoop.filter with
    | none => s.homeSilent snoop.line
    | some d => s.filterSilent d.val snoop.line)

end Sys2Proof.Machine
end

