-- ==== Sys2Proof/Machine/Time.lean ====
section
/-! DEFINITION. Meridian inside the package and its external reference (02 R43, R44, R48). -/

namespace Sys2Proof.Machine

/-- MER_SYNC_SEND (02 R43; 11 R266): every µs the master sends its count and the measured path delay to each die. DESIGN CHOICE (log 12): the hub die's heartbeat to each
compute die goes with it, under the next sequence number; the spec gives HEART no period. -/
def execMerSyncSend (s : State) : Host.Outcome State Fault Refusal :=
  if !s.mc.hubPg || s.now.toNat < s.syncAt.toNat then .next s
  else
    let s := { s with syncAt := s.now + 4000 }
    let dies := (List.range 16).filter s.dieAlive
    let s := dies.foldl (fun s d => s.send { Flit.blank .merSync .meridian (.die d) with
      cls := 9, opA := s.now, opB := BitVec.ofNat 64 (Config.pathDelay d % 2 ^ 32) }) s
    let n := (s.die 16).ringHeart + 1
    let s := s.updDie 16 (fun x => { x with ringHeart := n })
    .next (dies.foldl (fun s d => s.send { Flit.blank .heart (.die 16) (.die d) with cls := 0xB, opA := n }) s)
/-- MER_SYNC (02 R43, R44): the die learns how far its copy stands from the master, by the count and the path delay that the message carries, and corrects itself at half or
double rate. Its stamps hold the bound from the end of Transit training. -/
def execMerSync (k : Nat) (s : State) : Host.Outcome State Fault Refusal :=
  s.receive k .merSync (fun f s =>
    let d := f.dst.dieNum
    let off : Int := ((s.stamp d).toNat : Int) - ((f.opA + f.opB).toNat : Int)
    some (s.updDie d (fun x => { x with time := { x.time with owed := off, synced := x.time.synced || decide (s.mc.stage.toNat > 5) } })))

/-- PPS_EDGE (02 R48): where the MC has PPS_IN enabled the edge's stamp is kept, and the master's rate is moved by what the last second was too long or too short, where the
two edges lie one second ± 1 ms apart. -/
def execPpsEdge (s : State) : Host.Outcome State Fault Refusal :=
  if !s.mc.cfg.pps then .next s
  else
    let now := s.stamp 16
    let t := { s with ppsLast := some now }
    match s.ppsLast with
    | none => .next t
    | some p =>
      let off : Int := (now.toNat : Int) - (p.toNat : Int) - (ppsTicks : Int)
      if decide (off.natAbs ≤ 4000000) then .next { t with ppsRate := s.ppsRate - off } else .next t
/-- PPS_LOST (02 R48): no edge for 3 s; the event is written, with a free code, and the master runs on REFCLK. -/
def execPpsLost (s : State) : Host.Outcome State Fault Refusal :=
  match s.ppsLast with
  | none => .next s
  | some p =>
    if s.now.toNat < p.toNat + 3 * ppsTicks then .next s
    else .next ({ s with ppsLast := none, ppsRate := 0, ppsAcc := 0 }.noteFree .meridian 7)

end Sys2Proof.Machine
end

