-- ==== Sys2Proof/Machine/Errors.lean ====
section
/-! DEFINITION. An error record reaches its store, and what its unit does besides: parity in the caches and the directory, containment, and FAT (08 R227; 19 R411, R415, R416, R418). -/

namespace Sys2Proof.Machine

/-- The core whose tile a node names. -/
def State.nodeCore (s : State) (n : BitVec 12) : Option Nat :=
  if fieldOf n 5 0 < 36 && fieldOf n 10 6 < 16 && fieldOf n 11 11 == s.pkgBit then s.tileCore (36 * fieldOf n 10 6 + fieldOf n 5 0) else none
/-- An entry of a Galley or Hellbox is poisoned in a byte that is DIRTY: its lock is released (08 R227). -/
def GalEntry.poisoned (e : GalEntry) : GalEntry := { e with poison := true, lock := false }
/-- A core's dirty copy of a line is poisoned in place: in its L2, its Galley or its Hellbox; the mark says whether it had one. -/
def State.corePoison (s : State) (c line : Nat) : State × Bool :=
  let k := s.core c
  let hit := fun (e : GalEntry) => e.tag == line && e.dirty != 0
  let mark := fun (l : List GalEntry) => l.map (fun e => if hit e then e.poisoned else e)
  let locked := (k.galley ++ k.hellbox).any (fun e => hit e && e.lock)
  let dirty : Bool := match k.l2Line line with | some l => (match l.st with | .m | .o | .smA true | .viA true => true | _ => false) | none => false
  let s := if dirty then s.updCore c (fun k => k.setL2 line ((k.l2Line line).map (fun l => { l with poison := true }))) else s
  (s.updCore c (fun k => { k with galley := mark k.galley, hellbox := mark k.hellbox, galUnlocked := k.galUnlocked || locked })
  , dirty || (k.galley ++ k.hellbox).any hit)
/-- The dirty copy of a line that an L3 slice of a die holds is poisoned in place. -/
def State.l3Poison (s : State) (d line : Nat) : State :=
  match s.l3Line d line with
  | some l => if l.dirty then s.setL3 d line (some { l with poison := true }) else s
  | none => s
/-- Both tag copies of a Galley entry are bad: the entry, a drawn one, is discarded, and the core's threads are told (08 R227). -/
def State.galTagLost (s : State) (c : Nat) (node : BitVec 12) (loc : BitVec 32) : State :=
  let k := s.core c
  let all := k.galley ++ k.hellbox
  let s := match all[s.draw all.length]? with
    | some e => s.drawn.updCore c (fun k => k.galRemove e.tag)
    | none => s
  let d := dieOfCore c
  s.sendContain (.die d) (s.wholeLoc d node loc) 1 (thrOf (2 * c))
/-- Both copies of a directory entry are bad: every die loses its copies, memory is poisoned and the entry is free (19 R418). -/
def State.dirLost (s : State) (line : Nat) : State :=
  let s := (s.takeAll line).1
  (s.wbMem line (s.memLine line) true (s.lineTag (line * 64) 0xFFF)).setDir line none

/-- The lines of a set that a die's filter records as dirty with a core, or in an L3 slice, are poisoned at home: both tag copies of an entry of the set are bad (08 R227). Every
copy of the die leaves with the entry (DEDUCED, log 8). -/
def State.tagLost (s : State) (d : Nat) (mine : Nat → FilterEntry → Bool) : State :=
  ((s.die d).filter.map Prod.fst).foldl (fun s line =>
    match s.fent d line with
    | some e =>
      if mine line e && !e.pending && (s.ftxn d line).isNone then
        let r := s.dieTake d line
        r.1.giveUp d line (some { data := 0, poison := true, world := ((r.2).map Copy.world).getD 0xFFF, dirty := true, wb := false }) e.used
      else s
    | none => s) s
/-- Both tag copies of an entry of a core's L2 are bad: of a drawn set, since the record names no line (log 6). -/
def State.l2TagLost (s : State) (c : Nat) : State :=
  let set := s.draw 1024
  s.drawn.tagLost (dieOfCore c) (fun line e => bit e.l2vec (c % 32) && line % 1024 == set && (e.dstate == .e || e.dstate == .o))
/-- Both tag copies of an entry of a tile's L3 slice are bad: of a drawn set. -/
def State.l3TagLost (s : State) (d t : Nat) : State :=
  let set := s.draw 2048
  s.drawn.tagLost d (fun line e => e.l3Dirty && l3Slice line == t && line % 2048 == set)
/-- The clean bytes of a core's Galley or Hellbox entry are read again and merged: the entry is no more full, and its lock is kept (08 R227). -/
def State.galReread (s : State) (c line : Nat) : State :=
  match ((s.core c).galley ++ (s.core c).hellbox).find? (fun e => e.tag == line) with
  | none => s
  | some e =>
    let s := s.freshTid
    let less := fun (l : List GalEntry) => l.map (fun e => if e.tag = line then { e with full := false } else e)
    (s.updCore c (fun k => { k with galley := less k.galley, hellbox := less k.hellbox })).send
      { Flit.blank .rdNc (.core (coreId c)) (s.endpoint (line * 64)) with
        thr := some (thrOf (2 * c)), tid := s.nextTid, line := line, world := e.world, size := 64, mask := byteMask 0 64, acc := .galRead, pf := true }
/-- The arrays of a core that hold a line and may have corrected an error in it: 0 its L1s, 1 its L2, clean, 2 its Galley. -/
def State.cleanArrays (s : State) (c line : Nat) : List Nat :=
  let k := s.core c
  (if k.l1i.any (fun x => x.line == line) || k.l1d.any (fun x => x.line == line) then [0] else []) ++
  (match k.l2Line line with | some l => (match l.st with | .e | .s => [1] | _ => []) | none => []) ++
  (if (k.galley ++ k.hellbox).any (fun e => e.tag == line) then [2] else [])
/-- A corrected error in a core's copy of a line (08 R227): a clean L1 or L2 line is discarded, and clean Galley bytes are read again. Which array it was is drawn among those that
hold the line: it stands in the syndrome, whose layout the spec does not give (log 6). -/
def State.coreClean (s : State) (c line : Nat) : State :=
  let l := s.cleanArrays c line
  let less := fun (k : Core) => { k with l1i := l1Less k.l1i line, l1d := l1Less k.l1d line }
  match l[s.draw l.length]? with
  | some 0 => s.drawn.updCore c less
  | some 1 => s.drawn.updCore c (fun k => less (k.setL2 line none))
  | some _ => s.drawn.galReread c line
  | none => s
/-- A corrected error in a clean L3 line: it is discarded (08 R227). -/
def State.l3Clean (s : State) (d line : Nat) : State :=
  match s.l3Line d line, s.fent d line with
  | some l, some e =>
    if l.dirty then s
    else if e.pending || (s.ftxn d line).isSome then (s.setL3 d line none).updFent d line (fun e => { e with l3 := false })
    else s.l3Drop d line
  | _, _ => s

/-- What the unit that detected an error does besides its record (08 R227; 19 R418). -/
def State.errorAct (s : State) (d : Nat) (r : RecordIn) (loc : BitVec 32) : State :=
  let line := r.addr.map (fun a => a.toNat / 64)
  match r.code.toNat, line, s.nodeCore r.node with
  | 0x0101, some l, some c => if (s.cleanArrays c l).isEmpty then s.l3Clean d l else s.coreClean c l
  | 0x0102, some l, some c =>
    let p := s.corePoison c l
    if p.2 then p.1 else p.1.l3Poison d l
  | 0x0102, none, some c => s.l2TagLost c
  | 0x0201, some l, _ => s.l3Clean d l
  | 0x0202, some l, _ => s.l3Poison d l
  | 0x0202, none, _ => s.l3TagLost d (fieldOf r.node 5 0)
  | 0x0103, _, some c => s.galTagLost c r.node loc
  | 0x0203, some l, _ => s.dirLost l
  | 0x0F05, _, _ => (s.updDie d (fun x => { x with frm := { x.frm with fault := true } })).sendContain (.die d) (s.wholeLoc d r.node loc) 2 (thrOf (64 * d))
  | _, _, _ => s
/-- ERROR_RECORD_STORE (19 R411, R415, R416, R418). -/
def execErrorRecordStore (die : Fin 17) (r : RecordIn) (s : State) : Host.Outcome State Fault Refusal :=
  let d := die.val
  if !(s.die d).inService || r.sev.toNat < 1 || 4 < r.sev.toNat then .next s
  else
    let p := s.record d r
    let s := p.1.errorAct d r p.2
    .next (if r.sev = 4 then s.fatAction p.2 else s)

end Sys2Proof.Machine
end

