-- ==== Sys2Proof/Machine/Flags.lean ====
section
/-! DEFINITION. Floating point: values, rounding, results and the flags each operation raises (03 R87 to R94). -/

namespace Sys2Proof.Machine.Fp

/-- Fraction bits of a format: binary64 where P = 1 (03 R89). -/
def mbits (p : Bool) : Nat := if p then 52 else 23
/-- Exponent bits of a format. -/
def ebits (p : Bool) : Nat := if p then 11 else 8
/-- Precision. -/
def prec (p : Bool) : Nat := mbits p + 1
/-- The exponent of the last place of a subnormal. -/
def qmin (p : Bool) : Int := if p then -1074 else -149
/-- The largest exponent of the last place. -/
def qmax (p : Bool) : Int := if p then 971 else 104
/-- The canonical quiet NaN (03 R92). -/
def qnan (p : Bool) : Word := if p then 0x7FF8000000000000 else 0x7FC00000
/-- The position of the sign bit. -/
def signPos (p : Bool) : Nat := mbits p + ebits p
/-- A sign bit in place. -/
def signBit (p s : Bool) : Nat := if s then 2 ^ signPos p else 0
/-- Infinity of a sign. -/
def infBits (p s : Bool) : Word := BitVec.ofNat 64 ((2 ^ ebits p - 1) * 2 ^ mbits p + signBit p s)
/-- The largest finite value of a sign. -/
def maxBits (p s : Bool) : Word := BitVec.ofNat 64 ((2 ^ ebits p - 1) * 2 ^ mbits p - 1 + signBit p s)

/-- A value: NaN, infinity, or a finite m · 2^e of a sign. -/
inductive Val where
  | nan (signalling : Bool)
  | inf (s : Bool)
  | fin (s : Bool) (m : Nat) (e : Int)
deriving DecidableEq, Repr

/-- The operand bits of a format: a binary32 operand is read from bits [31:0] alone (03 R61). -/
def operand (p : Bool) (x : Word) : Nat := if p then x.toNat else x.toNat % 2 ^ 32
/-- The sign bit of an operand. -/
def signOf (p : Bool) (x : Word) : Bool := operand p x / 2 ^ signPos p % 2 == 1
/-- The value of an operand. -/
def value (p : Bool) (x : Word) : Val :=
  let n := operand p x
  let f := n % 2 ^ mbits p
  let e := n / 2 ^ mbits p % 2 ^ ebits p
  let s := signOf p x
  if e = 2 ^ ebits p - 1 then (if f = 0 then .inf s else .nan (decide (f < 2 ^ (mbits p - 1))))
  else if e = 0 then .fin s f (qmin p)
  else .fin s (f + 2 ^ mbits p) (qmin p + (e - 1 : Nat))

/-- A result with the flags it raises, in FCSR order: IV 1, DZ 2, OF 4, UF 8, IX 16. -/
structure Res where
  bits : Word
  flags : Nat
deriving DecidableEq, Repr

/-- The NaN result of an invalid operation. -/
def invalid (p : Bool) : Res := { bits := qnan p, flags := 1 }

/-- Whether the kept part rounds up in magnitude (03 R88): twice the remainder against the unit, and the sticky bit. -/
def roundUp (rm : Nat) (s : Bool) (kept rem unit : Nat) (sticky : Bool) : Bool :=
  let inexact := decide (rem ≠ 0) || sticky
  match rm with
  | 1 => decide (2 * rem > unit) || (decide (2 * rem = unit) && (sticky || kept % 2 == 1))
  | 2 => decide (2 * rem ≥ unit)
  | 4 => s && inexact
  | 5 => !s && inexact
  | _ => false

/-- m · 2^e (and a little more where sticky) in units of 2^q: the rounded multiple, and whether it is inexact. -/
def roundTo (rm : Nat) (s : Bool) (m : Nat) (e q : Int) (sticky : Bool) : Nat × Bool :=
  if q ≤ e then (m * 2 ^ (e - q).toNat, sticky)
  else
    let unit := 2 ^ (q - e).toNat
    let kept := m / unit
    let rem := m % unit
    (if roundUp rm s kept rem unit sticky then kept + 1 else kept, decide (rem ≠ 0) || sticky)

/-- The result of an exact value m · 2^e, not zero, rounded once (03 R87 to R89): overflow by mode, tiny judged after rounding. -/
def pack (p : Bool) (rm : Nat) (s : Bool) (m : Nat) (e : Int) (sticky : Bool) : Res :=
  let q0 := e + (Nat.log2 m + 1 : Nat) - prec p
  let q := max q0 (qmin p)
  let r := roundTo rm s m e q sticky
  let (k, q) := if r.1 = 2 ^ prec p then (2 ^ mbits p, q + 1) else (r.1, q)
  if q > qmax p then
    let toInf := rm = 1 || rm = 2 || (rm = 4 && s) || (rm = 5 && !s)
    { bits := if toInf then infBits p s else maxBits p s, flags := 4 + 16 }
  else
    let tiny := decide (q0 < qmin p) &&
      !(decide (q0 = qmin p - 1) && decide ((roundTo rm s m e q0 sticky).1 = 2 ^ prec p))
    { bits := BitVec.ofNat 64 ((q - qmin p).toNat * 2 ^ mbits p + k + signBit p s)
      flags := (if r.2 then 16 else 0) + (if tiny && r.2 then 8 else 0) }

/-- Zero of a sign. -/
def zero (p s : Bool) : Word := BitVec.ofNat 64 (signBit p s)

/-- A finite value as an integer multiple of 2^q for q at most its exponent. -/
def scaled (s : Bool) (m : Nat) (e q : Int) : Int := (if s then -1 else 1) * ((m * 2 ^ (e - q).toNat : Nat) : Int)

/-- The sum of two finite values, rounded once; an exact zero of unlike signs is +0, or −0 toward −∞. -/
def addFin (p : Bool) (rm : Nat) (s1 : Bool) (m1 : Nat) (e1 : Int) (s2 : Bool) (m2 : Nat) (e2 : Int) : Res :=
  let q := min e1 e2
  let v := scaled s1 m1 e1 q + scaled s2 m2 e2 q
  if v = 0 then { bits := zero p (if s1 = s2 then s1 else rm == 4), flags := 0 }
  else pack p rm (decide (v < 0)) v.natAbs q false

/-- A signalling NaN among operands. -/
def Val.sig : Val → Bool
  | .nan b => b
  | _ => false
/-- A NaN. -/
def Val.isNan : Val → Bool
  | .nan _ => true
  | _ => false
/-- The canonical NaN, with IV for a signalling operand (03 R92). -/
def nanRes (p : Bool) (vs : List Val) : Res := { bits := qnan p, flags := if vs.any Val.sig then 1 else 0 }
/-- A value with its sign changed. -/
def Val.neg : Val → Val
  | .inf s => .inf !s
  | .fin s m e => .fin (!s) m e
  | v => v

/-- Addition of values. -/
def addV (p : Bool) (rm : Nat) (a b : Val) : Res :=
  match a, b with
  | .nan _, _ => nanRes p [a, b]
  | _, .nan _ => nanRes p [a, b]
  | .inf s, .inf r => if s = r then { bits := infBits p s, flags := 0 } else invalid p
  | .inf s, _ => { bits := infBits p s, flags := 0 }
  | _, .inf s => { bits := infBits p s, flags := 0 }
  | .fin s1 m1 e1, .fin s2 m2 e2 => addFin p rm s1 m1 e1 s2 m2 e2

/-- FADD (03 R89). -/
def add (p : Bool) (rm : Nat) (x y : Word) : Res := addV p rm (value p x) (value p y)
/-- FSUB (03 R89). -/
def sub (p : Bool) (rm : Nat) (x y : Word) : Res := addV p rm (value p x) (value p y).neg

/-- FMUL (03 R89). -/
def mul (p : Bool) (rm : Nat) (x y : Word) : Res :=
  let a := value p x
  let b := value p y
  match a, b with
  | .nan _, _ => nanRes p [a, b]
  | _, .nan _ => nanRes p [a, b]
  | .inf s, .inf r => { bits := infBits p (s != r), flags := 0 }
  | .inf s, .fin r m _ => if m = 0 then invalid p else { bits := infBits p (s != r), flags := 0 }
  | .fin r m _, .inf s => if m = 0 then invalid p else { bits := infBits p (s != r), flags := 0 }
  | .fin s1 m1 e1, .fin s2 m2 e2 =>
    if m1 * m2 = 0 then { bits := zero p (s1 != s2), flags := 0 } else pack p rm (s1 != s2) (m1 * m2) (e1 + e2) false

/-- FDIV (03 R89): DZ for a finite non-zero value divided by zero. -/
def div (p : Bool) (rm : Nat) (x y : Word) : Res :=
  let a := value p x
  let b := value p y
  match a, b with
  | .nan _, _ => nanRes p [a, b]
  | _, .nan _ => nanRes p [a, b]
  | .inf _, .inf _ => invalid p
  | .inf s, .fin r _ _ => { bits := infBits p (s != r), flags := 0 }
  | .fin s _ _, .inf r => { bits := zero p (s != r), flags := 0 }
  | .fin s1 m1 e1, .fin s2 m2 e2 =>
    if m2 = 0 then (if m1 = 0 then invalid p else { bits := infBits p (s1 != s2), flags := 2 })
    else if m1 = 0 then { bits := zero p (s1 != s2), flags := 0 }
    else
      let k := prec p + 3 + Nat.log2 m2 - Nat.log2 m1
      let n := m1 * 2 ^ k
      pack p rm (s1 != s2) (n / m2) (e1 - e2 - k) (decide (n % m2 ≠ 0))

/-- The integer square root, bit by bit from bit i − 1. -/
def isqrt (n : Nat) : Nat → Nat → Nat
  | 0, r => r
  | i + 1, r => if (r + 2 ^ i) * (r + 2 ^ i) ≤ n then isqrt n i (r + 2 ^ i) else isqrt n i r

/-- FSQRT (03 R89). -/
def sqrt (p : Bool) (rm : Nat) (x : Word) : Res :=
  match value p x with
  | .nan g => nanRes p [.nan g]
  | .inf s => if s then invalid p else { bits := infBits p false, flags := 0 }
  | .fin s m e =>
    if m = 0 then { bits := zero p s, flags := 0 }
    else if s then invalid p
    else
      let k0 := 2 * (prec p + 3) - Nat.log2 m
      let k := if (e - k0) % 2 = 0 then k0 else k0 + 1
      let n := m * 2 ^ k
      let r := isqrt n (prec p + 8) 0
      pack p rm false r ((e - k) / 2) (decide (r * r ≠ n))

/-- The fused forms (03 R90): product and addend with their sign changes, rounded once. -/
def fma (p : Bool) (rm : Nat) (negProd negAdd : Bool) (x y z : Word) : Res :=
  let a := value p x
  let b := value p y
  let c := if negAdd then (value p z).neg else value p z
  let bad : Bool := match a, b with
    | .inf _, .fin _ m _ => m == 0
    | .fin _ m _, .inf _ => m == 0
    | _, _ => false
  if bad then invalid p
  else if a.isNan || b.isNan || c.isNan then nanRes p [a, b, c]
  else
    match a, b with
    | .fin s1 m1 e1, .fin s2 m2 e2 =>
      match c with
      | .fin s3 m3 e3 => addFin p rm ((s1 != s2) != negProd) (m1 * m2) (e1 + e2) s3 m3 e3
      | v => addV p rm (.fin false 0 0) v
    | _, _ => addV p rm (.inf ((signOf p x != signOf p y) != negProd)) c

/-- Order of two values that are not NaN: less. -/
def less (a b : Val) : Bool :=
  match a, b with
  | .inf s, .inf r => s && !r
  | .inf s, _ => s
  | _, .inf r => !r
  | .fin s1 m1 e1, .fin s2 m2 e2 => decide (scaled s1 m1 e1 (min e1 e2) < scaled s2 m2 e2 (min e1 e2))
  | _, _ => false
/-- Equality of two values that are not NaN. -/
def same (a b : Val) : Bool :=
  match a, b with
  | .inf s, .inf r => s == r
  | .fin s1 m1 e1, .fin s2 m2 e2 => decide (scaled s1 m1 e1 (min e1 e2) = scaled s2 m2 e2 (min e1 e2))
  | _, _ => false

/-- FMIN and FMAX (03 R89): the number of IEEE 754-2019, −0 below +0. -/
def minMax (p big : Bool) (x y : Word) : Res :=
  let a := value p x
  let b := value p y
  let iv := if a.sig || b.sig then 1 else 0
  let keep := fun (w : Word) => BitVec.ofNat 64 (operand p w)
  if a.isNan && b.isNan then { bits := qnan p, flags := iv }
  else if a.isNan then { bits := keep y, flags := iv }
  else if b.isNan then { bits := keep x, flags := iv }
  else
    let xLess := less a b || (same a b && signOf p x && !signOf p y)
    { bits := keep (if xLess != big then x else y), flags := iv }

/-- FEQ, FLT and FLE (03 R89), by the mnemonic's order: 0 equal, 1 less, 2 less or equal. -/
def compare (p : Bool) (kind : Nat) (x y : Word) : Res :=
  let a := value p x
  let b := value p y
  if a.isNan || b.isNan then { bits := 0, flags := if kind = 0 then (if a.sig || b.sig then 1 else 0) else 1 }
  else
    let r := if kind = 0 then same a b else if kind = 1 then less a b else less a b || same a b
    { bits := if r then 1 else 0, flags := 0 }

/-- The FSIGN forms (03 R89): the magnitude of rs1 with a sign. -/
def withSign (p : Bool) (x : Word) (s : Bool) : Word := BitVec.ofNat 64 (operand p x % 2 ^ signPos p + signBit p s)

/-- FKIND (03 R94). -/
def kind (p : Bool) (x : Word) : Word :=
  let k := match value p x with
    | .nan g => if g then 5 else 4
    | .inf _ => 3
    | .fin _ m _ => if m = 0 then 0 else if m < 2 ^ mbits p then 1 else 2
  BitVec.ofNat 64 (k + (if signOf p x then 8 else 0))

/-- FCVT.F.F (03 R89): from the other format to format p. -/
def convert (p : Bool) (rm : Nat) (x : Word) : Res :=
  match value (!p) x with
  | .nan g => nanRes p [.nan g]
  | .inf s => { bits := infBits p s, flags := 0 }
  | .fin s m e => if m = 0 then { bits := zero p s, flags := 0 } else pack p rm s m e false

/-- Conversion to an integer of a width (03 R93), saturating with IV. -/
def toInt (p : Bool) (rm : Nat) (signed : Bool) (bits : Nat) (x : Word) : Res :=
  let top : Int := if signed then 2 ^ (bits - 1) - 1 else 2 ^ bits - 1
  let low : Int := if signed then -(2 ^ (bits - 1)) else 0
  let out := fun (v : Int) => (BitVec.ofInt bits v).signExtend 64
  match value p x with
  | .nan _ => { bits := out top, flags := 1 }
  | .inf s => { bits := out (if s then low else top), flags := 1 }
  | .fin s m e =>
    let r := roundTo rm s m e 0 false
    let v : Int := if s then -(r.1 : Int) else r.1
    if v > top then { bits := out top, flags := 1 }
    else if v < low then { bits := out low, flags := 1 }
    else { bits := out v, flags := if r.2 then 16 else 0 }

/-- Conversion from an integer (03 R89). -/
def ofInt (p : Bool) (rm : Nat) (v : Int) : Res :=
  if v = 0 then { bits := 0, flags := 0 } else pack p rm (decide (v < 0)) v.natAbs 0 false

/-- The FCSR with raised flags set (03 R91). -/
def raise (fcsr : Word) (flags : Nat) : Word := fcsr ||| BitVec.ofNat 64 (flags * 2 ^ 8)
/-- A raised flag is enabled (03 R91). -/
def enabled (fcsr : Word) (flags : Nat) : Bool := fieldOf fcsr 20 16 &&& flags != 0

end Sys2Proof.Machine.Fp
end

