-- ==== Sys2Proof/Machine/Float.lean ====
section
/-! DEFINITION. Floating-point instructions (03 R87 to R94). -/

namespace Sys2Proof.Machine

/-- An FP-format word (03 R89). -/
def fpWord (func : Nat) (rd rs1 rs2 : RegNo) (p : Bool) (rm : BitVec 3) : BitVec 32 := regWord 0x30 rd rs1 rs2 (rm.toNat * 4 + b2n p * 2) func
/-- A fused-format word (03 R90). -/
def fmaWord (op : Nat) (rd rs1 rs2 rs3 : RegNo) (p : Bool) (rm : BitVec 3) : BitVec 32 := regWord op rd rs1 rs2 rs3.val (rm.toNat * 8 + b2n p * 4)

/-- Set the raised flags; an enabled one takes 0x30 with the destination unwritten, else the result is written (03 R91). -/
def State.fpDone (s : State) (t : Nat) (r : Fp.Res) (write : Thread → Word → Thread) : State :=
  let x := s.thr t
  if Fp.enabled x.fcsr r.flags then
    (s.updThr t (fun x => { x with fcsr := Fp.raise x.fcsr r.flags })).takeExc t
      { Exc.plain 0x30 x.pc with a := BitVec.ofNat 16 r.flags }
  else s.finish t x.npc (fun x => write { x with fcsr := Fp.raise x.fcsr r.flags } r.bits)

/-- An operation that does not round. -/
def fpPlain (t : Thr) (f : Thread → Fp.Res) (write : Thread → Word → Thread) (s : State) : Host.Outcome State Fault Refusal :=
  s.run t (fun s => s.fpDone t (f (s.thr t)) write)
/-- An operation that rounds: a reserved mode is illegal (03 R64, R88). -/
def fpRound (t : Thr) (word : BitVec 32) (rm : BitVec 3) (f : Thread → Nat → Fp.Res) (write : Thread → Word → Thread) (s : State) :
    Host.Outcome State Fault Refusal :=
  s.run t (fun s => match roundingMode (s.thr t).fcsr rm with
    | none => s.illegal t word
    | some m => s.fpDone t (f (s.thr t) m) write)
/-- A conversion that rounds only in one format: in the other the mode must be 0b000 (03 R89). -/
def fpRoundIf (rounds : Bool) (t : Thr) (word : BitVec 32) (rm : BitVec 3) (f : Thread → Nat → Fp.Res) (write : Thread → Word → Thread)
    (s : State) : Host.Outcome State Fault Refusal :=
  if !rounds && rm ≠ 0 then s.run t (fun s => s.illegal t word) else fpRound t word rm f write s

/-- FADD (03 R89). -/
def execFadd (t : Thr) (rd rs1 rs2 : RegNo) (p : Bool) (rm : BitVec 3) (s : State) : Host.Outcome State Fault Refusal :=
  fpRound t (fpWord 0 rd rs1 rs2 p rm) rm (fun x m => Fp.add p m (x.readF rs1) (x.readF rs2)) (fun x v => x.writeF rd v) s
/-- FSUB (03 R89). -/
def execFsub (t : Thr) (rd rs1 rs2 : RegNo) (p : Bool) (rm : BitVec 3) (s : State) : Host.Outcome State Fault Refusal :=
  fpRound t (fpWord 1 rd rs1 rs2 p rm) rm (fun x m => Fp.sub p m (x.readF rs1) (x.readF rs2)) (fun x v => x.writeF rd v) s
/-- FMUL (03 R89). -/
def execFmul (t : Thr) (rd rs1 rs2 : RegNo) (p : Bool) (rm : BitVec 3) (s : State) : Host.Outcome State Fault Refusal :=
  fpRound t (fpWord 2 rd rs1 rs2 p rm) rm (fun x m => Fp.mul p m (x.readF rs1) (x.readF rs2)) (fun x v => x.writeF rd v) s
/-- FDIV (03 R89). -/
def execFdiv (t : Thr) (rd rs1 rs2 : RegNo) (p : Bool) (rm : BitVec 3) (s : State) : Host.Outcome State Fault Refusal :=
  fpRound t (fpWord 3 rd rs1 rs2 p rm) rm (fun x m => Fp.div p m (x.readF rs1) (x.readF rs2)) (fun x v => x.writeF rd v) s
/-- FSQRT (03 R89). -/
def execFsqrt (t : Thr) (rd rs1 : RegNo) (p : Bool) (rm : BitVec 3) (s : State) : Host.Outcome State Fault Refusal :=
  fpRound t (fpWord 4 rd rs1 0 p rm) rm (fun x m => Fp.sqrt p m (x.readF rs1)) (fun x v => x.writeF rd v) s
/-- FMIN (03 R89). -/
def execFmin (t : Thr) (rd rs1 rs2 : RegNo) (p : Bool) (s : State) : Host.Outcome State Fault Refusal :=
  fpPlain t (fun x => Fp.minMax p false (x.readF rs1) (x.readF rs2)) (fun x v => x.writeF rd v) s
/-- FMAX (03 R89). -/
def execFmax (t : Thr) (rd rs1 rs2 : RegNo) (p : Bool) (s : State) : Host.Outcome State Fault Refusal :=
  fpPlain t (fun x => Fp.minMax p true (x.readF rs1) (x.readF rs2)) (fun x v => x.writeF rd v) s
/-- FSIGN (03 R89). -/
def execFsign (t : Thr) (rd rs1 rs2 : RegNo) (p : Bool) (s : State) : Host.Outcome State Fault Refusal :=
  fpPlain t (fun x => { bits := Fp.withSign p (x.readF rs1) (Fp.signOf p (x.readF rs2)), flags := 0 }) (fun x v => x.writeF rd v) s
/-- FSIGNN (03 R89). -/
def execFsignn (t : Thr) (rd rs1 rs2 : RegNo) (p : Bool) (s : State) : Host.Outcome State Fault Refusal :=
  fpPlain t (fun x => { bits := Fp.withSign p (x.readF rs1) (!Fp.signOf p (x.readF rs2)), flags := 0 }) (fun x v => x.writeF rd v) s
/-- FSIGNX (03 R89). -/
def execFsignx (t : Thr) (rd rs1 rs2 : RegNo) (p : Bool) (s : State) : Host.Outcome State Fault Refusal :=
  fpPlain t (fun x => { bits := Fp.withSign p (x.readF rs1) (Fp.signOf p (x.readF rs1) != Fp.signOf p (x.readF rs2)), flags := 0 }) (fun x v => x.writeF rd v) s
/-- FEQ (03 R89). -/
def execFeq (t : Thr) (rd rs1 rs2 : RegNo) (p : Bool) (s : State) : Host.Outcome State Fault Refusal :=
  fpPlain t (fun x => Fp.compare p 0 (x.readF rs1) (x.readF rs2)) (fun x v => x.writeG rd v) s
/-- FLT (03 R89). -/
def execFlt (t : Thr) (rd rs1 rs2 : RegNo) (p : Bool) (s : State) : Host.Outcome State Fault Refusal :=
  fpPlain t (fun x => Fp.compare p 1 (x.readF rs1) (x.readF rs2)) (fun x v => x.writeG rd v) s
/-- FLE (03 R89). -/
def execFle (t : Thr) (rd rs1 rs2 : RegNo) (p : Bool) (s : State) : Host.Outcome State Fault Refusal :=
  fpPlain t (fun x => Fp.compare p 2 (x.readF rs1) (x.readF rs2)) (fun x v => x.writeG rd v) s
/-- FKIND (03 R94). -/
def execFkind (t : Thr) (rd rs1 : RegNo) (p : Bool) (s : State) : Host.Outcome State Fault Refusal :=
  fpPlain t (fun x => { bits := Fp.kind p (x.readF rs1), flags := 0 }) (fun x v => x.writeG rd v) s
/-- FCVT_F_F (03 R89). -/
def execFcvtFF (t : Thr) (rd rs1 : RegNo) (p : Bool) (rm : BitVec 3) (s : State) : Host.Outcome State Fault Refusal :=
  fpRoundIf (!p) t (fpWord 0x18 rd rs1 0 p rm) rm (fun x m => Fp.convert p m (x.readF rs1)) (fun x v => x.writeF rd v) s
/-- FCVT_W_F (03 R93). -/
def execFcvtWF (t : Thr) (rd rs1 : RegNo) (p : Bool) (rm : BitVec 3) (s : State) : Host.Outcome State Fault Refusal :=
  fpRound t (fpWord 0x20 rd rs1 0 p rm) rm (fun x m => Fp.toInt p m true 32 (x.readF rs1)) (fun x v => x.writeG rd v) s
/-- FCVT_WU_F (03 R93). -/
def execFcvtWuF (t : Thr) (rd rs1 : RegNo) (p : Bool) (rm : BitVec 3) (s : State) : Host.Outcome State Fault Refusal :=
  fpRound t (fpWord 0x21 rd rs1 0 p rm) rm (fun x m => Fp.toInt p m false 32 (x.readF rs1)) (fun x v => x.writeG rd v) s
/-- FCVT_L_F (03 R93). -/
def execFcvtLF (t : Thr) (rd rs1 : RegNo) (p : Bool) (rm : BitVec 3) (s : State) : Host.Outcome State Fault Refusal :=
  fpRound t (fpWord 0x22 rd rs1 0 p rm) rm (fun x m => Fp.toInt p m true 64 (x.readF rs1)) (fun x v => x.writeG rd v) s
/-- FCVT_LU_F (03 R93). -/
def execFcvtLuF (t : Thr) (rd rs1 : RegNo) (p : Bool) (rm : BitVec 3) (s : State) : Host.Outcome State Fault Refusal :=
  fpRound t (fpWord 0x23 rd rs1 0 p rm) rm (fun x m => Fp.toInt p m false 64 (x.readF rs1)) (fun x v => x.writeG rd v) s
/-- FCVT_F_W (03 R89). -/
def execFcvtFW (t : Thr) (rd rs1 : RegNo) (p : Bool) (rm : BitVec 3) (s : State) : Host.Outcome State Fault Refusal :=
  fpRoundIf (!p) t (fpWord 0x28 rd rs1 0 p rm) rm (fun x m => Fp.ofInt p m ((x.readG rs1).setWidth 32).toInt) (fun x v => x.writeF rd v) s
/-- FCVT_F_WU (03 R89). -/
def execFcvtFWu (t : Thr) (rd rs1 : RegNo) (p : Bool) (rm : BitVec 3) (s : State) : Host.Outcome State Fault Refusal :=
  fpRoundIf (!p) t (fpWord 0x29 rd rs1 0 p rm) rm (fun x m => Fp.ofInt p m (((x.readG rs1).setWidth 32).toNat : Int)) (fun x v => x.writeF rd v) s
/-- FCVT_F_L (03 R89). -/
def execFcvtFL (t : Thr) (rd rs1 : RegNo) (p : Bool) (rm : BitVec 3) (s : State) : Host.Outcome State Fault Refusal :=
  fpRoundIf true t (fpWord 0x2a rd rs1 0 p rm) rm (fun x m => Fp.ofInt p m (x.readG rs1).toInt) (fun x v => x.writeF rd v) s
/-- FCVT_F_LU (03 R89). -/
def execFcvtFLu (t : Thr) (rd rs1 : RegNo) (p : Bool) (rm : BitVec 3) (s : State) : Host.Outcome State Fault Refusal :=
  fpRoundIf true t (fpWord 0x2b rd rs1 0 p rm) rm (fun x m => Fp.ofInt p m ((x.readG rs1).toNat : Int)) (fun x v => x.writeF rd v) s
/-- FMV_G_F (03 R89). -/
def execFmvGF (t : Thr) (rd rs1 : RegNo) (p : Bool) (s : State) : Host.Outcome State Fault Refusal :=
  fpPlain t (fun x => { bits := if p then x.readF rs1 else sext32 (x.readF rs1), flags := 0 }) (fun x v => x.writeG rd v) s
/-- FMV_F_G (03 R89). -/
def execFmvFG (t : Thr) (rd rs1 : RegNo) (p : Bool) (s : State) : Host.Outcome State Fault Refusal :=
  fpPlain t (fun x => { bits := if p then x.readG rs1 else x.readG rs1 &&& 0xFFFFFFFF, flags := 0 }) (fun x v => x.writeF rd v) s
/-- FMADD (03 R90). -/
def execFmadd (t : Thr) (rd rs1 rs2 rs3 : RegNo) (p : Bool) (rm : BitVec 3) (s : State) : Host.Outcome State Fault Refusal :=
  fpRound t (fmaWord 0x31 rd rs1 rs2 rs3 p rm) rm
    (fun x m => Fp.fma p m false false (x.readF rs1) (x.readF rs2) (x.readF rs3)) (fun x v => x.writeF rd v) s
/-- FMSUB (03 R90). -/
def execFmsub (t : Thr) (rd rs1 rs2 rs3 : RegNo) (p : Bool) (rm : BitVec 3) (s : State) : Host.Outcome State Fault Refusal :=
  fpRound t (fmaWord 0x32 rd rs1 rs2 rs3 p rm) rm
    (fun x m => Fp.fma p m false true (x.readF rs1) (x.readF rs2) (x.readF rs3)) (fun x v => x.writeF rd v) s
/-- FNMADD (03 R90). -/
def execFnmadd (t : Thr) (rd rs1 rs2 rs3 : RegNo) (p : Bool) (rm : BitVec 3) (s : State) : Host.Outcome State Fault Refusal :=
  fpRound t (fmaWord 0x33 rd rs1 rs2 rs3 p rm) rm
    (fun x m => Fp.fma p m true true (x.readF rs1) (x.readF rs2) (x.readF rs3)) (fun x v => x.writeF rd v) s
/-- FNMSUB (03 R90). -/
def execFnmsub (t : Thr) (rd rs1 rs2 rs3 : RegNo) (p : Bool) (rm : BitVec 3) (s : State) : Host.Outcome State Fault Refusal :=
  fpRound t (fmaWord 0x34 rd rs1 rs2 rs3 p rm) rm
    (fun x m => Fp.fma p m true false (x.readF rs1) (x.readF rs2) (x.readF rs3)) (fun x v => x.writeF rd v) s

end Sys2Proof.Machine
end

