-- ==== Sys2Proof/Machine/Forme.lean ====
section
/-! DEFINITION. The Forme engines: verification, control words, quiesces, barriers, failures and the library (20). -/

namespace Sys2Proof.Machine

/-! Engines. -/

/-- The engine of a die. -/
def State.frm (s : State) (e : Nat) : FrmEngine := (s.die e).frm
/-- Change an engine. -/
def State.updFrm (s : State) (e : Nat) (f : FrmEngine → FrmEngine) : State := s.updDie e (fun x => { x with frm := f x.frm })
/-- An engine runs steps. -/
def State.frmAwake (s : State) (e : Nat) : Bool :=
  (s.die e).inService && !s.halted && !s.inReset && s.mc.hubPg && ((s.frm e).st == .running || (s.frm e).st == .rollback)
/-- A FORME event with the ID and the result of a forme (20 R439); its code and layout are the model's (log 6). -/
def State.formeEvent (s : State) (e result : Nat) : State :=
  let code := BitVec.ofNat 16 (Config.freeValue s.free)
  s.drawn.note (.forme e) 3 code (BitVec.ofNat 128 ((s.frm e).id.toNat + result * 2 ^ 16))
/-- The control word an engine stands at, where it is of an opcode; none at a barrier. -/
def State.wordOf (s : State) (e op : Nat) : Option Word :=
  let x := s.frm e
  match x.words[x.pc]? with
  | some w => if s.frmAwake e && x.atSync.isNone && fieldOf w 63 58 == op then some w else none
  | none => none
/-- The n-th word after the one an engine stands at. -/
def FrmEngine.operand (x : FrmEngine) (n : Nat) : Option Word := x.words[x.pc + n]?
/-- The accumulator a word names. -/
def FrmEngine.accOf (x : FrmEngine) (w : Word) : Word := Tbl.get 0 x.acc (fieldOf w 56 54)
/-- The engine goes on to a word. -/
def State.formeGo (s : State) (e pc : Nat) : State := s.updFrm e (fun x => { x with pc := pc, polling := none, quiescing := false, calling := none })
/-- The engine goes on past a number of words. -/
def State.formeStep (s : State) (e n : Nat) : State := s.formeGo e ((s.frm e).pc + n)

/-! Quiesces (20 R437, R438). -/

/-- The ceiling of a scope in µs. -/
def quiesceCeil (scope : Nat) : Nat := match scope with | 1 => 400 | 2 => 20 | 3 => 2000 | 4 => 10 | _ => 20
/-- The target of a QUIESCE or RESUME: the bits of CADDR that its scope names. -/
def quiesceTarget (w : Word) : Nat :=
  match fieldOf w 51 48 with
  | 1 => fieldOf w 8 0 | 2 => fieldOf w 12 0 | 3 => fieldOf w 4 0 | 4 => fieldOf w 16 0 | _ => fieldOf w 2 0
/-- Targets of one scope overlap. -/
def Quiesce.overlaps (q r : Quiesce) : Bool := q.scope == r.scope && (if q.scope = 4 then (q.target &&& r.target) != 0 else q.target == r.target)
/-- A device access of a core is outstanding. -/
def State.deviceOut (s : State) (c : Nat) : Bool :=
  [2 * c, 2 * c + 1].any (fun t => (s.thr t).devOut ||
    (match (s.thr t).memOp with | some m => m.want.isSome && m.once | none => false))
/-- A scope is drained. -/
def State.drainedScope (s : State) (q : Quiesce) : Bool :=
  match q.scope with
  | 1 => [2 * q.target, 2 * q.target + 1].all (fun t => (s.thr t).memOp.isNone && (s.thr t).stb.isEmpty && (s.thr t).outst.isEmpty)
  | 2 => s.txns.all (fun p => p.2.isNone || bucketOf p.1 != q.target)
  | 3 => (s.chan q.target).reads.isEmpty && (s.chan q.target).repair.isNone && (s.chan q.target).mirrors.isEmpty
  | 4 => s.net.all (fun f => !(q.target.testBit f.src.dieNum && decide (f.stamp.toNat < q.stamp.toNat)))
  | _ => true
/-- The quiesce an engine has asked for last and that has not taken hold. -/
def State.asked (s : State) (e : Nat) : Option Quiesce := s.quiesces.find? (fun q => q.engine == e && !q.held)
/-- An earlier quiesce of another forme overlaps one. -/
def State.quiesceWaits (s : State) (q : Quiesce) : Bool := s.quiesces.any (fun r => r.engine != q.engine && r.held && q.overlaps r)
/-- An engine asks for a quiesce. -/
def State.quiesceAsk (s : State) (e scope target limit : Nat) : State :=
  { s with quiesces := s.quiesces ++ [{ engine := e, scope := scope, target := target, limit := limit, held := false, stamp := s.stamp e }] }
/-- A quiesce of an engine has passed its ceiling, its limit, or the part of it for device accesses. -/
def State.quiesceLate (s : State) (e : Nat) (q : Quiesce) : Bool :=
  let since := (s.stamp e).toNat - q.stamp.toNat
  decide (since ≥ usTicks (quiesceCeil q.scope)) || (!q.held && decide (since ≥ usTicks (10 * q.limit))) ||
    (!q.held && q.scope == 1 && decide (since ≥ usTicks 100) && s.deviceOut q.target)

/-! Ends and failures (20 R435). -/

/-- The forme ends with a result: 0 DONE, 1 ROLLED_BACK, 3 FAILED_HARD. -/
def State.formeEnd (s : State) (e result : Nat) : State :=
  let s := (s.quiesceEnd e (fun _ => true)).formeEvent e result
  s.updFrm e (fun x => { x with st := .idle, words := [], pc := 0, buffer := [], hold := false, atSync := none, polling := none, quiescing := false
                                calling := none, last := BitVec.ofNat 8 result, group := 0 })
/-- A step fails: the record, the release of every quiesce, and the rollback section; a failure inside it ends the forme. -/
def State.stepFail (s : State) (e : Nat) : State :=
  let x := s.frm e
  let s := (s.quiesceEnd e (fun _ => true)).logError (.forme e) 0x0C01 3 0xFFF none none
  let s := s.updFrm e (fun x => { x with step := BitVec.ofNat 24 x.pc, buffer := [], hold := false, atSync := none, polling := none, quiescing := false, calling := none })
  if x.st = .rollback then s.formeEnd e 3
  else if x.rollbackAt < x.words.length then s.updFrm e (fun x => { x with st := .rollback, pc := x.rollbackAt })
  else s.formeEnd e 1
/-- The step's outcome: what it does, or its failure. -/
def State.orFail (s : State) (e : Nat) (t : Option State) : State := match t with | some t => t | none => s.stepFail e

/-! Verification (20 R431, R432). -/

/-- Operand words of an opcode. -/
def formeOperands (w : Word) : Nat :=
  match fieldOf w 63 58 with
  | 1 => if bit w 57 then 0 else 1
  | 3 | 4 => 2
  | _ => 0
/-- A control word has no reserved opcode or field; bits [2:0] of a register's address are one (01 R36). -/
def formeLegal (w : Word) : Bool :=
  let op := fieldOf w 63 58
  let addr := decide (1 ≤ op ∧ op ≤ 4)
  decide (op ≤ 0x0E) && fieldOf w 53 52 == 0 && (op != 4 || fieldOf w 51 40 != 0) && (op != 5 || decide (1 ≤ fieldOf w 51 48 ∧ fieldOf w 51 48 ≤ 5)) &&
    (!addr || fieldOf w 2 0 == 0)
/-- Every control word is legal and writes only what the class may write; the first operand counts operand words still to skip. -/
def State.wordsOk (s : State) (cls : Nat) : Nat → List Word → Bool
  | _, [] => true
  | k + 1, _ :: r => s.wordsOk cls k r
  | 0, w :: r =>
    let a := fieldOf w 39 0
    let may := match fieldOf w 63 58 with
      | 1 => s.mayWrite cls a (if bit w 57 then 0 else r.headD 0)
      | 3 => s.mayWrite cls a ((r.drop 1).headD 0)
      | _ => true
    formeLegal w && may && s.wordsOk cls (formeOperands w) r
/-- A word of an image. -/
def State.imageWord (s : State) (pa : Nat) : Word := s.cohWord pa
/-- The header of an image is well formed. -/
def State.imageOk (s : State) (pa : Nat) : Bool :=
  let w0 := s.imageWord pa
  let w1 := s.imageWord (pa + 8)
  let len := fieldOf w1 31 0
  s.backed pa && fieldOf w0 31 0 == 0x4D524F46 && fieldOf w0 39 32 == 1 && decide (fieldOf w1 47 40 ≤ 2) && decide (1 ≤ len ∧ len ≤ 8192) &&
    decide (fieldOf (s.imageWord (pa + 16)) 31 0 ≤ len) && (List.range 4).all (fun i => s.imageWord (pa + 32 + 8 * i) == 0)
/-- FORME_BEGIN (20 R432, R439): the next image is taken, copied and verified; the operand says whether its signature verifies. -/
def execFormeBegin (engine : Fin 17) (sigOk : Bool) (s : State) : Host.Outcome State Fault Refusal :=
  let e := engine.val
  let x := s.frm e
  match x.queue with
  | [] => .next s
  | (pa, group, fromMc) :: rest =>
    if x.st ≠ .idle || !(s.die e).inService || s.halted || s.inReset then .next s
    else
      let w1 := s.imageWord (pa + 8)
      let len := fieldOf w1 31 0
      let cls := fieldOf w1 47 40
      let words := if s.imageOk pa then (List.range len).map (fun i => s.imageWord (pa + 64 + 8 * i)) else []
      let ok := s.imageOk pa && (if cls = 2 then !fromMc else sigOk) && s.wordsOk cls 0 words
      let s := s.updFrm e (fun x => { x with queue := rest, id := BitVec.ofNat 16 (fieldOf w1 63 48) })
      if ok then
        .next ((s.formeEvent e 0).updFrm e (fun x => { x with
          st := .running, words := words, pc := 0, acc := [], cls := BitVec.ofNat 2 cls, rollbackAt := fieldOf (s.imageWord (pa + 16)) 31 0, group := group
          atSync := none, hold := false, buffer := [], polling := none, quiescing := false, calling := none }))
      else .next (((s.logError (.forme e) 0x0C02 3 0xFFF none none).formeEvent e 2).updFrm e (fun x => { x with last := 2 }))

/-! Reads and writes (20 R434). -/

/-- A write of an engine: kept back between a SYNC with HOLD and the next without, up to 64 (20 R436). -/
def State.formeWrite (s : State) (e a : Nat) (v : Word) : Option State :=
  let x := s.frm e
  if x.hold then (if x.buffer.length < 64 && s.mayWrite x.cls.toNat a v then some (s.updFrm e (fun x => { x with buffer := x.buffer ++ [(a, v)] })) else none)
  else s.formePut x.cls.toNat a v
/-- FORME_NOP. -/
def execFormeNop (engine : Fin 17) (s : State) : Host.Outcome State Fault Refusal :=
  match s.wordOf engine.val 0 with
  | some _ => .next (s.formeStep engine.val 1)
  | none => .next s
/-- FORME_WRITE. -/
def execFormeWrite (engine : Fin 17) (s : State) : Host.Outcome State Fault Refusal :=
  let e := engine.val
  match s.wordOf e 1 with
  | none => .next s
  | some w =>
    let v := if bit w 57 then some ((s.frm e).accOf w) else (s.frm e).operand 1
    .next (s.orFail e (v.bind (fun v => (s.formeWrite e (fieldOf w 39 0) v).map (fun t => t.formeStep e (1 + formeOperands w)))))
/-- FORME_READ. -/
def execFormeRead (engine : Fin 17) (s : State) : Host.Outcome State Fault Refusal :=
  let e := engine.val
  match s.wordOf e 2 with
  | none => .next s
  | some w => .next (s.orFail e ((s.regRead (fieldOf w 39 0)).map (fun v =>
      (s.updFrm e (fun x => { x with acc := Tbl.set 0 x.acc (fieldOf w 56 54) v })).formeStep e 1)))
/-- FORME_RMW. -/
def execFormeRmw (engine : Fin 17) (s : State) : Host.Outcome State Fault Refusal :=
  let e := engine.val
  let x := s.frm e
  match s.wordOf e 3 with
  | none => .next s
  | some w =>
    match s.regRead (fieldOf w 39 0), x.operand 1, x.operand 2 with
    | some old, some mask, some v =>
      .next (s.orFail e ((s.formeWrite e (fieldOf w 39 0) ((old &&& ~~~ mask) ||| (v &&& mask))).map (fun t => t.formeStep e 3)))
    | _, _, _ => .next (s.stepFail e)
/-- FORME_POLL: the wait goes on while the register differs. -/
def execFormePoll (engine : Fin 17) (s : State) : Host.Outcome State Fault Refusal :=
  let e := engine.val
  let x := s.frm e
  match s.wordOf e 4 with
  | none => .next s
  | some w =>
    match s.regRead (fieldOf w 39 0), x.operand 1, x.operand 2 with
    | some v, some mask, some want =>
      if v &&& mask = want then .next (s.formeStep e 3)
      else if x.polling.isSome then .next s
      else .next (s.updFrm e (fun x => { x with polling := some (s.stamp e) }))
    | _, _, _ => .next (s.stepFail e)
/-- POLL_TIMEOUT (20 R435). -/
def execPollTimeout (engine : Fin 17) (s : State) : Host.Outcome State Fault Refusal :=
  let e := engine.val
  match s.wordOf e 4, (s.frm e).polling with
  | some w, some t => if (s.stamp e).toNat < t.toNat + usTicks (fieldOf w 51 40) then .next s else .next (s.stepFail e)
  | _, _ => .next s

/-! Quiesces as steps. -/

/-- A scope's target exists: a core that is present, a memory channel (00 R3; 01 R36). -/
def State.scopeOk (s : State) (scope target : Nat) : Bool :=
  match scope with
  | 1 => s.corePresent target
  | 3 => decide (target < 24)
  | _ => true
/-- FORME_QUIESCE: its scope begins to drain; the step fails where the target does not exist. -/
def execFormeQuiesce (engine : Fin 17) (s : State) : Host.Outcome State Fault Refusal :=
  let e := engine.val
  match s.wordOf e 5 with
  | none => .next s
  | some w =>
    if (s.frm e).quiescing then .next s
    else if !s.scopeOk (fieldOf w 51 48) (quiesceTarget w) then .next (s.stepFail e)
    else
      .next ((s.quiesceAsk e (fieldOf w 51 48) (quiesceTarget w) (fieldOf w 47 40)).updFrm e (fun x => { x with quiescing := true }))
/-- QUIESCE_HOLD: the scope is drained, and no overlapping quiesce of another forme is in force. -/
def execQuiesceHold (engine : Fin 17) (s : State) : Host.Outcome State Fault Refusal :=
  let e := engine.val
  match s.wordOf e 5, s.asked e with
  | some _, some q =>
    if !s.drainedScope q || s.quiesceWaits q || s.quiesceLate e q then .next s
    else .next ({ s with quiesces := s.quiesces.map (fun r => if r == q then { r with held := true } else r) }.formeStep e 1)
  | _, _ => .next s
/-- QUIESCE_CEILING: the limit or the ceiling passes, and the forme's step fails. -/
def execQuiesceCeiling (engine : Fin 17) (s : State) : Host.Outcome State Fault Refusal :=
  let e := engine.val
  if s.frmAwake e && s.quiesces.any (fun q => q.engine == e && s.quiesceLate e q) then .next (s.stepFail e) else .next s
/-- FORME_RESUME. -/
def execFormeResume (engine : Fin 17) (s : State) : Host.Outcome State Fault Refusal :=
  let e := engine.val
  match s.wordOf e 6 with
  | none => .next s
  | some w => .next ((s.quiesceEnd e (fun q => q.scope == fieldOf w 51 48 && q.target == quiesceTarget w)).formeStep e 1)

/-! Barriers (20 R436). -/

/-- The engines of a group: those that run a forme of it or have one queued; a forme without a group is alone. -/
def State.groupOf (s : State) (e : Nat) : List Nat :=
  let g := (s.frm e).group
  if g = 0 then [e]
  else (List.range 17).filter (fun i => let x := s.frm i; (x.st != .idle && x.group == g) || x.queue.any (fun q => q.2.1 == g))
/-- Every engine of a group has reached the barrier at which one stands. -/
def State.allAtSync (s : State) (e : Nat) : Bool :=
  (s.frm e).atSync.isSome && (s.groupOf e).all (fun i => (s.frm i).atSync == (s.frm e).atSync)
/-- An engine's buffered writes are performed; the first that is refused fails its step. -/
def State.flushBuffer (s : State) (e : Nat) : State :=
  let x := s.frm e
  let r := x.buffer.foldl (fun (t : Option State) p => t.bind (fun t => t.formePut x.cls.toNat p.1 p.2)) (some (s.updFrm e (fun x => { x with buffer := [], hold := false })))
  match r with
  | some t => t.formeStep e 1
  | none => s.stepFail e
/-- An engine passes its barrier: with HOLD its writes are kept back from here, without it they land. -/
def State.passSync (s : State) (e : Nat) : State :=
  let hold := match (s.frm e).words[(s.frm e).pc]? with | some w => bit w 48 | none => false
  let s := s.updFrm e (fun x => { x with atSync := none })
  if hold then (s.updFrm e (fun x => { x with hold := true })).formeStep e 1 else s.flushBuffer e
/-- Every engine of a group passes. -/
def State.syncRelease (s : State) (e : Nat) : State := if s.allAtSync e then (s.groupOf e).foldl State.passSync s else s
/-- FORME_SYNC: the engine reaches the barrier, and the last of its group lets all pass. -/
def execFormeSync (engine : Fin 17) (s : State) : Host.Outcome State Fault Refusal :=
  let e := engine.val
  match s.wordOf e 7 with
  | none => .next s
  | some w => .next ((s.updFrm e (fun x => { x with atSync := some (fieldOf w 47 40) })).syncRelease e)
/-- SYNC_RELEASE: a group all of whose engines stand at the barrier passes. -/
def execSyncRelease (engine : Fin 17) (s : State) : Host.Outcome State Fault Refusal :=
  if s.frmAwake engine.val then .next (s.syncRelease engine.val) else .next s
/-- FORME_STAMP: a FORME event with code IMM; its payload is free. -/
def execFormeStamp (engine : Fin 17) (s : State) : Host.Outcome State Fault Refusal :=
  let e := engine.val
  match s.wordOf e 8 with
  | none => .next s
  | some w =>
    let pay := BitVec.ofNat 128 (Config.freeValue s.free)
    .next ((s.drawn.note (.forme e) 3 (BitVec.ofNat 16 (fieldOf w 51 40)) pay).formeStep e 1)

/-! Jumps and ends. -/

/-- The word a jump leads to; none before the first or past the last. -/
def FrmEngine.target (x : FrmEngine) (w : Word) : Option Nat :=
  let i := fieldOf w 51 40
  let p : Int := (x.pc : Int) + (if i < 2048 then (i : Int) else (i : Int) - 4096)
  if decide (p < 0) || decide (p.toNat ≥ x.words.length) then none else some p.toNat
/-- FORME_JUMP. -/
def execFormeJump (engine : Fin 17) (s : State) : Host.Outcome State Fault Refusal :=
  let e := engine.val
  match s.wordOf e 9 with
  | none => .next s
  | some w => .next (s.orFail e (((s.frm e).target w).map (fun p => s.formeGo e p)))
/-- FORME_BRNZ. -/
def execFormeBrnz (engine : Fin 17) (s : State) : Host.Outcome State Fault Refusal :=
  let e := engine.val
  match s.wordOf e 0xA with
  | none => .next s
  | some w =>
    if (s.frm e).accOf w = 0 then .next (s.formeStep e 1)
    else .next (s.orFail e (((s.frm e).target w).map (fun p => s.formeGo e p)))
/-- The end of a forme: DONE, or ROLLED_BACK at the end of the rollback section. -/
def State.formeDone (s : State) (e : Nat) : State := s.formeEnd e (if (s.frm e).st = .rollback then 1 else 0)
/-- FORME_RETURN: library formes run whole within their CALL, so this is the outermost forme's, which ends (20 R435). -/
def execFormeReturn (engine : Fin 17) (s : State) : Host.Outcome State Fault Refusal :=
  match s.wordOf engine.val 0xC with
  | some _ => .next (s.formeDone engine.val)
  | none => .next s
/-- FORME_FAIL. -/
def execFormeFail (engine : Fin 17) (s : State) : Host.Outcome State Fault Refusal :=
  match s.wordOf engine.val 0xD with
  | some _ => .next (s.stepFail engine.val)
  | none => .next s
/-- FORME_END; the end of the words ends a forme as well. -/
def execFormeEnd (engine : Fin 17) (s : State) : Host.Outcome State Fault Refusal :=
  let e := engine.val
  let past := s.frmAwake e && (s.frm e).atSync.isNone && decide ((s.frm e).pc ≥ (s.frm e).words.length)
  if (s.wordOf e 0xE).isSome || past then .next (s.formeDone e) else .next s

/-! The library (20 R441 to R445). Where the spec does not say how a caller passes a library forme its operands, the accumulators hold them from A0 on (log 11). -/

/-- What a call comes to: it is done, goes on, or fails. -/
inductive CallEnd where
  | done | wait | fail
deriving DecidableEq, Repr

/-- The classes that may call a library forme, by the highest number; none for a forme that is not in the library (20 R433, R441). -/
def libClass (id : Nat) : Option Nat :=
  match id with
  | 0x01 | 0x02 | 0x60 => some 0
  | 0x12 | 0x24 | 0x31 | 0x40 | 0x43 => some 1
  | 0x10 | 0x11 | 0x20 | 0x21 | 0x22 | 0x23 | 0x30 | 0x41 | 0x42 | 0x50 | 0x51 => some 2
  | _ => none
/-- The copies of HOME_MAP's entry of a bucket. -/
def homeCopies (b : Nat) : List Nat := (List.range 17).map (fun d => if d < 16 then caddr d 0xC8 b else caddr 16 0xD2 b)
/-- The slice that a bucket's entry names: [10:0] as the hub's copy has it. -/
def State.bucketHome (s : State) (b : Nat) : Nat := fieldOf (s.homeMap 16 b) 10 0
/-- A bucket's entries take MOVING and NEXT in every copy at once (20 R442 step 1). -/
def State.bucketMark (s : State) (next : Nat) (b : Nat) : State := (homeCopies b).foldl (fun s a => (s.ctlField a 22 22 1).ctlField a 21 11 next) s
/-- No transaction is open for a line of some buckets. -/
def State.bucketsDrained (s : State) (bs : List Nat) : Bool := s.txns.all (fun p => p.2.isNone || !bs.contains (bucketOf p.1))
/-- The old slice empties its atomic buffer of a bucket, and every copy names NEXT; entries of a bucket that goes to the partner go with it (20 R442). -/
def State.bucketTake (s : State) (b : Nat) : State :=
  let next := fieldOf (s.homeMap 16 b) 21 11
  let s := (s.atoms.map Prod.fst).foldl (fun s line =>
    match s.atom line with
    | some a => if bucketOf line = b then (s.wbMem line a.data a.poison a.world).setAtom line none else s
    | none => s) s
  let s := (homeCopies b).foldl (fun s a => (s.ctlField a 10 0 next).ctlField a 22 22 0) s
  if next / 1024 = s.pkgBit then s else { s with dir := s.dir.filter (fun p => bucketOf p.1 != b) }
/-- Moving buckets is given up: MOVING clears. -/
def State.bucketsBack (s : State) (bs : List Nat) : State := bs.foldl (fun s b => (homeCopies b).foldl (fun s a => s.ctlField a 22 22 0) s) s
/-- The slices that may take a bucket: present, of a die in use, not retired, and not excluded. -/
def State.openSlices (s : State) (not_ : Nat → Bool) : List Nat :=
  (List.range 576).filter (fun n => s.dieOn (n / 36) && !bit (s.ctlGet (caddr (n / 36) (0x40 + n % 36) 8)) 0 && !not_ n)
/-- A slice number in the layout of [10:0]. -/
def State.slicePlace (s : State) (n : Nat) : Nat := s.pkgBit * 1024 + n / 36 * 64 + n % 36
/-- Buckets whose destination the spec leaves open take drawn slices (log 6). -/
def State.bucketsSpread (s : State) (bs to_ : List Nat) : State :=
  bs.foldl (fun s b => s.drawn.bucketMark (s.slicePlace (to_.getD (s.draw to_.length) 0)) b) s
/-- The buckets homed on the slices that a condition names. -/
def State.bucketsOn (s : State) (p : Nat → Bool) : List Nat :=
  (List.range 8192).filter (fun b => let h := s.bucketHome b; h / 1024 == s.pkgBit && p (h / 64 % 16 * 36 + h % 64))
/-- Move buckets that are marked: done once their transactions are closed. -/
def State.bucketsMove (s : State) (bs : List Nat) : State × Bool := if s.bucketsDrained bs then (bs.foldl State.bucketTake s, true) else (s, false)

/-- BUCKET_MOVE: A0 the bucket, A1 its new slice in the layout of NEXT. -/
def State.libBucketMove (s : State) (first : Bool) (since b next : Nat) : State × CallEnd :=
  let n := next / 64 % 16 * 36 + next % 64
  let ok := decide (next < 2048 ∧ next % 64 < 36) && (next / 1024 == s.pkgBit && s.dieOn (n / 36) || next / 1024 != s.pkgBit && s.paired)
  if !ok then (s, .fail)
  else
    let s := if first then s.bucketMark next b else s
    let r := s.bucketsMove [b]
    if r.2 then (r.1, .done) else if since ≥ usTicks 20 then (s.bucketsBack [b], .fail) else (s, .wait)
/-- SLICE_RETIRE: A0 the die, A1 the tile. -/
def State.libSliceRetire (s : State) (first : Bool) (d t : Nat) : State × CallEnd :=
  let me := fun (n : Nat) => n == 36 * d + t
  let to_ := s.openSlices me
  if d ≥ 16 ∨ t ≥ 36 ∨ to_.isEmpty then (s, .fail)
  else
    let bs := s.bucketsOn me
    let s := if first then s.bucketsSpread bs to_ else s
    let r := s.bucketsMove bs
    if r.2 then (r.1.slicePut d t 1, .done) else (s, .wait)
/-- Every thread of a die waits in WAITE or is held, and every tile is in T3. -/
def State.dieAtRest (s : State) (d : Nat) : Bool :=
  (List.range 36).all (fun i => (s.tile (36 * d + i)).st == .t3 && !(s.tile (36 * d + i)).waking) &&
    (List.range 64).all (fun i => (s.thr (64 * d + i)).run == .waiting || (s.thr (64 * d + i)).run == .held)
/-- A die enters D3: its home-share port begins to close, and what 00 R13 and 18 R408 say D3 clears is at its reset value, its threads held. -/
def State.dieD3 (s : State) (d : Nat) : State :=
  let s := s.clearThreads ((List.range 64).map (fun i => 64 * d + i))
  let s := (List.range 32).foldl (fun s i => s.setCore (32 * d + i) Core.reset) s
  let s := (List.range 36).foldl (fun s i => s.updTile (36 * d + i) (fun q => { q with tlbLost := false, galLost := false, pend := [], sevt := false })) s
  let s := (s.clearCtl (fun a => caddrDie a == d) [.w, .t]).updDie d (fun x => { x with parked := true, ephPosN := 0, ephPosS := 0 })
  { s with mc := { s.mc with release := Tbl.set 0 s.mc.release d 0 } }.setPortSt (caddr 16 0xD1 (0x140 + d)) 1
/-- DIE_PARK: A0 the die. -/
def State.libDiePark (s : State) (first : Bool) (d : Nat) : State × CallEnd :=
  let mine := fun (n : Nat) => n / 36 == d
  let to_ := s.openSlices mine
  if d ≥ 16 || !s.dieOn d || to_.isEmpty || !s.dieAtRest d then (s, .fail)
  else
    let bs := s.bucketsOn mine
    let s := if first then s.bucketsSpread bs to_ else s
    let r := s.bucketsMove bs
    if !r.2 then (s, .wait)
    else
      let s := ((r.1.die d).l3.map Prod.fst).foldl (fun s line => s.l3Drop d line) r.1
      let x := s.die d
      if x.filter.isEmpty && x.l3.isEmpty && x.l3wb.isEmpty && x.ftxn.isEmpty && x.snoops.isEmpty then
        (s.dieD3 d, .done)
      else (s, .wait)
/-- The end of DIE_UNPARK: once its buckets are back its port opens. -/
def State.unparked (s : State) (d : Nat) (bs : List Nat) : State × CallEnd :=
  let r := s.bucketsMove bs
  if r.2 then (r.1.setPortSt (caddr 16 0xD1 (0x140 + d)) 0, .done) else (r.1, .wait)
/-- DIE_UNPARK: A0 the die; it takes back the buckets that R230's formula homes on it. -/
def State.libDieUnpark (s : State) (first : Bool) (d : Nat) : State × CallEnd :=
  let bs := (List.range 8192).filter (fun b => b % 16 == d)
  if first then
    if d ≥ 16 || !(s.die d).inService || !(s.die d).parked then (s, .fail)
    else
      let from_ := ((List.range 16).find? s.dieOn).getD d
      let s := (List.range 8192).foldl (fun s b => s.ctlPut (caddr d 0xC8 b) (s.homeMap 16 b)) s
      let s := (List.range 16).foldl (fun s i => s.ctlPut (caddr d 0xC8 (0x2000 + i)) (s.ctlGet (caddr from_ 0xC8 (0x2000 + i)))) s
      let s := s.ctlPut (caddr d 0xC0 0x10) (s.ctlGet (caddr 16 0xD1 0x10))
      let s := (s.updDie d (fun x => { x with parked := false })).setPortSt (caddr 16 0xD1 (0x140 + d)) 3
      let s := bs.foldl (fun s b => s.bucketMark (s.pkgBit * 1024 + d * 64 + b / 16 % 36) b) s
      s.unparked d bs
  else s.unparked d bs
/-- The core and its state move to a tile (20 R445 steps 3 and 4). -/
def State.coreMove (s : State) (c t : Nat) : State :=
  let old := s.tileOf c
  let q := s.tile old
  let s := { s with coreTile := Tbl.set none s.coreTile c (some t) }
  let s := (s.updTile (s.tileOf c) (fun _ => q)).updTile old (fun _ => { Tile.reset with failed := true })
  let s := (s.setPortSt (tilePort (s.tileOf c)) 0).setPortSt (tilePort old) 2
  let s := s.updCore c (fun k => { k with l1i := [], l1d := [], itlb := [], dtlb := [], l2tlb := [], walkCache := [], streams := [], preds := { dirs := [], btb := [], inds := [] } })
  [2 * c, 2 * c + 1].foldl (fun s x => s.updThr x (fun x => { x with hist := 0, path := [], retStack := [], fetchBuf := none })) s
/-- CORE_SPARE (20 R445): A0 the logical core. -/
def State.libCoreSpare (s : State) (e : Nat) (first : Bool) (since c : Nat) : State × CallEnd :=
  match s.spareTile (c / 32) with
  | none => (s, .fail)
  | some t =>
    let s := if first then s.quiesceAsk e 1 c 40 else s
    let q : Quiesce := { engine := e, scope := 1, target := c, limit := 40, held := false, stamp := 0 }
    if !s.corePresent c || since ≥ usTicks 400 || (since ≥ usTicks 100 && s.deviceOut c) then (s, .fail)
    else if s.quiesceWaits q || !s.drainedScope q then (s, .wait)
    else if !(s.core c).l2.isEmpty then ((s.updCore c (fun k => { k with l1i := [], l1d := [] })).emptyL2 c, .wait)
    else ((s.coreMove c t).quiesceEnd e (fun r => r.scope == 1 && r.target == c), .done)
/-- The links that a die's route to another takes along the die-level rings, X first (11 R271; 20 R440). -/
def State.dieHops (s : State) (a b : Nat) : Nat :=
  let go := fun (out : Nat → Bool) (p q : Nat) =>
    let f := (q + 4 - p) % 4
    if f = 0 then 0 else if dieRingStep out p q = (p + 1) % 4 then f else 4 - f
  go (eastOut s.avoid (dieY a)) (dieX a) (dieX b) + go (southOut s.avoid (dieX b)) (dieY a) (dieY b)
/-- Every copy of HOME_HOP takes the distances of the routes as they stand (09 R246; 20 R440). -/
def State.hopsAgain (s : State) : State :=
  (List.range 16).foldl (fun s a =>
    let w : Word := BitVec.ofNat 64 ((List.range 16).foldl (fun v b => v + s.dieHops a b * 2 ^ (4 * b)) 0)
    (List.range 16).foldl (fun s d => s.ctlPut (caddr d 0xC8 (0x2000 + a)) w) s) s
/-- The dies whose routes a TRN_AVOID of a die changes: the die, and those of its row or column where a bridge along it changes (20 R440). -/
def avoidDies (d : Nat) (old new : Word) : List Nat :=
  let x := old ^^^ new
  (List.range 16).filter (fun e => e == d || ((bit x 37 || bit x 39) && dieY e == dieY d) || ((bit x 36 || bit x 38) && dieX e == dieX d))
/-- ROUTER_AVOID (20 R440, R441): A0 the die, A1 its TRN_AVOID. A tile whose router is avoided must have no core, and its slice must be retired; the register and the
distances change once the dies whose routes change are quiesced. -/
def State.libAvoid (s : State) (e : Nat) (first : Bool) (since d : Nat) (w : Word) : State × CallEnd :=
  let bare := (List.range 36).all (fun t => !bit w t || ((s.tileCore (36 * d + t)).isNone && bit (s.ctlGet (caddr d (0x40 + t) 8)) 0))
  let mask := (avoidDies d (s.avoid d) w).foldl (fun a d => a + 2 ^ d) 0
  if d ≥ 16 || !bare || s.regOff (caddr d 0xC0 0x20) then (s, .fail)
  else
    let s := if first then s.quiesceAsk e 4 mask 1 else s
    match s.quiesces.find? (fun q => q.engine == e && q.scope == 4 && q.target == mask) with
    | none => (s, .fail)
    | some q =>
      if since ≥ usTicks 10 then (s, .fail)
      else if s.quiesceWaits q || !s.drainedScope q then (s, .wait)
      else (((s.ctlPut (caddr d 0xC0 0x20) (BitVec.ofNat 64 (fieldOf w 39 0))).hopsAgain).quiesceEnd e (fun r => r.scope == 4 && r.target == mask), .done)
/-- RANK_MAINT: A0 the channel, A1 8 · subchannel + rank; a rank in use is never given hPPR (12 R301). -/
def State.libRankMaint (s : State) (ch r : Nat) : State × CallEnd :=
  if ch ≥ 24 ∨ r ≥ 16 ∨ fieldOf (s.ctlGet (caddr 16 ch (0x110 + r))) 63 62 ≠ 2 then (s, .fail)
  else
    let p := s.almanac.foldl (fun (q : State × List AlmRec) x =>
      if x.chan.toNat = ch ∧ x.loc.toNat / 16 = r then let y := q.1.hardRepair x; (y.1, q.2 ++ [y.2]) else (q.1, q.2 ++ [x])) (s, [])
    ({ p.1 with almanac := p.2 }, .done)
/-- PAIR_REJOIN (20 R444): both ranges of a MIRRORED pair are sent to the partner line by line, buckets go back to it, and LOST clears; which buckets those
are the spec leaves open (log 6). -/
def State.libPairRejoin (s : State) (first : Bool) : State × CallEnd :=
  if !s.pairLost || (s.link 6).st ≠ .up || (s.link 7).st ≠ .up then (s, .fail)
  else
    let s := if first then (List.range 8192).foldl (fun s b =>
        if s.draw 2 = 1 then s.drawn.bucketMark ((1 - s.pkgBit) * 1024 + s.bucketHome b % 1024) b else s.drawn) s
      else s
    let bs := (List.range 8192).filter (fun b => bit (s.homeMap 16 b) 22)
    let r := s.bucketsMove bs
    if !r.2 then (s, .wait)
    else
      let s := r.1
      let lines := (s.mem.map (fun c => c.1 / 64)).eraseDups ++ s.poisoned
      let s := if s.pairMode = 2 then lines.eraseDups.foldl (fun s line =>
          match s.region (line * 64) with
          | .dram _ | .partner _ =>
            let s := s.freshTid
            s.send { Flit.blank .wrNc (.mem (s.chanOf (line * 64))) (.link 6) with
              cls := 3, tid := s.nextTid, line := line, world := s.lineTag (line * 64) 0xFFF, mask := byteMask 0 64, data := s.memLine line
              poison := s.memPoison line, acc := .dma }
          | _ => s) s
        else s
      (s.ctlField pairAddr 61 61 0, .done)
/-- A register write with vendor rights as a call. -/
def State.libPut (s : State) (a : Nat) (v : Word) : State × CallEnd :=
  match s.formePut 0 a v with
  | some t => (t, .done)
  | none => (s, .fail)
/-- One execution of a library forme. -/
def State.libCall (s : State) (e id : Nat) (first : Bool) (since : Nat) : State × CallEnd :=
  let x := s.frm e
  let w := fun (n : Nat) => Tbl.get 0 x.acc n
  let a := fun (n : Nat) => (w n).toNat
  match id with
  | 0x10 => s.libCoreSpare e first since (a 0 % 512)
  | 0x01 => if s.mc.resetting && s.mc.stage == 4 then (s.homeDies, .done) else (s, .fail)
  | 0x02 => if s.mc.resetting && s.mc.stage == 5 && s.paired then (s.pairSpread, .done) else (s, .fail)
  | 0x11 => if !s.corePresent (a 0 % 512) then (s, .fail) else let r := s.coreReset (a 0 % 512); (r.1, if r.2 then .done else .wait)
  | 0x12 => (s, .done)
  | 0x20 => s.libBucketMove first since (a 0 % 8192) (a 1)
  | 0x21 => s.libSliceRetire first (a 0) (a 1)
  | 0x22 => s.libDiePark first (a 0)
  | 0x23 => s.libDieUnpark first (a 0)
  | 0x24 => if a 0 < 16 then (match s.dieReset (a 0) with | some t => (t, .done) | none => (s, .fail)) else (s, .fail)
  | 0x30 => (s, if a 0 < 24 then .done else .fail)
  | 0x31 => s.libRankMaint (a 0) (a 1)
  | 0x40 => s.libAvoid e first since (a 0) (w 1)
  | 0x41 => if a 0 < 8 then s.libPut (caddr 16 (0xC0 + a 0) 0) (w 1) else (s, .fail)
  | 0x42 =>
    if a 0 < 4096 then
      (List.range 8).foldl (fun (r : State × CallEnd) p => if r.2 = .done then r.1.libPut (caddr 16 (0xC0 + p) (0x1000 + a 0)) (w 1) else r) (s, .done)
    else (s, .fail)
  | 0x43 => s.libPairRejoin first
  | 0x50 =>
    if (List.range 24).any (fun ch => s.regOff (guardReg ch 0x202)) then (s, .fail)
    else ((List.range 24).foldl (fun s ch => s.guardCommit ch (a 0)) s, .done)
  | 0x51 =>
    if a 0 < 4 ∧ a 1 < 64 ∧ !s.regOff (slotAddr (a 0) (a 1)) then (match s.slotPut (a 0) (a 1) (w 2) with | some t => (t, .done) | none => (s, .fail)) else (s, .fail)
  | 0x60 =>
    if a 0 ≤ x.lib then (s, .fail)
    else if (List.range 17).all (fun i => i == e || (s.frm i).st == .idle) then ((List.range 17).foldl (fun s i => s.updFrm i (fun x => { x with lib := a 0 })) s, .done)
    else (s, .wait)
  | _ => (s, .fail)
/-- FORME_CALL (20 R433, R434, R441): the library forme runs with vendor rights, over as many rows as it needs. -/
def execFormeCall (engine : Fin 17) (s : State) : Host.Outcome State Fault Refusal :=
  let e := engine.val
  let x := s.frm e
  match s.wordOf e 0xB with
  | none => .next s
  | some w =>
    let id := fieldOf w 15 0
    let may : Bool := match libClass id with | some c => decide (x.cls.toNat ≤ c) | none => false
    if !may then .next (s.stepFail e)
    else
      let now := s.stamp e
      let since := match x.calling with | some t => now.toNat - t.toNat | none => 0
      let r := s.libCall e id x.calling.isNone since
      match r.2 with
      | .done => .next (if (r.1.frm e).st = .idle then r.1 else r.1.formeStep e 1)
      | .wait => .next (r.1.updFrm e (fun x => { x with calling := some (x.calling.getD now) }))
      | .fail => .next (r.1.stepFail e)

end Sys2Proof.Machine
end

