-- ==== Sys2Proof/Machine/Mc.lean ====
section
/-! DEFINITION. The management controller: mailbox requests, BMC commands, the Frisket and the test access (21 R446 to R458). -/

namespace Sys2Proof.Machine

/-- The MC has power and serves (21 R449). -/
def State.mcServes (s : State) : Bool := s.mc.stbyPg && !s.mc.restarting

/-! Requests of the Monitor (21 R449). -/

/-- The request in hand where it has an OP. -/
def State.reqOf (s : State) (op : Nat) : Option (List Word) :=
  match s.mc.inHand with
  | some r => if s.mcServes && fieldOf (r.getD 0 0) 63 48 == op then some r else none
  | none => none
/-- A request is answered and no longer in hand. -/
def State.mcReply (s : State) (r : List Word) (status : Nat) (payload : List Word) : State :=
  { s with mc := { s.mc with inHand := none } }.mcAnswer (r.getD 0 0) status payload
/-- The status of a request: 0 OK, or 2 REFUSED. -/
def okStatus (ok : Bool) : Nat := if ok then 0 else 2

/-- MBX_BOOT_OK: stage 0x9 ends; REFUSED outside it (log 25). -/
def execMbxBootOk (s : State) : Host.Outcome State Fault Refusal :=
  match s.reqOf 1 with
  | none => .next s
  | some r =>
    let ok := s.mc.resetting && s.mc.stage == 9
    .next (s.bootOk.mcReply r (okStatus ok) [])
/-- Every granule of a 16 KiB buffer is backed and decided by an entry with OWNER 0xFFF. -/
def State.chainBuffer (s : State) (pa : Nat) : Bool :=
  [pa, pa + 16383].all (fun a =>
    s.backed a && (match s.region a with
      | .dram _ => (match s.guardFor (s.chanOf a) a with | some e => e.owner == 0xFFF | none => false)
      | _ => false))
/-- MBX_GET_CHAIN: the chain's bytes go into the buffer and its length is returned; ARG where the buffer is not Secure. -/
def execMbxGetChain (s : State) : Host.Outcome State Fault Refusal :=
  match s.reqOf 3 with
  | none => .next s
  | some r =>
    let pa := (r.getD 1 0).toNat
    if s.chainBuffer pa then
      let der := (Config.certChain s.free).take 16384
      .next ((s.drawn.putCohBytes pa der).mcReply r 0 [BitVec.ofNat 64 der.length])
    else .next (s.mcReply r 3 [])
/-- MBX_RESET_COLD: answered, and the reset is resolved by 18 R397. -/
def execMbxResetCold (s : State) : Host.Outcome State Fault Refusal :=
  match s.reqOf 4 with
  | none => .next s
  | some r => if bit (r.getD 1 0) 0 then .next s else .next ((s.mcReply r 0 []).askCold 3)
/-- MBX_RESET_WARM. -/
def execMbxResetWarm (s : State) : Host.Outcome State Fault Refusal :=
  match s.reqOf 4 with
  | none => .next s
  | some r => if bit (r.getD 1 0) 0 then .next ((s.mcReply r 0 []).warmReset 3) else .next s
/-- MBX_P5_ENTER: REFUSED when the conditions of 17 R389 fail. -/
def execMbxP5Enter (s : State) : Host.Outcome State Fault Refusal :=
  match s.reqOf 5 with
  | none => .next s
  | some r =>
    let q := s.askP5 true
    .next (q.1.mcReply r (okStatus q.2) [])
/-- MBX_CLEAR_MINIMAL (18 R405). -/
def execMbxClearMinimal (s : State) : Host.Outcome State Fault Refusal :=
  match s.reqOf 6 with
  | none => .next s
  | some r => .next ((s.setTries 6 6 0).mcReply r 0 [])
/-- MBX_BOOT_REASON: both words of an entry (18 R407). -/
def execMbxBootReason (s : State) : Host.Outcome State Fault Refusal :=
  match s.reqOf 7 with
  | none => .next s
  | some r =>
    let n := (r.getD 1 0).toNat % 16
    .next (s.mcReply r 0 [s.bootReason (2 * n), s.bootReason (2 * n + 1)])
/-- Telemetry: the latest PMBus readings and 17 die temperatures, the sensors' values being free (log 6); a word for each is the model's layout (log 25). -/
def State.telemetryWords (s : State) : List Word :=
  (match s.mc.telemetry with
   | some (v, i, t) => [v.setWidth 64, i.setWidth 64, t.setWidth 64]
   | none => [Config.sensor (s.free + 17), Config.sensor (s.free + 18), Config.sensor (s.free + 19)]) ++
  (List.range 17).map (fun k => Config.sensor (s.free + k))
/-- MBX_TELEMETRY. -/
def execMbxTelemetry (s : State) : Host.Outcome State Fault Refusal :=
  match s.reqOf 8 with
  | none => .next s
  | some r => .next ({ s with free := s.free + 20 }.mcReply r 0 s.telemetryWords)
/-- Frisket status: FRK_STAT and LOCK_UNTIL (21 R458). -/
def Frisket.words (f : Frisket) : List Word := [f.stat, f.lockUntil]
/-- MBX_FRISKET_READ. -/
def execMbxFrisketRead (s : State) : Host.Outcome State Fault Refusal :=
  match s.reqOf 9 with
  | none => .next s
  | some r => if fieldOf (r.getD 1 0) 1 0 == 0 then .next (s.mcReply r 0 s.frisket.words) else .next s
/-- The lifecycle passes from OWNER to FIELD; the answer says whether it did (21 R453). -/
def State.toField (s : State) : State × Bool :=
  if s.frisket.life == .owner then ({ s with frisket := { s.frisket with life := .field } }, true) else (s, false)
/-- MBX_FRISKET_ENTER_FIELD. -/
def execMbxFrisketEnterField (s : State) : Host.Outcome State Fault Refusal :=
  match s.reqOf 9 with
  | none => .next s
  | some r =>
    if fieldOf (r.getD 1 0) 1 0 == 1 then
      let q := s.toField
      .next (q.1.mcReply r (okStatus q.2) [])
    else .next s
/-- MBX_FRISKET_CLOSE; with no session open nothing is closed. -/
def execMbxFrisketClose (s : State) : Host.Outcome State Fault Refusal :=
  match s.reqOf 9 with
  | none => .next s
  | some r => if fieldOf (r.getD 1 0) 1 0 == 2 then .next (s.closeSession.mcReply r 0 []) else .next s
/-- TIME_PAIR: the pair that the BMC delivered is sent, unsolicited, once RSP_PEND is clear. -/
def execTimePair (s : State) : Host.Outcome State Fault Refusal :=
  match s.mc.tod with
  | some (stamp, tai, ns, age) =>
    if s.mcServes && !s.mc.rspPend then
      .next ({ s with mc := { s.mc with tod := none } }.mcAnswer 0x0002000000000000 0 [stamp, tai, ns, age])
    else .next s
  | none => .next s

/-! Commands of the BMC (21 R450). -/

/-- The MC answers the BMC. -/
def State.tellBmc (s : State) (l : List Word) : State := { s with mc := { s.mc with bmcOut := l } }
/-- A command of the BMC, performed while the MC serves. -/
def State.bmc (s : State) (f : State → State) : Host.Outcome State Fault Refusal := .next (if s.mcServes then f s else s)

/-- BMC_READ_TELEMETRY. -/
def execBmcReadTelemetry (s : State) : Host.Outcome State Fault Refusal :=
  s.bmc (fun s => { s with free := s.free + 20 }.tellBmc s.telemetryWords)
/-- BMC_READ_BOOT_REASON. -/
def execBmcReadBootReason (n : Fin 16) (s : State) : Host.Outcome State Fault Refusal :=
  s.bmc (fun s => s.tellBmc [s.bootReason (2 * n.val), s.bootReason (2 * n.val + 1)])
/-- BMC_READ_ERROR_RECORD: the eight words of a slot. -/
def execBmcReadErrorRecord (die : Fin 17) (slot : Fin 512) (s : State) : Host.Outcome State Fault Refusal :=
  s.bmc (fun s => s.tellBmc ((List.range 8).map (s.slot die.val slot.val).word))
/-- BMC_FREE_ERROR_RECORD: under the GEN rule of 19 R420. -/
def execBmcFreeErrorRecord (die : Fin 17) (slot : Fin 512) (gen : BitVec 16) (s : State) : Host.Outcome State Fault Refusal :=
  s.bmc (fun s => s.freeRecord die.val slot.val (BitVec.ofNat 64 (2 ^ 63 + gen.toNat * 2 ^ 32)))
/-- Bytes packed into words, the first lowest; the operand bounds the words. -/
def packWords : Nat → List Byte → List Word
  | 0, _ => []
  | n + 1, l => if l.isEmpty then [] else BitVec.ofNat 64 (((l.take 8).zipIdx.map (fun p => p.1.toNat * 2 ^ (8 * p.2))).sum) :: packWords n (l.drop 8)
/-- BMC_READ_CERTIFICATES: their bytes are free (log 6). -/
def execBmcReadCertificates (s : State) : Host.Outcome State Fault Refusal :=
  s.bmc (fun s =>
    let der := Config.certChain s.free
    s.drawn.tellBmc (packWords der.length der))
/-- BMC_READ_FRISKET. -/
def execBmcReadFrisket (s : State) : Host.Outcome State Fault Refusal := s.bmc (fun s => s.tellBmc s.frisket.words)
/-- BMC_DELIVER_TIME: the pair waits for TIME_PAIR; a newer one takes its place. -/
def execBmcDeliverTime (tai ns age : Word) (s : State) : Host.Outcome State Fault Refusal :=
  s.bmc (fun s => { s with mc := { s.mc with tod := some (s.stamp 16, tai, ns, age) } })
/-- BMC_COLD_RESET (18 R396, R397). -/
def execBmcColdReset (s : State) : Host.Outcome State Fault Refusal := s.bmc (fun s => s.askCold 2)
/-- BMC_WARM_RESET. -/
def execBmcWarmReset (s : State) : Host.Outcome State Fault Refusal := s.bmc (fun s => s.warmReset 2)
/-- BMC_P5_ENTER (17 R389): a request that is none of the Secure world. -/
def execBmcP5Enter (s : State) : Host.Outcome State Fault Refusal := s.bmc (fun s => (s.askP5 false).1)
/-- BMC_P5_EXIT (17 R389): the exit begins. -/
def execBmcP5Exit (s : State) : Host.Outcome State Fault Refusal :=
  s.bmc (fun s => if s.power.pkg == .p5 then { s with power := { s.power with p5Leave := true } } else s)
/-- BMC_CLEAR_HALTED (18 R406): HALTED, MINIMAL and COUNT clear, and a cold reset starts. -/
def execBmcClearHalted (s : State) : Host.Outcome State Fault Refusal :=
  s.bmc (fun s => if s.mc.haltedBit then (((s.setTries 7 7 0).setTries 6 6 0).setTries 2 0 0).coldReset 1 2 false else s)
/-- BMC_CLEAR_MINIMAL (18 R405). -/
def execBmcClearMinimal (s : State) : Host.Outcome State Fault Refusal := s.bmc (fun s => s.setTries 6 6 0)

/-! The Frisket (21 R452 to R458). -/

/-- BMC_OWNER_ENROL (21 R452): the first empty slot takes a key whose own signature verifies; OPEN passes to OWNER. -/
def execBmcOwnerEnrol (keyHash : BitVec 384) (sigOk : Bool) (s : State) : Host.Outcome State Fault Refusal :=
  s.bmc (fun s =>
    let f := s.frisket
    if sigOk && (f.life == .opened || f.life == .owner) && decide (f.slots.length < 4) then
      { s with frisket := { f with slots := f.slots ++ [(keyHash, false)], life := .owner } }
    else s)
/-- BMC_OWNER_REVOKE (21 R452): signed by the key in force, whose slot is revoked; a package whose four slots are spent keeps its last key. -/
def execBmcOwnerRevoke (sigOk : Bool) (s : State) : Host.Outcome State Fault Refusal :=
  s.bmc (fun s =>
    let f := s.frisket
    match f.ownerSlot with
    | some k =>
      let last := decide (f.slots.length = 4) && (f.slots.filter (fun q => !q.2)).length == 1
      if sigOk && !last then { s with frisket := { f with slots := f.slots.zipIdx.map (fun p => if p.2 = k then (p.1.1, true) else p.1) } }
      else s
    | none => s)
/-- BMC_ENTER_FIELD (21 R453): signed by the owner key. -/
def execBmcEnterField (sigOk : Bool) (s : State) : Host.Outcome State Fault Refusal :=
  s.bmc (fun s => if sigOk && s.frisket.ownerSlot.isSome then s.toField.1 else s)
/-- BMC_CLOSE_SESSION (21 R454). -/
def execBmcCloseSession (s : State) : Host.Outcome State Fault Refusal := s.bmc State.closeSession

/-- The MC accepts attempts: in FIELD, and not locked (21 R455, R458). -/
def State.frkOpen (s : State) : Bool := s.mcServes && s.frisket.life == .field && !s.frisket.locked
/-- The challenges that are still valid: 60 s (21 R455). -/
def State.frkLive (s : State) : List (BitVec 2 × BitVec 256 × Word) :=
  s.frisket.challenges.filter (fun c => decide ((s.stamp 16).toNat ≤ c.2.2.toNat + msTicks 60000))
/-- FRISKET_CHALLENGE: level 1 Normal-world debug, 2 full. -/
def execFrisketChallenge (level : BitVec 2) (nonce : BitVec 256) (s : State) : Host.Outcome State Fault Refusal :=
  if s.frkOpen && (level == 1 || level == 2) then
    .next ({ s with frisket := { s.frisket with challenges := s.frkLive ++ [(level, nonce, s.stamp 16)] } }.tellBmc
      ((List.range 4).map (fun i => (nonce >>> (64 * i)).setWidth 64) ++ [level.setWidth 64, s.stamp 16]))
  else .next s
/-- A failed proof counts; the eighth locks for 24 h (21 R458). -/
def State.frkFail (s : State) : State :=
  let n := min 8 (s.frisket.fails + 1)
  let f := { s.frisket with fails := n, savedFails := n }
  { s with frisket := if n ≥ 8 then { f with locked := true, lockUntil := s.stamp 16 + BitVec.ofNat 64 (msTicks 86400000) } else f }
/-- A proof answers the oldest valid challenge, of the level that its means opens: a success clears FAILS and opens, a failure counts. -/
def State.frkProof (s : State) (level : BitVec 2) (ok : Bool) (opens : State → State) : State :=
  if !s.frkOpen then s
  else match s.frkLive with
    | [] => { s with frisket := { s.frisket with challenges := [] } }
    | c :: rest =>
      let s := { s with frisket := { s.frisket with challenges := rest } }
      if ok && c.1 == level then opens { s with frisket := { s.frisket with fails := 0, savedFails := 0 } } else s.frkFail
/-- A session opens (21 R454). -/
def State.openSession (s : State) (n : BitVec 2) : State := { s with frisket := { s.frisket with session := n } }.sessionEvent
/-- FRISKET_PASSWORD_PROOF. -/
def execFrisketPasswordProof (proofOk : Bool) (s : State) : Host.Outcome State Fault Refusal :=
  .next (s.frkProof 1 proofOk (fun s => s.openSession 1))
/-- FRISKET_OWNER_PROOF: by the enrolled owner key. -/
def execFrisketOwnerProof (proofOk : Bool) (s : State) : Host.Outcome State Fault Refusal :=
  .next (s.frkProof 1 (proofOk && s.frisket.ownerSlot.isSome) (fun s => s.openSession 1))
/-- An address whose deciding guard entry has OWNER 0xFFF or an enclave ID (21 R456). -/
def State.secretAt (s : State) (pa : Nat) : Bool :=
  match s.region pa with
  | .dram _ => (match s.guardFor (s.chanOf pa) pa with | some e => e.owner != 0 | none => false)
  | _ => false
/-- The erasure of 21 R456, in its order. -/
def State.eraseSecure (s : State) : State :=
  let secret := s.secretAt
  let s := { s with keys := [] }
  let s := (s.heldLines.filter (fun l => secret (l * 64))).foldl (fun s l => s.putCoh l 0) s
  let s := { s with
    cores := mapTbl Core.reset s.cores (fun (k : Core) => (k.galley ++ k.hellbox).foldl (fun (k : Core) (e : GalEntry) => if secret (e.tag * 64) then k.galRemove e.tag else k) k)
    mem := s.mem.filter (fun c => !secret c.1), poisoned := s.poisoned.filter (fun l => !secret (l * 64)) }
  let s := s.linksDown
  { s with frisket := { s.frisket with slots := s.frisket.slots.map (fun (q : BitVec 384 × Bool) => (q.1, true)) } }
/-- The lifecycle passes to RETURN (21 R453). -/
def State.returned (s : State) : State := { s with frisket := { s.frisket with life := .returned } }
/-- FRISKET_VENDOR_PROOF: the vendor's signature and the owner's consent open full debug after the erasure, and FIELD passes to RETURN. -/
def execFrisketVendorProof (vendorOk consentOk : Bool) (s : State) : Host.Outcome State Fault Refusal :=
  .next (s.frkProof 2 (vendorOk && consentOk && s.frisket.ownerSlot.isSome) (fun s => s.eraseSecure.returned.openSession 2))
/-- LOCKOUT_EXPIRE (21 R458): FAILS stays, as only a success clears it. -/
def execLockoutExpire (s : State) : Host.Outcome State Fault Refusal :=
  if s.frisket.locked && decide ((s.stamp 16).toNat > s.frisket.lockUntil.toNat) then
    .next { s with frisket := { s.frisket with locked := false } }
  else .next s

/-! Firmware of the MC (19 R418; 20 R443; 21 R449). -/

/-- The MC restarts from ROM: a request in hand is not performed. -/
def State.mcRestart (s : State) : State :=
  { s with mc := { s.mc with restarting := true, restartReq := s.mc.inHand, inHand := none } }
/-- MC_FW_FAULT: the record of an MC firmware fault, and a restart while threads run on. -/
def execMcFwFault (s : State) : Host.Outcome State Fault Refusal :=
  if !s.mcServes then .next s else .next ((s.logError s.mcAgent 0x0D02 3 0xFFF none none).mcRestart)
/-- MC_RESTART_DONE: the MC serves again and answers an interrupted request RESTARTED. -/
def execMcRestartDone (s : State) : Host.Outcome State Fault Refusal :=
  if s.mc.stbyPg && s.mc.restarting then
    let m := { s with mc := { s.mc with restarting := false, restartReq := none } }
    match s.mc.restartReq with
    | some r => .next (m.mcAnswer (r.getD 0 0) 4 [])
    | none => .next m
  else .next s
/-- MC_FW_UPDATE: the inactive image is written; where it verifies, the preference passes to it and the MC restarts from ROM. -/
def execMcFwUpdate (imageOk : Bool) (s : State) : Host.Outcome State Fault Refusal :=
  if s.mcServes && imageOk then .next { s with mc := { s.mc with imageB := !s.mc.imageB } }.mcRestart else .next s

/-! The test access (21 R446, R457; 04 R131). -/

/-- A session changes a thread that it reaches. -/
def State.onReached (s : State) (t : Nat) (f : Thread → Thread) : State :=
  if s.thrPresent t && s.sessionReaches t then s.updThr t f else s
/-- A thread stops at its instruction boundary; one in the middle of an instruction does not stop yet. -/
def Thread.debugStop (x : Thread) : Thread := if x.idle && (x.run == .running || x.run == .waiting) then { x.noWalk with run := .debug } else x
/-- A thread that a session stopped runs on; the instruction it stands at matches no breakpoint (log 25). -/
def Thread.debugGo (x : Thread) (step : Bool) : Thread :=
  if x.run == .debug then { x with run := .running, suppress := true, dbgCtl := if step then x.dbgCtl ||| 1 else x.dbgCtl } else x
/-- What a session reads of memory: with tag 0, or with any tag in a full session; nothing where the guard or the copy's world refuses. -/
def State.debugRead (s : State) (pa : Nat) : Option Word :=
  let tag : Tag := if s.frisket.session = 2 then 0xFFF else 0
  let line := pa / 64
  let owns := s.frisket.session = 2 || (match s.copyWorld line with | some w => w == tag | none => s.guardOk pa tag true false)
  if s.backed pa && owns then some (s.cohWord (pa / 8 * 8)) else none
/-- TEST_ACCESS_INSTRUCTION: BYPASS, IDCODE and boundary scan change no state of the machine; debug instructions act only in a session. -/
def execTestAccessInstruction (op : TestOp) (s : State) : Host.Outcome State Fault Refusal :=
  match op with
  | .bypass => .next s
  | .idcode => .next s
  | .boundaryScan => .next s
  | .stopThread t => .next (s.onReached t.val Thread.debugStop)
  | .stepThread t => .next (s.onReached t.val (fun x => x.debugGo true))
  | .resumeThread t => .next (s.onReached t.val (fun x => x.debugGo false))
  | .writeDebugReg t idx val =>
    if decide (0x150 ≤ idx.toNat ∧ idx.toNat ≤ 0x158) then
      .next (s.onReached t.val (fun x => x.sysPut idx.toNat val (s.stamp (dieOfThr t.val))))
    else .next s
  | .readMemory addr =>
    if s.frisket.session = 0 then .next s
    else match s.debugRead addr.toNat with
      | some w => .next (s.tellBmc [w])
      | none => .next s

end Sys2Proof.Machine
end

