-- ==== Sys2Proof/Machine/Memory.lean ====
section
/-! DEFINITION. Loads, stores, prefetch hints, acquire and release forms, and atomics (03 R77 to R86). -/

namespace Sys2Proof.Machine

/-- A request with nothing but a kind, an address and a size. -/
def MemReq.plain (kind : MemKind) (va : Word) (size : Nat) (rd : RegNo) (a : Word) : MemReq :=
  { kind := kind, va := va, size := size, rd := rd, opA := a, opB := 0, aq := false, rl := false }

/-- A Mem-format load of a general register (03 R77). -/
def loadForm (signed : Bool) (size : Nat) (t : Thr) (rt base : RegNo) (imm : BitVec 16) (s : State) : Host.Outcome State Fault Refusal :=
  s.memRow t (MemReq.plain (.loadG signed) ((s.thr t).ea base imm) size rt 0)
/-- A Mem-format store of a value (03 R77, R80). -/
def storeForm (size : Nat) (v : Thread → Word) (t : Thr) (base : RegNo) (imm : BitVec 16) (s : State) : Host.Outcome State Fault Refusal :=
  s.memRow t (MemReq.plain .store ((s.thr t).ea base imm) size 0 (v (s.thr t)))
/-- A Mem-format load of a floating-point register (03 R80). -/
def loadFForm (size : Nat) (t : Thr) (rt base : RegNo) (imm : BitVec 16) (s : State) : Host.Outcome State Fault Refusal :=
  s.memRow t (MemReq.plain .loadF ((s.thr t).ea base imm) size rt 0)
/-- A PREF of a hint (03 R81). -/
def prefForm (hint : Nat) (t : Thr) (base : RegNo) (imm : BitVec 16) (s : State) : Host.Outcome State Fault Refusal :=
  s.memRow t (MemReq.plain (.pref hint) ((s.thr t).ea base imm) 1 0 0)
/-- An AMO (03 R83). -/
def amoForm (op : AmoOp) (t : Thr) (rd rs1 rs2 : RegNo) (d aq rl : Bool) (s : State) : Host.Outcome State Fault Refusal :=
  let x := s.thr t
  s.memRow t { kind := .amo op, va := x.readG rs1, size := if d then 8 else 4, rd := rd, opA := x.readG rs2, opB := 0, aq := aq, rl := rl }

/-- LD_B (03 R77). -/
def execLdB (t : Thr) (rt base : RegNo) (imm : BitVec 16) (s : State) : Host.Outcome State Fault Refusal :=
  loadForm true 1 t rt base imm s
/-- LD_BU (03 R77). -/
def execLdBu (t : Thr) (rt base : RegNo) (imm : BitVec 16) (s : State) : Host.Outcome State Fault Refusal :=
  loadForm false 1 t rt base imm s
/-- LD_H (03 R77). -/
def execLdH (t : Thr) (rt base : RegNo) (imm : BitVec 16) (s : State) : Host.Outcome State Fault Refusal :=
  loadForm true 2 t rt base imm s
/-- LD_HU (03 R77). -/
def execLdHu (t : Thr) (rt base : RegNo) (imm : BitVec 16) (s : State) : Host.Outcome State Fault Refusal :=
  loadForm false 2 t rt base imm s
/-- LD_W (03 R77). -/
def execLdW (t : Thr) (rt base : RegNo) (imm : BitVec 16) (s : State) : Host.Outcome State Fault Refusal :=
  loadForm true 4 t rt base imm s
/-- LD_WU (03 R77). -/
def execLdWu (t : Thr) (rt base : RegNo) (imm : BitVec 16) (s : State) : Host.Outcome State Fault Refusal :=
  loadForm false 4 t rt base imm s
/-- LD_D (03 R77). -/
def execLdD (t : Thr) (rt base : RegNo) (imm : BitVec 16) (s : State) : Host.Outcome State Fault Refusal :=
  loadForm true 8 t rt base imm s
/-- ST_B (03 R77). -/
def execStB (t : Thr) (rt base : RegNo) (imm : BitVec 16) (s : State) : Host.Outcome State Fault Refusal :=
  storeForm 1 (fun x => x.readG rt) t base imm s
/-- ST_H (03 R77). -/
def execStH (t : Thr) (rt base : RegNo) (imm : BitVec 16) (s : State) : Host.Outcome State Fault Refusal :=
  storeForm 2 (fun x => x.readG rt) t base imm s
/-- ST_W (03 R77). -/
def execStW (t : Thr) (rt base : RegNo) (imm : BitVec 16) (s : State) : Host.Outcome State Fault Refusal :=
  storeForm 4 (fun x => x.readG rt) t base imm s
/-- ST_D (03 R77). -/
def execStD (t : Thr) (rt base : RegNo) (imm : BitVec 16) (s : State) : Host.Outcome State Fault Refusal :=
  storeForm 8 (fun x => x.readG rt) t base imm s
/-- FLD_S (03 R80). -/
def execFldS (t : Thr) (rt base : RegNo) (imm : BitVec 16) (s : State) : Host.Outcome State Fault Refusal :=
  loadFForm 4 t rt base imm s
/-- FLD_D (03 R80). -/
def execFldD (t : Thr) (rt base : RegNo) (imm : BitVec 16) (s : State) : Host.Outcome State Fault Refusal :=
  loadFForm 8 t rt base imm s
/-- FST_S (03 R80). -/
def execFstS (t : Thr) (rt base : RegNo) (imm : BitVec 16) (s : State) : Host.Outcome State Fault Refusal :=
  storeForm 4 (fun x => x.readF rt) t base imm s
/-- FST_D (03 R80). -/
def execFstD (t : Thr) (rt base : RegNo) (imm : BitVec 16) (s : State) : Host.Outcome State Fault Refusal :=
  storeForm 8 (fun x => x.readF rt) t base imm s
/-- PREF_READ (03 R81). -/
def execPrefRead (t : Thr) (base : RegNo) (imm : BitVec 16) (s : State) : Host.Outcome State Fault Refusal :=
  prefForm 0 t base imm s
/-- PREF_WRITE (03 R81). -/
def execPrefWrite (t : Thr) (base : RegNo) (imm : BitVec 16) (s : State) : Host.Outcome State Fault Refusal :=
  prefForm 1 t base imm s
/-- PREF_HOME_L3 (03 R81). -/
def execPrefHomeL3 (t : Thr) (base : RegNo) (imm : BitVec 16) (s : State) : Host.Outcome State Fault Refusal :=
  prefForm 2 t base imm s
/-- PREF_GALLEY (03 R81). -/
def execPrefGalley (t : Thr) (base : RegNo) (imm : BitVec 16) (s : State) : Host.Outcome State Fault Refusal :=
  prefForm 3 t base imm s
/-- LD_AQ (03 R82): zero-extended, with acquire order. -/
def execLdAq (t : Thr) (rd rs1 : RegNo) (width : BitVec 2) (s : State) : Host.Outcome State Fault Refusal :=
  s.memRow t { MemReq.plain (.loadG false) ((s.thr t).readG rs1) (ordSize width) rd 0 with aq := true }
/-- LD_AQ_S (03 R82): sign-extended; width 3 is illegal. -/
def execLdAqS (t : Thr) (rd rs1 : RegNo) (width : BitVec 2) (s : State) : Host.Outcome State Fault Refusal :=
  if width = 3 then s.run t (fun s => s.illegal t (regWord 0x28 rd rs1 0 0 7))
  else s.memRow t { MemReq.plain (.loadG true) ((s.thr t).readG rs1) (ordSize width) rd 0 with aq := true }
/-- ST_RL (03 R82): a store with release order. -/
def execStRl (t : Thr) (rs2 rs1 : RegNo) (width : BitVec 2) (s : State) : Host.Outcome State Fault Refusal :=
  s.memRow t { MemReq.plain .store ((s.thr t).readG rs1) (ordSize width) 0 ((s.thr t).readG rs2) with rl := true }
/-- AMO_SWP (03 R83). -/
def execAmoSwp (t : Thr) (rd rs1 rs2 : RegNo) (d aq rl : Bool) (s : State) : Host.Outcome State Fault Refusal :=
  amoForm .swp t rd rs1 rs2 d aq rl s
/-- AMO_ADD (03 R83). -/
def execAmoAdd (t : Thr) (rd rs1 rs2 : RegNo) (d aq rl : Bool) (s : State) : Host.Outcome State Fault Refusal :=
  amoForm .add t rd rs1 rs2 d aq rl s
/-- AMO_AND (03 R83). -/
def execAmoAnd (t : Thr) (rd rs1 rs2 : RegNo) (d aq rl : Bool) (s : State) : Host.Outcome State Fault Refusal :=
  amoForm .band t rd rs1 rs2 d aq rl s
/-- AMO_OR (03 R83). -/
def execAmoOr (t : Thr) (rd rs1 rs2 : RegNo) (d aq rl : Bool) (s : State) : Host.Outcome State Fault Refusal :=
  amoForm .bor t rd rs1 rs2 d aq rl s
/-- AMO_XOR (03 R83). -/
def execAmoXor (t : Thr) (rd rs1 rs2 : RegNo) (d aq rl : Bool) (s : State) : Host.Outcome State Fault Refusal :=
  amoForm .bxor t rd rs1 rs2 d aq rl s
/-- AMO_SMIN (03 R83). -/
def execAmoSmin (t : Thr) (rd rs1 rs2 : RegNo) (d aq rl : Bool) (s : State) : Host.Outcome State Fault Refusal :=
  amoForm .smin t rd rs1 rs2 d aq rl s
/-- AMO_SMAX (03 R83). -/
def execAmoSmax (t : Thr) (rd rs1 rs2 : RegNo) (d aq rl : Bool) (s : State) : Host.Outcome State Fault Refusal :=
  amoForm .smax t rd rs1 rs2 d aq rl s
/-- AMO_UMIN (03 R83). -/
def execAmoUmin (t : Thr) (rd rs1 rs2 : RegNo) (d aq rl : Bool) (s : State) : Host.Outcome State Fault Refusal :=
  amoForm .umin t rd rs1 rs2 d aq rl s
/-- AMO_UMAX (03 R83). -/
def execAmoUmax (t : Thr) (rd rs1 rs2 : RegNo) (d aq rl : Bool) (s : State) : Host.Outcome State Fault Refusal :=
  amoForm .umax t rd rs1 rs2 d aq rl s
/-- CAS (03 R84): rs2 is compared, rs3 is written. -/
def execCas (t : Thr) (rd rs1 rs2 rs3 : RegNo) (d aq rl : Bool) (s : State) : Host.Outcome State Fault Refusal :=
  let x := s.thr t
  s.memRow t { kind := .amo .cas, va := x.readG rs1, size := if d then 8 else 4, rd := rd, opA := x.readG rs2, opB := x.readG rs3, aq := aq, rl := rl }

end Sys2Proof.Machine
end

