-- ==== Sys2Proof/Machine/Dispatch.lean ====
section
/-! DEFINITION. The meaning of each command, by constructor. -/

namespace Sys2Proof.Machine

def exec (i : Instr) (s : State) : Host.Outcome State Fault Refusal :=
  match i with
  | .add t rd rs1 rs2 => Sys2Proof.Machine.execAdd t rd rs1 rs2 s
  | .sub t rd rs1 rs2 => Sys2Proof.Machine.execSub t rd rs1 rs2 s
  | .and t rd rs1 rs2 => Sys2Proof.Machine.execAnd t rd rs1 rs2 s
  | .or t rd rs1 rs2 => Sys2Proof.Machine.execOr t rd rs1 rs2 s
  | .xor t rd rs1 rs2 => Sys2Proof.Machine.execXor t rd rs1 rs2 s
  | .andn t rd rs1 rs2 => Sys2Proof.Machine.execAndn t rd rs1 rs2 s
  | .sll t rd rs1 rs2 => Sys2Proof.Machine.execSll t rd rs1 rs2 s
  | .srl t rd rs1 rs2 => Sys2Proof.Machine.execSrl t rd rs1 rs2 s
  | .sra t rd rs1 rs2 => Sys2Proof.Machine.execSra t rd rs1 rs2 s
  | .rol t rd rs1 rs2 => Sys2Proof.Machine.execRol t rd rs1 rs2 s
  | .ror t rd rs1 rs2 => Sys2Proof.Machine.execRor t rd rs1 rs2 s
  | .slt t rd rs1 rs2 => Sys2Proof.Machine.execSlt t rd rs1 rs2 s
  | .sltu t rd rs1 rs2 => Sys2Proof.Machine.execSltu t rd rs1 rs2 s
  | .min t rd rs1 rs2 => Sys2Proof.Machine.execMin t rd rs1 rs2 s
  | .max t rd rs1 rs2 => Sys2Proof.Machine.execMax t rd rs1 rs2 s
  | .minu t rd rs1 rs2 => Sys2Proof.Machine.execMinu t rd rs1 rs2 s
  | .maxu t rd rs1 rs2 => Sys2Proof.Machine.execMaxu t rd rs1 rs2 s
  | .clz t rd rs1 => Sys2Proof.Machine.execClz t rd rs1 s
  | .ctz t rd rs1 => Sys2Proof.Machine.execCtz t rd rs1 s
  | .popc t rd rs1 => Sys2Proof.Machine.execPopc t rd rs1 s
  | .rev8 t rd rs1 => Sys2Proof.Machine.execRev8 t rd rs1 s
  | .sextB t rd rs1 => Sys2Proof.Machine.execSextB t rd rs1 s
  | .sextH t rd rs1 => Sys2Proof.Machine.execSextH t rd rs1 s
  | .sextW t rd rs1 => Sys2Proof.Machine.execSextW t rd rs1 s
  | .zextW t rd rs1 => Sys2Proof.Machine.execZextW t rd rs1 s
  | .mul t rd rs1 rs2 => Sys2Proof.Machine.execMul t rd rs1 rs2 s
  | .mulh t rd rs1 rs2 => Sys2Proof.Machine.execMulh t rd rs1 rs2 s
  | .mulhu t rd rs1 rs2 => Sys2Proof.Machine.execMulhu t rd rs1 rs2 s
  | .mulhsu t rd rs1 rs2 => Sys2Proof.Machine.execMulhsu t rd rs1 rs2 s
  | .div t rd rs1 rs2 => Sys2Proof.Machine.execDiv t rd rs1 rs2 s
  | .divu t rd rs1 rs2 => Sys2Proof.Machine.execDivu t rd rs1 rs2 s
  | .rem t rd rs1 rs2 => Sys2Proof.Machine.execRem t rd rs1 rs2 s
  | .remu t rd rs1 rs2 => Sys2Proof.Machine.execRemu t rd rs1 rs2 s
  | .addw t rd rs1 rs2 => Sys2Proof.Machine.execAddw t rd rs1 rs2 s
  | .subw t rd rs1 rs2 => Sys2Proof.Machine.execSubw t rd rs1 rs2 s
  | .sllw t rd rs1 rs2 => Sys2Proof.Machine.execSllw t rd rs1 rs2 s
  | .srlw t rd rs1 rs2 => Sys2Proof.Machine.execSrlw t rd rs1 rs2 s
  | .sraw t rd rs1 rs2 => Sys2Proof.Machine.execSraw t rd rs1 rs2 s
  | .mulw t rd rs1 rs2 => Sys2Proof.Machine.execMulw t rd rs1 rs2 s
  | .divw t rd rs1 rs2 => Sys2Proof.Machine.execDivw t rd rs1 rs2 s
  | .divuw t rd rs1 rs2 => Sys2Proof.Machine.execDivuw t rd rs1 rs2 s
  | .remw t rd rs1 rs2 => Sys2Proof.Machine.execRemw t rd rs1 rs2 s
  | .remuw t rd rs1 rs2 => Sys2Proof.Machine.execRemuw t rd rs1 rs2 s
  | .addi t rd rs1 imm => Sys2Proof.Machine.execAddi t rd rs1 imm s
  | .andi t rd rs1 imm => Sys2Proof.Machine.execAndi t rd rs1 imm s
  | .ori t rd rs1 imm => Sys2Proof.Machine.execOri t rd rs1 imm s
  | .xori t rd rs1 imm => Sys2Proof.Machine.execXori t rd rs1 imm s
  | .slti t rd rs1 imm => Sys2Proof.Machine.execSlti t rd rs1 imm s
  | .sltiu t rd rs1 imm => Sys2Proof.Machine.execSltiu t rd rs1 imm s
  | .addiw t rd rs1 imm => Sys2Proof.Machine.execAddiw t rd rs1 imm s
  | .slli t rd rs1 amt => Sys2Proof.Machine.execSlli t rd rs1 amt s
  | .srli t rd rs1 amt => Sys2Proof.Machine.execSrli t rd rs1 amt s
  | .srai t rd rs1 amt => Sys2Proof.Machine.execSrai t rd rs1 amt s
  | .rori t rd rs1 amt => Sys2Proof.Machine.execRori t rd rs1 amt s
  | .slliw t rd rs1 amt => Sys2Proof.Machine.execSlliw t rd rs1 amt s
  | .srliw t rd rs1 amt => Sys2Proof.Machine.execSrliw t rd rs1 amt s
  | .sraiw t rd rs1 amt => Sys2Proof.Machine.execSraiw t rd rs1 amt s
  | .lui t rd imm => Sys2Proof.Machine.execLui t rd imm s
  | .auipc t rd imm => Sys2Proof.Machine.execAuipc t rd imm s
  | .j t rd imm => Sys2Proof.Machine.execJ t rd imm s
  | .jr t rd rs1 imm => Sys2Proof.Machine.execJr t rd rs1 imm s
  | .beq t rs1 rs2 off => Sys2Proof.Machine.execBeq t rs1 rs2 off s
  | .bne t rs1 rs2 off => Sys2Proof.Machine.execBne t rs1 rs2 off s
  | .blt t rs1 rs2 off => Sys2Proof.Machine.execBlt t rs1 rs2 off s
  | .bge t rs1 rs2 off => Sys2Proof.Machine.execBge t rs1 rs2 off s
  | .bltu t rs1 rs2 off => Sys2Proof.Machine.execBltu t rs1 rs2 off s
  | .bgeu t rs1 rs2 off => Sys2Proof.Machine.execBgeu t rs1 rs2 off s
  | .ldB t rt base imm => Sys2Proof.Machine.execLdB t rt base imm s
  | .ldBu t rt base imm => Sys2Proof.Machine.execLdBu t rt base imm s
  | .ldH t rt base imm => Sys2Proof.Machine.execLdH t rt base imm s
  | .ldHu t rt base imm => Sys2Proof.Machine.execLdHu t rt base imm s
  | .ldW t rt base imm => Sys2Proof.Machine.execLdW t rt base imm s
  | .ldWu t rt base imm => Sys2Proof.Machine.execLdWu t rt base imm s
  | .ldD t rt base imm => Sys2Proof.Machine.execLdD t rt base imm s
  | .stB t rt base imm => Sys2Proof.Machine.execStB t rt base imm s
  | .stH t rt base imm => Sys2Proof.Machine.execStH t rt base imm s
  | .stW t rt base imm => Sys2Proof.Machine.execStW t rt base imm s
  | .stD t rt base imm => Sys2Proof.Machine.execStD t rt base imm s
  | .fldS t rt base imm => Sys2Proof.Machine.execFldS t rt base imm s
  | .fldD t rt base imm => Sys2Proof.Machine.execFldD t rt base imm s
  | .fstS t rt base imm => Sys2Proof.Machine.execFstS t rt base imm s
  | .fstD t rt base imm => Sys2Proof.Machine.execFstD t rt base imm s
  | .prefRead t base imm => Sys2Proof.Machine.execPrefRead t base imm s
  | .prefWrite t base imm => Sys2Proof.Machine.execPrefWrite t base imm s
  | .prefHomeL3 t base imm => Sys2Proof.Machine.execPrefHomeL3 t base imm s
  | .prefGalley t base imm => Sys2Proof.Machine.execPrefGalley t base imm s
  | .ldAq t rd rs1 width => Sys2Proof.Machine.execLdAq t rd rs1 width s
  | .ldAqS t rd rs1 width => Sys2Proof.Machine.execLdAqS t rd rs1 width s
  | .stRl t rs2 rs1 width => Sys2Proof.Machine.execStRl t rs2 rs1 width s
  | .amoSwp t rd rs1 rs2 d aq rl => Sys2Proof.Machine.execAmoSwp t rd rs1 rs2 d aq rl s
  | .amoAdd t rd rs1 rs2 d aq rl => Sys2Proof.Machine.execAmoAdd t rd rs1 rs2 d aq rl s
  | .amoAnd t rd rs1 rs2 d aq rl => Sys2Proof.Machine.execAmoAnd t rd rs1 rs2 d aq rl s
  | .amoOr t rd rs1 rs2 d aq rl => Sys2Proof.Machine.execAmoOr t rd rs1 rs2 d aq rl s
  | .amoXor t rd rs1 rs2 d aq rl => Sys2Proof.Machine.execAmoXor t rd rs1 rs2 d aq rl s
  | .amoSmin t rd rs1 rs2 d aq rl => Sys2Proof.Machine.execAmoSmin t rd rs1 rs2 d aq rl s
  | .amoSmax t rd rs1 rs2 d aq rl => Sys2Proof.Machine.execAmoSmax t rd rs1 rs2 d aq rl s
  | .amoUmin t rd rs1 rs2 d aq rl => Sys2Proof.Machine.execAmoUmin t rd rs1 rs2 d aq rl s
  | .amoUmax t rd rs1 rs2 d aq rl => Sys2Proof.Machine.execAmoUmax t rd rs1 rs2 d aq rl s
  | .cas t rd rs1 rs2 rs3 d aq rl => Sys2Proof.Machine.execCas t rd rs1 rs2 rs3 d aq rl s
  | .fadd t rd rs1 rs2 p rm => Sys2Proof.Machine.execFadd t rd rs1 rs2 p rm s
  | .fsub t rd rs1 rs2 p rm => Sys2Proof.Machine.execFsub t rd rs1 rs2 p rm s
  | .fmul t rd rs1 rs2 p rm => Sys2Proof.Machine.execFmul t rd rs1 rs2 p rm s
  | .fdiv t rd rs1 rs2 p rm => Sys2Proof.Machine.execFdiv t rd rs1 rs2 p rm s
  | .fsqrt t rd rs1 p rm => Sys2Proof.Machine.execFsqrt t rd rs1 p rm s
  | .fmin t rd rs1 rs2 p => Sys2Proof.Machine.execFmin t rd rs1 rs2 p s
  | .fmax t rd rs1 rs2 p => Sys2Proof.Machine.execFmax t rd rs1 rs2 p s
  | .fsign t rd rs1 rs2 p => Sys2Proof.Machine.execFsign t rd rs1 rs2 p s
  | .fsignn t rd rs1 rs2 p => Sys2Proof.Machine.execFsignn t rd rs1 rs2 p s
  | .fsignx t rd rs1 rs2 p => Sys2Proof.Machine.execFsignx t rd rs1 rs2 p s
  | .feq t rd rs1 rs2 p => Sys2Proof.Machine.execFeq t rd rs1 rs2 p s
  | .flt t rd rs1 rs2 p => Sys2Proof.Machine.execFlt t rd rs1 rs2 p s
  | .fle t rd rs1 rs2 p => Sys2Proof.Machine.execFle t rd rs1 rs2 p s
  | .fkind t rd rs1 p => Sys2Proof.Machine.execFkind t rd rs1 p s
  | .fcvtFF t rd rs1 p rm => Sys2Proof.Machine.execFcvtFF t rd rs1 p rm s
  | .fcvtWF t rd rs1 p rm => Sys2Proof.Machine.execFcvtWF t rd rs1 p rm s
  | .fcvtWuF t rd rs1 p rm => Sys2Proof.Machine.execFcvtWuF t rd rs1 p rm s
  | .fcvtLF t rd rs1 p rm => Sys2Proof.Machine.execFcvtLF t rd rs1 p rm s
  | .fcvtLuF t rd rs1 p rm => Sys2Proof.Machine.execFcvtLuF t rd rs1 p rm s
  | .fcvtFW t rd rs1 p rm => Sys2Proof.Machine.execFcvtFW t rd rs1 p rm s
  | .fcvtFWu t rd rs1 p rm => Sys2Proof.Machine.execFcvtFWu t rd rs1 p rm s
  | .fcvtFL t rd rs1 p rm => Sys2Proof.Machine.execFcvtFL t rd rs1 p rm s
  | .fcvtFLu t rd rs1 p rm => Sys2Proof.Machine.execFcvtFLu t rd rs1 p rm s
  | .fmvGF t rd rs1 p => Sys2Proof.Machine.execFmvGF t rd rs1 p s
  | .fmvFG t rd rs1 p => Sys2Proof.Machine.execFmvFG t rd rs1 p s
  | .fmadd t rd rs1 rs2 rs3 p rm => Sys2Proof.Machine.execFmadd t rd rs1 rs2 rs3 p rm s
  | .fmsub t rd rs1 rs2 rs3 p rm => Sys2Proof.Machine.execFmsub t rd rs1 rs2 rs3 p rm s
  | .fnmadd t rd rs1 rs2 rs3 p rm => Sys2Proof.Machine.execFnmadd t rd rs1 rs2 rs3 p rm s
  | .fnmsub t rd rs1 rs2 rs3 p rm => Sys2Proof.Machine.execFnmsub t rd rs1 rs2 rs3 p rm s
  | .sysrd t rd idx => Sys2Proof.Machine.execSysrd t rd idx s
  | .syswr t rs1 idx => Sys2Proof.Machine.execSyswr t rs1 idx s
  | .intAckRead t rd => Sys2Proof.Machine.execIntAckRead t rd s
  | .intEoiWrite t rs1 => Sys2Proof.Machine.execIntEoiWrite t rs1 s
  | .intSendWrite t rs1 => Sys2Proof.Machine.execIntSendWrite t rs1 s
  | .mmuRootWrite t rs1 second => Sys2Proof.Machine.execMmuRootWrite t rs1 second s
  | .predFlushWrite t rs1 => Sys2Proof.Machine.execPredFlushWrite t rs1 s
  | .smtFixWrite t rs1 => Sys2Proof.Machine.execSmtFixWrite t rs1 s
  | .cacheDisableWrite t rs1 => Sys2Proof.Machine.execCacheDisableWrite t rs1 s
  | .cacheEmptyDone t => Sys2Proof.Machine.execCacheEmptyDone t s
  | .unlockAllWrite t rs1 => Sys2Proof.Machine.execUnlockAllWrite t rs1 s
  | .trap t code => Sys2Proof.Machine.execTrap t code s
  | .retx t => Sys2Proof.Machine.execRetx t s
  | .waite t => Sys2Proof.Machine.execWaite t s
  | .waiteWake t => Sys2Proof.Machine.execWaiteWake t s
  | .sevt t => Sys2Proof.Machine.execSevt t s
  | .time t rd => Sys2Proof.Machine.execTime t rd s
  | .fenceO t mask => Sys2Proof.Machine.execFenceO t mask s
  | .fenceC t => Sys2Proof.Machine.execFenceC t s
  | .fenceCComplete t => Sys2Proof.Machine.execFenceCComplete t s
  | .ifence t => Sys2Proof.Machine.execIfence t s
  | .cmoCleanPoc t rs1 => Sys2Proof.Machine.execCmoCleanPoc t rs1 s
  | .cmoInvalPoc t rs1 => Sys2Proof.Machine.execCmoInvalPoc t rs1 s
  | .cmoCleanInvalPoc t rs1 => Sys2Proof.Machine.execCmoCleanInvalPoc t rs1 s
  | .cmoCleanPou t rs1 => Sys2Proof.Machine.execCmoCleanPou t rs1 s
  | .cmoInvalPou t rs1 => Sys2Proof.Machine.execCmoInvalPou t rs1 s
  | .cmoCleanInvalPou t rs1 => Sys2Proof.Machine.execCmoCleanInvalPou t rs1 s
  | .cmoCleanSetway t rs1 => Sys2Proof.Machine.execCmoCleanSetway t rs1 s
  | .cmoInvalSetway t rs1 => Sys2Proof.Machine.execCmoInvalSetway t rs1 s
  | .cmoCleanInvalSetway t rs1 => Sys2Proof.Machine.execCmoCleanInvalSetway t rs1 s
  | .galLock t rs1 => Sys2Proof.Machine.execGalLock t rs1 s
  | .galUnlock t rs1 => Sys2Proof.Machine.execGalUnlock t rs1 s
  | .tlbiVa t rs1 rx domain => Sys2Proof.Machine.execTlbiVa t rs1 rx domain s
  | .tlbiAsid t rx domain => Sys2Proof.Machine.execTlbiAsid t rx domain s
  | .tlbiVmid t rx domain => Sys2Proof.Machine.execTlbiVmid t rx domain s
  | .tlbiAll t domain l => Sys2Proof.Machine.execTlbiAll t domain l s
  | .tlbLock t rs1 => Sys2Proof.Machine.execTlbLock t rs1 s
  | .tlbUnlock t rs1 => Sys2Proof.Machine.execTlbUnlock t rs1 s
  | .enclInit t rd rs1 => Sys2Proof.Machine.execEnclInit t rd rs1 s
  | .enclAdd t rd rs1 => Sys2Proof.Machine.execEnclAdd t rd rs1 s
  | .enclSeal t rd rs1 => Sys2Proof.Machine.execEnclSeal t rd rs1 s
  | .enclDestroy t rd rs1 => Sys2Proof.Machine.execEnclDestroy t rd rs1 s
  | .enclEnter t rd rs1 => Sys2Proof.Machine.execEnclEnter t rd rs1 s
  | .enclExit t rd rs1 => Sys2Proof.Machine.execEnclExit t rd rs1 s
  | .enclReport t rd rs1 => Sys2Proof.Machine.execEnclReport t rd rs1 s
  | .interruptTake t => Sys2Proof.Machine.execInterruptTake t s
  | .machineCheckTake t => Sys2Proof.Machine.execMachineCheckTake t s
  | .timerDeadline t secure => Sys2Proof.Machine.execTimerDeadline t secure s
  | .intWorldBitWrite secure t intid toSecure => Sys2Proof.Machine.execIntWorldBitWrite secure t intid toSecure s
  | .intDlv k => Sys2Proof.Machine.execIntDlv k s
  | .sevtB k => Sys2Proof.Machine.execSevtB k s
  | .routerSourceAssert src => Sys2Proof.Machine.execRouterSourceAssert src s
  | .routerSend src => Sys2Proof.Machine.execRouterSend src s
  | .gpioEdge pin level => Sys2Proof.Machine.execGpioEdge pin level s
  | .gpioLevelDeassert pin => Sys2Proof.Machine.execGpioLevelDeassert pin s
  | .storeBufferDrain t n => Sys2Proof.Machine.execStoreBufferDrain t n s
  | .deviceResponse k => Sys2Proof.Machine.execDeviceResponse k s
  | .errorResponse k => Sys2Proof.Machine.execErrorResponse k s
  | .pendingErrorArrive k => Sys2Proof.Machine.execPendingErrorArrive k s
  | .walkReadResponse t => Sys2Proof.Machine.execWalkReadResponse t s
  | .prefetchIssue c n => Sys2Proof.Machine.execPrefetchIssue c n s
  | .rdS k => Sys2Proof.Machine.execRdS k s
  | .rdU k => Sys2Proof.Machine.execRdU k s
  | .upg k => Sys2Proof.Machine.execUpg k s
  | .rdNc k => Sys2Proof.Machine.execRdNc k s
  | .wrNc k => Sys2Proof.Machine.execWrNc k s
  | .atomH k => Sys2Proof.Machine.execAtomH k s
  | .atomM k => Sys2Proof.Machine.execAtomM k s
  | .cmoP k => Sys2Proof.Machine.execCmoP k s
  | .tlbiB k => Sys2Proof.Machine.execTlbiB k s
  | .wbD k => Sys2Proof.Machine.execWbD k s
  | .evictC k => Sys2Proof.Machine.execEvictC k s
  | .snpS k => Sys2Proof.Machine.execSnpS k s
  | .snpU k => Sys2Proof.Machine.execSnpU k s
  | .snpI k => Sys2Proof.Machine.execSnpI k s
  | .snpNear k => Sys2Proof.Machine.execSnpNear k s
  | .dataS k => Sys2Proof.Machine.execDataS k s
  | .dataE k => Sys2Proof.Machine.execDataE k s
  | .dataM k => Sys2Proof.Machine.execDataM k s
  | .ack k => Sys2Proof.Machine.execAck k s
  | .retry k => Sys2Proof.Machine.execRetry k s
  | .retryBackoffExpire n => Sys2Proof.Machine.execRetryBackoffExpire n s
  | .reservationLapse slice => Sys2Proof.Machine.execReservationLapse slice s
  | .flitForward k => Sys2Proof.Machine.execFlitForward k s
  | .replayRequest k payloadOnly => Sys2Proof.Machine.execReplayRequest k payloadOnly s
  | .merSyncSend => Sys2Proof.Machine.execMerSyncSend s
  | .merSync k => Sys2Proof.Machine.execMerSync k s
  | .contain k => Sys2Proof.Machine.execContain k s
  | .heart k => Sys2Proof.Machine.execHeart k s
  | .regulatorRelease k => Sys2Proof.Machine.execRegulatorRelease k s
  | .transactionTimeout r n => Sys2Proof.Machine.execTransactionTimeout r n s
  | .snoopTimeout snoop => Sys2Proof.Machine.execSnoopTimeout snoop s
  | .portClosed port => Sys2Proof.Machine.execPortClosed port s
  | .portOpened port => Sys2Proof.Machine.execPortOpened port s
  | .dramReadReturn ch n flips => Sys2Proof.Machine.execDramReadReturn ch n flips s
  | .dramVerifyReturn ch flips => Sys2Proof.Machine.execDramVerifyReturn ch flips s
  | .probeDone ch reads => Sys2Proof.Machine.execProbeDone ch reads s
  | .spprDone ch reads => Sys2Proof.Machine.execSpprDone ch reads s
  | .scrubRead ch offset => Sys2Proof.Machine.execScrubRead ch offset s
  | .fillDone ch => Sys2Proof.Machine.execFillDone ch s
  | .ddrAlertDuringFill ch => Sys2Proof.Machine.execDdrAlertDuringFill ch s
  | .grdCommitWrite guard version => Sys2Proof.Machine.execGrdCommitWrite guard version s
  | .grdKeyWrite guard slot w val => Sys2Proof.Machine.execGrdKeyWrite guard slot w val s
  | .sylEnWrite port en => Sys2Proof.Machine.execSylEnWrite port en s
  | .linkTrained port lanes => Sys2Proof.Machine.execLinkTrained port lanes s
  | .hello port h => Sys2Proof.Machine.execHello port h s
  | .auth port a => Sys2Proof.Machine.execAuth port a s
  | .authTimeout port => Sys2Proof.Machine.execAuthTimeout port s
  | .frameReceive port f => Sys2Proof.Machine.execFrameReceive port f s
  | .nak port seq => Sys2Proof.Machine.execNak port seq s
  | .heartbeatSend port => Sys2Proof.Machine.execHeartbeatSend port s
  | .linkLost port => Sys2Proof.Machine.execLinkLost port s
  | .rekey port => Sys2Proof.Machine.execRekey port s
  | .linkTimeExchange port said => Sys2Proof.Machine.execLinkTimeExchange port said s
  | .mirrorFlush c n => Sys2Proof.Machine.execMirrorFlush c n s
  | .partnerScanDone => Sys2Proof.Machine.execPartnerScanDone s
  | .ppsEdge => Sys2Proof.Machine.execPpsEdge s
  | .ppsLost => Sys2Proof.Machine.execPpsLost s
  | .mcGpioWorldWrite sec => Sys2Proof.Machine.execMcGpioWorldWrite sec s
  | .dmvChWorldWrite engine ch world => Sys2Proof.Machine.execDmvChWorldWrite engine ch world s
  | .swdStart => Sys2Proof.Machine.execSwdStart s
  | .swdKick => Sys2Proof.Machine.execSwdKick s
  | .swdExpire => Sys2Proof.Machine.execSwdExpire s
  | .dmvSlotWrite engine slot val => Sys2Proof.Machine.execDmvSlotWrite engine slot val s
  | .dbTailWrite secure inst tail => Sys2Proof.Machine.execDbTailWrite secure inst tail s
  | .dmvSegment engine ch => Sys2Proof.Machine.execDmvSegment engine ch s
  | .instFreeze secure inst => Sys2Proof.Machine.execInstFreeze secure inst s
  | .instFreezeDone inst => Sys2Proof.Machine.execInstFreezeDone inst s
  | .instThaw secure inst => Sys2Proof.Machine.execInstThaw secure inst s
  | .instSave secure inst => Sys2Proof.Machine.execInstSave secure inst s
  | .instSaveDone inst => Sys2Proof.Machine.execInstSaveDone inst s
  | .instRestore secure inst => Sys2Proof.Machine.execInstRestore secure inst s
  | .instRestoreDone inst => Sys2Proof.Machine.execInstRestoreDone inst s
  | .instReset secure inst => Sys2Proof.Machine.execInstReset secure inst s
  | .h2gDb secure inst mask => Sys2Proof.Machine.execH2gDb secure inst mask s
  | .g2hDb secure inst mask => Sys2Proof.Machine.execG2hDb secure inst mask s
  | .pcieInboundRequest port sub r => Sys2Proof.Machine.execPcieInboundRequest port sub r s
  | .msiWrite port sub stream secureView data => Sys2Proof.Machine.execMsiWrite port sub stream secureView data s
  | .pcieCompletion port n status data => Sys2Proof.Machine.execPcieCompletion port n status data s
  | .endptTimeout port n => Sys2Proof.Machine.execEndptTimeout port n s
  | .containedWrite port mask => Sys2Proof.Machine.execContainedWrite port mask s
  | .containmentReleaseDone port sub => Sys2Proof.Machine.execContainmentReleaseDone port sub s
  | .atsInvalidateCompletion stream => Sys2Proof.Machine.execAtsInvalidateCompletion stream s
  | .atsTimeout stream => Sys2Proof.Machine.execAtsTimeout stream s
  | .priPageRequest stream w0 w1 => Sys2Proof.Machine.execPriPageRequest stream w0 w1 s
  | .prgRespWrite val => Sys2Proof.Machine.execPrgRespWrite val s
  | .tileStateEntered tile => Sys2Proof.Machine.execTileStateEntered tile s
  | .tileWakeDone tile => Sys2Proof.Machine.execTileWakeDone tile s
  | .vernierDroop die island => Sys2Proof.Machine.execVernierDroop die island s
  | .vernierRelease die island => Sys2Proof.Machine.execVernierRelease die island s
  | .powerLimitTick limits => Sys2Proof.Machine.execPowerLimitTick limits s
  | .slewSlot => Sys2Proof.Machine.execSlewSlot s
  | .p1Enter => Sys2Proof.Machine.execP1Enter s
  | .p1Exit => Sys2Proof.Machine.execP1Exit s
  | .p5Enter => Sys2Proof.Machine.execP5Enter s
  | .p5Exit => Sys2Proof.Machine.execP5Exit s
  | .prochotAssert => Sys2Proof.Machine.execProchotAssert s
  | .prochotDeassert => Sys2Proof.Machine.execProchotDeassert s
  | .thermtrip => Sys2Proof.Machine.execThermtrip s
  | .pmbusPoll vout iout temp => Sys2Proof.Machine.execPmbusPoll vout iout temp s
  | .pmbAlert status => Sys2Proof.Machine.execPmbAlert status s
  | .stbyPgRise => Sys2Proof.Machine.execStbyPgRise s
  | .stbyPgFall => Sys2Proof.Machine.execStbyPgFall s
  | .powerGoodRise hub => Sys2Proof.Machine.execPowerGoodRise hub s
  | .powerGoodFall hub => Sys2Proof.Machine.execPowerGoodFall hub s
  | .resetNAssert => Sys2Proof.Machine.execResetNAssert s
  | .packageColdReset trigger => Sys2Proof.Machine.execPackageColdReset trigger s
  | .packageWarmReset => Sys2Proof.Machine.execPackageWarmReset s
  | .dieReset die => Sys2Proof.Machine.execDieReset die s
  | .coreReset c => Sys2Proof.Machine.execCoreReset c s
  | .bootStageDone o => Sys2Proof.Machine.execBootStageDone o s
  | .bootStageTimeout => Sys2Proof.Machine.execBootStageTimeout s
  | .bootReleaseWrite n val => Sys2Proof.Machine.execBootReleaseWrite n val s
  | .errorRecordStore die r => Sys2Proof.Machine.execErrorRecordStore die r s
  | .recordFree secure die slot val => Sys2Proof.Machine.execRecordFree secure die slot val s
  | .summaryClr secure => Sys2Proof.Machine.execSummaryClr secure s
  | .errCeNotifyWrite secure val => Sys2Proof.Machine.execErrCeNotifyWrite secure val s
  | .frmSubWrite engine val => Sys2Proof.Machine.execFrmSubWrite engine val s
  | .formeBegin engine sigOk => Sys2Proof.Machine.execFormeBegin engine sigOk s
  | .formeNop engine => Sys2Proof.Machine.execFormeNop engine s
  | .formeWrite engine => Sys2Proof.Machine.execFormeWrite engine s
  | .formeRead engine => Sys2Proof.Machine.execFormeRead engine s
  | .formeRmw engine => Sys2Proof.Machine.execFormeRmw engine s
  | .formePoll engine => Sys2Proof.Machine.execFormePoll engine s
  | .pollTimeout engine => Sys2Proof.Machine.execPollTimeout engine s
  | .formeQuiesce engine => Sys2Proof.Machine.execFormeQuiesce engine s
  | .quiesceHold engine => Sys2Proof.Machine.execQuiesceHold engine s
  | .quiesceCeiling engine => Sys2Proof.Machine.execQuiesceCeiling engine s
  | .formeResume engine => Sys2Proof.Machine.execFormeResume engine s
  | .formeSync engine => Sys2Proof.Machine.execFormeSync engine s
  | .syncRelease engine => Sys2Proof.Machine.execSyncRelease engine s
  | .formeStamp engine => Sys2Proof.Machine.execFormeStamp engine s
  | .formeJump engine => Sys2Proof.Machine.execFormeJump engine s
  | .formeBrnz engine => Sys2Proof.Machine.execFormeBrnz engine s
  | .formeCall engine => Sys2Proof.Machine.execFormeCall engine s
  | .formeReturn engine => Sys2Proof.Machine.execFormeReturn engine s
  | .formeFail engine => Sys2Proof.Machine.execFormeFail engine s
  | .formeEnd engine => Sys2Proof.Machine.execFormeEnd engine s
  | .registerWrite path addr val => Sys2Proof.Machine.execRegisterWrite path addr val s
  | .mbxBootOk => Sys2Proof.Machine.execMbxBootOk s
  | .mbxGetChain => Sys2Proof.Machine.execMbxGetChain s
  | .mbxResetCold => Sys2Proof.Machine.execMbxResetCold s
  | .mbxResetWarm => Sys2Proof.Machine.execMbxResetWarm s
  | .mbxP5Enter => Sys2Proof.Machine.execMbxP5Enter s
  | .mbxClearMinimal => Sys2Proof.Machine.execMbxClearMinimal s
  | .mbxBootReason => Sys2Proof.Machine.execMbxBootReason s
  | .mbxTelemetry => Sys2Proof.Machine.execMbxTelemetry s
  | .mbxFrisketRead => Sys2Proof.Machine.execMbxFrisketRead s
  | .mbxFrisketEnterField => Sys2Proof.Machine.execMbxFrisketEnterField s
  | .mbxFrisketClose => Sys2Proof.Machine.execMbxFrisketClose s
  | .timePair => Sys2Proof.Machine.execTimePair s
  | .bmcReadTelemetry => Sys2Proof.Machine.execBmcReadTelemetry s
  | .bmcReadBootReason n => Sys2Proof.Machine.execBmcReadBootReason n s
  | .bmcReadErrorRecord die slot => Sys2Proof.Machine.execBmcReadErrorRecord die slot s
  | .bmcFreeErrorRecord die slot gen => Sys2Proof.Machine.execBmcFreeErrorRecord die slot gen s
  | .bmcReadCertificates => Sys2Proof.Machine.execBmcReadCertificates s
  | .bmcReadFrisket => Sys2Proof.Machine.execBmcReadFrisket s
  | .bmcDeliverTime tai ns age => Sys2Proof.Machine.execBmcDeliverTime tai ns age s
  | .bmcColdReset => Sys2Proof.Machine.execBmcColdReset s
  | .bmcWarmReset => Sys2Proof.Machine.execBmcWarmReset s
  | .bmcP5Enter => Sys2Proof.Machine.execBmcP5Enter s
  | .bmcP5Exit => Sys2Proof.Machine.execBmcP5Exit s
  | .bmcClearHalted => Sys2Proof.Machine.execBmcClearHalted s
  | .bmcClearMinimal => Sys2Proof.Machine.execBmcClearMinimal s
  | .bmcOwnerEnrol keyHash sigOk => Sys2Proof.Machine.execBmcOwnerEnrol keyHash sigOk s
  | .bmcOwnerRevoke sigOk => Sys2Proof.Machine.execBmcOwnerRevoke sigOk s
  | .bmcEnterField sigOk => Sys2Proof.Machine.execBmcEnterField sigOk s
  | .bmcCloseSession => Sys2Proof.Machine.execBmcCloseSession s
  | .frisketChallenge level nonce => Sys2Proof.Machine.execFrisketChallenge level nonce s
  | .frisketPasswordProof proofOk => Sys2Proof.Machine.execFrisketPasswordProof proofOk s
  | .frisketOwnerProof proofOk => Sys2Proof.Machine.execFrisketOwnerProof proofOk s
  | .frisketVendorProof vendorOk consentOk => Sys2Proof.Machine.execFrisketVendorProof vendorOk consentOk s
  | .lockoutExpire => Sys2Proof.Machine.execLockoutExpire s
  | .mcFwFault => Sys2Proof.Machine.execMcFwFault s
  | .mcRestartDone => Sys2Proof.Machine.execMcRestartDone s
  | .mcFwUpdate imageOk => Sys2Proof.Machine.execMcFwUpdate imageOk s
  | .testAccessInstruction op => Sys2Proof.Machine.execTestAccessInstruction op s
  | .sylPrsntNChange port present => Sys2Proof.Machine.execSylPrsntNChange port present s
  | .resetNRise => Sys2Proof.Machine.execResetNRise s
  | .pcieLinkDown port sub dpc => Sys2Proof.Machine.execPcieLinkDown port sub dpc s
  | .pcieLinkUp port sub cxlOffered => Sys2Proof.Machine.execPcieLinkUp port sub cxlOffered s
  | .perstNRelease port sub => Sys2Proof.Machine.execPerstNRelease port sub s
  | .reportComplete t => Sys2Proof.Machine.execReportComplete t s

end Sys2Proof.Machine
end

