-- ==== Sys2Proof/Safety.lean ====
section
/-! DEFINITION. What counts as a good state, and the words in which claims speak of what a command leaves. -/

namespace Sys2Proof.Machine

/-- Memory is in its canonical form: addresses strictly rising, no byte listed that reads as the default. -/
def State.memCanonical (s : State) : Bool := memWf s.mem

/-- A step goes wrong when it stops. -/
def stops (o : Host.Outcome State Fault Refusal) : Bool :=
  match o with
  | .next _ => false
  | _ => true

/-- A thread past an instruction: at a PC, with the marks of R111 and R129 and the instruction in progress cleared. -/
def Thread.past (x : Thread) (pc : Word) : Thread := { x with pc := pc, suppress := false, vecFetch := none, memOp := none, walk := none }

/-- Two threads are the same but for their counters and INTID 17, which an event may move (19 R425). -/
def Thread.near (x y : Thread) : Prop :=
  ∃ p c i, (∀ n, n ≠ 17 → Tbl.get IntId.reset i n = Tbl.get IntId.reset x.ints n) ∧ y = { x with pmc := p, pmcCtl := c, ints := i }

/-- The state u is s but for thread t, which is as wanted but for its counters and INTID 17. -/
def State.leaves (s u : State) (t : Nat) (want : Thread) : Prop :=
  u = { s with threads := u.threads } ∧ (∀ k, k ≠ t → u.thr k = s.thr k) ∧ want.near (u.thr t)

/-- An instruction of thread t begins in s₁, the state after its fetch, and no single step falls due with it (04 R131). -/
def State.begins (s s₁ : State) (t : Nat) : Prop := s.start t = .go s₁ ∧ (s₁.thr t).stepDue = false

/-- The command completes: it answers a next state, which is s₁ but for thread t as wanted. -/
def completes (o : Host.Outcome State Fault Refusal) (s₁ : State) (t : Nat) (want : Thread) : Prop :=
  ∃ u, o = .next u ∧ s₁.leaves u t want

/-- A transfer of thread t in FULL mode has left what the predictors and a wrong path may leave (05 R132, R143): u is s but for the thread, which is as
wanted but for its history, its return stack and its counters, its core, the flits sent and what was drawn. -/
def State.guesses (s u : State) (t : Nat) (want : Thread) : Prop :=
  u = { s with threads := u.threads, cores := u.cores, net := u.net, nextTid := u.nextTid, free := u.free } ∧
    (∀ c, c ≠ t / 2 → u.core c = s.core c) ∧ (∀ k, k ≠ t → u.thr k = s.thr k) ∧
    ∃ h p r, { want with hist := h, path := p, retStack := r }.near (u.thr t)

/-- The state with an instruction of thread t in progress: its access begins. -/
def State.opening (s : State) (t : Nat) (r : MemReq) : State :=
  s.updThr t (fun x => { x with memOp := some (MemOp.begin_ r) })

/-- A memory instruction of thread t that begins in s, its fetch done in s₁, may be performed in s₂, its pieces translated and checked: it has the alignment
that its form asks for, no watchpoint matches it, no piece is refused, no earlier access orders it behind itself, and no interrupt has left its access
before (04 R115, R122; 05 R141; 07 R186, R195). -/
def State.ready (s s₁ s₂ : State) (t : Nat) (r : MemReq) (ps : List Piece) : Prop :=
  let s₀ := s₁.opening t r
  let x := s₀.thr t
  (s.thr t).memOp = none ∧ s.start t = .go s₁ ∧ (∀ k ∈ (s₁.thr t).kept, k.is (s₁.thr t) r = false) ∧
    (r.misaligned = true → r.strictAlign = none) ∧ (s₀.noneMode t = true → s₀.olderChecked t = true) ∧ r.watched x = none ∧ r.ordered x = true ∧
    (∀ p ∈ ps, p.reason = none) ∧
    ∃ u, s₀.xlateMore t r r.pieces = (u, .done) ∧ (u.thr t).memOp.map (fun m => m.xl) = some ps ∧ u.tagChecks t r ps = (s₂, none)

/-- A flit reaches its agent: a message row names it as the next of its flow, and no port on its way is closed (11 R272, R283, R284). -/
def State.lands (s : State) (k : Nat) (op : Op) (f : Flit) : Prop :=
  s.arrival k op = some f ∧ s.portHolds f = false ∧ (s.portOf f).bind (fun a => (s.taken k).proxied a f) = none

/-- No instruction of a core waits in memory: waking it changes nothing. -/
def State.quiet (s : State) (c : Nat) : Prop := (s.thr (2 * c)).memOp = none ∧ (s.thr (2 * c + 1)).memOp = none

/-- A home slice serves a request for a line at once: it is the line's home, the bucket does not move, nothing is queued and memory stands behind the line (09 R229 to
R231, R247, R248). -/
def State.homeReady (s : State) (n line : Nat) : Prop :=
  s.homeOf (n / 36) line = sliceAgent n ∧ hasHome line = true ∧ s.backed (line * 64) = true ∧ bit (s.homeMap (n / 36) (bucketOf line)) 22 = false ∧
    s.held 2 (bucketOf line) = false ∧ s.txns = []

/-- Own memory answers an access of a tag: the address lies in the package's DRAM, its guard permits it, and nothing is mirrored (12 R304; 13 R330). -/
def State.memReady (s : State) (line : Nat) (tag : Tag) (rd wr : Bool) : Prop :=
  (∃ o, s.region (line * 64) = .dram o ∧ s.dramBacked o = true) ∧ s.guardOk (line * 64) tag rd wr = true ∧ s.mirrored = false

end Sys2Proof.Machine
end

