-- ==== Sys2Proof/WellFormed.lean ====
section
/-! DEFINITION. Which commands are well formed: operands that the spec's encodings and formats admit. -/

namespace Sys2Proof

/-- A rounding-mode field that is not reserved (03 R88). -/
def rmOk (rm : BitVec 3) : Bool := decide (rm.toNat < 6)
/-- A rounding-mode field of a conversion that rounds in one format only (03 R89). -/
def rmOkIf (rounds : Bool) (rm : BitVec 3) : Bool := rmOk rm && (rounds || rm == 0)
/-- An amount of a 32-bit shift (03 R72). -/
def amtWOk (amt : BitVec 6) : Bool := !bit amt 5
/-- A line read has sixteen beats or fewer listed with flipped bits (12 R288). -/
def flipsOk (f : List (BitVec 40)) : Bool := decide (f.length ≤ 16)

/-- An inbound request names bytes of one line, and an atomic an aligned word or doubleword (16 R366, R374). -/
def inboundOk (r : InboundReq) : Bool :=
  let n := r.size.val
  let off := r.iova.toNat % 64
  decide (1 ≤ n ∧ off + n ≤ 64) &&
    (match r.kind with
     | .read | .write => true
     | _ => (n == 4 || n == 8) && off % n == 0)

/-- A command is well formed. -/
def WellFormed (i : Instr) : Bool :=
  match i with
  | .slliw _ _ _ amt => amtWOk amt
  | .srliw _ _ _ amt => amtWOk amt
  | .sraiw _ _ _ amt => amtWOk amt
  | .ldAqS _ _ _ width => width != 3
  | .fadd _ _ _ _ _ rm => rmOk rm
  | .fsub _ _ _ _ _ rm => rmOk rm
  | .fmul _ _ _ _ _ rm => rmOk rm
  | .fdiv _ _ _ _ _ rm => rmOk rm
  | .fsqrt _ _ _ _ rm => rmOk rm
  | .fcvtFF _ _ _ p rm => rmOkIf (!p) rm
  | .fcvtWF _ _ _ _ rm => rmOk rm
  | .fcvtWuF _ _ _ _ rm => rmOk rm
  | .fcvtLF _ _ _ _ rm => rmOk rm
  | .fcvtLuF _ _ _ _ rm => rmOk rm
  | .fcvtFW _ _ _ p rm => rmOkIf (!p) rm
  | .fcvtFWu _ _ _ p rm => rmOkIf (!p) rm
  | .fcvtFL _ _ _ _ rm => rmOk rm
  | .fcvtFLu _ _ _ _ rm => rmOk rm
  | .fmadd _ _ _ _ _ _ rm => rmOk rm
  | .fmsub _ _ _ _ _ _ rm => rmOk rm
  | .fnmadd _ _ _ _ _ _ rm => rmOk rm
  | .fnmsub _ _ _ _ _ _ rm => rmOk rm
  | .dramReadReturn _ _ flips => flipsOk flips
  | .dramVerifyReturn _ flips => flipsOk flips
  | .pcieInboundRequest _ _ r => inboundOk r
  | _ => true

end Sys2Proof
end

