-- ==== Sys2Proof/Certificates/Slice0/Obligations.lean ====
section
/-! DEFINITION. The statements for the provers: what the commands do, what they leave, where they complete, and what every step keeps. -/

open Sys2Proof Sys2Proof.Machine

/-! Integer instructions. -/

/-- The ALU, MULDIV and ALUW instructions of two sources complete with the results of 03 R68 to R71, and change nothing but their destination (none for g0)
and the PC. -/
def Obligations.RegisterResults : Prop :=
  ∀ (s s₁ : State) (t : Thr) (rd rs1 rs2 : RegNo), s.begins s₁ t →
    let x := s₁.thr t
    let a := x.readG rs1
    let b := x.readG rs2
    let gives := fun (i : Instr) (v : Word) => completes (exec i s) s₁ t ((x.writeG rd v).past (x.pc + 4))
    gives (.add t rd rs1 rs2) (a + b) ∧ gives (.sub t rd rs1 rs2) (a - b) ∧ gives (.and t rd rs1 rs2) (a &&& b) ∧
    gives (.or t rd rs1 rs2) (a ||| b) ∧ gives (.xor t rd rs1 rs2) (a ^^^ b) ∧ gives (.andn t rd rs1 rs2) (a &&& ~~~b) ∧
    gives (.sll t rd rs1 rs2) (a <<< (b.toNat % 64)) ∧ gives (.srl t rd rs1 rs2) (a >>> (b.toNat % 64)) ∧
    gives (.sra t rd rs1 rs2) (a.sshiftRight (b.toNat % 64)) ∧ gives (.rol t rd rs1 rs2) (a.rotateLeft (b.toNat % 64)) ∧
    gives (.ror t rd rs1 rs2) (a.rotateRight (b.toNat % 64)) ∧
    gives (.slt t rd rs1 rs2) (if a.toInt < b.toInt then 1 else 0) ∧ gives (.sltu t rd rs1 rs2) (if a.toNat < b.toNat then 1 else 0) ∧
    gives (.min t rd rs1 rs2) (if a.toInt ≤ b.toInt then a else b) ∧ gives (.max t rd rs1 rs2) (if a.toInt ≤ b.toInt then b else a) ∧
    gives (.minu t rd rs1 rs2) (if a.toNat ≤ b.toNat then a else b) ∧ gives (.maxu t rd rs1 rs2) (if a.toNat ≤ b.toNat then b else a) ∧
    gives (.mul t rd rs1 rs2) (a * b) ∧ gives (.mulh t rd rs1 rs2) (BitVec.ofInt 64 (a.toInt * b.toInt / 2 ^ 64)) ∧
    gives (.mulhu t rd rs1 rs2) (BitVec.ofNat 64 (a.toNat * b.toNat / 2 ^ 64)) ∧
    gives (.mulhsu t rd rs1 rs2) (BitVec.ofInt 64 (a.toInt * b.toNat / 2 ^ 64)) ∧
    gives (.addw t rd rs1 rs2) (((a + b).setWidth 32).signExtend 64) ∧ gives (.subw t rd rs1 rs2) (((a - b).setWidth 32).signExtend 64) ∧
    gives (.sllw t rd rs1 rs2) ((a.setWidth 32 <<< (b.toNat % 32)).signExtend 64) ∧
    gives (.srlw t rd rs1 rs2) ((a.setWidth 32 >>> (b.toNat % 32)).signExtend 64) ∧
    gives (.sraw t rd rs1 rs2) (((a.setWidth 32).sshiftRight (b.toNat % 32)).signExtend 64) ∧
    gives (.mulw t rd rs1 rs2) (((a * b).setWidth 32).signExtend 64)

/-- The division forms complete with the results of 03 R69 to R71: by zero and on signed overflow the saturated values, else the quotient rounded toward
zero or the remainder with the sign of rs1; the 32-bit forms on the low halves, sign-extended. -/
def Obligations.DivisionResults : Prop :=
  ∀ (s s₁ : State) (t : Thr) (rd rs1 rs2 : RegNo), s.begins s₁ t →
    let x := s₁.thr t
    let a := x.readG rs1
    let b := x.readG rs2
    let gives := fun (i : Instr) (v : Word) => completes (exec i s) s₁ t ((x.writeG rd v).past (x.pc + 4))
    let div := fun (n : Nat) (a b : BitVec n) =>
      if b = 0 then (if a.toInt < 0 then BitVec.intMin n else BitVec.intMax n)
      else if a = BitVec.intMin n ∧ b.toInt = -1 then BitVec.intMax n else BitVec.ofInt n (a.toInt.tdiv b.toInt)
    let rem := fun (n : Nat) (a b : BitVec n) => if b = 0 then a else BitVec.ofInt n (a.toInt.tmod b.toInt)
    let divu := fun (n : Nat) (a b : BitVec n) => if b = 0 then BitVec.allOnes n else BitVec.ofNat n (a.toNat / b.toNat)
    let remu := fun (n : Nat) (a b : BitVec n) => if b = 0 then a else BitVec.ofNat n (a.toNat % b.toNat)
    let a' := a.setWidth 32
    let b' := b.setWidth 32
    gives (.div t rd rs1 rs2) (div 64 a b) ∧ gives (.rem t rd rs1 rs2) (rem 64 a b) ∧ gives (.divu t rd rs1 rs2) (divu 64 a b) ∧
    gives (.remu t rd rs1 rs2) (remu 64 a b) ∧ gives (.divw t rd rs1 rs2) ((div 32 a' b').signExtend 64) ∧
    gives (.remw t rd rs1 rs2) ((rem 32 a' b').signExtend 64) ∧ gives (.divuw t rd rs1 rs2) ((divu 32 a' b').signExtend 64) ∧
    gives (.remuw t rd rs1 rs2) ((remu 32 a' b').signExtend 64)

/-- The unary, immediate and constant forms complete with the results of 03 R63, R68, R72 and R73; the counts are places of the first one bit. -/
def Obligations.UnaryAndImmediateResults : Prop :=
  ∀ (s s₁ : State) (t : Thr) (rd rs1 : RegNo) (imm : BitVec 16) (amt : BitVec 6) (wide : BitVec 21), s.begins s₁ t →
    let x := s₁.thr t
    let a := x.readG rs1
    let gives := fun (i : Instr) (v : Word) => completes (exec i s) s₁ t ((x.writeG rd v).past (x.pc + 4))
    let si : Word := imm.signExtend 64
    let zi : Word := imm.setWidth 64
    let sw : Word := wide.signExtend 64
    gives (.clz t rd rs1) (BitVec.ofNat 64 ((List.range 64).findIdx (fun i => a.getLsbD (63 - i)))) ∧
    gives (.ctz t rd rs1) (BitVec.ofNat 64 ((List.range 64).findIdx (fun i => a.getLsbD i))) ∧
    gives (.popc t rd rs1) (BitVec.ofNat 64 ((List.range 64).countP (fun i => a.getLsbD i))) ∧
    gives (.sextB t rd rs1) ((a.setWidth 8).signExtend 64) ∧ gives (.sextH t rd rs1) ((a.setWidth 16).signExtend 64) ∧
    gives (.sextW t rd rs1) ((a.setWidth 32).signExtend 64) ∧ gives (.zextW t rd rs1) ((a.setWidth 32).setWidth 64) ∧
    (∃ v : Word, gives (.rev8 t rd rs1) v ∧ ∀ i, i < 8 → fieldOf v (8 * i + 7) (8 * i) = fieldOf a (8 * (7 - i) + 7) (8 * (7 - i))) ∧
    gives (.addi t rd rs1 imm) (a + si) ∧ gives (.andi t rd rs1 imm) (a &&& zi) ∧ gives (.ori t rd rs1 imm) (a ||| zi) ∧
    gives (.xori t rd rs1 imm) (a ^^^ zi) ∧ gives (.slti t rd rs1 imm) (if a.toInt < si.toInt then 1 else 0) ∧
    gives (.sltiu t rd rs1 imm) (if a.toNat < si.toNat then 1 else 0) ∧ gives (.addiw t rd rs1 imm) (((a + si).setWidth 32).signExtend 64) ∧
    gives (.slli t rd rs1 amt) (a <<< amt.toNat) ∧ gives (.srli t rd rs1 amt) (a >>> amt.toNat) ∧
    gives (.srai t rd rs1 amt) (a.sshiftRight amt.toNat) ∧ gives (.rori t rd rs1 amt) (a.rotateRight amt.toNat) ∧
    (amt.toNat < 32 →
      gives (.slliw t rd rs1 amt) ((a.setWidth 32 <<< amt.toNat).signExtend 64) ∧
      gives (.srliw t rd rs1 amt) ((a.setWidth 32 >>> amt.toNat).signExtend 64) ∧
      gives (.sraiw t rd rs1 amt) (((a.setWidth 32).sshiftRight amt.toNat).signExtend 64)) ∧
    gives (.lui t rd wide) (sw <<< 16) ∧ gives (.auipc t rd wide) (x.pc + (sw <<< 12))
/-! Control transfer and floating point. -/

/-- The branches go to PC + sext(OFF16) · 4 where their condition holds and else on; J and JR write the link and go to their target. In NONE mode nothing else of
the package changes but counters; else the predictors, the return stack, and in the core what a wrong path fills, with its requests (03 R63, R74, R75; 05 R140, R143). -/
def Obligations.BranchAndJumpTargets : Prop :=
  ∀ (s s₁ : State) (t : Thr) (rd rs1 rs2 : RegNo) (off : BitVec 16) (wide : BitVec 21), s.begins s₁ t →
    let x := s₁.thr t
    let a := x.readG rs1
    let b := x.readG rs2
    let goes := fun (i : Instr) (y : Thread) (pc : Word) => (s₁.noneMode t = true → completes (exec i s) s₁ t (y.past pc)) ∧
      ∃ u, exec i s = .next u ∧ s₁.guesses u t (y.past pc)
    let br := fun (c : Bool) => if c then x.pc + off.signExtend 64 * 4 else x.pc + 4
    goes (.beq t rs1 rs2 off) x (br (a == b)) ∧ goes (.bne t rs1 rs2 off) x (br (a != b)) ∧
    goes (.blt t rs1 rs2 off) x (br (decide (a.toInt < b.toInt))) ∧ goes (.bge t rs1 rs2 off) x (br (decide (b.toInt ≤ a.toInt))) ∧
    goes (.bltu t rs1 rs2 off) x (br (decide (a.toNat < b.toNat))) ∧ goes (.bgeu t rs1 rs2 off) x (br (decide (b.toNat ≤ a.toNat))) ∧
    goes (.j t rd wide) (x.writeG rd (x.pc + 4)) (x.pc + wide.signExtend 64 * 4) ∧
    ((a + off.signExtend 64).toNat % 4 = 0 → goes (.jr t rd rs1 off) (x.writeG rd (x.pc + 4)) (a + off.signExtend 64))

/-- JR to an address that is not a multiple of four transfers nothing: it takes 0x01 at itself, its destination unwritten (03 R59, R75). -/
def Obligations.MisalignedJumpFaults : Prop :=
  ∀ (s s₁ : State) (t : Thr) (rd rs1 : RegNo) (imm : BitVec 16), s.start t = .go s₁ →
    let x := s₁.thr t
    let target := x.readG rs1 + imm.signExtend 64
    target.toNat % 4 ≠ 0 → exec (.jr t rd rs1 imm) s = .next (s₁.takeExc t { Exc.plain 0x01 x.pc with faddr := target })

/-- A floating-point operation that raises no enabled flag writes its result and sets the flags it raises; the destination is the only register
written, FCSR apart (03 R88 to R94). The operations that round do so in the mode their field names. -/
def Obligations.FloatingPointResults : Prop :=
  ∀ (s s₁ : State) (t : Thr) (rd rs1 rs2 rs3 : RegNo) (p : Bool) (rm : BitVec 3) (m : Nat), s.begins s₁ t →
    roundingMode (s₁.thr t).fcsr rm = some m →
    let x := s₁.thr t
    let a := x.readF rs1
    let b := x.readF rs2
    let c := x.readF rs3
    let n := x.readG rs1
    let setsF := fun (i : Instr) (r : Fp.Res) => Fp.enabled x.fcsr r.flags = false →
      completes (exec i s) s₁ t (({ x with fcsr := Fp.raise x.fcsr r.flags }.writeF rd r.bits).past (x.pc + 4))
    let setsG := fun (i : Instr) (r : Fp.Res) => Fp.enabled x.fcsr r.flags = false →
      completes (exec i s) s₁ t (({ x with fcsr := Fp.raise x.fcsr r.flags }.writeG rd r.bits).past (x.pc + 4))
    setsF (.fadd t rd rs1 rs2 p rm) (Fp.add p m a b) ∧ setsF (.fsub t rd rs1 rs2 p rm) (Fp.sub p m a b) ∧
    setsF (.fmul t rd rs1 rs2 p rm) (Fp.mul p m a b) ∧ setsF (.fdiv t rd rs1 rs2 p rm) (Fp.div p m a b) ∧
    setsF (.fsqrt t rd rs1 p rm) (Fp.sqrt p m a) ∧ setsF (.fmin t rd rs1 rs2 p) (Fp.minMax p false a b) ∧
    setsF (.fmax t rd rs1 rs2 p) (Fp.minMax p true a b) ∧
    setsF (.fsign t rd rs1 rs2 p) ⟨Fp.withSign p a (Fp.signOf p b), 0⟩ ∧ setsF (.fsignn t rd rs1 rs2 p) ⟨Fp.withSign p a (!Fp.signOf p b), 0⟩ ∧
    setsF (.fsignx t rd rs1 rs2 p) ⟨Fp.withSign p a (Fp.signOf p a != Fp.signOf p b), 0⟩ ∧
    setsG (.feq t rd rs1 rs2 p) (Fp.compare p 0 a b) ∧ setsG (.flt t rd rs1 rs2 p) (Fp.compare p 1 a b) ∧
    setsG (.fle t rd rs1 rs2 p) (Fp.compare p 2 a b) ∧ setsG (.fkind t rd rs1 p) ⟨Fp.kind p a, 0⟩ ∧
    ((p = false ∨ rm = 0) → setsF (.fcvtFF t rd rs1 p rm) (Fp.convert p m a)) ∧
    setsG (.fcvtWF t rd rs1 p rm) (Fp.toInt p m true 32 a) ∧ setsG (.fcvtWuF t rd rs1 p rm) (Fp.toInt p m false 32 a) ∧
    setsG (.fcvtLF t rd rs1 p rm) (Fp.toInt p m true 64 a) ∧ setsG (.fcvtLuF t rd rs1 p rm) (Fp.toInt p m false 64 a) ∧
    ((p = false ∨ rm = 0) → setsF (.fcvtFW t rd rs1 p rm) (Fp.ofInt p m (n.setWidth 32).toInt) ∧
      setsF (.fcvtFWu t rd rs1 p rm) (Fp.ofInt p m (n.setWidth 32).toNat)) ∧
    setsF (.fcvtFL t rd rs1 p rm) (Fp.ofInt p m n.toInt) ∧ setsF (.fcvtFLu t rd rs1 p rm) (Fp.ofInt p m n.toNat) ∧
    setsG (.fmvGF t rd rs1 p) ⟨if p then a else (a.setWidth 32).signExtend 64, 0⟩ ∧
    setsF (.fmvFG t rd rs1 p) ⟨if p then n else (n.setWidth 32).setWidth 64, 0⟩ ∧
    setsF (.fmadd t rd rs1 rs2 rs3 p rm) (Fp.fma p m false false a b c) ∧ setsF (.fmsub t rd rs1 rs2 rs3 p rm) (Fp.fma p m false true a b c) ∧
    setsF (.fnmadd t rd rs1 rs2 rs3 p rm) (Fp.fma p m true true a b c) ∧ setsF (.fnmsub t rd rs1 rs2 rs3 p rm) (Fp.fma p m true false a b c)

/-- A floating-point operation that raises a flag whose enable is set takes 0x30 with the raised flags set and its destination unwritten; one whose
rounding field is reserved takes 0x02 (03 R88, R91). -/
def Obligations.FloatingPointTraps : Prop :=
  ∀ (s s₁ : State) (t : Thr) (rd rs1 rs2 : RegNo) (p : Bool) (rm : BitVec 3), s.start t = .go s₁ →
    let x := s₁.thr t
    let a := x.readF rs1
    let b := x.readF rs2
    let traps := fun (i : Instr) (f : Nat → Fp.Res) =>
      (∀ m, roundingMode x.fcsr rm = some m → Fp.enabled x.fcsr (f m).flags = true → ∃ e : Exc, e.cause = 0x30 ∧ e.epc = x.pc ∧ e.a = BitVec.ofNat 16 (f m).flags ∧
        exec i s = .next ((s₁.updThr t (fun x => { x with fcsr := Fp.raise x.fcsr (f m).flags })).takeExc t e)) ∧
      (6 ≤ rm.toNat → ∃ e : Exc, e.cause = 0x02 ∧ e.epc = x.pc ∧ exec i s = .next (s₁.takeExc t e))
    traps (.fadd t rd rs1 rs2 p rm) (fun m => Fp.add p m a b) ∧ traps (.fsub t rd rs1 rs2 p rm) (fun m => Fp.sub p m a b) ∧
    traps (.fmul t rd rs1 rs2 p rm) (fun m => Fp.mul p m a b) ∧ traps (.fdiv t rd rs1 rs2 p rm) (fun m => Fp.div p m a b) ∧
    traps (.fsqrt t rd rs1 p rm) (fun m => Fp.sqrt p m a)

/-- g0 reads zero, a write to it is discarded, and a write to another register is what a read of it then gives and of no other (03 R57). -/
def Obligations.RegisterFile : Prop :=
  ∀ (x : Thread) (r q : RegNo) (v : Word),
    x.readG 0 = 0 ∧ x.writeG 0 v = x ∧ (x.writeG r v).readG q = (if q = r ∧ r ≠ 0 then v else x.readG q) ∧
    (x.writeF r v).readF q = (if q = r then v else x.readF q) ∧ (x.writeG r v).readF q = x.readF q ∧ (x.writeF r v).readG q = x.readG q
/-! Accesses to memory. `ready` says that the instruction begins, its pieces are translated and nothing orders it behind an earlier access. -/

/-- A load whose pieces answer writes its register with the bytes of its width, extended as its mnemonic says, and completes; the address is base +
sext(IMM16), or rs1 for the acquire forms (03 R77, R80, R82). -/
def Obligations.LoadsComplete : Prop :=
  ∀ (s s₁ s₂ s₃ : State) (t : Thr) (rt base : RegNo) (imm : BitVec 16) (w : BitVec 2) (ps : List Piece) (vs : List (Nat × Word)),
    s₂.loadPieces t ps = (s₃, .inl vs) → (s₃.thr t).stepDue = false →
    let s₄ := s₃.trainGw t ps
    let x := s₃.thr t
    let ea := (s.thr t).readG base + imm.signExtend 64
    let v := BitVec.ofNat 64 (joinPieces vs)
    let pc := (s₂.thr t).pc + 4
    let req := fun (k : MemKind) (va : Word) (n : Nat) (aq : Bool) => (⟨k, va, n, rt, 0, 0, aq, false⟩ : MemReq)
    let g := fun (i : Instr) (sg : Bool) (n : Nat) (v : Word) => s.ready s₁ s₂ t (req (.loadG sg) ea n false) ps →
      completes (exec i s) s₄ t ((x.writeG rt v).past pc)
    let f := fun (i : Instr) (n : Nat) => s.ready s₁ s₂ t (req .loadF ea n false) ps → completes (exec i s) s₄ t ((x.writeF rt v).past pc)
    g (.ldB t rt base imm) true 1 ((v.setWidth 8).signExtend 64) ∧ g (.ldBu t rt base imm) false 1 ((v.setWidth 8).setWidth 64) ∧
    g (.ldH t rt base imm) true 2 ((v.setWidth 16).signExtend 64) ∧ g (.ldHu t rt base imm) false 2 ((v.setWidth 16).setWidth 64) ∧
    g (.ldW t rt base imm) true 4 ((v.setWidth 32).signExtend 64) ∧ g (.ldWu t rt base imm) false 4 ((v.setWidth 32).setWidth 64) ∧
    g (.ldD t rt base imm) true 8 v ∧ f (.fldS t rt base imm) 4 ∧ f (.fldD t rt base imm) 8 ∧
    (s.ready s₁ s₂ t (req (.loadG false) ((s.thr t).readG base) (2 ^ w.toNat) true) ps →
      completes (exec (.ldAq t rt base w) s) s₄ t ((x.writeG rt (extend false (2 ^ w.toNat) v)).past pc)) ∧
    (w ≠ 3 → s.ready s₁ s₂ t (req (.loadG true) ((s.thr t).readG base) (2 ^ w.toNat) true) ps →
      completes (exec (.ldAqS t rt base w) s) s₄ t ((x.writeG rt (extend true (2 ^ w.toNat) v)).past pc))

/-- A load of WB memory that the core's L2 holds readable, with the thread's tag (or at M) and no poison, and no buffered store of the thread over
it, answers with the line's bytes and leaves the copy as it is (08 R208; 14 R336). -/
def Obligations.LoadHitReadsTheLine : Prop :=
  ∀ (s : State) (t : Nat) (tag : Tag) (va : Word) (pa size : Nat) (l : L2Line),
    (s.thr t).forward pa size tag = none → (s.core (t / 2)).l2Line (pa / 64) = some l → l.readable = true → l.poison = false →
    ((s.thr t).level = .m ∨ l.world = tag) → (∀ m, (s.thr t).memOp = some m → m.fresh = false) →
    ∃ u, s.loadWb t tag va pa size = (u, .val (lineVal l.data (pa % 64) size)) ∧ (u.core (t / 2)).l2Line (pa / 64) = some l ∧
      u.mem = s.mem ∧ u.net = s.net ∧ u.threads = s.threads ∧ ∀ c, c ≠ t / 2 → u.core c = s.core c

/-- A store whose pieces pass their checks enters the thread's store buffer, a piece an entry, in address order, and writes no memory; a DEV-S store waits for its
acknowledgement instead, its write sent once every earlier device access is complete (07 R190, R194, R195). -/
def Obligations.StoresEnterTheBuffer : Prop :=
  ∀ (s s₁ s₂ : State) (t : Thr) (rt base : RegNo) (imm : BitVec 16) (w : BitVec 2) (ps : List Piece) (p : Piece),
    let x := s₂.thr t
    let ea := (s.thr t).readG base + imm.signExtend 64
    let puts := fun (i : Instr) (va : Word) (n : Nat) (v : Word) (rl : Bool) => s.ready s₁ s₂ t ⟨.store, va, n, 0, v, 0, false, rl⟩ ps →
      ((∀ q ∈ ps, effType q.rank q.pa ≠ .devS) → x.stepDue = false → x.stb.length + ps.length ≤ 32 →
        completes (exec i s) s₂ t ({ x with stb := x.stb ++ storeEntries x rl v (wbLines ps) (s₂.seenLine (t.val / 2)) ps }.past (x.pc + 4))) ∧
      (ps = [p] → effType p.rank p.pa = .devS → x.asking = false → x.lineOut p.pa = false → x.devDone = true → (rl = true → x.storesDone = true) →
        ∃ u f, exec i s = .next u ∧ u.net = s₂.net ++ [f] ∧ f.op = .wrNc ∧ f.dst = s₂.endpoint p.pa ∧ f.acc = .devStore ∧
          f.data = placeVal v (p.pa % 64) ∧ f.tid = s₂.nextTid + 1 ∧ (u.thr t).opIs f.tid = true ∧ (u.thr t).pc = x.pc ∧
          (u.thr t).stb = x.stb ∧ u.mem = s₂.mem)
    let g := (s.thr t).readG rt
    let f := (s.thr t).readF rt
    puts (.stB t rt base imm) ea 1 g false ∧ puts (.stH t rt base imm) ea 2 g false ∧ puts (.stW t rt base imm) ea 4 g false ∧
    puts (.stD t rt base imm) ea 8 g false ∧ puts (.fstS t rt base imm) ea 4 f false ∧ puts (.fstD t rt base imm) ea 8 f false ∧
    puts (.stRl t rt base w) ((s.thr t).readG base) (2 ^ w.toNat) g true

/-- The entries of a store hold its bytes: an entry at the n-th byte of the store holds bytes n on, as many as its piece has, at the piece's address
(03 R58; 07 R201). -/
def Obligations.StoreEntriesHoldTheBytes : Prop :=
  ∀ (x : Thread) (rl : Bool) (v : Word) (lines : List Nat) (seen : Nat → Bool) (ps : List Piece) (n : Nat) (p : Piece),
    ps[n]? = some p → (∀ q ∈ ps, q.size ≤ 8) →
    let first := ((ps.take n).map Piece.size).sum
    ∃ e, (storeEntries x rl v lines seen ps)[n]? = some e ∧ e.pa = p.pa ∧ e.size = p.size ∧ e.type = effType p.rank p.pa ∧ e.issued = false ∧
      e.data.toNat = v.toNat / 2 ^ (8 * first) % 2 ^ (8 * p.size)

/-- An atomic that is performed writes its destination with the old value and completes; its operands are rs2 and, for CAS, rs3 (03 R83 to R85). -/
def Obligations.AtomicsComplete : Prop :=
  ∀ (s s₁ s₂ s₃ : State) (t : Thr) (rd rs1 rs2 rs3 : RegNo) (d aq rl : Bool) (p : Piece) (ps : List Piece) (v : Word) (op : AmoOp),
    let x := s.thr t
    let req := fun (op : AmoOp) (b : Word) => (⟨.amo op, x.readG rs1, if d then 8 else 4, rd, x.readG rs2, b, aq, rl⟩ : MemReq)
    let done := fun (i : Instr) (o : AmoOp) (b : Word) => op = o → s.ready s₁ s₂ t (req o b) (p :: ps) →
      s₂.amoPiece t (req o b) o p = (s₃, .val v) → (s₃.thr t).stepDue = false →
      completes (exec i s) s₃ t (((s₃.thr t).writeG rd v).past ((s₂.thr t).pc + 4))
    done (.amoSwp t rd rs1 rs2 d aq rl) .swp 0 ∧ done (.amoAdd t rd rs1 rs2 d aq rl) .add 0 ∧ done (.amoAnd t rd rs1 rs2 d aq rl) .band 0 ∧
    done (.amoOr t rd rs1 rs2 d aq rl) .bor 0 ∧ done (.amoXor t rd rs1 rs2 d aq rl) .bxor 0 ∧ done (.amoSmin t rd rs1 rs2 d aq rl) .smin 0 ∧
    done (.amoSmax t rd rs1 rs2 d aq rl) .smax 0 ∧ done (.amoUmin t rd rs1 rs2 d aq rl) .umin 0 ∧ done (.amoUmax t rd rs1 rs2 d aq rl) .umax 0 ∧
    done (.cas t rd rs1 rs2 rs3 d aq rl) .cas (x.readG rs3)

/-- An atomic on a line that the core's L2 may write is performed there: it answers with the old value, sign-extended, and the line holds the new
one at its place and is otherwise as before; a CAS that does not match writes nothing (03 R83 to R85; 09 R251). -/
def Obligations.NearAtomics : Prop :=
  ∀ (s : State) (t : Nat) (r : MemReq) (op : AmoOp) (tag : Tag) (pa : Nat) (l : L2Line),
    (s.core (t / 2)).l2Line (pa / 64) = some l → l.writable = true → l.readable = true → l.poison = false → s.mirrored = false →
    ((s.thr t).level = .m ∨ l.world = tag) →
    let old := lineVal l.data (pa % 64) r.size
    ∃ u, s.amoNear t r op tag pa = (u, .val (extend true r.size old)) ∧ u.mem = s.mem ∧ u.threads = s.threads ∧ u.net = s.net ∧
      (∀ c, c ≠ t / 2 → u.core c = s.core c) ∧
      (match amoNew op r.size old r.opA r.opB with
       | none => (u.core (t / 2)).l2Line (pa / 64) = some l
       | some v => ∃ l', (u.core (t / 2)).l2Line (pa / 64) = some l' ∧ l'.st = .m ∧ l'.world = l.world ∧
          l'.data = mergeLine l.data (placeVal v (pa % 64)) (byteMask (pa % 64) r.size))

/-- The new values of the atomics: of the low 32 bits for a word, of 64 for a double-word; CAS writes only where the old value equals rs2 (03 R83 to
R85). -/
def Obligations.AtomicValues : Prop :=
  ∀ (old a b : Word),
    let d := fun (op : AmoOp) => amoNew op 8 old a b
    let w := fun (op : AmoOp) => (amoNew op 4 old a b).map (fun v => v.setWidth 32)
    let o := old.setWidth 32
    let x := a.setWidth 32
    d .swp = some a ∧ d .add = some (old + a) ∧ d .band = some (old &&& a) ∧ d .bor = some (old ||| a) ∧ d .bxor = some (old ^^^ a) ∧
    d .smin = some (if old.toInt ≤ a.toInt then old else a) ∧ d .smax = some (if old.toInt ≤ a.toInt then a else old) ∧
    d .umin = some (if old.toNat ≤ a.toNat then old else a) ∧ d .umax = some (if old.toNat ≤ a.toNat then a else old) ∧
    d .cas = (if old = a then some b else none) ∧
    w .swp = some x ∧ w .add = some (o + x) ∧ w .band = some (o &&& x) ∧ w .bor = some (o ||| x) ∧ w .bxor = some (o ^^^ x) ∧
    w .smin = some (if o.toInt ≤ x.toInt then o else x) ∧ w .smax = some (if o.toInt ≤ x.toInt then x else o) ∧
    w .umin = some (if o.toNat ≤ x.toNat then o else x) ∧ w .umax = some (if o.toNat ≤ x.toNat then x else o) ∧
    w .cas = (if o = x then some (b.setWidth 32) else none)

/-- PREF never raises an exception and changes no architectural state: where its translation needs no walk it completes, with every register, level,
mark and byte of memory as before (03 R81). -/
def Obligations.PrefetchesLeaveNoTrace : Prop :=
  ∀ (s s₁ : State) (t : Thr) (base : RegNo) (imm : BitVec 16), s.begins s₁ t → (s.thr t).memOp = none → (s₁.thr t).walk = none →
    let ea := (s.thr t).readG base + imm.signExtend 64
    let quiet := fun (i : Instr) (h : Nat) =>
      let r : MemReq := ⟨.pref h, ea, 1, 0, 0, 0, false, false⟩
      let s₂ := s₁.opening t r
      (∀ k ∈ (s₁.thr t).kept, k.is (s₁.thr t) r = false) → (s₂.noneMode t = true → s₂.olderChecked t = true) →
      (∀ a b c d, (s₂.translate t ea .load false).2 ≠ .need a b c d) →
      ∃ u, exec i s = .next u ∧ u.mem = s₁.mem ∧ u.ctl = s₁.ctl ∧ (∀ k, k ≠ t.val → u.thr k = s₁.thr k) ∧
        ((s₁.thr t).past ((s₁.thr t).pc + 4)).near (u.thr t)
    quiet (.prefRead t base imm) 0 ∧ quiet (.prefWrite t base imm) 1 ∧ quiet (.prefHomeL3 t base imm) 2 ∧ quiet (.prefGalley t base imm) 3
/-! System registers. -/

/-- SYSRD of a register that the thread's level reaches completes with its value; INT_ACK answers the INTID it acknowledges. An index of no register takes
0x02, and one above the thread's level 0x03 (04 R101, R118). -/
def Obligations.SysregReads : Prop :=
  ∀ (s s₁ : State) (t : Thr) (rd rs1 : RegNo) (i : BitVec 10), s.begins s₁ t →
    let x := s₁.thr t
    let n := i.toNat
    let pc := x.pc + 4
    let acks := fun (c : Instr) => completes (exec c s) s₁ t ((x.ack.1.writeG rd (BitVec.ofNat 64 x.ack.2)).past pc)
    ((sysOwner n).isSome → x.sysDenied n false = none →
      (n ≠ 0x140 → completes (exec (.sysrd t rd i) s) s₁ t ((x.writeG rd (s₁.sysGet t n)).past pc)) ∧ (n = 0x140 → acks (.sysrd t rd i))) ∧
    (1 ≤ x.level.num → acks (.intAckRead t rd)) ∧
    (sysOwner n = none →
      (∃ e : Exc, e.cause = 0x02 ∧ e.epc = x.pc ∧ exec (.sysrd t rd i) s = .next (s₁.takeExc t e)) ∧
      (∃ e : Exc, e.cause = 0x02 ∧ e.epc = x.pc ∧ exec (.syswr t rs1 i) s = .next (s₁.takeExc t e))) ∧
    (∀ l, (sysOwner n).isSome → x.sysDenied n false = some l →
      exec (.sysrd t rd i) s = .next (s₁.takeExc t (Exc.priv x.pc 0 0 n l))) ∧
    (∀ l, (sysOwner n).isSome → x.sysDenied n true = some l →
      exec (.syswr t rs1 i) s = .next (s₁.takeExc t (Exc.priv x.pc 1 1 n l)))

/-- INT_ACK names the pending, enabled INTID of the view with the lowest priority value below PMR and RPR, the lower of equals, makes it active and no
longer pending, and keeps its stamp; with none it names 1023 and changes nothing (04 R118). -/
def Obligations.AcknowledgeSelects : Prop :=
  ∀ (x : Thread), Tbl.wf IntId.reset x.ints = true →
    let v := x.secView
    let lim := min (x.view v).pmr.toNat (x.rpr v)
    let q := fun (n : Nat) => (x.int n).pending = true ∧ (x.int n).enable = true ∧ (x.int n).world = v ∧ (x.int n).prio.toNat < lim
    let n := x.ack.2
    let y := x.ack.1
    ((∃ k, q k) → q n ∧ (∀ k, q k → (x.int n).prio.toNat < (x.int k).prio.toNat ∨ ((x.int n).prio = (x.int k).prio ∧ n ≤ k)) ∧
      y.int n = { x.int n with active := true, pending := false } ∧ (∀ k, k ≠ n → y.int k = x.int k) ∧ (y.view v).ackStamp = (x.int n).stamp) ∧
    ((∀ k, ¬ q k) → n = 1023 ∧ y = x)

/-- The system registers whose write lies in the thread: every register but CORE_CTL, CACHE_CTL, GAL_STAT, TLB_STAT and INT_SEND. Such a SYSWR completes with
the register's new value; a write of a root register finds no error pending (04 R101; 07 R205). -/
def Obligations.SysregWrites : Prop :=
  ∀ (s s₁ : State) (t : Thr) (rs1 : RegNo) (i : BitVec 10), s.begins s₁ t →
    let x := s₁.thr t
    let v := x.readG rs1
    let puts := fun (c : Instr) (n : Nat) => x.sysDenied n true = none → completes (exec c s) s₁ t ((x.sysPut n v (s₁.tileStamp t)).past (x.pc + 4))
    (i.toNat ∉ [0x010, 0x012, 0x013, 0x014, 0x021, 0x022, 0x144] → (sysOwner i.toNat).isSome → puts (.syswr t rs1 i) i.toNat) ∧
    puts (.intEoiWrite t rs1) 0x141 ∧
    (x.pendErrs = [] → puts (.mmuRootWrite t rs1 false) 0x021 ∧ puts (.mmuRootWrite t rs1 true) 0x022)

/-- A register that is kept whole in its thread reads back a write through its fields: a field of the register takes the written bits where they name no
reserved value, and the reads of every other such register are as before (00 R6 to R11; 04 R101). -/
def Obligations.SysregWriteThenRead : Prop :=
  ∀ (s : State) (t : Thr) (i j : Nat) (v st : Word),
    let kept := [0x002, 0x008, 0x011, 0x020, 0x021, 0x022, 0x023, 0x130, 0x131, 0x132, 0x147, 0x150, 0x160] ++ (List.range 8).map (· + 0x100) ++
      (List.range 8).map (· + 0x110) ++ (List.range 8).map (· + 0x120) ++ (List.range 8).map (· + 0x151) ++ (List.range 6).map (· + 0x161) ++
      (List.range 8).map (· + 0x168)
    let u := s.updThr t (fun x => x.sysPut i v st)
    i ∈ kept → j ∈ kept →
      u.sysGet t i = writeFields ((s.thr t).sysFields i) (s.sysGet t i) v ∧ (j ≠ i → u.sysGet t j = s.sysGet t j)

/-- The writes that reach beyond their register. INT_SEND of a reserved MODE sets SEND_ERR; PRED_FLUSH clears the predictors; SMT_FIX changes once the sibling has
drained; UNLOCK_ALL frees every lock of the Galley; a write that clears an enable of CACHE_CTL leaves the thread waiting until the level is empty,
and then retires (04 R119; 05 R136, R146; 08 R220, R226). -/
def Obligations.SysregEffects : Prop :=
  ∀ (s s₁ : State) (t : Thr) (rs1 : RegNo),
    let x := s₁.thr t
    let v := x.readG rs1
    let c := t.val / 2
    let k := s₁.core c
    let ctl := setField (writeFields (x.sysFields 0x010) x.coreCtl v) 7 7 0
    let smt := s₁.updCore c (fun k => k.smtPut (bit v 7))
    let fix := if bit v 4 then smt.predClear t else smt
    let next := fun (i : Instr) (s₂ : State) (y : Thread) => completes (exec i s) s₂ t (y.past (x.pc + 4))
    let new := cacheCtlNew k.cacheCtl v
    (s.begins s₁ t →
      (1 ≤ x.level.num → next (.intSendWrite t rs1) (s₁.intSend t v) ((s₁.intSend t v).thr t)) ∧
      (fieldOf v 23 22 = 3 → s₁.intSend t v = s₁.updThr t (fun y => y.updView x.secView (fun w => { w with sendErr := true }))) ∧
      (1 ≤ x.level.num → bit v 4 = true → bit v 7 = k.smtFix → next (.predFlushWrite t rs1) (s₁.predClear t) { x with coreCtl := ctl, retStack := [] } ∧
        (∀ e ∈ ((s₁.predClear t).core c).preds.dirs, e.odd ≠ (t.val % 2 == 1)) ∧ (∀ e ∈ ((s₁.predClear t).core c).preds.btb, e.odd ≠ (t.val % 2 == 1)) ∧
        (∀ e ∈ ((s₁.predClear t).core c).preds.inds, e.odd ≠ (t.val % 2 == 1))) ∧
      (1 ≤ x.level.num → bit v 7 ≠ k.smtFix → s₁.drained t = true → next (.smtFixWrite t rs1) fix { fix.thr t with coreCtl := ctl } ∧
        (fix.core c).smtFix = bit v 7) ∧
      (1 ≤ x.level.num → bit v 4 = true → next (.unlockAllWrite t rs1) (s₁.updCore c (fun k => k.galStatPut v)) x ∧
        ((s₁.updCore c (fun k => k.galStatPut v)).core c).locked = 0) ∧
      (x.level = .m → [0, 1, 2, 3].any (clears k.cacheCtl new) = true → k.emptying = none → ∃ u, exec (.cacheDisableWrite t rs1) s = .next u ∧
        (u.thr t).hold = .emptying ∧ (u.thr t).pc = x.pc ∧ (u.core c).emptying = some (thrOf t.val, new) ∧ (u.core c).cacheCtl = k.cacheCtl)) ∧
    (∀ w, (s.core c).emptying = some (t, w) →
      let s₂ := s.emptyMore c w
      (s₂.core c).emptied w = true → (s.thr t).hold = .emptying → s.awake t = true → (s.thr t).stepDue = false →
      completes (exec (.cacheEmptyDone t) s) (s₂.updCore c (fun k => { k with cacheCtl := w, emptying := none })) t
        ({ s.thr t with hold := .none }.past ((s.thr t).pc + 4)))

/-! Exceptions, interrupts, waits and fences. -/

/-- Entry to the target level, for a thread outside an enclave: the saved registers, STATUS, level, world and PC as R107 gives them; general and floating-point
registers, the other levels' registers, the other threads and the rest of the package are as before (04 R106, R107, R112). -/
def Obligations.ExceptionEntry : Prop :=
  ∀ (s : State) (t : Nat) (e : Exc), (s.thr t).encl = none → (e.cause ≠ 0x38 ∨ s.sessionReaches t = false) →
    let x := s.thr t
    let u := s.takeExc t e
    let y := u.thr t
    let l := x.target e
    let old := x.exc l
    let r := y.exc l
    u = { s with threads := u.threads } ∧ (∀ k, k ≠ t → u.thr k = s.thr k) ∧
    y.level = l ∧ y.world = (if l = .m then 0xFFF else x.world) ∧ y.g = x.g ∧ y.f = x.f ∧ y.fcsr = x.fcsr ∧ (∀ k, k ≠ l → y.exc k = x.exc k) ∧
    r.epc = e.epc ∧ r.cause = BitVec.ofNat 64 e.cause ∧ r.faddr = e.faddr ∧ r.fpa = e.fpa ∧ r.vbase = old.vbase ∧ r.scratch = old.scratch ∧
    r.synd = BitVec.ofNat 64 ((if e.cause = 0x29 then 2 ^ 63 else 0) + x.level.num * 2 ^ 60 + x.world.toNat * 2 ^ 48 + e.a.toNat * 2 ^ 32 + e.b.toNat) ∧
    fieldOf r.status 11 10 = x.level.num ∧ fieldOf r.status 8 8 = fieldOf old.status 0 0 ∧ fieldOf r.status 0 0 = 0 ∧
    fieldOf r.status 9 9 = (if l = .m then b2n x.secure else fieldOf old.status 9 9) ∧
    y.pc = BitVec.ofNat 64 (fieldOf old.vbase 63 12 * 4096 + (if e.cause = 0x28 ∨ e.cause = 0x29 then 0x800
      else (if 0x40 ≤ e.cause then 0x400 else 0) + (if l = x.level then 0 else 0x200)))

/-- The level a cause goes to (04 R103, R128): to M from M, for 0x19 and 0x29, and where EXC_DELEG_M does not delegate it, or DBG_CTL.OWN_M claims 0x38; else to
H from H; else to H where the Normal world has one and the fault is of stage 2 or EXC_DELEG_H does not delegate it; else to S. A named higher level raises it. -/
def Obligations.TargetLevels : Prop :=
  ∀ (x : Thread) (e : Exc), e.route = none → e.raiseTo = .u →
    let c := e.cause
    let h := !x.secure && x.hyp
    x.target e =
      if x.level = .m ∨ c = 0x19 ∨ c = 0x29 ∨ (c = 0x38 ∧ bit x.dbgCtl 63 = true) ∨ bit x.delegM c = false then .m
      else if x.level = .h then (if h then .h else .m)
      else if h = true ∧ (e.stage2 = true ∨ bit x.delegH c = false) then .h
      else .s

/-- TRAP takes 0x04 past itself with its code, raised to the level its bits [9:8] name. RETX goes to EPC at the level PL names, in the world PW names from M, with IE
as PIE was; a return to a context that cannot exist takes 0x02 and one at U 0x03 (04 R103, R109). -/
def Obligations.TrapsAndReturns : Prop :=
  ∀ (s s₁ : State) (t : Thr) (code : BitVec 10),
    let x := s₁.thr t
    let e := x.exc x.level
    let pl := Level.ofNum (fieldOf e.status 11 10)
    let w : Tag := if x.level = .m ∧ pl ≠ .m then (if bit e.status 9 then 0xFFF else 0) else x.world
    (s.start t = .go s₁ → exec (.trap t code) s = .next (s₁.takeExc t { Exc.plain 0x04 (x.pc + 4) with
      b := code.setWidth 32, raiseTo := if fieldOf code 9 8 = 0 then .u else Level.ofNum (fieldOf code 9 8) })) ∧
    (s.begins s₁ t → x.level ≠ .u → x.badReturn = false → x.pendErrs = [] → e.epc.toNat % 4 = 0 → ∃ u, exec (.retx t) s = .next u ∧
      s₁.leaves u t { (x.setExc x.level { e with status := setField e.status 0 0 (fieldOf e.status 8 8) }) with
        level := pl, world := w, pc := e.epc, suppress := true, vecFetch := none, memOp := none, walk := none }) ∧
    (s.start t = .go s₁ → x.level ≠ .u → x.badReturn = true → ∃ q : Exc, q.cause = 0x02 ∧ q.epc = x.pc ∧ q.a = 1 ∧ exec (.retx t) s = .next (s₁.takeExc t q)) ∧
    (s.start t = .go s₁ → x.level = .u → ∃ q : Exc, q.cause = 0x03 ∧ q.epc = x.pc ∧ exec (.retx t) s = .next (s₁.takeExc t q))

/-- WAITE clears a set flag and completes, waits where no wake condition holds, and completes when one comes; SEVT sends to every die; TIME writes the stamp where its
level may read it and takes 0x03 elsewhere (02 R49; 04 R105, R127). -/
def Obligations.WaitsEventsAndTime : Prop :=
  ∀ (s s₁ : State) (t : Thr) (rd : RegNo),
    let x := s₁.thr t
    let y := s.thr t
    let n := s.tileOf (t.val / 2)
    (s.begins s₁ t →
      (x.waiteTraps = none → x.eventFlag = true → completes (exec (.waite t) s) s₁ t ({ x with eventFlag := false }.past (x.pc + 4))) ∧
      (x.waiteTraps = none → x.wakeReady (s₁.stamp (dieOfThr t)) = false → exec (.waite t) s = .next (s₁.updThr t (fun x => { x with run := .waiting }))) ∧
      (x.timeOk = true → completes (exec (.time t rd) s) s₁ t ((x.writeG rd (s₁.stamp (dieOfThr t))).past (x.pc + 4))) ∧
      (x.timeOk = false → ∃ e : Exc, e.cause = 0x03 ∧ e.epc = x.pc ∧ e.a = 3 ∧ exec (.time t rd) s = .next (s₁.takeExc t e)) ∧
      (∃ u, exec (.sevt t) s = .next u ∧ (x.past (x.pc + 4)).near (u.thr t) ∧ (∀ k, k ≠ t.val → u.thr k = s₁.thr k) ∧ u.mem = s₁.mem ∧ u.ctl = s₁.ctl ∧
        ∀ d, d < 16 → s₁.dieAlive d = true → ∃ f ∈ u.net, f.op = .sevtB ∧ f.dst = .die d)) ∧
    (y.run = .waiting → y.wakeReady (s.stamp (dieOfThr t)) = true → s.thrPresent t = true → s.halted = false → (s.tile n).st = .t0 → (s.tile n).waking = false →
      s.quiesced t = false → y.hold = .none → y.stepDue = false →
      ∃ u, exec (.waiteWake t) s = .next u ∧ s.leaves u t ({ y with eventFlag := false, run := .running, hold := .none }.past (y.pc + 4)))

/-- The fences complete once the accesses they order are done and no error is pending; before that a FENCE.O and an IFENCE change nothing, and a FENCE.C waits
for its completion (07 R188 to R192, R205; 08 R212). -/
def Obligations.Fences : Prop :=
  ∀ (s s₁ : State) (t : Thr) (mask : BitVec 5),
    let x := s₁.thr t
    let y := s.thr t
    (s.begins s₁ t →
      (x.fenceOReady mask = true → (bit mask 4 = true → x.pendErrs = []) → completes (exec (.fenceO t mask) s) s₁ t (x.past (x.pc + 4))) ∧
      (x.fenceOReady mask = false → exec (.fenceO t mask) s = .next s₁) ∧
      (x.stb = [] → x.outst = [] → s₁.mirrorClear t.val = true → x.pendErrs = [] → completes (exec (.fenceC t) s) s₁ t ({ x with hold := .none }.past (x.pc + 4))) ∧
      ((x.stb ≠ [] ∨ x.outst ≠ []) → ∃ u, exec (.fenceC t) s = .next u ∧ (u.thr t).hold = .fenceC ∧ (u.thr t).pc = x.pc) ∧
      (x.storesDone = true → completes (exec (.ifence t) s) s₁ t ({ x with fetchBuf := none }.past (x.pc + 4))) ∧
      (x.storesDone = false → exec (.ifence t) s = .next s₁)) ∧
    (s.awake t = true → y.hold = .fenceC → y.stb = [] → y.outst = [] → s.mirrorClear t.val = true → y.pendErrs = [] → y.stepDue = false →
      ∃ u, exec (.fenceCComplete t) s = .next u ∧ s.leaves u t ({ y with hold := .none }.past (y.pc + 4)))

/-- At a boundary a thread takes its qualifying interrupt to the level of its routing, and a machine check aimed at it before any instruction; the timer of a view makes
INTID 16 pending at its deadline; a write of a world bit from the Secure side changes it (04 R113, R114, R117, R120, R460). -/
def Obligations.EventsTaken : Prop :=
  ∀ (s : State) (t : Thr) (sec : Bool) (i : Fin 1024) (n : Nat) (l : Level) (m : ContainMsg) (r : List ContainMsg),
    let x := s.thr t
    (s.atBoundary t = true → x.mustCheck = false → x.nextInt false = some (n, l) →
      exec (.interruptTake t) s = .next ((s.updThr t Thread.leaveOp).takeExc t { Exc.plain (intCause n) x.pc with b := BitVec.ofNat 32 n, route := some l })) ∧
    (s.atBoundary t = true → x.mustCheck = true → s.pair.scanning = false → x.contains = m :: r →
      exec (.machineCheckTake t) s = .next ((s.updThr t (fun x => { x.leaveOp with contains := r })).takeExc t
        { Exc.plain 0x29 x.pc with a := m.scope.setWidth 16, b := m.locator.setWidth 32 })) ∧
    ((x.int 16).world = sec → (x.view sec).timerEn = true → (x.view sec).timer.toNat ≤ (s.tileStamp t).toNat → (x.int 16).active = false →
      ∃ u, exec (.timerDeadline t sec) s = .next u ∧ ((u.thr t).int 16).pending = true ∧ ((u.thr t).int 16).asserted = true ∧ (∀ k, k ≠ t.val → u.thr k = s.thr k)) ∧
    (s.thrPresent t = true → i.val ≠ 16 →
      ∃ u, exec (.intWorldBitWrite true t i sec) s = .next u ∧ (u.thr t).int i.val = { x.int i.val with world := sec } ∧ (∀ k, k ≠ i.val → (u.thr t).int k = x.int k))
/-! Maintenance. -/

/-- A CMO by address completes with what its operation does: to the PoC a message to the home of a line of WB memory, whose answer the thread owes, to
the PoU the line leaves the L1 caches unless it only cleans; the Galley locks and TLB pins are set and freed (06 R171; 08 R219 to R222). -/
def Obligations.MaintenanceByAddress : Prop :=
  ∀ (s s₁ s₂ s₃ : State) (t : Thr) (rs1 : RegNo) (p : Piece) (e : GalEntry),
    let c := t.val / 2
    let va := (s.thr t).readG rs1
    let req := fun (k : MemKind) => (⟨k, va, 1, 0, 0, 0, false, false⟩ : MemReq)
    let line := p.pa / 64
    let x := s₂.thr t
    let k := s₂.core c
    let tag := x.tagAt p.va
    let pc := x.pc + 4
    let does := fun (i : Instr) (op : Fin 3) (pou : Bool) => s.ready s₁ s₂ t (req (.cmo op pou)) [p] →
      s₂.cmoVa t op pou p.pa tag = some s₃ → (s₃.thr t).stepDue = false → completes (exec i s) s₃ t ((s₃.thr t).past pc)
    does (.cmoCleanPoc t rs1) 0 false ∧ does (.cmoInvalPoc t rs1) 1 false ∧ does (.cmoCleanInvalPoc t rs1) 2 false ∧
    does (.cmoCleanPou t rs1) 0 true ∧ does (.cmoInvalPou t rs1) 1 true ∧ does (.cmoCleanInvalPou t rs1) 2 true ∧
    (p.pa < 2 ^ 56 → x.stb = [] →
      s₂.cmoVa t 0 true p.pa tag = some s₂ ∧
      (∀ op : Fin 3, op ≠ 0 → ∃ u, s₂.cmoVa t op true p.pa tag = some u ∧ l1Has (u.core c).l1d line = false ∧ l1Has (u.core c).l1i line = false ∧
        (u.core c).l2 = k.l2 ∧ u.mem = s₂.mem ∧ u.threads = s₂.threads) ∧
      (∀ op : Fin 3, hasHome line = true → s₂.backed p.pa = true → x.lineOut p.pa = false → s₂.lineAsked c line = false → ∃ u f, s₂.cmoVa t op false p.pa tag = some u ∧ u.net = s₂.net ++ [f] ∧ f.op = .cmoP ∧ f.line = line ∧
        f.hint = op.val ∧ f.dst = s₂.homeOf (dieOfCore c) line ∧ (f.discard = true → op = 1) ∧ (∃ o ∈ (u.thr t).outst, o.tid = f.tid ∧ o.kind = .cmo) ∧ u.mem = s₂.mem)) ∧
    (s.ready s₁ s₂ t (req .galLock) [p] → effType p.rank p.pa = .gw → k.galOff = false → k.galEntry line = some e → k.hellEntry line = none →
      e.lock = false → k.locked < 32 → e.full = true → e.poison = false → x.stepDue = false →
      completes (exec (.galLock t rs1) s) (s₂.updCore c (fun k => k.setGal { e with lock := true })) t (x.past pc)) ∧
    (s.ready s₁ s₂ t (req .galUnlock) [p] → k.galEntry line = some e → x.stepDue = false →
      completes (exec (.galUnlock t rs1) s) (s₂.updCore c (fun k => k.setGal { e with lock := false })) t (x.past pc)) ∧
    (∀ q, s.ready s₁ s₂ t (req .tlbLock) [p] → (s₁.thr t).level ≠ .u → (s₁.thr t).tctx.s1 = true → p.entry = some q → k.pinned = [] → x.stepDue = false →
      completes (exec (.tlbLock t rs1) s) (s₂.updCore c (fun k => { k with pinned := [q] })) t (x.past pc))

/-- CMO by set and way completes: at an L1 the named entry leaves, or stays for CLEAN; at the L2, the L3, the Galley and the Hellbox with what its level does to the
named entry. Numbers that name no entry do nothing; at U, or for the L3 below M, it takes 0x03 (08 R224). TLBI completes once the thread's stores are
performed: the entries it names are in no TLB of the core, and the pinned ones it names are unpinned; below its level it takes 0x03 (06 R175). TLB.UNLOCK completes
without the pinned entry of the page, and takes 0x03 at U (06 R171). -/
def Obligations.MaintenanceOfCaches : Prop :=
  ∀ (s s₁ : State) (t : Thr) (rs1 rx : RegNo), s.begins s₁ t →
    let x := s₁.thr t
    let c := t.val / 2
    let k := s₁.core c
    let w := x.readG rs1
    let level := fieldOf w 63 60
    let way := fieldOf w 21 16
    let set := fieldOf w 10 0
    let pc := x.pc + 4
    let ends := fun (i : Instr) (u : State) => completes (exec i s) u t ((u.thr t).past pc)
    let goes := fun (i : Instr) (u : Option State) => (u = none → exec i s = .next s₁) ∧ ∀ v, u = some v → ends i v
    let does := fun (i : Instr) (op : Fin 3) =>
      (x.level ≠ .u → level ≠ 3 ∨ x.level = .m →
        (level = 0 → ends i (if op ≠ 0 ∧ set < 128 ∧ way < 8 then s₁.updCore c (fun k => { k with l1d := l1Drop 128 set way k.l1d }) else s₁)) ∧
        (level = 1 → ends i (if op ≠ 0 ∧ set < 256 ∧ way < 4 then s₁.updCore c (fun k => { k with l1i := l1Drop 256 set way k.l1i }) else s₁)) ∧
        (level = 2 → set < 1024 → way < 16 → goes i (s₁.setwayL2 t op set way)) ∧
        (level = 2 → (k.l2Set set).find? (fun p => p.2.way == way) = none → ends i s₁) ∧
        (level = 3 → way < 16 → goes i (s₁.setwayL3 t op set way)) ∧
        (level = 4 → set = 0 → goes i (s₁.setwayGal t op false way)) ∧ (level = 4 → (∀ e ∈ k.galley, e.way ≠ way) → ends i s₁) ∧
        (level = 5 → set = 0 → goes i (s₁.setwayGal t op true way)) ∧ (level = 5 → (∀ e ∈ k.hellbox, e.way ≠ way) → ends i s₁) ∧
        (5 < level → ends i s₁)) ∧
      (x.level = .u ∨ (level = 3 ∧ x.level ≠ .m) → ∃ e : Exc, e.cause = 0x03 ∧ e.epc = x.pc ∧ exec i s = .next (s₁.takeExc t e))
    let flush := fun (i : Instr) (form : TlbiForm) (va r : Word) (domain pinned : Bool) =>
      let q := x.tlbiReq form va r pinned
      let u := if domain then (s₁.tlbiCore c q).tlbiCast t q else s₁.tlbiCore c q
      let low := if form = .vmid then 2 else 1
      (low ≤ x.level.num → x.storesDone = true → ends i u ∧
        (∀ e, q.hits e = true → e ∉ (u.core c).itlb ∧ e ∉ (u.core c).dtlb ∧ e ∉ (u.core c).l2tlb) ∧ ∀ e, q.hitsPinned e = true → e ∉ (u.core c).pinned) ∧
      (low ≤ x.level.num → x.storesDone = false → exec i s = .next s₁) ∧
      (x.level.num < low → ∃ e : Exc, e.cause = 0x03 ∧ e.epc = x.pc ∧ exec i s = .next (s₁.takeExc t e))
    does (.cmoCleanSetway t rs1) 0 ∧ does (.cmoInvalSetway t rs1) 1 ∧ does (.cmoCleanInvalSetway t rs1) 2 ∧
    (∀ d, flush (.tlbiVa t rs1 rx d) .va (x.readG rs1) (x.readG rx) d false ∧ flush (.tlbiAsid t rx d) .asid 0 (x.readG rx) d false ∧
      flush (.tlbiVmid t rx d) .vmid 0 (x.readG rx) d false ∧ ∀ l, flush (.tlbiAll t d l) .all 0 0 d l) ∧
    (x.level = .u → ∃ e : Exc, e.cause = 0x03 ∧ e.epc = x.pc ∧ exec (.tlbUnlock t rs1) s = .next (s₁.takeExc t e)) ∧
    (x.level ≠ .u → completes (exec (.tlbUnlock t rs1) s)
      (s₁.updCore c (fun k => { k with pinned := k.pinned.filter (fun e => !e.hits x.tctx (x.readG rs1) (x.lookupTag (x.readG rs1))) })) t (x.past pc))

/-! Enclaves. -/

/-- The building functions complete at M with status 0 and their effect: INIT empties the page map and opens the descriptor, ADD of a save page zeroes it and maps it, SEAL
closes the measurement, and DESTROY, its pages gone and acknowledged, frees the descriptor. Below M they take 0x03; in the wrong state they answer 1
(14 R346, R347). -/
def Obligations.EnclaveBuilding : Prop :=
  ∀ (s s₁ : State) (t : Thr) (rd rs1 : RegNo), s.begins s₁ t →
    let x := s₁.thr t
    let ecd := (x.readG rs1).toNat
    let n := s₁.ecdPages ecd
    let epm := (s₁.ecdWord ecd 0x18).toNat
    let done := fun (i : Instr) (u : State) (v : Word) => completes (exec i s) u t ((x.writeG rd v).past (x.pc + 4))
    (x.level = .m → s₁.ecdCheck t ecd = none →
      (s₁.ecdState ecd = 0 → s₁.ecdFields ecd = true → s₁.placedSecure epm (8 * n) = true →
        let m := Crypto.sha384 (initLabel ++ leField (s₁.ecdWord ecd 0x10).toNat ++ leField (s₁.ecdWord ecd 0x20).toNat ++
          leField (fieldOf (s₁.ecdWord ecd 0x28) 63 56) ++ leField (fieldOf (s₁.ecdWord ecd 0x28) 31 0) ++ leField (fieldOf (s₁.ecdWord ecd 0) 61 59))
        let u := s₁.putCohWords epm (List.replicate n 0)
        done (.enclInit t rd rs1) (((((u.setMeasure ecd m).putCohWord (ecd + 0x60) 0).putCohWord (ecd + 0x68) 0)).setEcdState ecd 1) 0) ∧
      (s₁.ecdState ecd = 1 → done (.enclSeal t rd rs1) ((s₁.setMeasure ecd (Crypto.sha384 (s₁.measure ecd ++ sealLabel))).setEcdState ecd 2) 0) ∧
      (s₁.ecdState ecd = 3 → s₁.ecdWord ecd 0x60 = 0 → n ≤ (s₁.ecdWord ecd 0x68).toNat → x.outst = [] → s₁.cohPoison epm (8 * n) = false →
        done (.enclDestroy t rd rs1) ((s₁.putCohWords epm (List.replicate n 0)).setEcdState ecd 0) 0) ∧
      (s₁.ecdState ecd ≠ 0 → done (.enclInit t rd rs1) s₁ 1) ∧ (s₁.ecdState ecd ≠ 1 → done (.enclSeal t rd rs1) s₁ 1) ∧
      (s₁.ecdState ecd ≠ 2 ∧ s₁.ecdState ecd ≠ 3 → done (.enclDestroy t rd rs1) s₁ 1)) ∧
    (x.level = .m → let blk := ecd
      blk % 8 = 0 → blk + 32 ≤ 2 ^ 57 → s₁.physOk blk 32 = true → s₁.cohPoison blk 32 = false →
      let d := (s₁.cohWord blk).toNat
      let w := s₁.cohWord (blk + 16)
      let dst := (s₁.cohWord (blk + 24)).toNat
      let idx := fieldOf w 63 32
      s₁.ecdCheck t d = none → s₁.ecdState d = 1 → (s₁.cohWord (blk + 8)).toNat = 0 → dst % 4096 = 0 → dst < 2 ^ 57 → fieldOf w 31 4 = 0 → bit w 3 = true →
      s₁.placedEncl dst 4096 (s₁.ecdId d) = true → idx < s₁.ecdPages d → s₁.cohPoison (s₁.epmAt d idx) 8 = false → bit (s₁.cohWord (s₁.epmAt d idx)) 63 = false →
      let z := s₁.putCohWords dst (List.replicate 512 0)
      let m := Crypto.sha384 (z.measure d ++ leField idx ++ leField (fieldOf w 3 0) ++ List.replicate 48 0)
      done (.enclAdd t rd rs1) ((z.putCohWord (z.epmAt d idx) (BitVec.ofNat 64 (2 ^ 63 + 2 ^ 62 + fieldOf w 2 2 * 2 ^ 61 + fieldOf w 1 1 * 2 ^ 60 +
          fieldOf w 0 0 * 2 ^ 59 + dst))).setMeasure d m) 0) ∧
    (x.level ≠ .m → ∀ i ∈ [Instr.enclInit t rd rs1, .enclAdd t rd rs1, .enclSeal t rd rs1, .enclDestroy t rd rs1],
      ∃ e : Exc, e.cause = 0x03 ∧ e.epc = x.pc ∧ exec i s = .next (s₁.takeExc t e))

/-- ENTER of a sealed enclave through a free slot that holds no save starts it at its entry point in its world; EXIT clears BUSY and goes to the address in its register in
the Normal world; REPORT waits for the key engine, whose answer fills the block and completes it with status 0. Outside an enclave EXIT and REPORT take
0x19 with reason 6 (14 R346, R348 to R350). -/
def Obligations.EnclaveEntry : Prop :=
  ∀ (s s₁ : State) (t : Thr) (rd rs1 : RegNo),
    let x := s₁.thr t
    let va := x.readG rs1
    (s.begins s₁ t → x.level = .u → x.secure = false →
      (∀ pa b, x.encl = none → (s₁.readBlock t va).2 = .ok pa b →
        let s₂ := (s₁.readBlock t va).1
        let ecd := (blockWord b 0).toNat
        let slot := fieldOf (blockWord b 1) 5 0
        let at_ := s₂.epmAt ecd (fieldOf (s₂.ecdWord ecd 0x28) 31 0 + slot)
        let entry := s₂.cohWord at_
        let pc := s₂.ecdWord ecd 0x08 + s₂.ecdWord ecd 0x20
        (blockWord b 1).toNat = slot → blockWord b 2 = 0 → blockWord b 3 = 0 → s₂.ecdCheck t ecd = none → s₂.ecdState ecd = 2 →
        slot < fieldOf (s₂.ecdWord ecd 0x28) 63 56 → bit entry 63 = true → bit entry 62 = true → bit (s₂.ecdWord ecd 0x60) slot = false →
        s₂.cohPoison at_ 8 = false → s₂.cohPoison (fieldOf entry 56 12 * 4096) 0x240 = false →
        bit (s₂.cohWord (fieldOf entry 56 12 * 4096 + 0x210)) 63 = false → bit (s₂.ecdWord ecd 0) 60 = false → pc.toNat % 4 = 0 →
        ∃ u c, exec (.enclEnter t rd rs1) s = .next u ∧ (u.thr t).world = s₂.ecdId ecd ∧ (u.thr t).pc = pc ∧ (u.thr t).encl = some c ∧ c.ecd = ecd ∧ c.slot = slot ∧
          (u.thr t).level = .u ∧ (u.thr t).readG rd = 0) ∧
      (∀ e, x.encl = some e → rd = 0 → e.holds va = false → va.toNat % 4 = 0 →
        let u := s₁.putCohWord (e.ecd + 0x60) (setField (s₁.ecdWord e.ecd 0x60) e.slot e.slot 0)
        completes (exec (.enclExit t rd rs1) s) (u.predClear t) t ({ (u.predClear t).thr t with world := 0, encl := none }.past va)) ∧
      (∀ e pa rank q, x.encl = some e → va.toNat % 64 = 0 → va.toNat % 4096 ≤ 3840 → e.holds va = true → e.holds (va + 255) = true →
        let s₂ := (s₁.xlate t va .store false).1
        let s₃ := (s₂.blockCheck t e.id va pa .store).1
        (s₁.xlate t va .store false).2 = .ok pa rank q → (s₂.blockCheck t e.id va pa .store).2 = none → s₃.cohPoison pa 256 = false →
        s₃.reportsPending < 16 →
        ∃ u, exec (.enclReport t rd rs1) s = .next u ∧ u = s₃.updThr t (fun y => { y with hold := .report, report := some (pa, rd) }) ∧
          (u.thr t).pc = x.pc) ∧
      (∀ e, x.encl = some e → va.toNat % 64 ≠ 0 ∨ e.holds va = false → completes (exec (.enclReport t rd rs1) s) s₁ t ((x.writeG rd 2).past (x.pc + 4))) ∧
      (x.encl = none → (rd = 0 → exec (.enclExit t rd rs1) s = .next (s₁.takeExc t (Exc.enclave x.pc 0 6))) ∧
        exec (.enclReport t rd rs1) s = .next (s₁.takeExc t (Exc.enclave x.pc 0 6)))) ∧
    (∀ e pa, (s.thr t).encl = some e → (s.thr t).report = some (pa, rd) → s.awake t = true → (s.thr t).hold = .report → (s.thr t).stepDue = false →
      ∃ u, exec (.reportComplete t) s = .next u ∧ (u.thr t).readG rd = 0 ∧ (u.thr t).hold = .none ∧ (u.thr t).report = none ∧
        (u.thr t).pc = (s.thr t).pc + 4 ∧ (u.thr t).world = (s.thr t).world)

/-! Interrupt messages. -/

/-- A message reaches the unit of its target: with the INTID's world it makes it pending, and with another it makes nothing pending and answers its sender; SEVT_B sets the
event flags of its die (04 R119, R123, R127). -/
def Obligations.InterruptDelivery : Prop :=
  ∀ (s : State) (k : Nat) (f : Flit) (m : IntMsg) (c : CoreId) (d : Nat),
    let t := m.target.val
    let n := m.intid.val
    let q := s.tileOf (t / 2)
    (s.lands k .intDlv f → f.msg = some m → f.dst = .core c → s.dieAlive (c.val / 32) = true → s.thrPresent t = true → (s.tile q).st ≠ .t3 →
      s.portSt (tilePort q) = 0 → s.quiesced t = false → m.quiet = false → m.refusal = false → m.level = false → intidValid n = true →
      (((s.thr t).int n).world = m.secure → ∃ u, exec (.intDlv k) s = .next u ∧ ((u.thr t).int n).pending = true ∧ (∀ i, i ≠ n → (u.thr t).int i = (s.thr t).int i) ∧
        (∀ j, j ≠ t → u.thr j = s.thr j) ∧ u.net = (s.taken k).net) ∧
      (∀ z, ((s.thr t).int n).world ≠ m.secure → m.sender = some z → ∃ u g, exec (.intDlv k) s = .next u ∧ u.threads = s.threads ∧ u.net = (s.taken k).net ++ [g] ∧
        g.op = .intDlv ∧ g.dst = (if m.away then .link 6 else .core (coreId (z.val / 2))) ∧ ∃ w, g.msg = some w ∧ w.refusal = true ∧ w.target = z)) ∧
    (s.lands k .sevtB f → f.dst = .die d → (∀ j ∈ s.dieCores d, (s.tile (s.tileOf j)).st ≠ .t3 ∧ s.portSt (tilePort (s.tileOf j)) = 0 ∧ s.quiesced (2 * j) = false) →
      ∃ u, exec (.sevtB k) s = .next u ∧ ∀ j ∈ s.dieCores d, (u.thr (2 * j)).eventFlag = true ∧ (u.thr (2 * j + 1)).eventFlag = true)

/-- The router keeps an assertion of an enabled source until it is sent, once, as its entry then says; a pin's level is seen when two samples find it, and a level source
that is no longer asserted is withdrawn from each unit it was sent to that no other level source asserts it at (04 R124 to R126). -/
def Obligations.RouterSources : Prop :=
  ∀ (s : State) (src : Fin 4096) (pin : Fin 32) (b : Bool),
    let n := src.val
    let w := s.source n
    let g := s.gpio pin.val
    (sourceExists n = true → bit w 63 = true → ∃ u, exec (.routerSourceAssert src) s = .next u ∧ n ∈ u.srcPend ∧ (∀ i, i ≠ n → (i ∈ u.srcPend ↔ i ∈ s.srcPend)) ∧ u.net = s.net) ∧
    (bit w 63 = false → exec (.routerSourceAssert src) s = .next s) ∧
    (n ∈ s.srcPend → fieldOf w 52 52 = s.pkgBit → s.thrPresent (thrOf (fieldOf w 51 42)).val = true →
      ∃ u f m, exec (.routerSend src) s = .next u ∧ n ∉ u.srcPend ∧ u.net = s.net ++ [f] ∧ f.op = .intDlv ∧ f.msg = some m ∧ m.target = thrOf (fieldOf w 51 42) ∧
        m.intid.val = fieldOf w 9 0 ∧ m.secure = s.sourceSecure n ∧ u.threads = s.threads) ∧
    (b ≠ g.sample → ∃ u, exec (.gpioEdge pin b) s = .next u ∧ u.gpio pin.val = { g with sample := b } ∧ u.srcPend = s.srcPend) ∧
    (b = g.sample → b ≠ g.level → ∃ u, exec (.gpioEdge pin b) s = .next u ∧ (u.gpio pin.val).level = b ∧
      (bit (s.source pin.val) 63 = true → s.trig pin.val = (if b then 0 else 1) → pin.val ∈ u.srcPend) ∧
      (s.trig pin.val = (if b then 1 else 0) → u.srcPend = s.srcPend)) ∧
    (2 ≤ s.trig pin.val → levelHit (s.trig pin.val) g.level = false →
      ∃ u, exec (.gpioLevelDeassert pin) s = .next u ∧ pin.val ∉ u.srcPend ∧
        ∀ q : Nat × Nat, (pin.val, q) ∈ s.srcSent → (∀ i, i ≠ pin.val → (i, q) ∉ s.srcSent) → ((u.thr q.1).int q.2).asserted = false)

/-! Stores, answers and walks. -/

/-- A store-buffer entry drains: one of WB memory whose line the L2 may write merges its bytes there, one of NC memory goes to its end point with its bytes and is owed
its answer; neither changes another thread or memory (07 R194; 08 R209). A confirmed stream of the Galley asks for the line that it reaches, within its leaf page (08 R221). -/
def Obligations.StoresDrain : Prop :=
  ∀ (s : State) (t : Thr) (n : Nat) (e : StoreEntry) (l : L2Line),
    let c := t.val / 2
    let line := e.pa / 64
    let x := s.thr t
    let ready := x.stb[n]? = some e ∧ s.thrPresent t = true ∧ (s.tile (s.tileOf c)).st = .t0 ∧ s.drainOver t = false ∧ x.mayDrain n e = true ∧ s.quiet c
    (ready → e.type = .wb → (s.core c).l2Off = false → (s.core c).l2Line line = some l → l.writable = true → (e.fromM = true ∨ l.world = e.world) → e.mate = none →
      s.mirrored = false → ∃ u, exec (.storeBufferDrain t n) s = .next u ∧ (u.thr t).stb = listDrop x.stb n ∧ (∀ k, k ≠ t.val → u.thr k = s.thr k) ∧
        u.mem = s.mem ∧ u.net = s.net ∧ (∃ l', (u.core c).l2Line line = some l' ∧ l'.st = .m ∧ l'.world = l.world ∧
          l'.data = mergeLine l.data (placeVal e.data (e.pa % 64)) (byteMask (e.pa % 64) e.size)) ∧
        ∀ a, a ≠ line → (u.core c).l2Line a = (s.core c).l2Line a) ∧
    (ready → e.type = .nc → ∃ u f, exec (.storeBufferDrain t n) s = .next u ∧ (u.thr t).stb = listDrop x.stb n ∧ u.mem = s.mem ∧ u.net = s.net ++ [f] ∧ f.op = .wrNc ∧
      f.line = line ∧ f.world = e.world ∧ f.mask = byteMask (e.pa % 64) e.size ∧ f.data = placeVal e.data (e.pa % 64) ∧
      (∃ o ∈ (u.thr t).outst, o.tid = f.tid ∧ o.kind = .ncStore) ∧ ∀ k, k ≠ t.val → u.thr k = s.thr k) ∧
    (∀ st b, let k := s.core c
      let next : Int := st.last + st.reach
      k.streams[n]? = some st → st.gw = true → s.corePresent (coreId c).val = true → (s.tile (s.tileOf c)).st = .t0 → 2 ≤ st.count → bit k.cacheCtl 5 = true →
      k.galOff = false → 0 ≤ next → s.streamPage (2 * c + b2n st.thr) st = some b →
      next.toNat / 2 ^ b = st.last / 2 ^ b → k.galEntry (next.toNat / 64) = none → k.hellEntry (next.toNat / 64) = none → k.locked < 48 →
      ∃ u f, exec (.prefetchIssue (coreId c) n) s = .next u ∧ u.net = s.net ++ [f] ∧ f.op = .rdNc ∧ f.line = next.toNat / 64 ∧ f.pf = true ∧ u.mem = s.mem)

/-- Answers reach what waits for them: an acknowledged device store is owed no longer, an error of the instruction in progress is taken as its cause, one of retired
work becomes pending, and a walk takes the entry its L2 holds (01 R30; 06 R161; 07 R195, R204). -/
def Obligations.AnswersReachTheirThread : Prop :=
  ∀ (s : State) (k : Nat) (f : Flit) (c : CoreId) (t : Thr) (code : BitVec 16),
    let x := s.thr t
    let here := s.net[k]? = some f ∧ s.firstOfFlow k f = true ∧ f.dst = .core c ∧ f.thr = some t
    (here → f.err = none → f.acc = .devStore → f.op = .ack → x.opIs f.tid = false → x.hasOut f.tid = true → f.promoted = false → s.quiet c.val →
      exec (.deviceResponse k) s = .next ((s.taken k).updThr t (fun x => x.outDone f.tid))) ∧
    (here → f.err = some code → f.acc = .devLoad → x.walk = none → x.run = .running → x.nextInt false = none →
      ∀ m pa, x.memOp = some m → m.once = true → m.want = some pa → m.tid = f.tid → f.tid ≠ 0 →
      let bad := Bad.error code (f.opA.setWidth 32) (f.refusal == some true)
      let v := (s.taken k).updThr t (fun x => x.opDo f.tid (fun m => m.refused bad))
      exec (.errorResponse k) s = .next (v.takeExc t (bad.exc (v.thr t) (m.refused bad) pa))) ∧
    (here → f.err = some code → f.acc = .devStore → x.walk = none → x.memOp = none → x.kept = [] → x.fetchReq = none → x.pendErrs.length < 4 →
      ∀ o ∈ x.outst, o.tid = f.tid → o.due = 1 → (∀ q ∈ x.outst, q.tid = f.tid → q = o) → s.quiet c.val →
      ∃ u, exec (.pendingErrorArrive k) s = .next u ∧ (∃ p ∈ (u.thr t).pendErrs, p.pa = BitVec.ofNat 57 o.pa ∧ p.code = code) ∧
        (∀ p ∈ x.pendErrs, p ∈ (u.thr t).pendErrs) ∧ (u.thr t).hasOut f.tid = false) ∧
    (∀ w pa nested st2 lvl l, x.walk = some w → s.walkNeeds t = some (pa, nested, st2, lvl) → (s.core (t.val / 2)).l2Line (pa / 64) = some l → l.readable = true →
      l.world = x.walkWorld → l.poison = false → x.memOp = none →
      ∃ u q, exec (.walkReadResponse t) s = .next u ∧ (u.thr t).walk = some q ∧ (pa, lineVal l.data (pa % 64) 8) ∈ q.answers ∧ u.mem = s.mem)
/-! Coherence. -/

/-- Requests travel: a read or an ownership request for a line its die does not have goes on to the line's home; a read of an uncached line at its home opens a transaction, makes
the requester the sole holder and asks memory, which keeps it until the line is read; maintenance of an uncached line is acknowledged (09 R238, R239, R243). -/
def Obligations.RequestsReachTheirHome : Prop :=
  ∀ (s : State) (k d n ch : Nat) (f : Flit),
    let line := f.line
    let s₀ := s.taken k
    let forwards := fun (i : Instr) (op : Op) => s.lands k op f → f.dst = .filter d → s.fent d line = none → s.ftxn d line = none → s.l3Buf d line = none →
      (s.filterLines d (filterSet line)).length < 15 →
      ∃ u g, exec i s = .next u ∧ u.net = s₀.net ++ [g] ∧ g.op = op ∧ g.src = .filter d ∧ g.dst = s.homeOf d line ∧ g.req = f.req ∧ g.line = line ∧
        (u.ftxn d line).isSome ∧ (u.fent d line).isSome ∧ u.mem = s.mem ∧ u.threads = s.threads
    let reads := fun (i : Instr) (op : Op) => s.lands k op f → f.dst = sliceAgent n → n < 576 → s.homeReady n line → s₀.inOrder f = true → s.atom line = none → s.dirEnt line = none →
      (s.dirLines n line).length < 15 → f.pf = false →
      ∃ u g e, exec i s = .next u ∧ u.net = s₀.net ++ [g] ∧ g.dst = s.endpoint (line * 64) ∧ g.src = sliceAgent n ∧ g.req = f.req ∧ g.line = line ∧
        (u.txn line).isSome ∧ u.dirEnt line = some e ∧ e.owner = ownerOf f.req f.far ∧ u.mem = s.mem ∧ u.threads = s.threads
    let queues := fun (i : Instr) (op : Op) => s.lands k op f → f.dst = .mem ch → s.held 3 ch = false → s.memReady line f.world op.needs.1 op.needs.2 →
      exec i s = .next (s₀.updChan ch (fun c => { c with reads := c.reads ++ [{ flit := f, again := 0 }] }))
    forwards (.rdS k) .rdS ∧ forwards (.rdU k) .rdU ∧ forwards (.upg k) .upg ∧ reads (.rdS k) .rdS ∧ reads (.rdU k) .rdU ∧ reads (.upg k) .upg ∧
    queues (.rdS k) .rdS ∧ queues (.rdU k) .rdU ∧ queues (.rdNc k) .rdNc ∧ queues (.atomM k) .atomM ∧
    (s.lands k .cmoP f → f.dst = sliceAgent n → n < 576 → s.homeReady n line → s₀.inOrder f = true → f.req ≠ sliceAgent n →
      s.atom line = none → s.dirEnt line = none →
      ∃ u g, exec (.cmoP k) s = .next u ∧ u.net = s₀.net ++ [g] ∧ g.op = .ack ∧ g.dst = f.req ∧ u.mem = s.mem)

/-- Writes reach memory: a controller writes a whole line of a write or a write-back and acknowledges it; a home sends a dirty victim's data to the controller and acknowledges the
die once the controller has; an eviction of a clean one writes nothing; the holder that gave the line up is listed no longer. An atomic at home changes the buffered
line and answers the old value (09 R239, R242 to R244, R251). -/
def Obligations.WritesReachMemory : Prop :=
  ∀ (s : State) (k n d ch : Nat) (f b : Flit) (a : AtomLine) (v : Word) (x : Txn) (st : Word),
    let line := f.line
    let s₀ := s.taken k
    let acks := fun (u : State) (to_ : Agent) => ∃ g, u.net = s₀.net ++ [g] ∧ g.op = .ack ∧ g.dst = to_ ∧ g.tid = f.tid
    let lone := f.dst = sliceAgent n ∧ n < 576 ∧ f.src = .filter d ∧ d < 16 ∧ s.txns = [] ∧ s₀.inOrder f = true ∧ f.superseded = false ∧ f.keep = false
    let unlisted := fun (u : State) => ∀ e, u.dirEnt line = some e → e.lists d = false
    (s.lands k .wrNc f → f.dst = .mem ch → s.held 3 ch = false → s.memReady line f.world false true → f.mask = BitVec.allOnes 64 → s.lineBusy ch line = false → s.bankBusy ch line = false →
      (∀ r ∈ (s.chan ch).reads, r.flit.line = line → r.writes = false) →
      ∃ u, exec (.wrNc k) s = .next u ∧ u.mem = (s₀.putLine line f.data f.poison).mem ∧ acks u f.req ∧ u.threads = s.threads) ∧
    (s.lands k .wbD f → f.dst = .mem ch → s.held 3 ch = false → s.memReady line f.world false true → s.lineBusy ch line = false → s.bankBusy ch line = false →
      (∀ r ∈ (s.chan ch).reads, r.flit.line = line → r.writes = false) →
      ∃ u, exec (.wbD k) s = .next u ∧ u.mem = (s₀.putLine line f.data f.poison).mem ∧ acks u f.req ∧ u.threads = s.threads) ∧
    (s.lands k .wbD f → lone →
      ∃ u g y, exec (.wbD k) s = .next u ∧ u.net = s₀.net ++ [g] ∧ g.op = .wbD ∧ g.dst = s.endpoint (line * 64) ∧ g.data = f.data ∧ g.poison = f.poison ∧
        u.txn line = some y ∧ y.writes.map Prod.fst = [g.tid] ∧ (∃ b ∈ y.answers, b.op = .ack ∧ b.dst = .filter d ∧ b.tid = f.tid) ∧ unlisted u ∧
        u.mem = s.mem ∧ u.threads = s.threads) ∧
    (s.lands k .ack f → f.dst = sliceAgent n → n < 576 → f.acc ≠ .dma → f.comp = false → f.ofMemory = true → s.txns = [(line, some x)] →
      x.flit.op = .wbD → x.served = true → x.compDue = false → x.due = 0 → x.writes = [(f.tid, st)] → x.answers = [b] → x.held = [] → x.waiting = [] →
      ∃ u g, exec (.ack k) s = .next u ∧ u.net = s₀.net ++ [g] ∧ g.op = b.op ∧ g.dst = b.dst ∧ g.tid = b.tid ∧ u.txn line = none ∧ u.mem = s.mem) ∧
    (s.lands k .evictC f → lone →
      ∃ u, exec (.evictC k) s = .next u ∧ u.mem = s.mem ∧ acks u (.filter d) ∧ unlisted u ∧ u.threads = s.threads) ∧
    (s.lands k .atomH f → f.dst = sliceAgent n → n < 576 → s.homeReady n line → s₀.inOrder f = true → s.atom line = some a → a.poison = false →
      s.mirrored = false → (∀ w, s.copyWorld line = some w → w = f.world ∨ f.fromM = true) → f.func ≠ .read → f.func ≠ .write → f.mask ≠ 0 →
      let off := (List.range 64).findIdx (fun i => f.mask.getLsbD i)
      let old := lineVal a.data off f.size
      amoNew f.func f.size old f.opA f.opB = some v →
      ∃ u g b, exec (.atomH k) s = .next u ∧ u.net = s₀.net ++ [g] ∧ g.op = .dataS ∧ g.dst = f.req ∧ g.data = placeVal (extend true f.size old) 0 ∧
        u.atom line = some b ∧ b.world = a.world ∧ b.data = mergeLine a.data (placeVal v off) (byteMask off f.size) ∧ u.mem = s.mem)

/-- A die answers a snoop of home. Without a copy it answers NOCOPY; with one in its L3 alone it shares it with the requester and keeps it, cleans it for
home, or gives it up, and tells whether it was dirty, dirty data that are not to be discarded going along (09 R234, R245, R246). -/
def Obligations.SnoopsAreAnswered : Prop :=
  ∀ (s : State) (k d : Nat) (f : Flit) (e : FilterEntry) (l : L3Line),
    let line := f.line
    let s₀ := s.taken k
    let here := fun (op : Op) => s.lands k op f ∧ f.dst = .filter d ∧ s.ftxn d line = none
    let none_ := fun (i : Instr) (op : Op) => here op → s.fent d line = none →
      ∃ u g, exec i s = .next u ∧ u.net = s₀.net ++ [g] ∧ g.op = .ack ∧ g.noCopy = true ∧ g.line = line ∧ g.dst = (if op = .snpI then f.req else f.src) ∧ u.mem = s.mem
    let alone := s.fent d line = some e ∧ e.l2vec = 0 ∧ e.pending = false ∧ s.l3Line d line = some l ∧ s.l3Buf d line = none
    none_ (.snpS k) .snpS ∧ none_ (.snpU k) .snpU ∧ none_ (.snpI k) .snpI ∧ none_ (.snpNear k) .snpNear ∧
    (here .snpS → f.clean = false → alone → ∃ u g b, exec (.snpS k) s = .next u ∧ u.net = s₀.net ++ [g, b] ∧ g.op = .dataS ∧ g.dst = f.req ∧ g.data = l.data ∧ g.world = l.world ∧
      b.op = .ack ∧ b.dst = f.src ∧ b.dirty = l.dirty ∧ u.l3Line d line = some l) ∧
    (here .snpS → f.clean = true → alone → ∃ u b, exec (.snpS k) s = .next u ∧ u.net = s₀.net ++ [b] ∧ b.op = .ack ∧ b.dst = f.src ∧ b.dirty = l.dirty ∧
      b.noCopy = !l.dirty ∧ (l.dirty = true → b.data = l.data) ∧ u.l3Line d line = some { l with dirty := false }) ∧
    (here .snpNear → f.clean = false → alone → ∃ u g, exec (.snpNear k) s = .next u ∧ u.net = s₀.net ++ [g] ∧ g.op = .dataS ∧ g.dst = f.req ∧ g.data = l.data ∧ u.l3Line d line = some l) ∧
    (here .snpU → alone → ∃ u g b, exec (.snpU k) s = .next u ∧ u.net = s₀.net ++ [g, b] ∧ g.op = (if l.dirty then .dataM else .dataE) ∧ g.dst = f.req ∧ g.data = l.data ∧
      b.op = .ack ∧ b.dst = f.src ∧ u.l3Line d line = none ∧ u.fent d line = none) ∧
    (here .snpI → alone → ∃ u g, exec (.snpI k) s = .next u ∧ u.net = s₀.net ++ [g] ∧ g.op = .ack ∧ g.noCopy = false ∧ g.dst = f.req ∧
      g.dirty = (l.dirty && !(f.discard && (f.fromM || l.world == f.world))) ∧ (g.dirty = true → g.data = l.data) ∧
      u.l3Line d line = none ∧ u.fent d line = none)

/-- Answers at a requester: data with every acknowledgement in fills the L2 in the state its opcode grants and is confirmed to the filter; the acknowledgement of a Galley
write-back frees its entry; RETRY has the request wait for its hint and then go again, through its die's filter or to the home of that moment; a reserved entry not taken moves on
(09 R241, R248; 10 R253, R254). -/
def Obligations.AnswersAtTheRequester : Prop :=
  ∀ (s : State) (k n : Nat) (f : Flit) (c : CoreId) (l : L2Line) (b : Backoff) (sl : Fin 576) (until_ : Word),
    let line := f.line
    let s₀ := s.taken k
    let fills := fun (i : Instr) (op : Op) (st : L2State) => s.lands k op f → f.dst = .core c → f.err = none → f.acc = .coherent → f.ackCnt = 0 → f.dirty = false →
      (s.core c.val).l2Line line = some l → l.st = .isD → l.need = none → (l.fromM = true ∨ f.world = l.reqWorld) → s.quiet c.val →
      ∃ u g m, exec i s = .next u ∧ (u.core c.val).l2Line line = some m ∧ m.st = st ∧ m.data = f.data ∧ m.poison = f.poison ∧ m.world = f.world ∧ u.net = s₀.net ++ [g] ∧
        g.op = .ack ∧ g.comp = true ∧ g.dst = .filter (dieOfCore c.val) ∧ g.line = line ∧ u.mem = s.mem ∧ u.threads = s.threads
    fills (.dataS k) .dataS .s ∧ fills (.dataE k) .dataE .e ∧ fills (.dataM k) .dataM .m ∧
    (s.lands k .ack f → f.dst = .core c → f.err = none → f.acc = .galWb → (∃ w ∈ (s.core c.val).galWb, w.tid = f.tid) → s.quiet c.val → ∃ u, exec (.ack k) s = .next u ∧
      (∀ w ∈ (u.core c.val).galWb, w.tid ≠ f.tid) ∧ (∀ w ∈ (s.core c.val).galWb, w.tid ≠ f.tid → w ∈ (u.core c.val).galWb) ∧ u.mem = s.mem ∧ u.net = s₀.net) ∧
    (s.lands k .retry f → f.dst = .core c → ∃ u q, exec (.retry k) s = .next u ∧ u.backoffs = s.backoffs ++ [q] ∧ q.flit.op = f.was ∧ q.flit.line = line ∧
      q.flit.rcnt = min (f.rcnt + 1) 15 ∧ q.flit.hint = f.ackCnt ∧ q.untilStamp = s₀.stamp (dieOfCore c.val) + BitVec.ofNat 64 (20 * f.hint) ∧ u.net = s₀.net) ∧
    (s.backoffs[n]? = some b → b.flit.regu = none → b.untilStamp.toNat ≤ (s.stamp b.flit.src.dieNum).toNat → ∃ u g, exec (.retryBackoffExpire n) s = .next u ∧ u.backoffs = listDrop s.backoffs n ∧
      u.net = s.net ++ [g] ∧ g.op = b.flit.op ∧ g.line = b.flit.line ∧ g.rcnt = b.flit.rcnt ∧
      (g.dst = s.homeOf b.flit.src.dieNum b.flit.line ∨ ∃ q : CoreId, b.flit.src = .core q ∧ g.dst = .filter (q.val / 32)) ∧ u.threads = s.threads) ∧
    ((s.slice sl.val).offers = [(n, until_)] → until_.toNat ≤ (s.stamp (sl.val / 36)).toNat → (s.slice sl.val).starved = [] →
      ∃ u, exec (.reservationLapse sl) s = .next u ∧ (u.slice sl.val).offers = [] ∧ (u.slice sl.val).lastServed = n ∧ u.net = s.net)
/-! Transit, time and limits. -/

/-- Messages of the fabric. A TLBI broadcast removes what it names at a running core and is acknowledged; CONTAIN adds its report to the threads it addresses; HEART and MER_SYNC
reach their die; a flit that its output port grants moves to the node after the one it stands at; one whose
parity is broken is sent again twice with those behind it, the third time it is dropped, or poisoned where only payload bytes are broken; a regulator lets the oldest of its
flits go for one whole token; a port closes once what it accepted is delivered, and opens once its domain is ready
(02 R43, R44; 06 R177; 11 R266, R269, R270, R274, R275, R283; 19 R415). -/
def Obligations.FabricMoves : Prop :=
  ∀ (s : State) (k d a : Nat) (f : Flit) (c : CoreId) (q : TlbiReq) (m : ContainMsg) (t : Thr) (port : PortId) (flips : BitVec 864) (n : BitVec 12),
    let s₀ := s.taken k
    let st := (s.tile (s.tileOf c.val)).st
    (s.lands k .tlbiB f → f.tlbi = some q → f.dst = .core c → (st = .t0 ∨ st = .t1) → s.quiet c.val →
      ∃ u g, exec (.tlbiB k) s = .next u ∧ u.net = s₀.net ++ [g] ∧ g.op = .ack ∧ g.dst = f.src ∧ g.tid = f.tid ∧
        ∀ e, q.hits e = true → e ∉ (u.core c.val).itlb ∧ e ∉ (u.core c.val).dtlb ∧ e ∉ (u.core c.val).l2tlb) ∧
    (s.lands k .contain f → f.containRec = some m → f.dst = .die d → f.containThr = some t → m.scope = 0 → s.thrPresent t = true →
      s.portSt (tilePort (s.tileOf (t.val / 2))) = 0 → (s.thr t).contains.length < 4 →
      ∃ u, exec (.contain k) s = .next u ∧ (u.thr t).contains = (s.thr t).contains ++ [m] ∧ ∀ j, j ≠ t.val → u.thr j = s.thr j) ∧
    (s.lands k .heart f → ∃ u, exec (.heart k) s = .next u ∧ (u.die f.dst.dieNum).ringHeart = f.opA ∧ u.threads = s.threads) ∧
    (s.lands k .merSync f → 5 < s.mc.stage.toNat → ∃ u, exec (.merSync k) s = .next u ∧ (u.die f.dst.dieNum).time.synced = true ∧ u.threads = s.threads) ∧
    (s.net[k]? = some f → s.heldBack f = false → s.dropped f = false → f.hop ≠ s.goal f →
      let next := s.nextNode f.hop (s.goal f)
      s.granted f.hop next = some k → (s.outPort f.hop next).last ≤ s.cycle → (s.die (fieldOf next 10 6)).ephCtl = 0 →
      ∃ u g, exec (.flitForward k) s = .next u ∧ u.net = listDrop s.net k ++ [g] ∧ g.hop = next ∧ g.inPort = some f.hop ∧
        g = { f with hop := g.hop, inPort := g.inPort, dateline := g.dateline, inside := g.inside, came := s.cycle, fails := 0 } ∧ u.threads = s.threads ∧ u.mem = s.mem) ∧
    (s.net[k]? = some f → f.inPort = some n → f.inside = false → s.badBytes f flips ≠ [] → f ∈ (s.outPort n f.hop).sent →
      (f.fails < 2 → ∃ u, exec (.replayRequest k flips) s = .next u ∧ (s.replay k f).net <+: u.net ∧ u.mem = s.mem) ∧
      (2 ≤ f.fails → ∃ u, exec (.replayRequest k flips) s = .next u ∧ u.mem = s.mem ∧
        (if (s.badBytes f flips).all (fun j => decide (24 ≤ j ∧ j < 88)) then listSet s.net k { f with poison := true, fails := 0 } else listDrop s.net k) <+: u.net)) ∧
    (s.net[k]? = some f → f.gate = some a → (∀ g ∈ s.net.take k, g.gate ≠ some a) → bit (s.ctlGet a) 63 = true → fieldOf (s.ctlGet a) 43 32 ≠ 0 → fieldOf (s.ctlGet a) 11 0 ≠ 0 →
      
      ∃ u g, exec (.regulatorRelease k) s = .next u ∧ u.net = listDrop s.net k ++ [g] ∧ g.gate = none ∧ g.op = f.op ∧ g.dst = f.dst ∧ g.tid = f.tid ∧ g.line = f.line ∧
        g.data = f.data ∧ fieldOf (u.ctlGet a) 43 32 = fieldOf (s.ctlGet a) 43 32 - 1) ∧
    (s.portSt (portAddr port) = 1 → (∀ i, portBlock (portAddr port) = some i → i ∉ s.power.hubAsk) →
      (∀ g ∈ s.net, g.inside = true → s.portOf g ≠ some (portAddr port)) → ∃ u, exec (.portClosed port) s = .next u ∧ u.portSt (portAddr port) = 2 ∧ u.net = s.net) ∧
    (s.portSt (portAddr port) = 3 → s.domainReady (portAddr port) = true →
      ∃ u, exec (.portOpened port) s = .next u ∧ u.portSt (portAddr port) = 0 ∧ fieldOf (u.ctlGet (portAddr port)) 47 40 = 0 ∧ u.net = s.net)

/-- Time and its limits. The master sends its stamp each µs; with PPS_IN enabled an edge within 1 ms of a second corrects the master's rate by what it missed, and 3 s without one
end the discipline; an access performed once at its limit is taken as its cause, with a record; a snoop that a die does not answer has home write the line poisoned
to memory, and one that an L2 does not answer gives its requester poison (02 R43, R48; 11 R280, R281). -/
def Obligations.TimeAndLimits : Prop :=
  ∀ (s : State) (t : Thr) (d line : Nat) (last : Word) (m : MemOp) (pa : Nat) (x : Txn),
    let now := s.stamp 16
    let off : Int := (now.toNat : Int) - (last.toNat : Int) - 4000000000
    let on := s.mc.cfg.pps = true
    (s.mc.hubPg = true → s.syncAt.toNat ≤ s.now.toNat → ∃ u, exec .merSyncSend s = .next u ∧ u.syncAt = s.now + 4000 ∧
      (d < 16 → s.dieAlive d = true → ∃ f ∈ u.net, f.op = .merSync ∧ f.dst = .die d ∧ f.opA = s.now) ∧ u.threads = s.threads) ∧
    (s.mc.cfg.pps = false → exec .ppsEdge s = .next s) ∧
    (on → s.ppsLast = none → exec .ppsEdge s = .next { s with ppsLast := some now }) ∧
    (on → s.ppsLast = some last → off.natAbs ≤ 4000000 → exec .ppsEdge s = .next { s with ppsLast := some now, ppsRate := s.ppsRate - off }) ∧
    (on → s.ppsLast = some last → 4000000 < off.natAbs → exec .ppsEdge s = .next { s with ppsLast := some now }) ∧
    (s.ppsLast = some last → last.toNat + 3 * 4000000000 ≤ s.now.toNat → ∃ u, exec .ppsLost s = .next u ∧ u.ppsLast = none ∧ u.ppsRate = 0 ∧ u.ppsAcc = 0 ∧ u.threads = s.threads) ∧
    ((s.thr t).memOp = some m → m.want = some pa → (s.core (t.val / 2)).l2Line (pa / 64) = none → m.tid ≠ 0 → s.late (dieOfThr t) pa m.stamp = true →
      m.once = true → (s.thr t).run = .running → (s.thr t).nextInt false = none →
      let r := s.timedOut t pa
      let bad := Bad.error codeTrnTimeout r.2 false
      let v := r.1.updThr t (fun x => x.updMem (fun m => m.refused bad))
      exec (.transactionTimeout (.thread t) 0) s = .next (v.takeExc t (bad.exc (v.thr t) (m.refused bad) pa))) ∧
    (s.txn line = some x → x.due ≠ 0 → bit x.due 16 = false → x.stamp.toNat + s.pkgLimit (x.slice / 36) ≤ (s.stamp (x.slice / 36)).toNat →
      ∃ u g, exec (.snoopTimeout ⟨line, none⟩) s = .next u ∧ g ∈ u.net ∧ g.op = .wbD ∧ g.src = sliceAgent x.slice ∧ g.line = line ∧ g.poison = true ∧
        u.dirEnt line = none) ∧
    (∀ die e, s.ftxn die.val line = some x → s.fent die.val line = some e → x.served = true → x.due ≠ 0 → x.held = [] →
      x.stamp.toNat + s.pkgLimit die.val ≤ (s.stamp die.val).toNat →
      ∃ u g, exec (.snoopTimeout ⟨line, some die⟩) s = .next u ∧ g ∈ u.net ∧ g.dst = x.flit.req ∧ g.poison = true ∧
        g.op = (if x.flit.op = .rdS then .dataS else .dataE) ∧ u.ftxn die.val line = none ∧ u.l3Line die.val line = none)

/-! Memory controllers and guards. -/

/-- A controller delivers a line whose beats show no error as it is stored, plain through its guard, to the requester; where another line holds nothing up. A verified line
frees the repair; a repair of a row ends verified again; a probe that finds nothing frees its slot; scrub reads the next line in turn; a fill that ends or stops is marked (12 R291,
R294, R295, R298 to R300). -/
def Obligations.ControllersReadAndRepair : Prop :=
  ∀ (s : State) (ch : Fin 24) (f : Flit) (r : Repair),
    let c := s.chan ch.val
    let a := s.rankReg ch.val f.line
    let next := s.chanLine ch.val c.scrubAt
    (c.reads = [{ flit := f, again := 0 }] → c.repair = none → c.selfRefresh = false → fieldOf (s.ctlGet a) 63 62 = 0 → s.memPoison f.line = false → f.op = .rdNc →
      f.req ≠ .mem ch.val → ∃ u g, exec (.dramReadReturn ch 0 []) s = .next u ∧ (u.chan ch.val).reads = [] ∧ u.net = s.net ++ [g] ∧ g.op = .dataS ∧ g.dst = f.req ∧
        g.data = s.memLine f.line ∧ g.poison = false ∧ u.mem = s.mem) ∧
    (c.repair = some r → r.phase = 0 → s.memPoison r.line = false →
      exec (.dramVerifyReturn ch []) s = .next (s.updChan ch.val (fun x => { x with repair := none }))) ∧
    (c.repair = some r → r.phase = 1 → ∃ u, exec (.spprDone ch []) s = .next u ∧ (u.chan ch.val).repair = some { r with phase := 0, repaired := true } ∧
      (∃ e ∈ u.almanac, e.kind = 0 ∧ e.chan = BitVec.ofNat 8 ch.val) ∧ u.mem = s.mem) ∧
    (c.repair = some r → r.phase = 3 → (∀ i, i < 16 → s.memPoison ((s.probeLines ch.val r.line).getD i 0) = false) →
      exec (.probeDone ch []) s = .next (s.updChan ch.val (fun x => { x with repair := none }))) ∧
    (s.trained.contains ch.val = true → c.filled = true → c.selfRefresh = false → s.held 3 ch.val = false → bit (s.rasCtl ch.val) 63 = true →
      s.lineBusy ch.val next = false → ∃ u q, exec (.scrubRead ch c.scrubAt) s = .next u ∧ (u.chan ch.val).reads = c.reads ++ [q] ∧ q.flit.line = next ∧
        (u.chan ch.val).scrubAt = (c.scrubAt + 64) % s.chanCap ∧ u.mem = s.mem) ∧
    (c.trained = true → c.filled = false → c.fillErr = false → s.mc.stage = 7 → ∃ u, exec (.fillDone ch) s = .next u ∧ (u.chan ch.val).filled = true ∧
      bit (u.ctlGet (fillReg ch.val)) 63 = true) ∧
    (c.trained = true → c.filled = false → c.fillErr = false → s.mc.stage = 7 → ∃ u, exec (.ddrAlertDuringFill ch) s = .next u ∧ (u.chan ch.val).fillErr = true ∧
      bit (u.ctlGet (fillReg ch.val)) 62 = true)

/-- The registers of a guard: a commit of the staged version makes the staged entries of unlocked entries active, and any other changes nothing; a key word is written unless its slot is in use; a gated guard
is not written. A pin that passes to the other world becomes an input (01 R37; 12 R303, R306, R307; 14 R340, R341). -/
def Obligations.GuardsAndPins : Prop :=
  ∀ (s : State) (g : Fin 24) (v : BitVec 32) (slot : Fin 64) (w : Fin 8) (val : Word) (n i : Nat) (p : Nat),
    let staged := fieldOf (s.ctlGet (guardReg g.val 0x201)) 31 0
    let version := fieldOf (s.ctlGet (guardReg g.val 0x200)) 63 32
    let on := s.regOff (guardReg g.val 0x202) = false
    let keysOn := s.regOff (guardReg g.val 0x1000) = false
    (on → staged = v.toNat → version < v.toNat → n < 128 → i < 2 → ∃ u, exec (.grdCommitWrite g v) s = .next u ∧ fieldOf (u.ctlGet (guardReg g.val 0x200)) 63 32 = v.toNat ∧
      u.ctlGet (guardReg g.val (2 * n + i)) = (if s.guardLocked g.val n then s.ctlGet (guardReg g.val (2 * n + i)) else s.ctlGet (guardReg g.val (0x100 + 2 * n + i)))) ∧
    (¬ on ∨ staged ≠ v.toNat ∨ v.toNat ≤ version → exec (.grdCommitWrite g v) s = .next s) ∧
    (keysOn → s.slotInUse g.val slot.val = false → exec (.grdKeyWrite g slot w val) s =
      .next { s with keys := Tbl.set 0 s.keys (g.val * 512 + slot.val * 8 + w.val) val }) ∧
    (¬ keysOn → exec (.grdKeyWrite g slot w val) s = .next s) ∧
    (keysOn → s.slotInUse g.val slot.val = true → ∃ u, exec (.grdKeyWrite g slot w val) s = .next u ∧ u.keys = s.keys ∧ bit (u.ctlGet (guardReg g.val 0x200)) 3 = true) ∧
    (p < 32 → ∃ u, exec (.mcGpioWorldWrite v) s = .next u ∧ bit (u.ctlGet gpioWorldReg) p = bit v p ∧
      (bit v p ≠ bit (s.ctlGet gpioWorldReg) p → bit u.gpioOe p = false ∧ p ∉ u.srcPend) ∧ (bit v p = bit (s.ctlGet gpioWorldReg) p → bit u.gpioOe p = bit s.gpioOe p))

/-! System links. -/

/-- A port comes up. Outside minimal mode EN and the partner's presence start training; four or more lanes of the mask lead to AUTH, HELLO's claims are kept, and an AUTH that nothing refuses brings it UP; a claim that R314
refuses, or 2 ms without AUTH, refuse it with the code; clearing EN takes it DOWN (13 R312 to R314). -/
def Obligations.LinksComeUp : Prop :=
  ∀ (s : State) (port : Fin 8) (lanes : BitVec 4) (h : HelloIn) (a : AuthIn),
    let p := port.val
    let l := s.link p
    (l.st = .down → l.present = true → s.minimalRun = false → ∃ u, exec (.sylEnWrite port true) s = .next u ∧ (u.link p).st = .training ∧ u.threads = s.threads) ∧
    (∃ u, exec (.sylEnWrite port false) s = .next u ∧ (u.link p).st = .down ∧ u.threads = s.threads) ∧
    (l.st = .down → bit (s.sylCtl p) 63 = true → s.minimalRun = false → ∃ u, exec (.sylPrsntNChange port true) s = .next u ∧ (u.link p).st = .training ∧ (u.link p).present = true) ∧
    (l.st = .training → 4 ≤ lanes.toNat → lanes.toNat ≤ popBits (BitVec.ofNat 8 (fieldOf (s.sylCtl p) 55 48)) →
      ∃ u, exec (.linkTrained port lanes) s = .next u ∧ (u.link p).st = .auth ∧ (u.link p).lanes = lanes ∧ (u.link p).authStart = s.stamp 16) ∧
    (l.st = .auth → exec (.hello port h) s = .next (s.updLink p (fun l => { l with hello := some h }))) ∧
    (l.st = .auth → l.hello = some h → s.authLate p = false → s.refusal p h a = 0 → ∃ u, exec (.auth port a) s = .next u ∧ (u.link p).st = .up ∧ (u.link p).partner = h.pkgId ∧
      (u.link p).refuse = 0) ∧
    (l.st = .auth → l.hello = some h → s.authLate p = false → s.refusal p h a ≠ 0 → ∃ u, exec (.auth port a) s = .next u ∧ (u.link p).st = .refused ∧
      (u.link p).refuse = BitVec.ofNat 4 (s.refusal p h a)) ∧
    (l.st = .auth → s.authLate p = true → ∃ u, exec (.authTimeout port) s = .next u ∧ (u.link p).st = .refused ∧ (u.link p).refuse = 7)

/-- A port in UP. 3.5 µs without a heartbeat lose it; a NAK asks again for a frame and counts; a heartbeat leaves each µs and one that comes is noted; keys turn after 2^32 frames; a frame out of order or with a bad CRC is
answered with the sequence expected, and one in order is taken; a package that first hears its root and is more than 1 µs behind steps, and no other does. A mirror entry is written on its own, and the end of the filters' scan clears it (02 R45, R46; 13 R310, R311, R315, R330, R332). -/
def Obligations.LinksCarry : Prop :=
  ∀ (s : State) (port : Fin 8) (seq : BitVec 16) (fr : FrameIn) (st : Word) (claim : TimeClaim) (c : CoreId) (n : Nat) (e : MirrorEntry),
    let p := port.val
    let l := s.link p
    let s₁ := s.updLink p (fun l => { l with exchanges := l.exchanges + 1, claim := some claim })
    let follows := l.st = .up ∧ s₁.timeRoot ≠ s.pkgId.toNat ∧ s₁.timePort = some p
    let now := (s.stamp 16).toNat
    (l.st = .up → l.lastHeart.toNat + 14000 ≤ now → s.paired = false → l.waits = [] → ∃ u, exec (.linkLost port) s = .next u ∧ (u.link p).st = .lost ∧ u.threads = s.threads) ∧
    (l.st = .up → l.out.any (fun f => f.seq == seq) = true → l.nakSeq ≠ seq → ∃ u, exec (.nak port seq) s = .next u ∧ (u.link p).st = .up ∧ (u.link p).nakSeq = seq ∧ (u.link p).nakRun = 1 ∧
      (u.link p).replays = min (l.replays + 1) 65535) ∧
    (l.st = .up → l.heartAt.toNat + 4000 ≤ now → exec (.heartbeatSend port) s = .next (s.updLink p (fun l => { l with hearts := l.hearts + 1, heartAt := s.stamp 16 }))) ∧
    (l.st = .up → l.enc = true → 2 ^ 32 ≤ l.frames → exec (.rekey port) s = .next (s.updLink p (fun l => { l with rekeys := l.rekeys + 1, frames := l.frames - 2 ^ 32 }))) ∧
    (l.st = .up → fr.kind = .heartbeat → fr.crcOk = true → fr.tagOk = true → exec (.frameReceive port fr) s = .next (s.updLink p (fun l => { l with lastHeart := s.stamp 16 }))) ∧
    (l.st = .up → fr.kind ≠ .heartbeat → s.outsideWaits = false → fr.crcOk = false →
      exec (.frameReceive port fr) s = .next (s.updLink p (fun l => { l with nakOut := some l.rxSeq }))) ∧
    (l.st = .up → fr.kind ≠ .heartbeat → s.outsideWaits = false → fr.crcOk = true → fr.tagOk = true → fr.seq = l.rxSeq → fr.dstPkg ≠ s.pkgId → fr.hopsLeft = 0 →
      ∃ u, exec (.frameReceive port fr) s = .next u ∧ (u.link p).rxSeq = l.rxSeq + 1 ∧ (u.link p).nakOut = none ∧ ∀ q, (u.link q).out = (s.link q).out) ∧
    (follows → s.rootSeen = false → s.now.toNat + 4000 < st.toNat → ∃ u, exec (.linkTimeExchange port ⟨st, claim⟩) s = .next u ∧ u.now = st ∧ u.slew = 0 ∧ u.rootSeen = true ∧
      (u.link p).exchanges = l.exchanges + 1) ∧
    (follows → s.rootSeen = true → exec (.linkTimeExchange port ⟨st, claim⟩) s = .next { s₁ with slew := (s.now.toNat : Int) - st.toNat }) ∧
    (l.st = .up → ¬ follows → exec (.linkTimeExchange port ⟨st, claim⟩) s = .next s₁) ∧
    ((s.core c.val).mirror[n]? = some e → exec (.mirrorFlush c n) s = .next (s.mirrorSend c.val e)) ∧
    (s.pair.scanning = true → ∃ u, exec .partnerScanDone s = .next u ∧ u.pair.scanning = false)
/-! Power, resets and boot. -/

/-- Tiles and clocks. A slot of the governor admits the first change that its thresholds allow; a tile whose threads rest enters the state its request and deadlines allow once that is admitted,
and wakes with what was held for it; a droop stretches an island and counts, once; limits never fall below a floor; PROCHOT_N brings every running tile toward 0.8 GHz; THERMTRIP stops every
clock (04 R123; 14 R352; 17 R382 to R386, R390 to R392). -/
def Obligations.PowerAndClocks : Prop :=
  ∀ (s : State) (tile : Fin 576) (c : Nat) (die : Fin 17) (i : Fin 47) (r : SlewReq) (lim : Fin 40),
    let n := tile.val
    let q := s.tile n
    let d := n / 36
    let w := s.ctlGet (caddr 16 0xD8 0x10)
    (s.power.slotAt = 0 → bit w 63 = false → s.power.waiting = [r] → s.power.recent = [] → r.ready = none → r.delta.natAbs ≤ fieldOf w 45 39 * 1000 →
      r.delta.natAbs ≤ fieldOf w 62 53 * 100 → ∃ u, exec .slewSlot s = .next u ∧ u.power.waiting = [] ∧ u.power.slotAt = s.stamp 16 ∧
        u.power.recent = [(s.stamp 16, r.delta, false)]) ∧
    (s.tileCore n = some c → q.st = .t0 → q.waking = false → (∀ t ∈ s.tileThreads n, (s.thr t).rests = true) → s.tileWoken n = false →
      s.tileGoal n = 1 → s.slewGranted (.enter n) = true → ∃ u, exec (.tileStateEntered tile) s = .next u ∧ (u.tile n).st = .t1 ∧ u.slewGranted (.enter n) = false ∧
        u.threads = s.threads) ∧
    (s.tileCore n = some c → q.waking = true → q.st ≠ .t0 → s.power.pkg = .p0 → s.halted = false → s.slewGranted (.wake n) = true → q.pend = [] → q.tlbis = [] →
      ∃ u, exec (.tileWakeDone tile) s = .next u ∧ (u.tile n).st = .t0 ∧ (u.tile n).waking = false ∧ (u.tile n).freq = s.goalFreq n ∧
        (q.sevt = true → s.quiesced (2 * c) = false → (u.thr (2 * c)).eventFlag = true ∧ (u.thr (2 * c + 1)).eventFlag = true)) ∧
    (islandOk die.val i.val = true → s.stretched die.val i.val = false → ∃ u, exec (.vernierDroop die i) s = .next u ∧ u.stretched die.val i.val = true ∧
      fieldOf (u.ctlGet (pwrReqAddr die.val i.val)) 53 38 = min (fieldOf (s.ctlGet (pwrReqAddr die.val i.val)) 53 38 + 1) 65535) ∧
    (islandOk die.val i.val = true → s.stretched die.val i.val = true → ∃ u, exec (.vernierRelease die i) s = .next u ∧ u.stretched die.val i.val = false ∧ u.ctl = s.ctl) ∧
    (∃ u, exec (.powerLimitTick [(tile, lim)]) s = .next u ∧ (u.tile n).limit = max lim.val (s.secFloor d (n % 36)) ∧ u.threads = s.threads) ∧
    (∃ u, exec .prochotAssert s = .next u ∧ u.power.prochot = true ∧ (∀ k, u.goalFreq k = 8) ∧ u.threads = s.threads) ∧
    (∃ u, exec .prochotDeassert s = .next u ∧ u.power.prochot = false ∧ u.threads = s.threads) ∧
    (∃ u, exec .thermtrip s = .next u ∧ u.halted = true ∧ bit u.errs.summary 63 = true ∧ u.threads = s.threads)

/-- The package's states. P1 begins where the Normal world allows it, every tile is deep and no mover is busy, and leaves again; P5 begins once its conditions hold and ends in a reset once both supplies are good; the MC keeps what
PMBus reports, and an alert is cleared with a CE record. The Secure
watchdog: START locks its period and restarts the run count, a kick restarts it, and at its deadline a reset begins and FIRED is set (14 R351; 17 R388, R389, R395; 18 R403). -/
def Obligations.PackageStatesAndWatchdog : Prop :=
  ∀ (s : State) (vout iout temp : BitVec 16) (dl : Word),
    let w := s.wd
    let run := some (s.stamp 16 + BitVec.ofNat 64 (msTicks w.period.toNat))
    (bit (s.ctlGet (caddr 16 0xD8 0x10)) 9 = true → s.power.pkg = .p0 → s.tilesDeep = true → s.moversBusy = false →
      ∃ u, exec .p1Enter s = .next u ∧ u.power.pkg = .p1 ∧ u.threads = s.threads ∧ u.mem = s.mem) ∧
    (s.power.pkg = .p1 → ∃ u, exec .p1Exit s = .next u ∧ u.power.pkg = .p0 ∧ (∀ ch ∈ s.trained, (u.chan ch).selfRefresh = false) ∧ u.threads = s.threads) ∧
    (s.power.p5Asked = true → s.p5Ready = true → ∃ u, exec .p5Enter s = .next u ∧ u.power.pkg = .p5 ∧ u.power.sleepN = false ∧ (∀ ch, ch < 24 → (u.chan ch).selfRefresh = true)) ∧
    (s.power.pkg = .p5 → s.power.p5Leave = true → s.mc.hubPg = true → s.mc.vinPg = true → s.paired = false →
      ∃ u, exec .p5Exit s = .next u ∧ u.power.pkg = .p0 ∧ u.mc.resetting = true ∧ u.mc.stage = 10) ∧
    exec (.pmbusPoll vout iout temp) s = .next { s with mc := { s.mc with telemetry := some (vout, iout, temp) } } ∧
    (∃ u, exec (.pmbAlert vout) s = .next u ∧ u.mc.pmbAlert = false ∧ u.threads = s.threads ∧ u.mem = s.mem) ∧
    (w.start = false → w.booting = false → exec .swdStart s = .next { s with wd := { w with start := true, booting := false, deadline := run } }) ∧
    (w.start = true → exec .swdStart s = .next s) ∧
    (w.start = true → w.booting = false → exec .swdKick s = .next { s with wd := { w with booting := false, deadline := run } }) ∧
    (w.start = false → exec .swdKick s = .next s) ∧
    (w.deadline = some dl → w.paused = none → w.booting = false → dl.toNat ≤ (s.stamp 16).toNat → s.mc.haltedBit = false → s.mc.stbyPg = true → s.mc.resetting = false →
      ∃ u, exec .swdExpire s = .next u ∧ u.wd.fired = true ∧ u.mc.stage = 1 ∧ u.mc.resetting = true ∧ u.threads = []) ∧
    (w.deadline = some dl → (s.stamp 16).toNat < dl.toNat → exec .swdExpire s = .next s)

/-- Resets. A package cold reset that outranks what runs clears every register and starts attempt after attempt in stage 0x1 with memory, the Almanac and the record of attempts kept; a warm one starts stage 0xA with
the threads stopped; a die reset and a core reset hold their threads; supplies and RESET_N act as R396 and R399 say; a stage that is done leads to the next, one that is late fails the attempt; a released thread starts at M at
BOOT_RVBAR (18 R396 to R404). -/
def Obligations.ResetsAndBoot : Prop :=
  ∀ (s : State) (o : StageIn) (trigger : BitVec 4) (die : Fin 16) (c : CoreId) (m : Fin 16) (b : Nat),
    let t := 64 * m.val + b
    let begun := fun (u : State) => u.mc.stage = 1 ∧ u.mc.resetting = true ∧ u.threads = [] ∧ u.cores = [] ∧ u.net = [] ∧ u.mem = s.mem ∧ u.almanac = s.almanac ∧
      u.pending = s.pending ∧ u.part = s.part ∧ u.wd.booting = true
    (s.mc.haltedBit = false → s.resetRank < 5 → ∃ u, exec (.packageColdReset trigger) s = .next u ∧ begun u) ∧
    (s.mc.haltedBit = false → s.power.thermtrip = false → s.resetRank < 4 → s.paired = false → ∃ u, exec .packageWarmReset s = .next u ∧ u.mc.stage = 10 ∧
      u.mc.resetting = true ∧ (∀ k ∈ s.threads.map Prod.fst, (u.thr k).run = .held ∨ (u.thr k).run = .stopped)) ∧
    (s.mc.stbyPg = true → exec .stbyPgRise s = .next s) ∧
    (s.mc.stbyPg = false → ∃ u, exec .stbyPgRise s = .next u ∧ u.mc.stbyPg = true ∧ u.mc.stage = 1 ∧ u.mc.resetting = true ∧ u.threads = [] ∧ u.now = 0) ∧
    (∃ u, exec .stbyPgFall s = .next u ∧ u.mc.stbyPg = false ∧ u.threads = [] ∧ u.cores = [] ∧ u.net = []) ∧
    (∃ u, exec (.powerGoodRise true) s = .next u ∧ u.mc.hubPg = true) ∧ (∃ u, exec (.powerGoodRise false) s = .next u ∧ u.mc.vinPg = true) ∧
    (s.mc.hubPg = true → s.power.pkg = .p0 → s.mc.haltedBit = false → s.mc.stbyPg = true → s.mc.resetting = false → ∃ u, exec (.powerGoodFall true) s = .next u ∧
      begun u ∧ u.mc.hubPg = false) ∧
    (s.mc.stbyPg = true → s.mc.haltedBit = false → s.resetRank < 5 → ∃ u, exec .resetNAssert s = .next u ∧ u.mc.resetN = false ∧ begun u) ∧
    (∃ u, exec .resetNRise s = .next u ∧ u.mc.resetN = true) ∧
    (s.attempting = true → s.mc.powered = true → s.mc.stage = 1 → ∃ u, exec (.bootStageDone o) s = .next u ∧ u.mc.stage = 2 ∧ u.mc.stageStart = s.stamp 16) ∧
    (s.attempting = true → s.mc.powered = true → s.mc.stage = 8 → o.imageOk = true → ∃ u, exec (.bootStageDone o) s = .next u ∧ u.mc.stage = 9 ∧
      u.mc.rvbar = BitVec.ofNat 64 (fieldOf o.vector 56 12 * 4096)) ∧
    (s.attempting = true → s.mc.powered = true → s.mc.minimal = false → s.mc.stageStart.toNat + msTicks s.stageLimit ≤ (s.stamp 16).toNat →
      ∃ u, exec .bootStageTimeout s = .next u ∧ begun u) ∧
    (b < 64 → s.thrPresent t = true → bit (Tbl.get 0 s.mc.release m.val) b = false → ∃ u, exec (.bootReleaseWrite m (BitVec.ofNat 64 (2 ^ b))) s = .next u ∧
      (u.thr t).run = .running ∧ (u.thr t).level = .m ∧ (u.thr t).world = 0xFFF ∧ (u.thr t).pc = BitVec.ofNat 64 (fieldOf s.mc.rvbar 56 12 * 4096) ∧
      bit (Tbl.get 0 u.mc.release m.val) b = true ∧ ∀ k, k ≠ t → u.thr k = s.thr k) ∧
    ((s.die die.val).parked = true → ∃ u, exec (.dieReset die) s = .next u ∧ (u.die die.val).parked = true ∧ (∀ k, k < 64 → (u.thr (64 * die.val + k)).run = .held) ∧ u.mem = s.mem) ∧
    (s.corePresent c.val = true → s.coreResets = [] → s.threadsDone [2 * c.val, 2 * c.val + 1] = true → (s.core c.val).bare = true →
      ∃ u, exec (.coreReset c) s = .next u ∧ u.core c.val = Core.reset ∧ (u.thr (2 * c.val)).run = .held ∧ (u.thr (2 * c.val + 1)).run = .held ∧ u.mem = s.mem)

/-! Error records. -/

/-- An error that no CE record of its store merges with takes a free slot with its code, severity and address; a record is freed only by a write that names its generation and may see it;
only the Secure side clears the sticky summary, and a notification register takes its written fields (19 R410, R411, R420, R421). -/
def Obligations.ErrorRecords : Prop :=
  ∀ (s : State) (die : Fin 17) (r : RecordIn) (n : Nat) (slot : Fin 512) (val : Word),
    let d := die.val
    ((s.die d).inService = true → 1 ≤ r.sev.toNat → r.sev.toNat ≤ 3 → r.code ≠ 0x0203 → s.mergeSlot d r = none → s.freeSlot d = some n →
      ∃ u q, exec (.errorRecordStore die r) s = .next u ∧ u.slot d n = q ∧ q.valid = true ∧ q.code = r.code ∧ q.sev = r.sev ∧ q.world = r.world ∧ q.count = 1 ∧ q.gen = nextGen (s.slot d n).gen ∧ u.mem = s.mem) ∧
    (bit val 63 = true → (s.slot d slot.val).valid = true → fieldOf val 47 32 = (s.slot d slot.val).gen.toNat → ∃ u, exec (.recordFree true die slot val) s = .next u ∧
      (u.slot d slot.val).valid = false ∧ u.threads = s.threads ∧ u.mem = s.mem ∧ ∀ k, k ≠ slot.val → u.slot d k = s.slot d k) ∧
    ((s.slot d slot.val).world = 0xFFF → exec (.recordFree false die slot val) s = .next s) ∧
    (exec (.summaryClr false) s = .next s ∧ ∃ u, exec (.summaryClr true) s = .next u ∧ u = { s with errs := { s.errs with first := [], latest := [] } }) ∧
    (∀ sec, ∃ u, exec (.errCeNotifyWrite sec val) s = .next u ∧ (let reg := if sec then u.errs.notifyS else u.errs.notifyN
      bit reg 63 = bit val 63 ∧ fieldOf reg 9 0 = fieldOf val 9 0 ∧ (fieldOf val 47 32 ≠ 0 → fieldOf reg 47 32 = fieldOf val 47 32)) ∧
      (if sec then u.errs.notifyN = s.errs.notifyN else u.errs.notifyS = s.errs.notifyS) ∧ u.threads = s.threads ∧ u.mem = s.mem)

/-! Data Movers. -/

/-- Channels, slots and commands of instances. A channel of a powered engine without an instance takes a world; a binding write binds an UNBOUND instance, FROZEN, to a free slot; FREEZE, THAW, SAVE, RESTORE and RESET act in the states that admit them,
and any other command sets CMD_ERR; a view of the other world side changes nothing; a doorbell's mask is pending for its other side, and DB_TAIL takes what is written (14 R340; 15 R355, R357, R358, R362, R363). -/
def Obligations.InstanceCommands : Prop :=
  ∀ (s : State) (sec : Bool) (inst : Fin 512) (e : Fin 4) (ch : Fin 16) (slot : Fin 64) (world : Tag) (tail : BitVec 16) (mask : BitVec 8),
    let i := inst.val
    let x := s.inst i
    let bindWord := BitVec.ofNat 64 (2 ^ 63 + i)
    let becomes := fun (c : Instr) (y : Inst) => exec c s = .next (s.updInst i (fun _ => y))
    (s.regOff (caddr 16 (0xC8 + e.val) (0x40 + ch.val)) = false → (∀ k, k < 4 → s.slotInst e.val (4 * ch.val + k) = none) → ∃ u, exec (.dmvChWorldWrite e ch world) s = .next u ∧ u.chanWorld e.val ch.val = world ∧ u.insts = s.insts ∧ u.threads = s.threads) ∧
    (s.regOff (slotAddr e.val slot.val) = false → s.slotInst e.val slot.val = none → x.st = .unbound → ∃ u, exec (.dmvSlotWrite e slot bindWord) s = .next u ∧ u.slotInst e.val slot.val = some i ∧
      u.inst i = { Inst.reset with st := .frozen, engine := e.val, slot := slot.val } ∧ ∀ k, k ≠ i → u.inst k = s.inst k) ∧
    (s.instOpen i sec = true →
      (x.st = .running → becomes (.instFreeze sec inst) { x with st := .freezing }) ∧
      (x.st ≠ .running → becomes (.instFreeze sec inst) { x with cmdErr := true }) ∧
      (x.st = .frozen → becomes (.instThaw sec inst) { x with st := .running }) ∧
      (x.st ≠ .frozen → becomes (.instThaw sec inst) { x with cmdErr := true }) ∧
      (x.st = .frozen → becomes (.instSave sec inst) { x with st := .busy, doing := .saving }) ∧
      (x.st ≠ .frozen → becomes (.instSave sec inst) { x with cmdErr := true }) ∧
      (x.st = .frozen → becomes (.instRestore sec inst) { x with st := .busy, doing := .restoring }) ∧
      (x.st ≠ .frozen → becomes (.instRestore sec inst) { x with cmdErr := true }) ∧
      (x.st = .running ∨ x.st = .frozen → becomes (.instReset sec inst) { x with st := .freezing, resetting := true }) ∧
      (x.st ≠ .running → x.st ≠ .frozen → becomes (.instReset sec inst) { x with cmdErr := true }) ∧
      becomes (.dbTailWrite sec inst tail) { x with tail := tail } ∧
      (∃ u, exec (.h2gDb sec inst mask) s = .next u ∧ u.inst i = { x with h2gPend := x.h2gPend ||| mask } ∧ u.mem = s.mem ∧ ∀ k, k ≠ i → u.inst k = s.inst k) ∧
      (∃ u, exec (.g2hDb sec inst mask) s = .next u ∧ u.inst i = { x with g2hPend := x.g2hPend ||| mask } ∧ u.mem = s.mem ∧ ∀ k, k ≠ i → u.inst k = s.inst k)) ∧
    (s.instOpen i sec = false →
      ∀ c ∈ [Instr.instFreeze sec inst, .instThaw sec inst, .instSave sec inst, .instRestore sec inst, .instReset sec inst, .dbTailWrite sec inst tail, .h2gDb sec inst mask, .g2hDb sec inst mask],
        exec c s = .next s)

/-- Segments and the ends of commands. The bytes of a segment count as done once they have moved, in the turn of the slot; a FREEZING instance whose segment is complete is FROZEN, and one that
a RESET froze without a descriptor has DB_HEAD at DB_TAIL and no bit pending; SAVE ends FROZEN, RESTORE ends with what the record holds (15 R360, R363 to R365). -/
def Obligations.InstanceProgress : Prop :=
  ∀ (s t : State) (inst : Fin 512) (e : Fin 4) (ch : Fin 16) (y : Inst),
    let i := inst.val
    let x := s.inst i
    let g := s.gather i x.recordLines
    let settled := x.doing = .none ∧ x.waits = false ∧ x.ioErr = 0
    let key := 16 * e.val + ch.val
    (Tbl.get 0 s.served key = 0 → s.slotInst e.val (4 * ch.val) = some i → x.st = .running → settled → x.flight ≠ 0 → x.done + x.flight < descLen x.desc →
      ∃ u, exec (.dmvSegment e ch) s = .next u ∧ u.inst i = { x with done := x.done + x.flight, flight := 0 } ∧ Tbl.get 0 u.served key = 1 ∧ u.mem = s.mem) ∧
    (Tbl.get 0 s.served key = 0 → s.slotInst e.val (4 * ch.val) = some i → x.st = .running → settled → x.flight = 0 → x.started = true → x.done < descLen x.desc → s.segment i = .go t →
      (t.inst i).waits = true → exec (.dmvSegment e ch) s = .next { t with served := Tbl.set 0 t.served key 1 }) ∧
    (x.st = .freezing → settled → x.started = false → x.resetting = false → ∃ u, exec (.instFreezeDone inst) s = .next u ∧
      u.inst i = { x with st := .frozen, done := x.done + x.flight, flight := 0, ioGot := [] } ∧ u.mem = s.mem) ∧
    (x.st = .freezing → settled → x.started = false → x.resetting = true → ∃ u, exec (.instFreezeDone inst) s = .next u ∧ (u.inst i).st = .frozen ∧
      (u.inst i).resetting = false ∧ (u.inst i).head = x.tail ∧ (u.inst i).tail = x.tail ∧ (u.inst i).h2gPend = 0 ∧ (u.inst i).g2hPend = 0 ∧ u.mem = s.mem) ∧
    (x.st = .busy → x.doing = .savingSent → x.ioErr = 0 → x.waits = false → s.mirrored = false →
      exec (.instSaveDone inst) s = .next (s.updInst i (fun x => { x with st := .frozen, doing := .none }))) ∧
    (x.st = .busy → x.doing = .restoring → x.ioErr = 0 → x.waits = false → g.2 = .ok → (∀ l ∈ x.recordLines, (g.1.gathered i l).2 = false) →
      g.1.recordInst i (x.recordLines.flatMap (fun l => lineBytes (g.1.gathered i l).1)) = some y →
      ∃ u, exec (.instRestoreDone inst) s = .next u ∧ u.inst i = y ∧ y.st = .frozen ∧ u.mem = s.mem)

/-! Root ports and the I/O MMU. -/

/-- Requests of a root port. A completion in time answers its request with the data read, or ends it in UR; one at ENDPT_TMO ends with a record; a link that goes down ends what is
outstanding; containment is sticky, its release retrains the link, and a trained sub-port takes CXL where it is offered and enabled (07 R199; 16 R366, R367, R369 to R371). -/
def Obligations.RootPorts : Prop :=
  ∀ (s : State) (port : Fin 10) (sub : Fin 4) (n : Nat) (r : PortReq) (data : Word) (mask : BitVec 4) (b : Bool),
    let p := port.val
    let k := sub.val
    let x := s.sub p k
    let f := r.flit
    let here := (s.port p).reqs[n]? = some r ∧ f.req ≠ .port p ∧ (s.port p).owed = []
    let inTime := (s.stamp 16).toNat < r.stamp.toNat + s.endptLimit p
    (here → inTime → s.isCxl f.line = false → r.zeroRead = false → r.covers = [] → f.op = .rdNc → ∃ u g, exec (.pcieCompletion port n .success data) s = .next u ∧
      u.net = s.net ++ [g] ∧ g.op = .dataS ∧ g.dst = f.req ∧ g.tid = f.tid ∧ g.poison = false ∧ g.data = placeVal data (maskOff f.mask) ∧
      (u.port p).reqs = listDrop (s.port p).reqs n ∧ u.mem = s.mem) ∧
    (here → inTime → ∃ u g, exec (.pcieCompletion port n .unsupported data) s = .next u ∧ g ∈ u.net ∧ g.dst = f.req ∧ g.tid = f.tid ∧ g.err = some codePcieUr ∧
      (u.port p).reqs = listDrop (s.port p).reqs n ∧ u.mem = s.mem) ∧
    (here → ¬ inTime → bit (s.pcieCtl p) 60 = false → ∃ u g, exec (.endptTimeout port n) s = .next u ∧ g ∈ u.net ∧ g.dst = f.req ∧ g.tid = f.tid ∧
      g.err = some codeEndptTimeout ∧ (u.port p).reqs = listDrop (s.port p).reqs n ∧ u.mem = s.mem) ∧
    (here → ¬ inTime → bit (s.pcieCtl p) 60 = true → r.sub = k → ∃ u, exec (.endptTimeout port n) s = .next u ∧ u.isContained p k = true ∧ (∀ q ∈ (u.port p).reqs, q.sub ≠ k) ∧ u.mem = s.mem) ∧
    (∃ u, exec (.containedWrite port mask) s = .next u ∧ u.ctl = s.ctl ∧ u.mem = s.mem ∧
      (bit mask k = true → s.isContained p k = true → u.sub p k = { x with up := false, perst := true, hotReset := true }) ∧
      (bit mask k = false ∨ s.isContained p k = false → u.sub p k = x)) ∧
    (s.isContained p k = true → x.hotReset = true → ∃ u, exec (.containmentReleaseDone port sub) s = .next u ∧ u.isContained p k = false ∧
      u.sub p k = { x with up := true, perst := false, hotReset := false } ∧ u.mem = s.mem) ∧
    (x.up = true → ∃ u, exec (.pcieLinkDown port sub b) s = .next u ∧ (u.sub p k).up = false ∧ (∀ q ∈ (u.port p).reqs, q.sub ≠ k) ∧
      u.isContained p k = (s.isContained p k || (b && bit (s.pcieCtl p) 60)) ∧ u.mem = s.mem) ∧
    (x.up = false → x.perst = false → s.isContained p k = false → k < subCount (s.trainBifur p) → s.minimalRun = false → ∃ u, exec (.pcieLinkUp port sub b) s = .next u ∧
      u.sub p k = { x with up := true, cxl := b && bit (s.pcieCtl p) 61 } ∧ (u.port p).bifur = s.trainBifur p ∧ u.mem = s.mem) ∧
    (s.mc.hubPg = true → s.mc.hubRise.toNat + usTicks 100000 ≤ (s.stamp 16).toNat → x.hotReset = false →
      exec (.perstNRelease port sub) s = .next (s.updSub p k (fun x => { x with perst := false })))

/-- Inbound requests. A write of a stream without translation reaches its line under its mask, and a read changes nothing; a message asserts its source; the last completion of an invalidation, or its limit,
acknowledges the broadcast, and the limit takes ATS from the function; a page request takes the next entry of its ring or fails, and a response is kept for its function (16 R373 to R377). -/
def Obligations.InboundRequests : Prop :=
  ∀ (s : State) (port : Fin 10) (sub : Fin 4) (r : InboundReq) (stream : BitVec 16) (ws : List Word) (sec : Bool) (data : BitVec 32) (f : Flit) (at_ w0 w1 : Word),
    let p := port.val
    let k := sub.val
    let live := s.isContained p k = false ∧ (s.sub p k).up = true ∧ s.outsideWaits = false ∧ s.writesAway (.port p) k = false
    let cached := s.iommu.streams.find? (fun q => q.1 == stream) = some (stream, ws)
    let pa := r.iova.toNat
    let line := pa / 64
    let tag := s.streamWorld stream.toNat
    let bare := bit (ws.getD 0 0) 62 = false ∧ bit (ws.getD 0 0) 61 = false ∧ pa < 2 ^ 57 ∧ msiPage pa = none
    let alone := fun (l : Nat) => s.ioWaits l = false ∧ s.dirEnt l = none ∧ s.atom l = none ∧ s.copyWorld l = none ∧ s.memPoison l = false ∧ s.rankFailed l = false
    let clear := (∃ o, s.region pa = .dram o) ∧ alone line ∧ s.ioLocal line = true
    let free := bit (s.ctlGet (s.streamReg p stream)) 63 = false ∧ s.regBusy (s.streamReg p stream) = false
    let mask := byteMask (pa % 64) r.size.val
    let n := data.toNat % 4096
    let world : Tag := if sec then 0xFFF else 0
    let io := s.iommu
    let ring := fieldOf io.prqBase 56 12 * 4096 + 16 * (io.prqTail % s.prqSize)
    let outstanding := io.atsWaits = [(stream, f.tid, at_)] ∧ io.tlbiWaits = [(f, 1)]
    let limit := usTicks (fieldOf (s.pcieCtl (((s.busPort (stream.toNat / 256)).map Prod.fst).getD (stream.toNat / 8 % 32 % 10))) 47 32)
    (live → cached → bare → clear → free → r.stream = stream → r.translated = false → r.kind = .write → s.memReady line tag false true → tag ≠ 0xFFF →
      ∃ u, exec (.pcieInboundRequest port sub r) s = .next u ∧
        u.mem = (s.putLine line (mergeLine (s.memLine line) (r.data <<< (8 * (pa % 64))) mask) false).mem ∧ u.threads = s.threads) ∧
    (live → cached → bare → clear → free → r.stream = stream → r.translated = false → r.kind = .read → s.memReady line tag true false → tag ≠ 0xFFF →
      exec (.pcieInboundRequest port sub r) s = .next s) ∧
    (live → s.streamWorld stream.toNat = world → 128 ≤ n → s.sourceSecure n = sec → ∃ u, exec (.msiWrite port sub stream sec data) s = .next u ∧
      (sourceExists n = true → bit (s.source n) 63 = true → n ∈ u.srcPend) ∧ u = { s with srcPend := u.srcPend }) ∧
    (outstanding → ∃ u g, exec (.atsInvalidateCompletion stream) s = .next u ∧ u.iommu = { io with atsWaits := [], tlbiWaits := [] } ∧ u.net = s.net ++ [g] ∧ g.op = .ack ∧
      g.dst = f.src ∧ g.tid = f.tid ∧ u.mem = s.mem) ∧
    (outstanding → at_.toNat + limit ≤ (s.stamp 16).toNat → ∃ u g, exec (.atsTimeout stream) s = .next u ∧ stream ∈ u.iommu.atsLost ∧ u.iommu.atsWaits = [] ∧ u.iommu.tlbiWaits = [] ∧
      u.net = s.net ++ [g] ∧ g.op = .ack ∧ g.dst = f.src ∧ g.tid = f.tid ∧ u.mem = s.mem) ∧
    (cached → bit (ws.getD 0 0) 59 = false → exec (.priPageRequest stream w0 w1) s = .next { s with iommu := { io with failures := io.failures ++ [(stream, BitVec.ofNat 9 (fieldOf w1 11 3))] } }) ∧
    (cached → bit (ws.getD 0 0) 59 = true → (io.prqTail + 65536 - io.prqHead) % 65536 < s.prqSize → alone (ring / 64) → s.memReady (ring / 64) 0 false true →
      ∃ u, exec (.priPageRequest stream w0 w1) s = .next u ∧ u.iommu.prqTail = (io.prqTail + 1) % 65536 ∧
        u.mem = (s.putLine (ring / 64) (mergeLine (s.memLine (ring / 64)) (BitVec.ofNat 512 ((w0.toNat + w1.toNat * 2 ^ 64) * 2 ^ (8 * (ring % 64)))) (byteMask (ring % 64) 16)) false).mem) ∧
    exec (.prgRespWrite w0) s = .next { s with iommu := { io with responses := io.responses ++ [w0] } }

/-! Forme engines. -/

/-- Steps of a forme. A step acts on the word its engine stands at and leaves it past the word's operands: a read fills an accumulator, a write and a masked write that the register takes put what the word names,
a write under HOLD is buffered, a poll waits until the masked register is what is wanted, a jump is taken or not, a stamp leaves an event, a call that its library forme completes goes on, as UCODE_LOAD does at once
(20 R431, R434, R436, R441). -/
def Obligations.FormeSteps : Prop :=
  ∀ (s : State) (engine : Fin 17) (w v mask : Word) (p : Nat),
    let e := engine.val
    let x := s.frm e
    let a := fieldOf w 39 0
    let put := fun (v : Word) => s.formePut x.cls.toNat a v
    let lib := s.libCall e (fieldOf w 15 0) true 0
    let at_ := fun (op : Nat) => s.wordOf e op = some w
    let goes := fun (c : Instr) (y : FrmEngine) (n : Nat) => ∃ u, exec c s = .next u ∧ u.frm e = { y with pc := n, polling := none, quiescing := false, calling := none } ∧
      (∀ d, d ≠ e → u.die d = s.die d) ∧ u.threads = s.threads ∧ u.mem = s.mem ∧ u.ctl = s.ctl
    (at_ 0 → goes (.formeNop engine) x (x.pc + 1)) ∧
    (at_ 1 → x.hold = false → bit w 57 = false → x.operand 1 = some v → (put v).isSome = true → exec (.formeWrite engine) s = .next (((put v).getD s).formeStep e 2)) ∧
    (at_ 1 → x.hold = false → bit w 57 = true → (put (x.accOf w)).isSome = true → exec (.formeWrite engine) s = .next (((put (x.accOf w)).getD s).formeStep e 1)) ∧
    (at_ 1 → x.hold = true → x.buffer.length < 64 → bit w 57 = false → x.operand 1 = some v → s.mayWrite x.cls.toNat a v = true →
      goes (.formeWrite engine) { x with buffer := x.buffer ++ [(a, v)] } (x.pc + 2)) ∧
    (at_ 2 → s.regRead a = some v → goes (.formeRead engine) { x with acc := Tbl.set 0 x.acc (fieldOf w 56 54) v } (x.pc + 1)) ∧
    (∀ old, at_ 3 → x.hold = false → s.regRead a = some old → x.operand 1 = some mask → x.operand 2 = some v → (put ((old &&& ~~~ mask) ||| (v &&& mask))).isSome = true →
      exec (.formeRmw engine) s = .next (((put ((old &&& ~~~ mask) ||| (v &&& mask))).getD s).formeStep e 3)) ∧
    (∀ now, at_ 4 → s.regRead a = some now → x.operand 1 = some mask → x.operand 2 = some v →
      (now &&& mask = v → goes (.formePoll engine) x (x.pc + 3)) ∧
      (now &&& mask ≠ v → x.polling = none → exec (.formePoll engine) s = .next (s.updFrm e (fun x => { x with polling := some (s.stamp e) })))) ∧
    (at_ 8 → ∃ u, exec (.formeStamp engine) s = .next u ∧ (u.frm e).pc = x.pc + 1 ∧ u.threads = s.threads ∧ u.mem = s.mem ∧
      (bit (s.die e).ephCtl 63 = false → (s.die e).ringCycle < s.cycle → ∃ q, (u.die e).ring.getLast? = some q ∧ q.cls = 3 ∧ q.node = s.node (.forme e) ∧
        q.code = BitVec.ofNat 16 (fieldOf w 51 40) ∧ q.stamp = s.stampAt e q.node)) ∧
    (at_ 9 → x.target w = some p → goes (.formeJump engine) x p) ∧
    (at_ 0xA → x.accOf w = 0 → goes (.formeBrnz engine) x (x.pc + 1)) ∧
    (at_ 0xA → x.accOf w ≠ 0 → x.target w = some p → goes (.formeBrnz engine) x p) ∧
    (at_ 0xB → fieldOf w 15 0 = 0x12 → x.cls.toNat ≤ 1 → x.calling = none → goes (.formeCall engine) x (x.pc + 1)) ∧
    (∀ k, at_ 0xB → libClass (fieldOf w 15 0) = some k → x.cls.toNat ≤ k → x.calling = none → lib.2 = .done →
      exec (.formeCall engine) s = .next (if (lib.1.frm e).st = .idle then lib.1 else lib.1.formeStep e 1))

/-- The course of a forme. A submitted image waits in its engine's queue of 16; one that verifies runs from its first word, one without its signature ends REFUSED; a quiesce of a target that exists is asked for,
takes hold once its scope is drained, and is released; a barrier of a forme without a group passes at once; a failed step releases the quiesces and enters the rollback section; RETURN and END end the forme. A
register write on each path is the register's write where that path may make it, and the MC sees whether it was refused (00 R4, R6; 01 R32, R36; 20 R432 to R439). -/
def Obligations.FormeCourse : Prop :=
  ∀ (s : State) (engine : Fin 17) (w val : Word) (q : Quiesce) (pa group : Nat) (fromMc sigOk : Bool) (rest : List (Nat × Nat × Bool)) (addr : BitVec 57),
    let e := engine.val
    let x := s.frm e
    let at_ := fun (op : Nat) => s.wordOf e op = some w
    let releases := fun (u : State) => u.mem = s.mem ∧ ((∀ r ∈ s.quiesces, r.engine = e → r.scope ≠ 1) → u.threads = s.threads)
    let fails := fun (c : Instr) => x.st = .running → x.rollbackAt < x.words.length → ∃ u, exec c s = .next u ∧ (u.frm e).st = .rollback ∧ (u.frm e).pc = x.rollbackAt ∧
      (u.frm e).step = BitVec.ofNat 24 x.pc ∧ (∀ r ∈ u.quiesces, r.engine ≠ e) ∧ releases u
    let ends := fun (c : Instr) => ∃ u, exec c s = .next u ∧ (u.frm e).st = .idle ∧ (u.frm e).last = (if x.st = .rollback then 1 else 0) ∧ (∀ r ∈ u.quiesces, r.engine ≠ e) ∧
      releases u
    let past := { x with pc := x.pc + 1, polling := none, quiescing := false, calling := none, atSync := none }
    let cls := fieldOf (s.imageWord (pa + 8)) 47 40
    let words := (List.range (fieldOf (s.imageWord (pa + 8)) 31 0)).map (fun i => s.imageWord (pa + 64 + 8 * i))
    let ready := x.queue = (pa, group, fromMc) :: rest ∧ x.st = .idle ∧ (s.die e).inService = true ∧ s.halted = false ∧ s.inReset = false
    (x.queue.length < 16 → x.fault = false →
      exec (.frmSubWrite engine val) s = .next (s.updFrm e (fun x => { x with queue := x.queue ++ [(fieldOf val 56 3 * 8, fieldOf val 63 60, false)] }))) ∧
    (16 ≤ x.queue.length → exec (.frmSubWrite engine val) s = .next (s.updFrm e (fun x => { x with full := true }))) ∧
    (ready → s.imageOk pa = true → (cls = 2 → fromMc = false) → (cls ≠ 2 → sigOk = true) → s.wordsOk cls 0 words = true → ∃ u, exec (.formeBegin engine sigOk) s = .next u ∧
      (u.frm e).st = .running ∧ (u.frm e).words = words ∧ (u.frm e).pc = 0 ∧ (u.frm e).cls = BitVec.ofNat 2 cls ∧ (u.frm e).group = group ∧ (u.frm e).queue = rest ∧ u.mem = s.mem) ∧
    (ready → cls ≠ 2 → sigOk = false → ∃ u, exec (.formeBegin engine sigOk) s = .next u ∧ (u.frm e).st = .idle ∧ (u.frm e).last = 2 ∧ (u.frm e).queue = rest ∧ u.mem = s.mem) ∧
    (∀ since, at_ 4 → x.polling = some since → since.toNat + usTicks (fieldOf w 51 40) ≤ (s.stamp e).toNat → fails (.pollTimeout engine)) ∧
    (at_ 5 → x.quiescing = false → s.scopeOk (fieldOf w 51 48) (quiesceTarget w) = true → ∃ u, exec (.formeQuiesce engine) s = .next u ∧ (u.frm e).quiescing = true ∧ u.quiesces = s.quiesces ++
      [{ engine := e, scope := fieldOf w 51 48, target := quiesceTarget w, limit := fieldOf w 47 40, held := false, stamp := s.stamp e }]) ∧
    (at_ 5 → s.asked e = some q → s.drainedScope q = true → s.quiesceWaits q = false → s.quiesceLate e q = false → ∃ u, exec (.quiesceHold engine) s = .next u ∧
      u.frm e = { x with pc := x.pc + 1, polling := none, quiescing := false, calling := none } ∧ u.quiesces = s.quiesces.map (fun r => if r = q then { r with held := true } else r)) ∧
    (s.frmAwake e = true → (∃ r ∈ s.quiesces, r.engine = e ∧ s.quiesceLate e r = true) → fails (.quiesceCeiling engine)) ∧
    (at_ 6 → ∃ u, exec (.formeResume engine) s = .next u ∧ (u.frm e).pc = x.pc + 1 ∧ releases u ∧
      ∀ r, r ∈ u.quiesces ↔ r ∈ s.quiesces ∧ ¬ (r.engine = e ∧ r.scope = fieldOf w 51 48 ∧ r.target = quiesceTarget w)) ∧
    (at_ 7 → x.group = 0 → bit w 48 = true → ∃ u, exec (.formeSync engine) s = .next u ∧ u.frm e = { past with hold := true } ∧ u.mem = s.mem) ∧
    (at_ 7 → x.group = 0 → bit w 48 = false → x.buffer = [] → ∃ u, exec (.formeSync engine) s = .next u ∧ u.frm e = { past with hold := false } ∧ u.mem = s.mem) ∧
    (s.frmAwake e = true → x.group = 0 → x.atSync.isSome = true → x.words[x.pc]? = some w → bit w 48 = true →
      ∃ u, exec (.syncRelease engine) s = .next u ∧ u.frm e = { past with hold := true } ∧ u.mem = s.mem) ∧
    (at_ 0xD → fails (.formeFail engine)) ∧ (at_ 0xC → ends (.formeReturn engine)) ∧ (at_ 0xE → ends (.formeEnd engine)) ∧
    (let a := addr.toNat % 2 ^ 40
     let mc := fun (u : State) (bad : Bool) => ({ u with mc := { u.mc with ctlErr := bad } } : State)
     (∀ k path, (k, path) ∈ [(0, WritePath.vendorForme), (1, .ownerForme), (2, .ephemeralForme)] →
       (s.mayWrite k a val = true → exec (.registerWrite path addr val) s = .next ((s.regPut a val).getD s)) ∧
       (s.mayWrite k a val = false → exec (.registerWrite path addr val) s = .next s)) ∧
     (a = caddr 16 0x100 0x10 → exec (.registerWrite .mc addr val) s = .next (mc { s with mc := { s.mc with rvbar := BitVec.ofNat 64 (fieldOf val 56 12 * 4096) } } false)) ∧
     (mcWrites a = false → exec (.registerWrite .mc addr val) s = .next (mc s true)) ∧
     (∀ off, s.region addr.toNat = .pkg off → s.secureMmio off = true → exec (.registerWrite .normalWindow addr val) s = .next s) ∧
     (∀ off, s.region addr.toNat = .pkg off → exec (.registerWrite .secureWindow addr val) s = .next ((s.mmioWrite true (off - off % 8) val (BitVec.allOnes 64)).getD s)))

/-! The management controller. -/

/-- Requests of the Monitor, and the MC's firmware. A request in hand is answered with its status and payload and is in hand no more: BOOT_OK ends stage 0x9, a reset request begins its reset, P5 is asked for or REFUSED, MINIMAL clears,
the boot reasons, the telemetry and the Frisket's state are read, OWNER passes to FIELD, a session closes; the time that the BMC gave is sent once; the MC restarts on a fault or an update while threads run
on, and answers an interrupted request RESTARTED (18 R404, R405, R407; 19 R418; 20 R443; 21 R448, R449, R453, R454). -/
def Obligations.MailboxRequests : Prop :=
  ∀ (s : State) (r : List Word) (v i c : BitVec 16) (stamp tai ns age : Word),
    let has := fun (op : Nat) => s.reqOf op = some r
    let answers := fun (u : State) (status : Nat) (payload : List Word) => u.mc.inHand = none ∧ u.mc.rspPend = true ∧ fieldOf (Tbl.get 0 u.mc.rsp 0) 39 32 = status ∧
      fieldOf (Tbl.get 0 u.mc.rsp 0) 31 0 = fieldOf (r.getD 0 0) 31 0 ∧ (∀ k, k < payload.length → k < 31 → Tbl.get 0 u.mc.rsp (k + 1) = payload.getD k 0) ∧ u.threads = s.threads
    let reset := fun (u : State) (stage : BitVec 4) => u.mc.stage = stage ∧ u.mc.resetting = true ∧ u.pending = s.pending ∧ u.part = s.part
    let sub := fieldOf (r.getD 1 0) 1 0
    (has 1 → s.mc.resetting = true → s.mc.stage = 9 → ∃ u, exec .mbxBootOk s = .next u ∧ answers u 0 [] ∧ u.mc.resetting = false ∧ fieldOf u.mc.tries 2 0 = 0) ∧
    (has 1 → s.mc.stage ≠ 9 → ∃ u, exec .mbxBootOk s = .next u ∧ answers u 2 [] ∧ u.mc.tries = s.mc.tries) ∧
    (has 3 → s.chainBuffer (r.getD 1 0).toNat = true → ∃ u n, exec .mbxGetChain s = .next u ∧ u.mc.inHand = none ∧ fieldOf (Tbl.get 0 u.mc.rsp 0) 39 32 = 0 ∧
      Tbl.get 0 u.mc.rsp 1 = BitVec.ofNat 64 n ∧ n ≤ 16384) ∧
    (has 3 → s.chainBuffer (r.getD 1 0).toNat = false → ∃ u, exec .mbxGetChain s = .next u ∧ answers u 3 [] ∧ u.mem = s.mem) ∧
    (has 4 → bit (r.getD 1 0) 0 = false → s.mc.haltedBit = false → s.resetRank < 5 → ∃ u, exec .mbxResetCold s = .next u ∧ reset u 1 ∧ u.threads = []) ∧
    (has 4 → bit (r.getD 1 0) 0 = true → s.mc.haltedBit = false → s.power.thermtrip = false → s.resetRank < 4 → s.paired = false → ∃ u, exec .mbxResetWarm s = .next u ∧ reset u 10) ∧
    (has 5 → s.p5Ready = true → ∃ u, exec .mbxP5Enter s = .next u ∧ answers u 0 [] ∧ u.power.p5Asked = true) ∧
    (has 5 → s.p5Ready = false → ∃ u, exec .mbxP5Enter s = .next u ∧ answers u 2 [] ∧ u.power = s.power) ∧
    (has 6 → ∃ u, exec .mbxClearMinimal s = .next u ∧ answers u 0 [] ∧ bit u.mc.tries 6 = false) ∧
    (has 7 → ∃ u, exec .mbxBootReason s = .next u ∧ answers u 0 [s.bootReason (2 * ((r.getD 1 0).toNat % 16)), s.bootReason (2 * ((r.getD 1 0).toNat % 16) + 1)] ∧ u.mem = s.mem) ∧
    (has 8 → s.mc.telemetry = some (v, i, c) → ∃ u, exec .mbxTelemetry s = .next u ∧ answers u 0 [v.setWidth 64, i.setWidth 64, c.setWidth 64] ∧ u.mem = s.mem) ∧
    (has 9 → sub = 0 → ∃ u, exec .mbxFrisketRead s = .next u ∧ answers u 0 [s.frisket.stat, s.frisket.lockUntil] ∧ u.frisket = s.frisket) ∧
    (has 9 → sub = 1 → s.frisket.life = .owner → ∃ u, exec .mbxFrisketEnterField s = .next u ∧ answers u 0 [] ∧ u.frisket = { s.frisket with life := .field }) ∧
    (has 9 → sub = 1 → s.frisket.life ≠ .owner → ∃ u, exec .mbxFrisketEnterField s = .next u ∧ answers u 2 [] ∧ u.frisket = s.frisket) ∧
    (has 9 → sub = 2 → ∃ u, exec .mbxFrisketClose s = .next u ∧ u.frisket = { s.frisket with session := 0 } ∧ u.mc.inHand = none ∧ fieldOf (Tbl.get 0 u.mc.rsp 0) 39 32 = 0) ∧
    (s.mcServes = true → s.mc.tod = some (stamp, tai, ns, age) → s.mc.rspPend = false → ∃ u, exec .timePair s = .next u ∧ u.mc.tod = none ∧ u.mc.rspPend = true ∧
      Tbl.get 0 u.mc.rsp 1 = stamp ∧ Tbl.get 0 u.mc.rsp 2 = tai ∧ Tbl.get 0 u.mc.rsp 3 = ns ∧ Tbl.get 0 u.mc.rsp 4 = age ∧ u.threads = s.threads) ∧
    (s.mcServes = true → ∃ u, exec .mcFwFault s = .next u ∧ u.mc.restarting = true ∧ u.mc.inHand = none ∧ u.mc.restartReq = s.mc.inHand ∧ u.threads = s.threads ∧ u.mem = s.mem) ∧
    (s.mc.stbyPg = true → s.mc.restarting = true → s.mc.restartReq = some r → ∃ u, exec .mcRestartDone s = .next u ∧ u.mc.restarting = false ∧
      fieldOf (Tbl.get 0 u.mc.rsp 0) 39 32 = 4 ∧ u.mc.rspPend = true ∧ u.threads = s.threads) ∧
    (s.mcServes = true → ∃ u, exec (.mcFwUpdate true) s = .next u ∧ u.mc.imageB = !s.mc.imageB ∧ u.mc.restarting = true ∧ u.threads = s.threads ∧ u.mem = s.mem) ∧
    exec (.mcFwUpdate false) s = .next s

/-- Commands of the BMC, the Frisket and the test access. While the MC serves, the BMC reads what it names, frees a record by its generation, gives the time, resets the package, asks for P5 and leaves it, clears HALTED or MINIMAL, enrols
or revokes an owner key, passes OWNER to FIELD and closes a session; a challenge is kept, a proof in its level opens a session and clears FAILS, a failed one counts and the eighth locks; debug
instructions reach a thread only in a session that reaches it (18 R405, R406; 19 R420; 21 R446, R450 to R458). -/
def Obligations.BmcFrisketAndTest : Prop :=
  ∀ (s : State) (n : Fin 16) (die : Fin 17) (slot : Fin 512) (gen : BitVec 16) (tai ns age st : Word) (key : BitVec 384) (nonce : BitVec 256) (level : BitVec 2)
    (rest : List (BitVec 2 × BitVec 256 × Word)) (b : Bool) (k : Nat) (t : Thr) (idx : BitVec 10) (val w : Word) (addr : BitVec 57),
    let f := s.frisket
    let tells := fun (c : Instr) (l : List Word) => exec c s = .next { s with mc := { s.mc with bmcOut := l } }
    let frk := fun (c : Instr) (g : Frisket) => exec c s = .next { s with frisket := g }
    let reset := fun (u : State) (stage : BitVec 4) => u.mc.stage = stage ∧ u.mc.resetting = true ∧ u.pending = s.pending ∧ u.part = s.part
    let opens := fun (c : Instr) (lv : BitVec 2) => f.session = 0 → ∃ u, exec c s = .next u ∧ u.frisket.session = lv ∧ u.frisket.fails = 0 ∧ u.frisket.challenges = rest
    let counts := fun (c : Instr) => frk c (let g := { f with challenges := rest, fails := min 8 (f.fails + 1), savedFails := min 8 (f.fails + 1) }
      if f.fails + 1 < 8 then g else { g with locked := true, lockUntil := s.stamp 16 + BitVec.ofNat 64 (msTicks 86400000) })
    let debug := fun (op : TestOp) (y : Thread) => exec (.testAccessInstruction op) s = .next (s.updThr t (fun _ => y))
    (s.mcServes = true →
      tells (.bmcReadBootReason n) [s.bootReason (2 * n.val), s.bootReason (2 * n.val + 1)] ∧
      tells (.bmcReadErrorRecord die slot) ((List.range 8).map (s.slot die.val slot.val).word) ∧
      tells .bmcReadFrisket [f.stat, f.lockUntil] ∧
      (∃ u, exec .bmcReadTelemetry s = .next u ∧ u = { s with free := s.free + 20, mc := { s.mc with bmcOut := s.telemetryWords } }) ∧
      (∃ u, exec .bmcReadCertificates s = .next u ∧ u = { s with free := s.free + 1, mc := { s.mc with bmcOut := u.mc.bmcOut } }) ∧
      ((s.slot die.val slot.val).valid = true → (s.slot die.val slot.val).gen = gen → ∃ u, exec (.bmcFreeErrorRecord die slot gen) s = .next u ∧
        (u.slot die.val slot.val).valid = false ∧ (u.slot die.val slot.val).gen = gen ∧ u.threads = s.threads) ∧
      exec (.bmcDeliverTime tai ns age) s = .next { s with mc := { s.mc with tod := some (s.stamp 16, tai, ns, age) } } ∧
      (s.mc.haltedBit = false → s.resetRank < 5 → ∃ u, exec .bmcColdReset s = .next u ∧ reset u 1 ∧ u.threads = []) ∧
      (s.mc.haltedBit = false → s.power.thermtrip = false → s.resetRank < 4 → s.paired = false → ∃ u, exec .bmcWarmReset s = .next u ∧ reset u 10) ∧
      (s.p5Ready = true → s.heldBlocks = [] → exec .bmcP5Enter s = .next { s with power := { s.power with p5Asked := true } }) ∧
      (s.power.pkg = .p5 → exec .bmcP5Exit s = .next { s with power := { s.power with p5Leave := true } }) ∧
      (s.mc.haltedBit = true → 0 < s.mc.limit → ∃ u, exec .bmcClearHalted s = .next u ∧ reset u 1 ∧ u.mc.haltedBit = false ∧ u.mc.minimal = false ∧ u.threads = []) ∧
      (∃ u, exec .bmcClearMinimal s = .next u ∧ u.mc.minimal = false ∧ u.threads = s.threads) ∧
      ((f.life = .opened ∨ f.life = .owner) → f.slots.length < 4 → frk (.bmcOwnerEnrol key true) { f with slots := f.slots ++ [(key, false)], life := .owner }) ∧
      (exec (.bmcOwnerEnrol key false) s = .next s) ∧
      (f.ownerSlot = some k → f.slots.length < 4 → ∃ u, exec (.bmcOwnerRevoke true) s = .next u ∧
        ∀ j : Nat, u.frisket.slots[j]? = (f.slots[j]?).map (fun q => if j = k then (q.1, true) else q)) ∧
      (f.ownerSlot = some k → f.life = .owner → frk (.bmcEnterField true) { f with life := .field }) ∧
      (∃ u, exec .bmcCloseSession s = .next u ∧ u.frisket = { f with session := 0 } ∧ (f.session ≠ 0 → ∀ j, (u.thr j).run ≠ .debug))) ∧
    (s.frkOpen = true →
      (level = 1 ∨ level = 2 → ∃ u, exec (.frisketChallenge level nonce) s = .next u ∧ u.frisket = { f with challenges := s.frkLive ++ [(level, nonce, s.stamp 16)] } ∧ u.threads = s.threads) ∧
      (s.frkLive = (1, nonce, st) :: rest → opens (.frisketPasswordProof true) 1 ∧ counts (.frisketPasswordProof false) ∧ counts (.frisketOwnerProof false) ∧
        (f.ownerSlot = some k → opens (.frisketOwnerProof true) 1)) ∧
      (s.frkLive = (2, nonce, st) :: rest → counts (.frisketVendorProof false b) ∧ counts (.frisketVendorProof true false) ∧
        (f.ownerSlot = some k → opens (.frisketVendorProof true true) 2 ∧ ∃ u, exec (.frisketVendorProof true true) s = .next u ∧ u.frisket.life = .returned ∧ u.keys = [] ∧
          ∀ q ∈ u.frisket.slots, q.2 = true))) ∧
    (f.locked = true → f.lockUntil.toNat < (s.stamp 16).toNat → frk .lockoutExpire { f with locked := false }) ∧
    (∀ op ∈ [TestOp.bypass, .idcode, .boundaryScan], exec (.testAccessInstruction op) s = .next s) ∧
    (s.thrPresent t.val = true → s.sessionReaches t.val = true →
      let x := s.thr t
      ((x.run = .running ∨ x.run = .waiting) → x.idle = true → debug (.stopThread t) { x.noWalk with run := .debug }) ∧
      (x.run = .debug → debug (.stepThread t) { x with run := .running, suppress := true, dbgCtl := x.dbgCtl ||| 1 }) ∧
      (x.run = .debug → debug (.resumeThread t) { x with run := .running, suppress := true }) ∧
      (0x150 ≤ idx.toNat → idx.toNat ≤ 0x158 → debug (.writeDebugReg t idx val) (x.sysPut idx.toNat val (s.stamp (dieOfThr t))))) ∧
    (f.session = 0 → ∀ op, exec (.testAccessInstruction op) s = .next s) ∧
    (f.session ≠ 0 → s.debugRead addr.toNat = some w → exec (.testAccessInstruction (.readMemory addr)) s = .next { s with mc := { s.mc with bmcOut := [w] } })

/-! The block. -/

/-- A step takes the command at the front of the queue and runs it on the state with the queue's rest; with no command waiting, the block ticks: the master's count
rises by one where it is neither slewed nor disciplined, and no thread moves (log 2). -/
def Obligations.StepTakesFront : Prop :=
  ∀ (s : State) (c : Instr) (rest : List Instr),
    step { s with pending := c :: rest } = exec c { s with pending := rest } ∧
    (s.pending = [] → ∃ u, step s = .next u ∧ u.pending = [] ∧ u.threads = s.threads ∧ u.mem = s.mem ∧ u.net = s.net ∧ (s.slew = 0 → s.ppsRate = 0 → s.ppsAcc.natAbs < ppsTicks → u.now = s.now + 1))

/-- After reset, memory is in its canonical form and no command waits; every thread is held at level M in the Secure world with its FCSR at 1 and every general register zero, the Frisket has no session, no
package state is entered and the first boot attempt stands in stage 0x1 (18 R399, R400, R408). -/
def Obligations.ResetState : Prop :=
  State.reset.memCanonical = true ∧ State.reset.pending = [] ∧ State.reset.mc.stage = 1 ∧ State.reset.mc.resetting = true ∧ State.reset.frisket.session = 0 ∧ State.reset.power.pkg = .p0 ∧
    ∀ t r, (State.reset.thr t).run = .held ∧ (State.reset.thr t).level = .m ∧ (State.reset.thr t).world = 0xFFF ∧ (State.reset.thr t).fcsr = 1 ∧ (State.reset.thr t).readG r = 0

/-- From every state whose memory is in its canonical form a step answers a next state, whatever command is in front, and that state's memory is in its canonical form; the part
and the stepping of the package never change (00 R2, R3). -/
def Obligations.StepsKeepMemoryCanonical : Prop :=
  ∀ s : State, s.memCanonical = true → ∃ u, step s = .next u ∧ u.memCanonical = true ∧ u.part = s.part ∧ u.stepping = s.stepping
end

