-- ==== Sys2Proof/Laws/Tables.lean ====
section
/-! SUPPORT. The laws of tables: a read after a write, and the canonical form. -/

namespace Sys2Proof

variable {β : Type}

theorem Tbl.get_put_same (d : β) (t : Tbl β) (a : Nat) (x : β) : Tbl.get d (Tbl.put t a x) a = x := by
  induction t with
  | nil => simp [Tbl.put, Tbl.get]
  | cons p r ih =>
    obtain ⟨k, v⟩ := p
    by_cases h : k = a
    · simp [Tbl.put, Tbl.get, h]
    · by_cases h2 : a < k <;> simp [Tbl.put, Tbl.get, h, h2, ih]

theorem Tbl.get_put_other (d : β) (t : Tbl β) (a b : Nat) (x : β) (h : b ≠ a) : Tbl.get d (Tbl.put t a x) b = Tbl.get d t b := by
  have h' : a ≠ b := fun e => h e.symm
  induction t with
  | nil => simp [Tbl.put, Tbl.get, h']
  | cons p r ih =>
    obtain ⟨k, v⟩ := p
    by_cases hk : k = a
    · subst hk; simp [Tbl.put, Tbl.get, h']
    · by_cases h2 : a < k
      · simp [Tbl.put, Tbl.get, hk, h2, h']
      · simp [Tbl.put, Tbl.get, hk, h2, ih]

theorem Tbl.get_filter_same (d : β) (t : Tbl β) (a : Nat) : Tbl.get d (t.filter (fun p => p.1 != a)) a = d := by
  induction t with
  | nil => rfl
  | cons p r ih =>
    obtain ⟨k, v⟩ := p
    by_cases h : k = a
    · simpa [List.filter_cons, h] using ih
    · simpa [List.filter_cons, Tbl.get, h] using ih

theorem Tbl.get_filter_other (d : β) (t : Tbl β) (a b : Nat) (h : b ≠ a) : Tbl.get d (t.filter (fun p => p.1 != a)) b = Tbl.get d t b := by
  induction t with
  | nil => rfl
  | cons p r ih =>
    obtain ⟨k, v⟩ := p
    by_cases hk : k = a
    · subst hk
      have h' : k ≠ b := fun e => h e.symm
      simpa [List.filter_cons, Tbl.get, h'] using ih
    · by_cases hb : k = b
      · subst hb; simp [List.filter_cons, Tbl.get, h]
      · simp [List.filter_cons, Tbl.get, hk, hb, ih]

variable [DecidableEq β]

/-- A read of the key that was written gives what was written. -/
@[simp] theorem Tbl.get_set_same (d : β) (t : Tbl β) (a : Nat) (x : β) : Tbl.get d (Tbl.set d t a x) a = x := by
  by_cases h : x = d
  · simp [Tbl.set, h, Tbl.get_filter_same]
  · simp [Tbl.set, h, Tbl.get_put_same]

/-- A write leaves every other key alone. -/
theorem Tbl.get_set_other (d : β) (t : Tbl β) (a b : Nat) (x : β) (h : b ≠ a) : Tbl.get d (Tbl.set d t a x) b = Tbl.get d t b := by
  by_cases hx : x = d
  · simp [Tbl.set, hx, Tbl.get_filter_other d t a b h]
  · simp [Tbl.set, hx, Tbl.get_put_other d t a b x h]

/-- A read of any key after a write. -/
theorem Tbl.get_set (d : β) (t : Tbl β) (a b : Nat) (x : β) : Tbl.get d (Tbl.set d t a x) b = if b = a then x else Tbl.get d t b := by
  by_cases h : b = a
  · subst h; simp
  · simp [h, Tbl.get_set_other d t a b x h]

omit [DecidableEq β] in
@[simp] theorem Tbl.get_nil (d : β) (a : Nat) : Tbl.get d [] a = d := rfl

/-! The canonical form. -/

omit [DecidableEq β] in
theorem Tbl.above_of_le {b c : Nat} {t : Tbl β} (h : b ≤ c) (ht : Tbl.above c t = true) : Tbl.above b t = true := by
  cases t with
  | nil => rfl
  | cons p r => simp only [Tbl.above, decide_eq_true_eq] at *; omega

theorem Tbl.wf_cons {d : β} {k : Nat} {v : β} {r : Tbl β} : Tbl.wf d ((k, v) :: r) = true ↔ Tbl.above k r = true ∧ v ≠ d ∧ Tbl.wf d r = true := by
  simp [Tbl.wf, and_assoc]

theorem Tbl.above_filter (d : β) (f : Nat × β → Bool) (b : Nat) (t : Tbl β) (hw : Tbl.wf d t = true) (h : Tbl.above b t = true) :
    Tbl.above b (t.filter f) = true := by
  induction t with
  | nil => rfl
  | cons p r ih =>
    obtain ⟨k, v⟩ := p
    have hk := Tbl.wf_cons.mp hw
    by_cases hf : f (k, v) = true
    · simpa [List.filter_cons, hf, Tbl.above] using h
    · simp only [List.filter_cons, hf, if_false, Bool.false_eq_true]
      refine ih hk.2.2 (Tbl.above_of_le ?_ hk.1)
      simp only [Tbl.above, decide_eq_true_eq] at h
      omega

/-- Leaving entries out keeps the form. -/
theorem Tbl.wf_filter (d : β) (f : Nat × β → Bool) (t : Tbl β) (h : Tbl.wf d t = true) : Tbl.wf d (t.filter f) = true := by
  induction t with
  | nil => rfl
  | cons p r ih =>
    obtain ⟨k, v⟩ := p
    have hk := Tbl.wf_cons.mp h
    by_cases hf : f (k, v) = true
    · simp only [List.filter_cons, hf, if_true]
      exact Tbl.wf_cons.mpr ⟨Tbl.above_filter d f k r hk.2.2 hk.1, hk.2.1, ih hk.2.2⟩
    · simpa [List.filter_cons, hf] using ih hk.2.2

omit [DecidableEq β] in
theorem Tbl.above_put (b : Nat) (t : Tbl β) (a : Nat) (x : β) (ha : b < a) (h : Tbl.above b t = true) : Tbl.above b (Tbl.put t a x) = true := by
  cases t with
  | nil => simpa [Tbl.put, Tbl.above] using ha
  | cons p r =>
    obtain ⟨k, v⟩ := p
    simp only [Tbl.above, decide_eq_true_eq] at h
    by_cases hk : k = a
    · simpa [Tbl.put, hk, Tbl.above] using ha
    · by_cases h2 : a < k
      · simpa [Tbl.put, hk, h2, Tbl.above] using ha
      · simpa [Tbl.put, hk, h2, Tbl.above] using h

/-- A write keeps the form. -/
theorem Tbl.wf_set (d : β) (t : Tbl β) (a : Nat) (x : β) (h : Tbl.wf d t = true) : Tbl.wf d (Tbl.set d t a x) = true := by
  by_cases hx : x = d
  · simp only [Tbl.set, hx, if_true]; exact Tbl.wf_filter d _ t h
  · simp only [Tbl.set, hx, if_false]
    induction t with
    | nil => simp [Tbl.put, Tbl.wf, Tbl.above, hx]
    | cons p r ih =>
      obtain ⟨k, v⟩ := p
      have hk := Tbl.wf_cons.mp h
      by_cases e : k = a
      · subst e
        simp only [Tbl.put, if_true]
        exact Tbl.wf_cons.mpr ⟨hk.1, hx, hk.2.2⟩
      · by_cases h2 : a < k
        · simp only [Tbl.put, e, h2, if_true, if_false]
          exact Tbl.wf_cons.mpr ⟨by simpa [Tbl.above] using h2, hx, h⟩
        · simp only [Tbl.put, e, h2, if_false]
          exact Tbl.wf_cons.mpr ⟨Tbl.above_put k r a x (by omega) hk.1, hk.2.1, ih hk.2.2⟩

end Sys2Proof
end

