-- ==== Sys2Proof/Laws/Memory.lean ====
section
/-! SUPPORT. The laws of memory: a read after a write, and that every operation on memory keeps its canonical form. -/

namespace Sys2Proof.Machine

/-- A byte that was written reads as written. -/
@[simp] theorem State.setByte_same (s : State) (a : Nat) (b : Byte) : (s.setByte a b).memByte a = b := Tbl.get_set_same _ _ _ _

/-- A write of a byte leaves every other byte alone. -/
theorem State.setByte_other (s : State) (a c : Nat) (b : Byte) (h : c ≠ a) : (s.setByte a b).memByte c = s.memByte c :=
  Tbl.get_set_other _ _ _ _ _ h

theorem State.setByte_wf (s : State) (a : Nat) (b : Byte) (h : memWf s.mem = true) : memWf (s.setByte a b).mem = true := Tbl.wf_set _ _ _ _ h

/-- A write of bytes keeps the form. -/
theorem memPutBytes_wf (l : List Byte) (m : List Host.Cell) (a : Nat) (h : memWf m = true) : memWf (memPutBytes m a l) = true := by
  induction l generalizing m a with
  | nil => exact h
  | cons b r ih => exact ih _ _ (Tbl.wf_set _ _ _ _ h)

/-- A write of bytes leaves every byte before its first alone. -/
theorem memPutBytes_before (l : List Byte) (m : List Host.Cell) (a c : Nat) (h : c < a) :
    Tbl.get memDefault (memPutBytes m a l) c = Tbl.get memDefault m c := by
  induction l generalizing m a with
  | nil => rfl
  | cons b r ih => exact (ih _ (a + 1) (by omega)).trans (Tbl.get_set_other _ _ _ _ _ (by omega))

/-- A byte after a write of bytes: the byte written there, or the byte as it was. -/
theorem memPutBytes_get (l : List Byte) (m : List Host.Cell) (a c : Nat) :
    Tbl.get memDefault (memPutBytes m a l) c = if a ≤ c then (l[c - a]?).getD (Tbl.get memDefault m c) else Tbl.get memDefault m c := by
  induction l generalizing m a with
  | nil => simp [memPutBytes]
  | cons b r ih =>
    simp only [memPutBytes, ih]
    by_cases h : a + 1 ≤ c
    · have h1 : a ≤ c := by omega
      have h2 : c - a = (c - (a + 1)) + 1 := by omega
      have h3 : c ≠ a := by omega
      simp [h, h1, h2, Tbl.get_set_other _ _ _ _ _ h3]
    · by_cases e : c = a
      · subst e; simp
      · have h1 : ¬ a ≤ c := by omega
        simp [h, h1, Tbl.get_set_other _ _ _ _ _ e]

/-- A line's write keeps the form. -/
theorem State.putLine_wf (s : State) (line : Nat) (d : LineData) (p : Bool) (h : memWf s.mem = true) : memWf (s.putLine line d p).mem = true :=
  memPutBytes_wf _ _ _ h

/-- The bytes of a number, as many as asked for. -/
@[simp] theorem leBytes_length (n v : Nat) : (Crypto.leBytes n v).length = n := by
  induction n generalizing v with
  | zero => rfl
  | succ n ih => simp [Crypto.leBytes, ih]

/-- A line's write leaves every byte outside the line alone. -/
theorem State.putLine_other (s : State) (line : Nat) (d : LineData) (p : Bool) (a : Nat) (h : a / 64 ≠ line) :
    (s.putLine line d p).memByte a = s.memByte a := by
  have hl : (lineBytes (s.guardCrypt true line d)).length = 64 := by simp [lineBytes]
  simp only [State.memByte, State.putLine, State.putRaw, memPutBytes_get]
  by_cases h1 : line * 64 ≤ a
  · have : (lineBytes (s.guardCrypt true line d))[a - line * 64]? = none := by
      rw [List.getElem?_eq_none_iff, hl]; omega
    simp [h1, this]
  · simp [h1]

/-- The zeros of fill keep the form (12 R299). -/
theorem State.zeroDram_wf (s : State) (h : memWf s.mem = true) : memWf s.zeroDram.mem = true := Tbl.wf_filter _ _ _ h

/-- Memory after reset is in its form. -/
theorem State.reset_memWf : memWf State.reset.mem = true := rfl

end Sys2Proof.Machine
end

