-- ==== Sys2Proof/Laws/State.lean ====
section
/-! SUPPORT. What an update of one record leaves alone, field by field, and what a read after it gives. -/

namespace Sys2Proof.Machine

variable (s : State)

@[simp] theorem State.setThr_pending (t : Nat) (x : Thread) : (s.setThr t x).pending = s.pending := rfl
@[simp] theorem State.setThr_free (t : Nat) (x : Thread) : (s.setThr t x).free = s.free := rfl
@[simp] theorem State.setThr_now (t : Nat) (x : Thread) : (s.setThr t x).now = s.now := rfl
@[simp] theorem State.setThr_part (t : Nat) (x : Thread) : (s.setThr t x).part = s.part := rfl
@[simp] theorem State.setThr_stepping (t : Nat) (x : Thread) : (s.setThr t x).stepping = s.stepping := rfl
@[simp] theorem State.setThr_pkgId (t : Nat) (x : Thread) : (s.setThr t x).pkgId = s.pkgId := rfl
@[simp] theorem State.setThr_pairPkg (t : Nat) (x : Thread) : (s.setThr t x).pairPkg = s.pairPkg := rfl
@[simp] theorem State.setThr_ctl (t : Nat) (x : Thread) : (s.setThr t x).ctl = s.ctl := rfl
@[simp] theorem State.setThr_cores (t : Nat) (x : Thread) : (s.setThr t x).cores = s.cores := rfl
@[simp] theorem State.setThr_coreTile (t : Nat) (x : Thread) : (s.setThr t x).coreTile = s.coreTile := rfl
@[simp] theorem State.setThr_tiles (t : Nat) (x : Thread) : (s.setThr t x).tiles = s.tiles := rfl
@[simp] theorem State.setThr_dies (t : Nat) (x : Thread) : (s.setThr t x).dies = s.dies := rfl
@[simp] theorem State.setThr_dir (t : Nat) (x : Thread) : (s.setThr t x).dir = s.dir := rfl
@[simp] theorem State.setThr_txns (t : Nat) (x : Thread) : (s.setThr t x).txns = s.txns := rfl
@[simp] theorem State.setThr_atoms (t : Nat) (x : Thread) : (s.setThr t x).atoms = s.atoms := rfl
@[simp] theorem State.setThr_slices (t : Nat) (x : Thread) : (s.setThr t x).slices = s.slices := rfl
@[simp] theorem State.setThr_mem (t : Nat) (x : Thread) : (s.setThr t x).mem = s.mem := rfl
@[simp] theorem State.setThr_poisoned (t : Nat) (x : Thread) : (s.setThr t x).poisoned = s.poisoned := rfl
@[simp] theorem State.setThr_net (t : Nat) (x : Thread) : (s.setThr t x).net = s.net := rfl
@[simp] theorem State.setThr_backoffs (t : Nat) (x : Thread) : (s.setThr t x).backoffs = s.backoffs := rfl
@[simp] theorem State.setThr_nextTid (t : Nat) (x : Thread) : (s.setThr t x).nextTid = s.nextTid := rfl
@[simp] theorem State.setThr_chans (t : Nat) (x : Thread) : (s.setThr t x).chans = s.chans := rfl
@[simp] theorem State.setThr_keys (t : Nat) (x : Thread) : (s.setThr t x).keys = s.keys := rfl
@[simp] theorem State.setThr_almanac (t : Nat) (x : Thread) : (s.setThr t x).almanac = s.almanac := rfl
@[simp] theorem State.setThr_rootPorts (t : Nat) (x : Thread) : (s.setThr t x).rootPorts = s.rootPorts := rfl
@[simp] theorem State.setThr_links (t : Nat) (x : Thread) : (s.setThr t x).links = s.links := rfl
@[simp] theorem State.setThr_insts (t : Nat) (x : Thread) : (s.setThr t x).insts = s.insts := rfl
@[simp] theorem State.setThr_served (t : Nat) (x : Thread) : (s.setThr t x).served = s.served := rfl
@[simp] theorem State.setThr_sources (t : Nat) (x : Thread) : (s.setThr t x).sources = s.sources := rfl
@[simp] theorem State.setThr_srcPend (t : Nat) (x : Thread) : (s.setThr t x).srcPend = s.srcPend := rfl
@[simp] theorem State.setThr_gpios (t : Nat) (x : Thread) : (s.setThr t x).gpios = s.gpios := rfl
@[simp] theorem State.setThr_gpioOut (t : Nat) (x : Thread) : (s.setThr t x).gpioOut = s.gpioOut := rfl
@[simp] theorem State.setThr_gpioOe (t : Nat) (x : Thread) : (s.setThr t x).gpioOe = s.gpioOe := rfl
@[simp] theorem State.setThr_iommu (t : Nat) (x : Thread) : (s.setThr t x).iommu = s.iommu := rfl
@[simp] theorem State.setThr_quiesces (t : Nat) (x : Thread) : (s.setThr t x).quiesces = s.quiesces := rfl
@[simp] theorem State.setThr_mc (t : Nat) (x : Thread) : (s.setThr t x).mc = s.mc := rfl
@[simp] theorem State.setThr_wd (t : Nat) (x : Thread) : (s.setThr t x).wd = s.wd := rfl
@[simp] theorem State.setThr_errs (t : Nat) (x : Thread) : (s.setThr t x).errs = s.errs := rfl
@[simp] theorem State.setThr_frisket (t : Nat) (x : Thread) : (s.setThr t x).frisket = s.frisket := rfl
@[simp] theorem State.setThr_power (t : Nat) (x : Thread) : (s.setThr t x).power = s.power := rfl
@[simp] theorem State.setThr_pair (t : Nat) (x : Thread) : (s.setThr t x).pair = s.pair := rfl
@[simp] theorem State.setThr_ppsLast (t : Nat) (x : Thread) : (s.setThr t x).ppsLast = s.ppsLast := rfl
@[simp] theorem State.setThr_syncAt (t : Nat) (x : Thread) : (s.setThr t x).syncAt = s.syncAt := rfl
@[simp] theorem State.setThr_coreResets (t : Nat) (x : Thread) : (s.setThr t x).coreResets = s.coreResets := rfl
@[simp] theorem State.setThr_slew (t : Nat) (x : Thread) : (s.setThr t x).slew = s.slew := rfl
@[simp] theorem State.setThr_slewPhase (t : Nat) (x : Thread) : (s.setThr t x).slewPhase = s.slewPhase := rfl
@[simp] theorem State.setThr_pairSide (t : Nat) (x : Thread) : (s.setThr t x).pairSide = s.pairSide := rfl
@[simp] theorem State.setThr_outPorts (t : Nat) (x : Thread) : (s.setThr t x).outPorts = s.outPorts := rfl
@[simp] theorem State.setThr_urgentAt (t : Nat) (x : Thread) : (s.setThr t x).urgentAt = s.urgentAt := rfl
@[simp] theorem State.setThr_regFrac (t : Nat) (x : Thread) : (s.setThr t x).regFrac = s.regFrac := rfl
@[simp] theorem State.setThr_regWaits (t : Nat) (x : Thread) : (s.setThr t x).regWaits = s.regWaits := rfl
@[simp] theorem State.setThr_stamped (t : Nat) (x : Thread) : (s.setThr t x).stamped = s.stamped := rfl
@[simp] theorem State.setThr_srcSent (t : Nat) (x : Thread) : (s.setThr t x).srcSent = s.srcSent := rfl
@[simp] theorem State.setThr_ppsRate (t : Nat) (x : Thread) : (s.setThr t x).ppsRate = s.ppsRate := rfl
@[simp] theorem State.setThr_ppsAcc (t : Nat) (x : Thread) : (s.setThr t x).ppsAcc = s.ppsAcc := rfl
@[simp] theorem State.setThr_rootSeen (t : Nat) (x : Thread) : (s.setThr t x).rootSeen = s.rootSeen := rfl
@[simp] theorem State.updThr_pending (t : Nat) (f : Thread → Thread) : (s.updThr t f).pending = s.pending := rfl
@[simp] theorem State.updThr_free (t : Nat) (f : Thread → Thread) : (s.updThr t f).free = s.free := rfl
@[simp] theorem State.updThr_now (t : Nat) (f : Thread → Thread) : (s.updThr t f).now = s.now := rfl
@[simp] theorem State.updThr_part (t : Nat) (f : Thread → Thread) : (s.updThr t f).part = s.part := rfl
@[simp] theorem State.updThr_stepping (t : Nat) (f : Thread → Thread) : (s.updThr t f).stepping = s.stepping := rfl
@[simp] theorem State.updThr_pkgId (t : Nat) (f : Thread → Thread) : (s.updThr t f).pkgId = s.pkgId := rfl
@[simp] theorem State.updThr_pairPkg (t : Nat) (f : Thread → Thread) : (s.updThr t f).pairPkg = s.pairPkg := rfl
@[simp] theorem State.updThr_ctl (t : Nat) (f : Thread → Thread) : (s.updThr t f).ctl = s.ctl := rfl
@[simp] theorem State.updThr_cores (t : Nat) (f : Thread → Thread) : (s.updThr t f).cores = s.cores := rfl
@[simp] theorem State.updThr_coreTile (t : Nat) (f : Thread → Thread) : (s.updThr t f).coreTile = s.coreTile := rfl
@[simp] theorem State.updThr_tiles (t : Nat) (f : Thread → Thread) : (s.updThr t f).tiles = s.tiles := rfl
@[simp] theorem State.updThr_dies (t : Nat) (f : Thread → Thread) : (s.updThr t f).dies = s.dies := rfl
@[simp] theorem State.updThr_dir (t : Nat) (f : Thread → Thread) : (s.updThr t f).dir = s.dir := rfl
@[simp] theorem State.updThr_txns (t : Nat) (f : Thread → Thread) : (s.updThr t f).txns = s.txns := rfl
@[simp] theorem State.updThr_atoms (t : Nat) (f : Thread → Thread) : (s.updThr t f).atoms = s.atoms := rfl
@[simp] theorem State.updThr_slices (t : Nat) (f : Thread → Thread) : (s.updThr t f).slices = s.slices := rfl
@[simp] theorem State.updThr_mem (t : Nat) (f : Thread → Thread) : (s.updThr t f).mem = s.mem := rfl
@[simp] theorem State.updThr_poisoned (t : Nat) (f : Thread → Thread) : (s.updThr t f).poisoned = s.poisoned := rfl
@[simp] theorem State.updThr_net (t : Nat) (f : Thread → Thread) : (s.updThr t f).net = s.net := rfl
@[simp] theorem State.updThr_backoffs (t : Nat) (f : Thread → Thread) : (s.updThr t f).backoffs = s.backoffs := rfl
@[simp] theorem State.updThr_nextTid (t : Nat) (f : Thread → Thread) : (s.updThr t f).nextTid = s.nextTid := rfl
@[simp] theorem State.updThr_chans (t : Nat) (f : Thread → Thread) : (s.updThr t f).chans = s.chans := rfl
@[simp] theorem State.updThr_keys (t : Nat) (f : Thread → Thread) : (s.updThr t f).keys = s.keys := rfl
@[simp] theorem State.updThr_almanac (t : Nat) (f : Thread → Thread) : (s.updThr t f).almanac = s.almanac := rfl
@[simp] theorem State.updThr_rootPorts (t : Nat) (f : Thread → Thread) : (s.updThr t f).rootPorts = s.rootPorts := rfl
@[simp] theorem State.updThr_links (t : Nat) (f : Thread → Thread) : (s.updThr t f).links = s.links := rfl
@[simp] theorem State.updThr_insts (t : Nat) (f : Thread → Thread) : (s.updThr t f).insts = s.insts := rfl
@[simp] theorem State.updThr_served (t : Nat) (f : Thread → Thread) : (s.updThr t f).served = s.served := rfl
@[simp] theorem State.updThr_sources (t : Nat) (f : Thread → Thread) : (s.updThr t f).sources = s.sources := rfl
@[simp] theorem State.updThr_srcPend (t : Nat) (f : Thread → Thread) : (s.updThr t f).srcPend = s.srcPend := rfl
@[simp] theorem State.updThr_gpios (t : Nat) (f : Thread → Thread) : (s.updThr t f).gpios = s.gpios := rfl
@[simp] theorem State.updThr_gpioOut (t : Nat) (f : Thread → Thread) : (s.updThr t f).gpioOut = s.gpioOut := rfl
@[simp] theorem State.updThr_gpioOe (t : Nat) (f : Thread → Thread) : (s.updThr t f).gpioOe = s.gpioOe := rfl
@[simp] theorem State.updThr_iommu (t : Nat) (f : Thread → Thread) : (s.updThr t f).iommu = s.iommu := rfl
@[simp] theorem State.updThr_quiesces (t : Nat) (f : Thread → Thread) : (s.updThr t f).quiesces = s.quiesces := rfl
@[simp] theorem State.updThr_mc (t : Nat) (f : Thread → Thread) : (s.updThr t f).mc = s.mc := rfl
@[simp] theorem State.updThr_wd (t : Nat) (f : Thread → Thread) : (s.updThr t f).wd = s.wd := rfl
@[simp] theorem State.updThr_errs (t : Nat) (f : Thread → Thread) : (s.updThr t f).errs = s.errs := rfl
@[simp] theorem State.updThr_frisket (t : Nat) (f : Thread → Thread) : (s.updThr t f).frisket = s.frisket := rfl
@[simp] theorem State.updThr_power (t : Nat) (f : Thread → Thread) : (s.updThr t f).power = s.power := rfl
@[simp] theorem State.updThr_pair (t : Nat) (f : Thread → Thread) : (s.updThr t f).pair = s.pair := rfl
@[simp] theorem State.updThr_ppsLast (t : Nat) (f : Thread → Thread) : (s.updThr t f).ppsLast = s.ppsLast := rfl
@[simp] theorem State.updThr_syncAt (t : Nat) (f : Thread → Thread) : (s.updThr t f).syncAt = s.syncAt := rfl
@[simp] theorem State.updThr_coreResets (t : Nat) (f : Thread → Thread) : (s.updThr t f).coreResets = s.coreResets := rfl
@[simp] theorem State.updThr_slew (t : Nat) (f : Thread → Thread) : (s.updThr t f).slew = s.slew := rfl
@[simp] theorem State.updThr_slewPhase (t : Nat) (f : Thread → Thread) : (s.updThr t f).slewPhase = s.slewPhase := rfl
@[simp] theorem State.updThr_pairSide (t : Nat) (f : Thread → Thread) : (s.updThr t f).pairSide = s.pairSide := rfl
@[simp] theorem State.updThr_outPorts (t : Nat) (f : Thread → Thread) : (s.updThr t f).outPorts = s.outPorts := rfl
@[simp] theorem State.updThr_urgentAt (t : Nat) (f : Thread → Thread) : (s.updThr t f).urgentAt = s.urgentAt := rfl
@[simp] theorem State.updThr_regFrac (t : Nat) (f : Thread → Thread) : (s.updThr t f).regFrac = s.regFrac := rfl
@[simp] theorem State.updThr_regWaits (t : Nat) (f : Thread → Thread) : (s.updThr t f).regWaits = s.regWaits := rfl
@[simp] theorem State.updThr_stamped (t : Nat) (f : Thread → Thread) : (s.updThr t f).stamped = s.stamped := rfl
@[simp] theorem State.updThr_srcSent (t : Nat) (f : Thread → Thread) : (s.updThr t f).srcSent = s.srcSent := rfl
@[simp] theorem State.updThr_ppsRate (t : Nat) (f : Thread → Thread) : (s.updThr t f).ppsRate = s.ppsRate := rfl
@[simp] theorem State.updThr_ppsAcc (t : Nat) (f : Thread → Thread) : (s.updThr t f).ppsAcc = s.ppsAcc := rfl
@[simp] theorem State.updThr_rootSeen (t : Nat) (f : Thread → Thread) : (s.updThr t f).rootSeen = s.rootSeen := rfl
@[simp] theorem State.setCore_pending (c : Nat) (x : Core) : (s.setCore c x).pending = s.pending := rfl
@[simp] theorem State.setCore_free (c : Nat) (x : Core) : (s.setCore c x).free = s.free := rfl
@[simp] theorem State.setCore_now (c : Nat) (x : Core) : (s.setCore c x).now = s.now := rfl
@[simp] theorem State.setCore_part (c : Nat) (x : Core) : (s.setCore c x).part = s.part := rfl
@[simp] theorem State.setCore_stepping (c : Nat) (x : Core) : (s.setCore c x).stepping = s.stepping := rfl
@[simp] theorem State.setCore_pkgId (c : Nat) (x : Core) : (s.setCore c x).pkgId = s.pkgId := rfl
@[simp] theorem State.setCore_pairPkg (c : Nat) (x : Core) : (s.setCore c x).pairPkg = s.pairPkg := rfl
@[simp] theorem State.setCore_ctl (c : Nat) (x : Core) : (s.setCore c x).ctl = s.ctl := rfl
@[simp] theorem State.setCore_threads (c : Nat) (x : Core) : (s.setCore c x).threads = s.threads := rfl
@[simp] theorem State.setCore_coreTile (c : Nat) (x : Core) : (s.setCore c x).coreTile = s.coreTile := rfl
@[simp] theorem State.setCore_tiles (c : Nat) (x : Core) : (s.setCore c x).tiles = s.tiles := rfl
@[simp] theorem State.setCore_dies (c : Nat) (x : Core) : (s.setCore c x).dies = s.dies := rfl
@[simp] theorem State.setCore_dir (c : Nat) (x : Core) : (s.setCore c x).dir = s.dir := rfl
@[simp] theorem State.setCore_txns (c : Nat) (x : Core) : (s.setCore c x).txns = s.txns := rfl
@[simp] theorem State.setCore_atoms (c : Nat) (x : Core) : (s.setCore c x).atoms = s.atoms := rfl
@[simp] theorem State.setCore_slices (c : Nat) (x : Core) : (s.setCore c x).slices = s.slices := rfl
@[simp] theorem State.setCore_mem (c : Nat) (x : Core) : (s.setCore c x).mem = s.mem := rfl
@[simp] theorem State.setCore_poisoned (c : Nat) (x : Core) : (s.setCore c x).poisoned = s.poisoned := rfl
@[simp] theorem State.setCore_net (c : Nat) (x : Core) : (s.setCore c x).net = s.net := rfl
@[simp] theorem State.setCore_backoffs (c : Nat) (x : Core) : (s.setCore c x).backoffs = s.backoffs := rfl
@[simp] theorem State.setCore_nextTid (c : Nat) (x : Core) : (s.setCore c x).nextTid = s.nextTid := rfl
@[simp] theorem State.setCore_chans (c : Nat) (x : Core) : (s.setCore c x).chans = s.chans := rfl
@[simp] theorem State.setCore_keys (c : Nat) (x : Core) : (s.setCore c x).keys = s.keys := rfl
@[simp] theorem State.setCore_almanac (c : Nat) (x : Core) : (s.setCore c x).almanac = s.almanac := rfl
@[simp] theorem State.setCore_rootPorts (c : Nat) (x : Core) : (s.setCore c x).rootPorts = s.rootPorts := rfl
@[simp] theorem State.setCore_links (c : Nat) (x : Core) : (s.setCore c x).links = s.links := rfl
@[simp] theorem State.setCore_insts (c : Nat) (x : Core) : (s.setCore c x).insts = s.insts := rfl
@[simp] theorem State.setCore_served (c : Nat) (x : Core) : (s.setCore c x).served = s.served := rfl
@[simp] theorem State.setCore_sources (c : Nat) (x : Core) : (s.setCore c x).sources = s.sources := rfl
@[simp] theorem State.setCore_srcPend (c : Nat) (x : Core) : (s.setCore c x).srcPend = s.srcPend := rfl
@[simp] theorem State.setCore_gpios (c : Nat) (x : Core) : (s.setCore c x).gpios = s.gpios := rfl
@[simp] theorem State.setCore_gpioOut (c : Nat) (x : Core) : (s.setCore c x).gpioOut = s.gpioOut := rfl
@[simp] theorem State.setCore_gpioOe (c : Nat) (x : Core) : (s.setCore c x).gpioOe = s.gpioOe := rfl
@[simp] theorem State.setCore_iommu (c : Nat) (x : Core) : (s.setCore c x).iommu = s.iommu := rfl
@[simp] theorem State.setCore_quiesces (c : Nat) (x : Core) : (s.setCore c x).quiesces = s.quiesces := rfl
@[simp] theorem State.setCore_mc (c : Nat) (x : Core) : (s.setCore c x).mc = s.mc := rfl
@[simp] theorem State.setCore_wd (c : Nat) (x : Core) : (s.setCore c x).wd = s.wd := rfl
@[simp] theorem State.setCore_errs (c : Nat) (x : Core) : (s.setCore c x).errs = s.errs := rfl
@[simp] theorem State.setCore_frisket (c : Nat) (x : Core) : (s.setCore c x).frisket = s.frisket := rfl
@[simp] theorem State.setCore_power (c : Nat) (x : Core) : (s.setCore c x).power = s.power := rfl
@[simp] theorem State.setCore_pair (c : Nat) (x : Core) : (s.setCore c x).pair = s.pair := rfl
@[simp] theorem State.setCore_ppsLast (c : Nat) (x : Core) : (s.setCore c x).ppsLast = s.ppsLast := rfl
@[simp] theorem State.setCore_syncAt (c : Nat) (x : Core) : (s.setCore c x).syncAt = s.syncAt := rfl
@[simp] theorem State.setCore_coreResets (c : Nat) (x : Core) : (s.setCore c x).coreResets = s.coreResets := rfl
@[simp] theorem State.setCore_slew (c : Nat) (x : Core) : (s.setCore c x).slew = s.slew := rfl
@[simp] theorem State.setCore_slewPhase (c : Nat) (x : Core) : (s.setCore c x).slewPhase = s.slewPhase := rfl
@[simp] theorem State.setCore_pairSide (c : Nat) (x : Core) : (s.setCore c x).pairSide = s.pairSide := rfl
@[simp] theorem State.setCore_outPorts (c : Nat) (x : Core) : (s.setCore c x).outPorts = s.outPorts := rfl
@[simp] theorem State.setCore_urgentAt (c : Nat) (x : Core) : (s.setCore c x).urgentAt = s.urgentAt := rfl
@[simp] theorem State.setCore_regFrac (c : Nat) (x : Core) : (s.setCore c x).regFrac = s.regFrac := rfl
@[simp] theorem State.setCore_regWaits (c : Nat) (x : Core) : (s.setCore c x).regWaits = s.regWaits := rfl
@[simp] theorem State.setCore_stamped (c : Nat) (x : Core) : (s.setCore c x).stamped = s.stamped := rfl
@[simp] theorem State.setCore_srcSent (c : Nat) (x : Core) : (s.setCore c x).srcSent = s.srcSent := rfl
@[simp] theorem State.setCore_ppsRate (c : Nat) (x : Core) : (s.setCore c x).ppsRate = s.ppsRate := rfl
@[simp] theorem State.setCore_ppsAcc (c : Nat) (x : Core) : (s.setCore c x).ppsAcc = s.ppsAcc := rfl
@[simp] theorem State.setCore_rootSeen (c : Nat) (x : Core) : (s.setCore c x).rootSeen = s.rootSeen := rfl
@[simp] theorem State.updCore_pending (c : Nat) (f : Core → Core) : (s.updCore c f).pending = s.pending := rfl
@[simp] theorem State.updCore_free (c : Nat) (f : Core → Core) : (s.updCore c f).free = s.free := rfl
@[simp] theorem State.updCore_now (c : Nat) (f : Core → Core) : (s.updCore c f).now = s.now := rfl
@[simp] theorem State.updCore_part (c : Nat) (f : Core → Core) : (s.updCore c f).part = s.part := rfl
@[simp] theorem State.updCore_stepping (c : Nat) (f : Core → Core) : (s.updCore c f).stepping = s.stepping := rfl
@[simp] theorem State.updCore_pkgId (c : Nat) (f : Core → Core) : (s.updCore c f).pkgId = s.pkgId := rfl
@[simp] theorem State.updCore_pairPkg (c : Nat) (f : Core → Core) : (s.updCore c f).pairPkg = s.pairPkg := rfl
@[simp] theorem State.updCore_ctl (c : Nat) (f : Core → Core) : (s.updCore c f).ctl = s.ctl := rfl
@[simp] theorem State.updCore_threads (c : Nat) (f : Core → Core) : (s.updCore c f).threads = s.threads := rfl
@[simp] theorem State.updCore_coreTile (c : Nat) (f : Core → Core) : (s.updCore c f).coreTile = s.coreTile := rfl
@[simp] theorem State.updCore_tiles (c : Nat) (f : Core → Core) : (s.updCore c f).tiles = s.tiles := rfl
@[simp] theorem State.updCore_dies (c : Nat) (f : Core → Core) : (s.updCore c f).dies = s.dies := rfl
@[simp] theorem State.updCore_dir (c : Nat) (f : Core → Core) : (s.updCore c f).dir = s.dir := rfl
@[simp] theorem State.updCore_txns (c : Nat) (f : Core → Core) : (s.updCore c f).txns = s.txns := rfl
@[simp] theorem State.updCore_atoms (c : Nat) (f : Core → Core) : (s.updCore c f).atoms = s.atoms := rfl
@[simp] theorem State.updCore_slices (c : Nat) (f : Core → Core) : (s.updCore c f).slices = s.slices := rfl
@[simp] theorem State.updCore_mem (c : Nat) (f : Core → Core) : (s.updCore c f).mem = s.mem := rfl
@[simp] theorem State.updCore_poisoned (c : Nat) (f : Core → Core) : (s.updCore c f).poisoned = s.poisoned := rfl
@[simp] theorem State.updCore_net (c : Nat) (f : Core → Core) : (s.updCore c f).net = s.net := rfl
@[simp] theorem State.updCore_backoffs (c : Nat) (f : Core → Core) : (s.updCore c f).backoffs = s.backoffs := rfl
@[simp] theorem State.updCore_nextTid (c : Nat) (f : Core → Core) : (s.updCore c f).nextTid = s.nextTid := rfl
@[simp] theorem State.updCore_chans (c : Nat) (f : Core → Core) : (s.updCore c f).chans = s.chans := rfl
@[simp] theorem State.updCore_keys (c : Nat) (f : Core → Core) : (s.updCore c f).keys = s.keys := rfl
@[simp] theorem State.updCore_almanac (c : Nat) (f : Core → Core) : (s.updCore c f).almanac = s.almanac := rfl
@[simp] theorem State.updCore_rootPorts (c : Nat) (f : Core → Core) : (s.updCore c f).rootPorts = s.rootPorts := rfl
@[simp] theorem State.updCore_links (c : Nat) (f : Core → Core) : (s.updCore c f).links = s.links := rfl
@[simp] theorem State.updCore_insts (c : Nat) (f : Core → Core) : (s.updCore c f).insts = s.insts := rfl
@[simp] theorem State.updCore_served (c : Nat) (f : Core → Core) : (s.updCore c f).served = s.served := rfl
@[simp] theorem State.updCore_sources (c : Nat) (f : Core → Core) : (s.updCore c f).sources = s.sources := rfl
@[simp] theorem State.updCore_srcPend (c : Nat) (f : Core → Core) : (s.updCore c f).srcPend = s.srcPend := rfl
@[simp] theorem State.updCore_gpios (c : Nat) (f : Core → Core) : (s.updCore c f).gpios = s.gpios := rfl
@[simp] theorem State.updCore_gpioOut (c : Nat) (f : Core → Core) : (s.updCore c f).gpioOut = s.gpioOut := rfl
@[simp] theorem State.updCore_gpioOe (c : Nat) (f : Core → Core) : (s.updCore c f).gpioOe = s.gpioOe := rfl
@[simp] theorem State.updCore_iommu (c : Nat) (f : Core → Core) : (s.updCore c f).iommu = s.iommu := rfl
@[simp] theorem State.updCore_quiesces (c : Nat) (f : Core → Core) : (s.updCore c f).quiesces = s.quiesces := rfl
@[simp] theorem State.updCore_mc (c : Nat) (f : Core → Core) : (s.updCore c f).mc = s.mc := rfl
@[simp] theorem State.updCore_wd (c : Nat) (f : Core → Core) : (s.updCore c f).wd = s.wd := rfl
@[simp] theorem State.updCore_errs (c : Nat) (f : Core → Core) : (s.updCore c f).errs = s.errs := rfl
@[simp] theorem State.updCore_frisket (c : Nat) (f : Core → Core) : (s.updCore c f).frisket = s.frisket := rfl
@[simp] theorem State.updCore_power (c : Nat) (f : Core → Core) : (s.updCore c f).power = s.power := rfl
@[simp] theorem State.updCore_pair (c : Nat) (f : Core → Core) : (s.updCore c f).pair = s.pair := rfl
@[simp] theorem State.updCore_ppsLast (c : Nat) (f : Core → Core) : (s.updCore c f).ppsLast = s.ppsLast := rfl
@[simp] theorem State.updCore_syncAt (c : Nat) (f : Core → Core) : (s.updCore c f).syncAt = s.syncAt := rfl
@[simp] theorem State.updCore_coreResets (c : Nat) (f : Core → Core) : (s.updCore c f).coreResets = s.coreResets := rfl
@[simp] theorem State.updCore_slew (c : Nat) (f : Core → Core) : (s.updCore c f).slew = s.slew := rfl
@[simp] theorem State.updCore_slewPhase (c : Nat) (f : Core → Core) : (s.updCore c f).slewPhase = s.slewPhase := rfl
@[simp] theorem State.updCore_pairSide (c : Nat) (f : Core → Core) : (s.updCore c f).pairSide = s.pairSide := rfl
@[simp] theorem State.updCore_outPorts (c : Nat) (f : Core → Core) : (s.updCore c f).outPorts = s.outPorts := rfl
@[simp] theorem State.updCore_urgentAt (c : Nat) (f : Core → Core) : (s.updCore c f).urgentAt = s.urgentAt := rfl
@[simp] theorem State.updCore_regFrac (c : Nat) (f : Core → Core) : (s.updCore c f).regFrac = s.regFrac := rfl
@[simp] theorem State.updCore_regWaits (c : Nat) (f : Core → Core) : (s.updCore c f).regWaits = s.regWaits := rfl
@[simp] theorem State.updCore_stamped (c : Nat) (f : Core → Core) : (s.updCore c f).stamped = s.stamped := rfl
@[simp] theorem State.updCore_srcSent (c : Nat) (f : Core → Core) : (s.updCore c f).srcSent = s.srcSent := rfl
@[simp] theorem State.updCore_ppsRate (c : Nat) (f : Core → Core) : (s.updCore c f).ppsRate = s.ppsRate := rfl
@[simp] theorem State.updCore_ppsAcc (c : Nat) (f : Core → Core) : (s.updCore c f).ppsAcc = s.ppsAcc := rfl
@[simp] theorem State.updCore_rootSeen (c : Nat) (f : Core → Core) : (s.updCore c f).rootSeen = s.rootSeen := rfl
@[simp] theorem State.updTile_pending (n : Nat) (f : Tile → Tile) : (s.updTile n f).pending = s.pending := rfl
@[simp] theorem State.updTile_free (n : Nat) (f : Tile → Tile) : (s.updTile n f).free = s.free := rfl
@[simp] theorem State.updTile_now (n : Nat) (f : Tile → Tile) : (s.updTile n f).now = s.now := rfl
@[simp] theorem State.updTile_part (n : Nat) (f : Tile → Tile) : (s.updTile n f).part = s.part := rfl
@[simp] theorem State.updTile_stepping (n : Nat) (f : Tile → Tile) : (s.updTile n f).stepping = s.stepping := rfl
@[simp] theorem State.updTile_pkgId (n : Nat) (f : Tile → Tile) : (s.updTile n f).pkgId = s.pkgId := rfl
@[simp] theorem State.updTile_pairPkg (n : Nat) (f : Tile → Tile) : (s.updTile n f).pairPkg = s.pairPkg := rfl
@[simp] theorem State.updTile_ctl (n : Nat) (f : Tile → Tile) : (s.updTile n f).ctl = s.ctl := rfl
@[simp] theorem State.updTile_threads (n : Nat) (f : Tile → Tile) : (s.updTile n f).threads = s.threads := rfl
@[simp] theorem State.updTile_cores (n : Nat) (f : Tile → Tile) : (s.updTile n f).cores = s.cores := rfl
@[simp] theorem State.updTile_coreTile (n : Nat) (f : Tile → Tile) : (s.updTile n f).coreTile = s.coreTile := rfl
@[simp] theorem State.updTile_dies (n : Nat) (f : Tile → Tile) : (s.updTile n f).dies = s.dies := rfl
@[simp] theorem State.updTile_dir (n : Nat) (f : Tile → Tile) : (s.updTile n f).dir = s.dir := rfl
@[simp] theorem State.updTile_txns (n : Nat) (f : Tile → Tile) : (s.updTile n f).txns = s.txns := rfl
@[simp] theorem State.updTile_atoms (n : Nat) (f : Tile → Tile) : (s.updTile n f).atoms = s.atoms := rfl
@[simp] theorem State.updTile_slices (n : Nat) (f : Tile → Tile) : (s.updTile n f).slices = s.slices := rfl
@[simp] theorem State.updTile_mem (n : Nat) (f : Tile → Tile) : (s.updTile n f).mem = s.mem := rfl
@[simp] theorem State.updTile_poisoned (n : Nat) (f : Tile → Tile) : (s.updTile n f).poisoned = s.poisoned := rfl
@[simp] theorem State.updTile_net (n : Nat) (f : Tile → Tile) : (s.updTile n f).net = s.net := rfl
@[simp] theorem State.updTile_backoffs (n : Nat) (f : Tile → Tile) : (s.updTile n f).backoffs = s.backoffs := rfl
@[simp] theorem State.updTile_nextTid (n : Nat) (f : Tile → Tile) : (s.updTile n f).nextTid = s.nextTid := rfl
@[simp] theorem State.updTile_chans (n : Nat) (f : Tile → Tile) : (s.updTile n f).chans = s.chans := rfl
@[simp] theorem State.updTile_keys (n : Nat) (f : Tile → Tile) : (s.updTile n f).keys = s.keys := rfl
@[simp] theorem State.updTile_almanac (n : Nat) (f : Tile → Tile) : (s.updTile n f).almanac = s.almanac := rfl
@[simp] theorem State.updTile_rootPorts (n : Nat) (f : Tile → Tile) : (s.updTile n f).rootPorts = s.rootPorts := rfl
@[simp] theorem State.updTile_links (n : Nat) (f : Tile → Tile) : (s.updTile n f).links = s.links := rfl
@[simp] theorem State.updTile_insts (n : Nat) (f : Tile → Tile) : (s.updTile n f).insts = s.insts := rfl
@[simp] theorem State.updTile_served (n : Nat) (f : Tile → Tile) : (s.updTile n f).served = s.served := rfl
@[simp] theorem State.updTile_sources (n : Nat) (f : Tile → Tile) : (s.updTile n f).sources = s.sources := rfl
@[simp] theorem State.updTile_srcPend (n : Nat) (f : Tile → Tile) : (s.updTile n f).srcPend = s.srcPend := rfl
@[simp] theorem State.updTile_gpios (n : Nat) (f : Tile → Tile) : (s.updTile n f).gpios = s.gpios := rfl
@[simp] theorem State.updTile_gpioOut (n : Nat) (f : Tile → Tile) : (s.updTile n f).gpioOut = s.gpioOut := rfl
@[simp] theorem State.updTile_gpioOe (n : Nat) (f : Tile → Tile) : (s.updTile n f).gpioOe = s.gpioOe := rfl
@[simp] theorem State.updTile_iommu (n : Nat) (f : Tile → Tile) : (s.updTile n f).iommu = s.iommu := rfl
@[simp] theorem State.updTile_quiesces (n : Nat) (f : Tile → Tile) : (s.updTile n f).quiesces = s.quiesces := rfl
@[simp] theorem State.updTile_mc (n : Nat) (f : Tile → Tile) : (s.updTile n f).mc = s.mc := rfl
@[simp] theorem State.updTile_wd (n : Nat) (f : Tile → Tile) : (s.updTile n f).wd = s.wd := rfl
@[simp] theorem State.updTile_errs (n : Nat) (f : Tile → Tile) : (s.updTile n f).errs = s.errs := rfl
@[simp] theorem State.updTile_frisket (n : Nat) (f : Tile → Tile) : (s.updTile n f).frisket = s.frisket := rfl
@[simp] theorem State.updTile_power (n : Nat) (f : Tile → Tile) : (s.updTile n f).power = s.power := rfl
@[simp] theorem State.updTile_pair (n : Nat) (f : Tile → Tile) : (s.updTile n f).pair = s.pair := rfl
@[simp] theorem State.updTile_ppsLast (n : Nat) (f : Tile → Tile) : (s.updTile n f).ppsLast = s.ppsLast := rfl
@[simp] theorem State.updTile_syncAt (n : Nat) (f : Tile → Tile) : (s.updTile n f).syncAt = s.syncAt := rfl
@[simp] theorem State.updTile_coreResets (n : Nat) (f : Tile → Tile) : (s.updTile n f).coreResets = s.coreResets := rfl
@[simp] theorem State.updTile_slew (n : Nat) (f : Tile → Tile) : (s.updTile n f).slew = s.slew := rfl
@[simp] theorem State.updTile_slewPhase (n : Nat) (f : Tile → Tile) : (s.updTile n f).slewPhase = s.slewPhase := rfl
@[simp] theorem State.updTile_pairSide (n : Nat) (f : Tile → Tile) : (s.updTile n f).pairSide = s.pairSide := rfl
@[simp] theorem State.updTile_outPorts (n : Nat) (f : Tile → Tile) : (s.updTile n f).outPorts = s.outPorts := rfl
@[simp] theorem State.updTile_urgentAt (n : Nat) (f : Tile → Tile) : (s.updTile n f).urgentAt = s.urgentAt := rfl
@[simp] theorem State.updTile_regFrac (n : Nat) (f : Tile → Tile) : (s.updTile n f).regFrac = s.regFrac := rfl
@[simp] theorem State.updTile_regWaits (n : Nat) (f : Tile → Tile) : (s.updTile n f).regWaits = s.regWaits := rfl
@[simp] theorem State.updTile_stamped (n : Nat) (f : Tile → Tile) : (s.updTile n f).stamped = s.stamped := rfl
@[simp] theorem State.updTile_srcSent (n : Nat) (f : Tile → Tile) : (s.updTile n f).srcSent = s.srcSent := rfl
@[simp] theorem State.updTile_ppsRate (n : Nat) (f : Tile → Tile) : (s.updTile n f).ppsRate = s.ppsRate := rfl
@[simp] theorem State.updTile_ppsAcc (n : Nat) (f : Tile → Tile) : (s.updTile n f).ppsAcc = s.ppsAcc := rfl
@[simp] theorem State.updTile_rootSeen (n : Nat) (f : Tile → Tile) : (s.updTile n f).rootSeen = s.rootSeen := rfl
@[simp] theorem State.updDie_pending (d : Nat) (f : Die → Die) : (s.updDie d f).pending = s.pending := rfl
@[simp] theorem State.updDie_free (d : Nat) (f : Die → Die) : (s.updDie d f).free = s.free := rfl
@[simp] theorem State.updDie_now (d : Nat) (f : Die → Die) : (s.updDie d f).now = s.now := rfl
@[simp] theorem State.updDie_part (d : Nat) (f : Die → Die) : (s.updDie d f).part = s.part := rfl
@[simp] theorem State.updDie_stepping (d : Nat) (f : Die → Die) : (s.updDie d f).stepping = s.stepping := rfl
@[simp] theorem State.updDie_pkgId (d : Nat) (f : Die → Die) : (s.updDie d f).pkgId = s.pkgId := rfl
@[simp] theorem State.updDie_pairPkg (d : Nat) (f : Die → Die) : (s.updDie d f).pairPkg = s.pairPkg := rfl
@[simp] theorem State.updDie_ctl (d : Nat) (f : Die → Die) : (s.updDie d f).ctl = s.ctl := rfl
@[simp] theorem State.updDie_threads (d : Nat) (f : Die → Die) : (s.updDie d f).threads = s.threads := rfl
@[simp] theorem State.updDie_cores (d : Nat) (f : Die → Die) : (s.updDie d f).cores = s.cores := rfl
@[simp] theorem State.updDie_coreTile (d : Nat) (f : Die → Die) : (s.updDie d f).coreTile = s.coreTile := rfl
@[simp] theorem State.updDie_tiles (d : Nat) (f : Die → Die) : (s.updDie d f).tiles = s.tiles := rfl
@[simp] theorem State.updDie_dir (d : Nat) (f : Die → Die) : (s.updDie d f).dir = s.dir := rfl
@[simp] theorem State.updDie_txns (d : Nat) (f : Die → Die) : (s.updDie d f).txns = s.txns := rfl
@[simp] theorem State.updDie_atoms (d : Nat) (f : Die → Die) : (s.updDie d f).atoms = s.atoms := rfl
@[simp] theorem State.updDie_slices (d : Nat) (f : Die → Die) : (s.updDie d f).slices = s.slices := rfl
@[simp] theorem State.updDie_mem (d : Nat) (f : Die → Die) : (s.updDie d f).mem = s.mem := rfl
@[simp] theorem State.updDie_poisoned (d : Nat) (f : Die → Die) : (s.updDie d f).poisoned = s.poisoned := rfl
@[simp] theorem State.updDie_net (d : Nat) (f : Die → Die) : (s.updDie d f).net = s.net := rfl
@[simp] theorem State.updDie_backoffs (d : Nat) (f : Die → Die) : (s.updDie d f).backoffs = s.backoffs := rfl
@[simp] theorem State.updDie_nextTid (d : Nat) (f : Die → Die) : (s.updDie d f).nextTid = s.nextTid := rfl
@[simp] theorem State.updDie_chans (d : Nat) (f : Die → Die) : (s.updDie d f).chans = s.chans := rfl
@[simp] theorem State.updDie_keys (d : Nat) (f : Die → Die) : (s.updDie d f).keys = s.keys := rfl
@[simp] theorem State.updDie_almanac (d : Nat) (f : Die → Die) : (s.updDie d f).almanac = s.almanac := rfl
@[simp] theorem State.updDie_rootPorts (d : Nat) (f : Die → Die) : (s.updDie d f).rootPorts = s.rootPorts := rfl
@[simp] theorem State.updDie_links (d : Nat) (f : Die → Die) : (s.updDie d f).links = s.links := rfl
@[simp] theorem State.updDie_insts (d : Nat) (f : Die → Die) : (s.updDie d f).insts = s.insts := rfl
@[simp] theorem State.updDie_served (d : Nat) (f : Die → Die) : (s.updDie d f).served = s.served := rfl
@[simp] theorem State.updDie_sources (d : Nat) (f : Die → Die) : (s.updDie d f).sources = s.sources := rfl
@[simp] theorem State.updDie_srcPend (d : Nat) (f : Die → Die) : (s.updDie d f).srcPend = s.srcPend := rfl
@[simp] theorem State.updDie_gpios (d : Nat) (f : Die → Die) : (s.updDie d f).gpios = s.gpios := rfl
@[simp] theorem State.updDie_gpioOut (d : Nat) (f : Die → Die) : (s.updDie d f).gpioOut = s.gpioOut := rfl
@[simp] theorem State.updDie_gpioOe (d : Nat) (f : Die → Die) : (s.updDie d f).gpioOe = s.gpioOe := rfl
@[simp] theorem State.updDie_iommu (d : Nat) (f : Die → Die) : (s.updDie d f).iommu = s.iommu := rfl
@[simp] theorem State.updDie_quiesces (d : Nat) (f : Die → Die) : (s.updDie d f).quiesces = s.quiesces := rfl
@[simp] theorem State.updDie_mc (d : Nat) (f : Die → Die) : (s.updDie d f).mc = s.mc := rfl
@[simp] theorem State.updDie_wd (d : Nat) (f : Die → Die) : (s.updDie d f).wd = s.wd := rfl
@[simp] theorem State.updDie_errs (d : Nat) (f : Die → Die) : (s.updDie d f).errs = s.errs := rfl
@[simp] theorem State.updDie_frisket (d : Nat) (f : Die → Die) : (s.updDie d f).frisket = s.frisket := rfl
@[simp] theorem State.updDie_power (d : Nat) (f : Die → Die) : (s.updDie d f).power = s.power := rfl
@[simp] theorem State.updDie_pair (d : Nat) (f : Die → Die) : (s.updDie d f).pair = s.pair := rfl
@[simp] theorem State.updDie_ppsLast (d : Nat) (f : Die → Die) : (s.updDie d f).ppsLast = s.ppsLast := rfl
@[simp] theorem State.updDie_syncAt (d : Nat) (f : Die → Die) : (s.updDie d f).syncAt = s.syncAt := rfl
@[simp] theorem State.updDie_coreResets (d : Nat) (f : Die → Die) : (s.updDie d f).coreResets = s.coreResets := rfl
@[simp] theorem State.updDie_slew (d : Nat) (f : Die → Die) : (s.updDie d f).slew = s.slew := rfl
@[simp] theorem State.updDie_slewPhase (d : Nat) (f : Die → Die) : (s.updDie d f).slewPhase = s.slewPhase := rfl
@[simp] theorem State.updDie_pairSide (d : Nat) (f : Die → Die) : (s.updDie d f).pairSide = s.pairSide := rfl
@[simp] theorem State.updDie_outPorts (d : Nat) (f : Die → Die) : (s.updDie d f).outPorts = s.outPorts := rfl
@[simp] theorem State.updDie_urgentAt (d : Nat) (f : Die → Die) : (s.updDie d f).urgentAt = s.urgentAt := rfl
@[simp] theorem State.updDie_regFrac (d : Nat) (f : Die → Die) : (s.updDie d f).regFrac = s.regFrac := rfl
@[simp] theorem State.updDie_regWaits (d : Nat) (f : Die → Die) : (s.updDie d f).regWaits = s.regWaits := rfl
@[simp] theorem State.updDie_stamped (d : Nat) (f : Die → Die) : (s.updDie d f).stamped = s.stamped := rfl
@[simp] theorem State.updDie_srcSent (d : Nat) (f : Die → Die) : (s.updDie d f).srcSent = s.srcSent := rfl
@[simp] theorem State.updDie_ppsRate (d : Nat) (f : Die → Die) : (s.updDie d f).ppsRate = s.ppsRate := rfl
@[simp] theorem State.updDie_ppsAcc (d : Nat) (f : Die → Die) : (s.updDie d f).ppsAcc = s.ppsAcc := rfl
@[simp] theorem State.updDie_rootSeen (d : Nat) (f : Die → Die) : (s.updDie d f).rootSeen = s.rootSeen := rfl
@[simp] theorem State.updChan_pending (c : Nat) (f : Channel → Channel) : (s.updChan c f).pending = s.pending := rfl
@[simp] theorem State.updChan_free (c : Nat) (f : Channel → Channel) : (s.updChan c f).free = s.free := rfl
@[simp] theorem State.updChan_now (c : Nat) (f : Channel → Channel) : (s.updChan c f).now = s.now := rfl
@[simp] theorem State.updChan_part (c : Nat) (f : Channel → Channel) : (s.updChan c f).part = s.part := rfl
@[simp] theorem State.updChan_stepping (c : Nat) (f : Channel → Channel) : (s.updChan c f).stepping = s.stepping := rfl
@[simp] theorem State.updChan_pkgId (c : Nat) (f : Channel → Channel) : (s.updChan c f).pkgId = s.pkgId := rfl
@[simp] theorem State.updChan_pairPkg (c : Nat) (f : Channel → Channel) : (s.updChan c f).pairPkg = s.pairPkg := rfl
@[simp] theorem State.updChan_ctl (c : Nat) (f : Channel → Channel) : (s.updChan c f).ctl = s.ctl := rfl
@[simp] theorem State.updChan_threads (c : Nat) (f : Channel → Channel) : (s.updChan c f).threads = s.threads := rfl
@[simp] theorem State.updChan_cores (c : Nat) (f : Channel → Channel) : (s.updChan c f).cores = s.cores := rfl
@[simp] theorem State.updChan_coreTile (c : Nat) (f : Channel → Channel) : (s.updChan c f).coreTile = s.coreTile := rfl
@[simp] theorem State.updChan_tiles (c : Nat) (f : Channel → Channel) : (s.updChan c f).tiles = s.tiles := rfl
@[simp] theorem State.updChan_dies (c : Nat) (f : Channel → Channel) : (s.updChan c f).dies = s.dies := rfl
@[simp] theorem State.updChan_dir (c : Nat) (f : Channel → Channel) : (s.updChan c f).dir = s.dir := rfl
@[simp] theorem State.updChan_txns (c : Nat) (f : Channel → Channel) : (s.updChan c f).txns = s.txns := rfl
@[simp] theorem State.updChan_atoms (c : Nat) (f : Channel → Channel) : (s.updChan c f).atoms = s.atoms := rfl
@[simp] theorem State.updChan_slices (c : Nat) (f : Channel → Channel) : (s.updChan c f).slices = s.slices := rfl
@[simp] theorem State.updChan_mem (c : Nat) (f : Channel → Channel) : (s.updChan c f).mem = s.mem := rfl
@[simp] theorem State.updChan_poisoned (c : Nat) (f : Channel → Channel) : (s.updChan c f).poisoned = s.poisoned := rfl
@[simp] theorem State.updChan_net (c : Nat) (f : Channel → Channel) : (s.updChan c f).net = s.net := rfl
@[simp] theorem State.updChan_backoffs (c : Nat) (f : Channel → Channel) : (s.updChan c f).backoffs = s.backoffs := rfl
@[simp] theorem State.updChan_nextTid (c : Nat) (f : Channel → Channel) : (s.updChan c f).nextTid = s.nextTid := rfl
@[simp] theorem State.updChan_keys (c : Nat) (f : Channel → Channel) : (s.updChan c f).keys = s.keys := rfl
@[simp] theorem State.updChan_almanac (c : Nat) (f : Channel → Channel) : (s.updChan c f).almanac = s.almanac := rfl
@[simp] theorem State.updChan_rootPorts (c : Nat) (f : Channel → Channel) : (s.updChan c f).rootPorts = s.rootPorts := rfl
@[simp] theorem State.updChan_links (c : Nat) (f : Channel → Channel) : (s.updChan c f).links = s.links := rfl
@[simp] theorem State.updChan_insts (c : Nat) (f : Channel → Channel) : (s.updChan c f).insts = s.insts := rfl
@[simp] theorem State.updChan_served (c : Nat) (f : Channel → Channel) : (s.updChan c f).served = s.served := rfl
@[simp] theorem State.updChan_sources (c : Nat) (f : Channel → Channel) : (s.updChan c f).sources = s.sources := rfl
@[simp] theorem State.updChan_srcPend (c : Nat) (f : Channel → Channel) : (s.updChan c f).srcPend = s.srcPend := rfl
@[simp] theorem State.updChan_gpios (c : Nat) (f : Channel → Channel) : (s.updChan c f).gpios = s.gpios := rfl
@[simp] theorem State.updChan_gpioOut (c : Nat) (f : Channel → Channel) : (s.updChan c f).gpioOut = s.gpioOut := rfl
@[simp] theorem State.updChan_gpioOe (c : Nat) (f : Channel → Channel) : (s.updChan c f).gpioOe = s.gpioOe := rfl
@[simp] theorem State.updChan_iommu (c : Nat) (f : Channel → Channel) : (s.updChan c f).iommu = s.iommu := rfl
@[simp] theorem State.updChan_quiesces (c : Nat) (f : Channel → Channel) : (s.updChan c f).quiesces = s.quiesces := rfl
@[simp] theorem State.updChan_mc (c : Nat) (f : Channel → Channel) : (s.updChan c f).mc = s.mc := rfl
@[simp] theorem State.updChan_wd (c : Nat) (f : Channel → Channel) : (s.updChan c f).wd = s.wd := rfl
@[simp] theorem State.updChan_errs (c : Nat) (f : Channel → Channel) : (s.updChan c f).errs = s.errs := rfl
@[simp] theorem State.updChan_frisket (c : Nat) (f : Channel → Channel) : (s.updChan c f).frisket = s.frisket := rfl
@[simp] theorem State.updChan_power (c : Nat) (f : Channel → Channel) : (s.updChan c f).power = s.power := rfl
@[simp] theorem State.updChan_pair (c : Nat) (f : Channel → Channel) : (s.updChan c f).pair = s.pair := rfl
@[simp] theorem State.updChan_ppsLast (c : Nat) (f : Channel → Channel) : (s.updChan c f).ppsLast = s.ppsLast := rfl
@[simp] theorem State.updChan_syncAt (c : Nat) (f : Channel → Channel) : (s.updChan c f).syncAt = s.syncAt := rfl
@[simp] theorem State.updChan_coreResets (c : Nat) (f : Channel → Channel) : (s.updChan c f).coreResets = s.coreResets := rfl
@[simp] theorem State.updChan_slew (c : Nat) (f : Channel → Channel) : (s.updChan c f).slew = s.slew := rfl
@[simp] theorem State.updChan_slewPhase (c : Nat) (f : Channel → Channel) : (s.updChan c f).slewPhase = s.slewPhase := rfl
@[simp] theorem State.updChan_pairSide (c : Nat) (f : Channel → Channel) : (s.updChan c f).pairSide = s.pairSide := rfl
@[simp] theorem State.updChan_outPorts (c : Nat) (f : Channel → Channel) : (s.updChan c f).outPorts = s.outPorts := rfl
@[simp] theorem State.updChan_urgentAt (c : Nat) (f : Channel → Channel) : (s.updChan c f).urgentAt = s.urgentAt := rfl
@[simp] theorem State.updChan_regFrac (c : Nat) (f : Channel → Channel) : (s.updChan c f).regFrac = s.regFrac := rfl
@[simp] theorem State.updChan_regWaits (c : Nat) (f : Channel → Channel) : (s.updChan c f).regWaits = s.regWaits := rfl
@[simp] theorem State.updChan_stamped (c : Nat) (f : Channel → Channel) : (s.updChan c f).stamped = s.stamped := rfl
@[simp] theorem State.updChan_srcSent (c : Nat) (f : Channel → Channel) : (s.updChan c f).srcSent = s.srcSent := rfl
@[simp] theorem State.updChan_ppsRate (c : Nat) (f : Channel → Channel) : (s.updChan c f).ppsRate = s.ppsRate := rfl
@[simp] theorem State.updChan_ppsAcc (c : Nat) (f : Channel → Channel) : (s.updChan c f).ppsAcc = s.ppsAcc := rfl
@[simp] theorem State.updChan_rootSeen (c : Nat) (f : Channel → Channel) : (s.updChan c f).rootSeen = s.rootSeen := rfl
@[simp] theorem State.updPort_pending (p : Nat) (f : RootPort → RootPort) : (s.updPort p f).pending = s.pending := rfl
@[simp] theorem State.updPort_free (p : Nat) (f : RootPort → RootPort) : (s.updPort p f).free = s.free := rfl
@[simp] theorem State.updPort_now (p : Nat) (f : RootPort → RootPort) : (s.updPort p f).now = s.now := rfl
@[simp] theorem State.updPort_part (p : Nat) (f : RootPort → RootPort) : (s.updPort p f).part = s.part := rfl
@[simp] theorem State.updPort_stepping (p : Nat) (f : RootPort → RootPort) : (s.updPort p f).stepping = s.stepping := rfl
@[simp] theorem State.updPort_pkgId (p : Nat) (f : RootPort → RootPort) : (s.updPort p f).pkgId = s.pkgId := rfl
@[simp] theorem State.updPort_pairPkg (p : Nat) (f : RootPort → RootPort) : (s.updPort p f).pairPkg = s.pairPkg := rfl
@[simp] theorem State.updPort_ctl (p : Nat) (f : RootPort → RootPort) : (s.updPort p f).ctl = s.ctl := rfl
@[simp] theorem State.updPort_threads (p : Nat) (f : RootPort → RootPort) : (s.updPort p f).threads = s.threads := rfl
@[simp] theorem State.updPort_cores (p : Nat) (f : RootPort → RootPort) : (s.updPort p f).cores = s.cores := rfl
@[simp] theorem State.updPort_coreTile (p : Nat) (f : RootPort → RootPort) : (s.updPort p f).coreTile = s.coreTile := rfl
@[simp] theorem State.updPort_tiles (p : Nat) (f : RootPort → RootPort) : (s.updPort p f).tiles = s.tiles := rfl
@[simp] theorem State.updPort_dies (p : Nat) (f : RootPort → RootPort) : (s.updPort p f).dies = s.dies := rfl
@[simp] theorem State.updPort_dir (p : Nat) (f : RootPort → RootPort) : (s.updPort p f).dir = s.dir := rfl
@[simp] theorem State.updPort_txns (p : Nat) (f : RootPort → RootPort) : (s.updPort p f).txns = s.txns := rfl
@[simp] theorem State.updPort_atoms (p : Nat) (f : RootPort → RootPort) : (s.updPort p f).atoms = s.atoms := rfl
@[simp] theorem State.updPort_slices (p : Nat) (f : RootPort → RootPort) : (s.updPort p f).slices = s.slices := rfl
@[simp] theorem State.updPort_mem (p : Nat) (f : RootPort → RootPort) : (s.updPort p f).mem = s.mem := rfl
@[simp] theorem State.updPort_poisoned (p : Nat) (f : RootPort → RootPort) : (s.updPort p f).poisoned = s.poisoned := rfl
@[simp] theorem State.updPort_net (p : Nat) (f : RootPort → RootPort) : (s.updPort p f).net = s.net := rfl
@[simp] theorem State.updPort_backoffs (p : Nat) (f : RootPort → RootPort) : (s.updPort p f).backoffs = s.backoffs := rfl
@[simp] theorem State.updPort_nextTid (p : Nat) (f : RootPort → RootPort) : (s.updPort p f).nextTid = s.nextTid := rfl
@[simp] theorem State.updPort_chans (p : Nat) (f : RootPort → RootPort) : (s.updPort p f).chans = s.chans := rfl
@[simp] theorem State.updPort_keys (p : Nat) (f : RootPort → RootPort) : (s.updPort p f).keys = s.keys := rfl
@[simp] theorem State.updPort_almanac (p : Nat) (f : RootPort → RootPort) : (s.updPort p f).almanac = s.almanac := rfl
@[simp] theorem State.updPort_links (p : Nat) (f : RootPort → RootPort) : (s.updPort p f).links = s.links := rfl
@[simp] theorem State.updPort_insts (p : Nat) (f : RootPort → RootPort) : (s.updPort p f).insts = s.insts := rfl
@[simp] theorem State.updPort_served (p : Nat) (f : RootPort → RootPort) : (s.updPort p f).served = s.served := rfl
@[simp] theorem State.updPort_sources (p : Nat) (f : RootPort → RootPort) : (s.updPort p f).sources = s.sources := rfl
@[simp] theorem State.updPort_srcPend (p : Nat) (f : RootPort → RootPort) : (s.updPort p f).srcPend = s.srcPend := rfl
@[simp] theorem State.updPort_gpios (p : Nat) (f : RootPort → RootPort) : (s.updPort p f).gpios = s.gpios := rfl
@[simp] theorem State.updPort_gpioOut (p : Nat) (f : RootPort → RootPort) : (s.updPort p f).gpioOut = s.gpioOut := rfl
@[simp] theorem State.updPort_gpioOe (p : Nat) (f : RootPort → RootPort) : (s.updPort p f).gpioOe = s.gpioOe := rfl
@[simp] theorem State.updPort_iommu (p : Nat) (f : RootPort → RootPort) : (s.updPort p f).iommu = s.iommu := rfl
@[simp] theorem State.updPort_quiesces (p : Nat) (f : RootPort → RootPort) : (s.updPort p f).quiesces = s.quiesces := rfl
@[simp] theorem State.updPort_mc (p : Nat) (f : RootPort → RootPort) : (s.updPort p f).mc = s.mc := rfl
@[simp] theorem State.updPort_wd (p : Nat) (f : RootPort → RootPort) : (s.updPort p f).wd = s.wd := rfl
@[simp] theorem State.updPort_errs (p : Nat) (f : RootPort → RootPort) : (s.updPort p f).errs = s.errs := rfl
@[simp] theorem State.updPort_frisket (p : Nat) (f : RootPort → RootPort) : (s.updPort p f).frisket = s.frisket := rfl
@[simp] theorem State.updPort_power (p : Nat) (f : RootPort → RootPort) : (s.updPort p f).power = s.power := rfl
@[simp] theorem State.updPort_pair (p : Nat) (f : RootPort → RootPort) : (s.updPort p f).pair = s.pair := rfl
@[simp] theorem State.updPort_ppsLast (p : Nat) (f : RootPort → RootPort) : (s.updPort p f).ppsLast = s.ppsLast := rfl
@[simp] theorem State.updPort_syncAt (p : Nat) (f : RootPort → RootPort) : (s.updPort p f).syncAt = s.syncAt := rfl
@[simp] theorem State.updPort_coreResets (p : Nat) (f : RootPort → RootPort) : (s.updPort p f).coreResets = s.coreResets := rfl
@[simp] theorem State.updPort_slew (p : Nat) (f : RootPort → RootPort) : (s.updPort p f).slew = s.slew := rfl
@[simp] theorem State.updPort_slewPhase (p : Nat) (f : RootPort → RootPort) : (s.updPort p f).slewPhase = s.slewPhase := rfl
@[simp] theorem State.updPort_pairSide (p : Nat) (f : RootPort → RootPort) : (s.updPort p f).pairSide = s.pairSide := rfl
@[simp] theorem State.updPort_outPorts (p : Nat) (f : RootPort → RootPort) : (s.updPort p f).outPorts = s.outPorts := rfl
@[simp] theorem State.updPort_urgentAt (p : Nat) (f : RootPort → RootPort) : (s.updPort p f).urgentAt = s.urgentAt := rfl
@[simp] theorem State.updPort_regFrac (p : Nat) (f : RootPort → RootPort) : (s.updPort p f).regFrac = s.regFrac := rfl
@[simp] theorem State.updPort_regWaits (p : Nat) (f : RootPort → RootPort) : (s.updPort p f).regWaits = s.regWaits := rfl
@[simp] theorem State.updPort_stamped (p : Nat) (f : RootPort → RootPort) : (s.updPort p f).stamped = s.stamped := rfl
@[simp] theorem State.updPort_srcSent (p : Nat) (f : RootPort → RootPort) : (s.updPort p f).srcSent = s.srcSent := rfl
@[simp] theorem State.updPort_ppsRate (p : Nat) (f : RootPort → RootPort) : (s.updPort p f).ppsRate = s.ppsRate := rfl
@[simp] theorem State.updPort_ppsAcc (p : Nat) (f : RootPort → RootPort) : (s.updPort p f).ppsAcc = s.ppsAcc := rfl
@[simp] theorem State.updPort_rootSeen (p : Nat) (f : RootPort → RootPort) : (s.updPort p f).rootSeen = s.rootSeen := rfl
@[simp] theorem State.updLink_pending (p : Nat) (f : LinkPort → LinkPort) : (s.updLink p f).pending = s.pending := rfl
@[simp] theorem State.updLink_free (p : Nat) (f : LinkPort → LinkPort) : (s.updLink p f).free = s.free := rfl
@[simp] theorem State.updLink_now (p : Nat) (f : LinkPort → LinkPort) : (s.updLink p f).now = s.now := rfl
@[simp] theorem State.updLink_part (p : Nat) (f : LinkPort → LinkPort) : (s.updLink p f).part = s.part := rfl
@[simp] theorem State.updLink_stepping (p : Nat) (f : LinkPort → LinkPort) : (s.updLink p f).stepping = s.stepping := rfl
@[simp] theorem State.updLink_pkgId (p : Nat) (f : LinkPort → LinkPort) : (s.updLink p f).pkgId = s.pkgId := rfl
@[simp] theorem State.updLink_pairPkg (p : Nat) (f : LinkPort → LinkPort) : (s.updLink p f).pairPkg = s.pairPkg := rfl
@[simp] theorem State.updLink_ctl (p : Nat) (f : LinkPort → LinkPort) : (s.updLink p f).ctl = s.ctl := rfl
@[simp] theorem State.updLink_threads (p : Nat) (f : LinkPort → LinkPort) : (s.updLink p f).threads = s.threads := rfl
@[simp] theorem State.updLink_cores (p : Nat) (f : LinkPort → LinkPort) : (s.updLink p f).cores = s.cores := rfl
@[simp] theorem State.updLink_coreTile (p : Nat) (f : LinkPort → LinkPort) : (s.updLink p f).coreTile = s.coreTile := rfl
@[simp] theorem State.updLink_tiles (p : Nat) (f : LinkPort → LinkPort) : (s.updLink p f).tiles = s.tiles := rfl
@[simp] theorem State.updLink_dies (p : Nat) (f : LinkPort → LinkPort) : (s.updLink p f).dies = s.dies := rfl
@[simp] theorem State.updLink_dir (p : Nat) (f : LinkPort → LinkPort) : (s.updLink p f).dir = s.dir := rfl
@[simp] theorem State.updLink_txns (p : Nat) (f : LinkPort → LinkPort) : (s.updLink p f).txns = s.txns := rfl
@[simp] theorem State.updLink_atoms (p : Nat) (f : LinkPort → LinkPort) : (s.updLink p f).atoms = s.atoms := rfl
@[simp] theorem State.updLink_slices (p : Nat) (f : LinkPort → LinkPort) : (s.updLink p f).slices = s.slices := rfl
@[simp] theorem State.updLink_mem (p : Nat) (f : LinkPort → LinkPort) : (s.updLink p f).mem = s.mem := rfl
@[simp] theorem State.updLink_poisoned (p : Nat) (f : LinkPort → LinkPort) : (s.updLink p f).poisoned = s.poisoned := rfl
@[simp] theorem State.updLink_net (p : Nat) (f : LinkPort → LinkPort) : (s.updLink p f).net = s.net := rfl
@[simp] theorem State.updLink_backoffs (p : Nat) (f : LinkPort → LinkPort) : (s.updLink p f).backoffs = s.backoffs := rfl
@[simp] theorem State.updLink_nextTid (p : Nat) (f : LinkPort → LinkPort) : (s.updLink p f).nextTid = s.nextTid := rfl
@[simp] theorem State.updLink_chans (p : Nat) (f : LinkPort → LinkPort) : (s.updLink p f).chans = s.chans := rfl
@[simp] theorem State.updLink_keys (p : Nat) (f : LinkPort → LinkPort) : (s.updLink p f).keys = s.keys := rfl
@[simp] theorem State.updLink_almanac (p : Nat) (f : LinkPort → LinkPort) : (s.updLink p f).almanac = s.almanac := rfl
@[simp] theorem State.updLink_rootPorts (p : Nat) (f : LinkPort → LinkPort) : (s.updLink p f).rootPorts = s.rootPorts := rfl
@[simp] theorem State.updLink_insts (p : Nat) (f : LinkPort → LinkPort) : (s.updLink p f).insts = s.insts := rfl
@[simp] theorem State.updLink_served (p : Nat) (f : LinkPort → LinkPort) : (s.updLink p f).served = s.served := rfl
@[simp] theorem State.updLink_sources (p : Nat) (f : LinkPort → LinkPort) : (s.updLink p f).sources = s.sources := rfl
@[simp] theorem State.updLink_srcPend (p : Nat) (f : LinkPort → LinkPort) : (s.updLink p f).srcPend = s.srcPend := rfl
@[simp] theorem State.updLink_gpios (p : Nat) (f : LinkPort → LinkPort) : (s.updLink p f).gpios = s.gpios := rfl
@[simp] theorem State.updLink_gpioOut (p : Nat) (f : LinkPort → LinkPort) : (s.updLink p f).gpioOut = s.gpioOut := rfl
@[simp] theorem State.updLink_gpioOe (p : Nat) (f : LinkPort → LinkPort) : (s.updLink p f).gpioOe = s.gpioOe := rfl
@[simp] theorem State.updLink_iommu (p : Nat) (f : LinkPort → LinkPort) : (s.updLink p f).iommu = s.iommu := rfl
@[simp] theorem State.updLink_quiesces (p : Nat) (f : LinkPort → LinkPort) : (s.updLink p f).quiesces = s.quiesces := rfl
@[simp] theorem State.updLink_mc (p : Nat) (f : LinkPort → LinkPort) : (s.updLink p f).mc = s.mc := rfl
@[simp] theorem State.updLink_wd (p : Nat) (f : LinkPort → LinkPort) : (s.updLink p f).wd = s.wd := rfl
@[simp] theorem State.updLink_errs (p : Nat) (f : LinkPort → LinkPort) : (s.updLink p f).errs = s.errs := rfl
@[simp] theorem State.updLink_frisket (p : Nat) (f : LinkPort → LinkPort) : (s.updLink p f).frisket = s.frisket := rfl
@[simp] theorem State.updLink_power (p : Nat) (f : LinkPort → LinkPort) : (s.updLink p f).power = s.power := rfl
@[simp] theorem State.updLink_pair (p : Nat) (f : LinkPort → LinkPort) : (s.updLink p f).pair = s.pair := rfl
@[simp] theorem State.updLink_ppsLast (p : Nat) (f : LinkPort → LinkPort) : (s.updLink p f).ppsLast = s.ppsLast := rfl
@[simp] theorem State.updLink_syncAt (p : Nat) (f : LinkPort → LinkPort) : (s.updLink p f).syncAt = s.syncAt := rfl
@[simp] theorem State.updLink_coreResets (p : Nat) (f : LinkPort → LinkPort) : (s.updLink p f).coreResets = s.coreResets := rfl
@[simp] theorem State.updLink_slew (p : Nat) (f : LinkPort → LinkPort) : (s.updLink p f).slew = s.slew := rfl
@[simp] theorem State.updLink_slewPhase (p : Nat) (f : LinkPort → LinkPort) : (s.updLink p f).slewPhase = s.slewPhase := rfl
@[simp] theorem State.updLink_pairSide (p : Nat) (f : LinkPort → LinkPort) : (s.updLink p f).pairSide = s.pairSide := rfl
@[simp] theorem State.updLink_outPorts (p : Nat) (f : LinkPort → LinkPort) : (s.updLink p f).outPorts = s.outPorts := rfl
@[simp] theorem State.updLink_urgentAt (p : Nat) (f : LinkPort → LinkPort) : (s.updLink p f).urgentAt = s.urgentAt := rfl
@[simp] theorem State.updLink_regFrac (p : Nat) (f : LinkPort → LinkPort) : (s.updLink p f).regFrac = s.regFrac := rfl
@[simp] theorem State.updLink_regWaits (p : Nat) (f : LinkPort → LinkPort) : (s.updLink p f).regWaits = s.regWaits := rfl
@[simp] theorem State.updLink_stamped (p : Nat) (f : LinkPort → LinkPort) : (s.updLink p f).stamped = s.stamped := rfl
@[simp] theorem State.updLink_srcSent (p : Nat) (f : LinkPort → LinkPort) : (s.updLink p f).srcSent = s.srcSent := rfl
@[simp] theorem State.updLink_ppsRate (p : Nat) (f : LinkPort → LinkPort) : (s.updLink p f).ppsRate = s.ppsRate := rfl
@[simp] theorem State.updLink_ppsAcc (p : Nat) (f : LinkPort → LinkPort) : (s.updLink p f).ppsAcc = s.ppsAcc := rfl
@[simp] theorem State.updLink_rootSeen (p : Nat) (f : LinkPort → LinkPort) : (s.updLink p f).rootSeen = s.rootSeen := rfl
@[simp] theorem State.updInst_pending (i : Nat) (f : Inst → Inst) : (s.updInst i f).pending = s.pending := rfl
@[simp] theorem State.updInst_free (i : Nat) (f : Inst → Inst) : (s.updInst i f).free = s.free := rfl
@[simp] theorem State.updInst_now (i : Nat) (f : Inst → Inst) : (s.updInst i f).now = s.now := rfl
@[simp] theorem State.updInst_part (i : Nat) (f : Inst → Inst) : (s.updInst i f).part = s.part := rfl
@[simp] theorem State.updInst_stepping (i : Nat) (f : Inst → Inst) : (s.updInst i f).stepping = s.stepping := rfl
@[simp] theorem State.updInst_pkgId (i : Nat) (f : Inst → Inst) : (s.updInst i f).pkgId = s.pkgId := rfl
@[simp] theorem State.updInst_pairPkg (i : Nat) (f : Inst → Inst) : (s.updInst i f).pairPkg = s.pairPkg := rfl
@[simp] theorem State.updInst_ctl (i : Nat) (f : Inst → Inst) : (s.updInst i f).ctl = s.ctl := rfl
@[simp] theorem State.updInst_threads (i : Nat) (f : Inst → Inst) : (s.updInst i f).threads = s.threads := rfl
@[simp] theorem State.updInst_cores (i : Nat) (f : Inst → Inst) : (s.updInst i f).cores = s.cores := rfl
@[simp] theorem State.updInst_coreTile (i : Nat) (f : Inst → Inst) : (s.updInst i f).coreTile = s.coreTile := rfl
@[simp] theorem State.updInst_tiles (i : Nat) (f : Inst → Inst) : (s.updInst i f).tiles = s.tiles := rfl
@[simp] theorem State.updInst_dies (i : Nat) (f : Inst → Inst) : (s.updInst i f).dies = s.dies := rfl
@[simp] theorem State.updInst_dir (i : Nat) (f : Inst → Inst) : (s.updInst i f).dir = s.dir := rfl
@[simp] theorem State.updInst_txns (i : Nat) (f : Inst → Inst) : (s.updInst i f).txns = s.txns := rfl
@[simp] theorem State.updInst_atoms (i : Nat) (f : Inst → Inst) : (s.updInst i f).atoms = s.atoms := rfl
@[simp] theorem State.updInst_slices (i : Nat) (f : Inst → Inst) : (s.updInst i f).slices = s.slices := rfl
@[simp] theorem State.updInst_mem (i : Nat) (f : Inst → Inst) : (s.updInst i f).mem = s.mem := rfl
@[simp] theorem State.updInst_poisoned (i : Nat) (f : Inst → Inst) : (s.updInst i f).poisoned = s.poisoned := rfl
@[simp] theorem State.updInst_net (i : Nat) (f : Inst → Inst) : (s.updInst i f).net = s.net := rfl
@[simp] theorem State.updInst_backoffs (i : Nat) (f : Inst → Inst) : (s.updInst i f).backoffs = s.backoffs := rfl
@[simp] theorem State.updInst_nextTid (i : Nat) (f : Inst → Inst) : (s.updInst i f).nextTid = s.nextTid := rfl
@[simp] theorem State.updInst_chans (i : Nat) (f : Inst → Inst) : (s.updInst i f).chans = s.chans := rfl
@[simp] theorem State.updInst_keys (i : Nat) (f : Inst → Inst) : (s.updInst i f).keys = s.keys := rfl
@[simp] theorem State.updInst_almanac (i : Nat) (f : Inst → Inst) : (s.updInst i f).almanac = s.almanac := rfl
@[simp] theorem State.updInst_rootPorts (i : Nat) (f : Inst → Inst) : (s.updInst i f).rootPorts = s.rootPorts := rfl
@[simp] theorem State.updInst_links (i : Nat) (f : Inst → Inst) : (s.updInst i f).links = s.links := rfl
@[simp] theorem State.updInst_served (i : Nat) (f : Inst → Inst) : (s.updInst i f).served = s.served := rfl
@[simp] theorem State.updInst_sources (i : Nat) (f : Inst → Inst) : (s.updInst i f).sources = s.sources := rfl
@[simp] theorem State.updInst_srcPend (i : Nat) (f : Inst → Inst) : (s.updInst i f).srcPend = s.srcPend := rfl
@[simp] theorem State.updInst_gpios (i : Nat) (f : Inst → Inst) : (s.updInst i f).gpios = s.gpios := rfl
@[simp] theorem State.updInst_gpioOut (i : Nat) (f : Inst → Inst) : (s.updInst i f).gpioOut = s.gpioOut := rfl
@[simp] theorem State.updInst_gpioOe (i : Nat) (f : Inst → Inst) : (s.updInst i f).gpioOe = s.gpioOe := rfl
@[simp] theorem State.updInst_iommu (i : Nat) (f : Inst → Inst) : (s.updInst i f).iommu = s.iommu := rfl
@[simp] theorem State.updInst_quiesces (i : Nat) (f : Inst → Inst) : (s.updInst i f).quiesces = s.quiesces := rfl
@[simp] theorem State.updInst_mc (i : Nat) (f : Inst → Inst) : (s.updInst i f).mc = s.mc := rfl
@[simp] theorem State.updInst_wd (i : Nat) (f : Inst → Inst) : (s.updInst i f).wd = s.wd := rfl
@[simp] theorem State.updInst_errs (i : Nat) (f : Inst → Inst) : (s.updInst i f).errs = s.errs := rfl
@[simp] theorem State.updInst_frisket (i : Nat) (f : Inst → Inst) : (s.updInst i f).frisket = s.frisket := rfl
@[simp] theorem State.updInst_power (i : Nat) (f : Inst → Inst) : (s.updInst i f).power = s.power := rfl
@[simp] theorem State.updInst_pair (i : Nat) (f : Inst → Inst) : (s.updInst i f).pair = s.pair := rfl
@[simp] theorem State.updInst_ppsLast (i : Nat) (f : Inst → Inst) : (s.updInst i f).ppsLast = s.ppsLast := rfl
@[simp] theorem State.updInst_syncAt (i : Nat) (f : Inst → Inst) : (s.updInst i f).syncAt = s.syncAt := rfl
@[simp] theorem State.updInst_coreResets (i : Nat) (f : Inst → Inst) : (s.updInst i f).coreResets = s.coreResets := rfl
@[simp] theorem State.updInst_slew (i : Nat) (f : Inst → Inst) : (s.updInst i f).slew = s.slew := rfl
@[simp] theorem State.updInst_slewPhase (i : Nat) (f : Inst → Inst) : (s.updInst i f).slewPhase = s.slewPhase := rfl
@[simp] theorem State.updInst_pairSide (i : Nat) (f : Inst → Inst) : (s.updInst i f).pairSide = s.pairSide := rfl
@[simp] theorem State.updInst_outPorts (i : Nat) (f : Inst → Inst) : (s.updInst i f).outPorts = s.outPorts := rfl
@[simp] theorem State.updInst_urgentAt (i : Nat) (f : Inst → Inst) : (s.updInst i f).urgentAt = s.urgentAt := rfl
@[simp] theorem State.updInst_regFrac (i : Nat) (f : Inst → Inst) : (s.updInst i f).regFrac = s.regFrac := rfl
@[simp] theorem State.updInst_regWaits (i : Nat) (f : Inst → Inst) : (s.updInst i f).regWaits = s.regWaits := rfl
@[simp] theorem State.updInst_stamped (i : Nat) (f : Inst → Inst) : (s.updInst i f).stamped = s.stamped := rfl
@[simp] theorem State.updInst_srcSent (i : Nat) (f : Inst → Inst) : (s.updInst i f).srcSent = s.srcSent := rfl
@[simp] theorem State.updInst_ppsRate (i : Nat) (f : Inst → Inst) : (s.updInst i f).ppsRate = s.ppsRate := rfl
@[simp] theorem State.updInst_ppsAcc (i : Nat) (f : Inst → Inst) : (s.updInst i f).ppsAcc = s.ppsAcc := rfl
@[simp] theorem State.updInst_rootSeen (i : Nat) (f : Inst → Inst) : (s.updInst i f).rootSeen = s.rootSeen := rfl
@[simp] theorem State.updSlice_pending (n : Nat) (f : Slice → Slice) : (s.updSlice n f).pending = s.pending := rfl
@[simp] theorem State.updSlice_free (n : Nat) (f : Slice → Slice) : (s.updSlice n f).free = s.free := rfl
@[simp] theorem State.updSlice_now (n : Nat) (f : Slice → Slice) : (s.updSlice n f).now = s.now := rfl
@[simp] theorem State.updSlice_part (n : Nat) (f : Slice → Slice) : (s.updSlice n f).part = s.part := rfl
@[simp] theorem State.updSlice_stepping (n : Nat) (f : Slice → Slice) : (s.updSlice n f).stepping = s.stepping := rfl
@[simp] theorem State.updSlice_pkgId (n : Nat) (f : Slice → Slice) : (s.updSlice n f).pkgId = s.pkgId := rfl
@[simp] theorem State.updSlice_pairPkg (n : Nat) (f : Slice → Slice) : (s.updSlice n f).pairPkg = s.pairPkg := rfl
@[simp] theorem State.updSlice_ctl (n : Nat) (f : Slice → Slice) : (s.updSlice n f).ctl = s.ctl := rfl
@[simp] theorem State.updSlice_threads (n : Nat) (f : Slice → Slice) : (s.updSlice n f).threads = s.threads := rfl
@[simp] theorem State.updSlice_cores (n : Nat) (f : Slice → Slice) : (s.updSlice n f).cores = s.cores := rfl
@[simp] theorem State.updSlice_coreTile (n : Nat) (f : Slice → Slice) : (s.updSlice n f).coreTile = s.coreTile := rfl
@[simp] theorem State.updSlice_tiles (n : Nat) (f : Slice → Slice) : (s.updSlice n f).tiles = s.tiles := rfl
@[simp] theorem State.updSlice_dies (n : Nat) (f : Slice → Slice) : (s.updSlice n f).dies = s.dies := rfl
@[simp] theorem State.updSlice_dir (n : Nat) (f : Slice → Slice) : (s.updSlice n f).dir = s.dir := rfl
@[simp] theorem State.updSlice_txns (n : Nat) (f : Slice → Slice) : (s.updSlice n f).txns = s.txns := rfl
@[simp] theorem State.updSlice_atoms (n : Nat) (f : Slice → Slice) : (s.updSlice n f).atoms = s.atoms := rfl
@[simp] theorem State.updSlice_mem (n : Nat) (f : Slice → Slice) : (s.updSlice n f).mem = s.mem := rfl
@[simp] theorem State.updSlice_poisoned (n : Nat) (f : Slice → Slice) : (s.updSlice n f).poisoned = s.poisoned := rfl
@[simp] theorem State.updSlice_net (n : Nat) (f : Slice → Slice) : (s.updSlice n f).net = s.net := rfl
@[simp] theorem State.updSlice_backoffs (n : Nat) (f : Slice → Slice) : (s.updSlice n f).backoffs = s.backoffs := rfl
@[simp] theorem State.updSlice_nextTid (n : Nat) (f : Slice → Slice) : (s.updSlice n f).nextTid = s.nextTid := rfl
@[simp] theorem State.updSlice_chans (n : Nat) (f : Slice → Slice) : (s.updSlice n f).chans = s.chans := rfl
@[simp] theorem State.updSlice_keys (n : Nat) (f : Slice → Slice) : (s.updSlice n f).keys = s.keys := rfl
@[simp] theorem State.updSlice_almanac (n : Nat) (f : Slice → Slice) : (s.updSlice n f).almanac = s.almanac := rfl
@[simp] theorem State.updSlice_rootPorts (n : Nat) (f : Slice → Slice) : (s.updSlice n f).rootPorts = s.rootPorts := rfl
@[simp] theorem State.updSlice_links (n : Nat) (f : Slice → Slice) : (s.updSlice n f).links = s.links := rfl
@[simp] theorem State.updSlice_insts (n : Nat) (f : Slice → Slice) : (s.updSlice n f).insts = s.insts := rfl
@[simp] theorem State.updSlice_served (n : Nat) (f : Slice → Slice) : (s.updSlice n f).served = s.served := rfl
@[simp] theorem State.updSlice_sources (n : Nat) (f : Slice → Slice) : (s.updSlice n f).sources = s.sources := rfl
@[simp] theorem State.updSlice_srcPend (n : Nat) (f : Slice → Slice) : (s.updSlice n f).srcPend = s.srcPend := rfl
@[simp] theorem State.updSlice_gpios (n : Nat) (f : Slice → Slice) : (s.updSlice n f).gpios = s.gpios := rfl
@[simp] theorem State.updSlice_gpioOut (n : Nat) (f : Slice → Slice) : (s.updSlice n f).gpioOut = s.gpioOut := rfl
@[simp] theorem State.updSlice_gpioOe (n : Nat) (f : Slice → Slice) : (s.updSlice n f).gpioOe = s.gpioOe := rfl
@[simp] theorem State.updSlice_iommu (n : Nat) (f : Slice → Slice) : (s.updSlice n f).iommu = s.iommu := rfl
@[simp] theorem State.updSlice_quiesces (n : Nat) (f : Slice → Slice) : (s.updSlice n f).quiesces = s.quiesces := rfl
@[simp] theorem State.updSlice_mc (n : Nat) (f : Slice → Slice) : (s.updSlice n f).mc = s.mc := rfl
@[simp] theorem State.updSlice_wd (n : Nat) (f : Slice → Slice) : (s.updSlice n f).wd = s.wd := rfl
@[simp] theorem State.updSlice_errs (n : Nat) (f : Slice → Slice) : (s.updSlice n f).errs = s.errs := rfl
@[simp] theorem State.updSlice_frisket (n : Nat) (f : Slice → Slice) : (s.updSlice n f).frisket = s.frisket := rfl
@[simp] theorem State.updSlice_power (n : Nat) (f : Slice → Slice) : (s.updSlice n f).power = s.power := rfl
@[simp] theorem State.updSlice_pair (n : Nat) (f : Slice → Slice) : (s.updSlice n f).pair = s.pair := rfl
@[simp] theorem State.updSlice_ppsLast (n : Nat) (f : Slice → Slice) : (s.updSlice n f).ppsLast = s.ppsLast := rfl
@[simp] theorem State.updSlice_syncAt (n : Nat) (f : Slice → Slice) : (s.updSlice n f).syncAt = s.syncAt := rfl
@[simp] theorem State.updSlice_coreResets (n : Nat) (f : Slice → Slice) : (s.updSlice n f).coreResets = s.coreResets := rfl
@[simp] theorem State.updSlice_slew (n : Nat) (f : Slice → Slice) : (s.updSlice n f).slew = s.slew := rfl
@[simp] theorem State.updSlice_slewPhase (n : Nat) (f : Slice → Slice) : (s.updSlice n f).slewPhase = s.slewPhase := rfl
@[simp] theorem State.updSlice_pairSide (n : Nat) (f : Slice → Slice) : (s.updSlice n f).pairSide = s.pairSide := rfl
@[simp] theorem State.updSlice_outPorts (n : Nat) (f : Slice → Slice) : (s.updSlice n f).outPorts = s.outPorts := rfl
@[simp] theorem State.updSlice_urgentAt (n : Nat) (f : Slice → Slice) : (s.updSlice n f).urgentAt = s.urgentAt := rfl
@[simp] theorem State.updSlice_regFrac (n : Nat) (f : Slice → Slice) : (s.updSlice n f).regFrac = s.regFrac := rfl
@[simp] theorem State.updSlice_regWaits (n : Nat) (f : Slice → Slice) : (s.updSlice n f).regWaits = s.regWaits := rfl
@[simp] theorem State.updSlice_stamped (n : Nat) (f : Slice → Slice) : (s.updSlice n f).stamped = s.stamped := rfl
@[simp] theorem State.updSlice_srcSent (n : Nat) (f : Slice → Slice) : (s.updSlice n f).srcSent = s.srcSent := rfl
@[simp] theorem State.updSlice_ppsRate (n : Nat) (f : Slice → Slice) : (s.updSlice n f).ppsRate = s.ppsRate := rfl
@[simp] theorem State.updSlice_ppsAcc (n : Nat) (f : Slice → Slice) : (s.updSlice n f).ppsAcc = s.ppsAcc := rfl
@[simp] theorem State.updSlice_rootSeen (n : Nat) (f : Slice → Slice) : (s.updSlice n f).rootSeen = s.rootSeen := rfl
@[simp] theorem State.drawn_pending : (s.drawn).pending = s.pending := rfl
@[simp] theorem State.drawn_now : (s.drawn).now = s.now := rfl
@[simp] theorem State.drawn_part : (s.drawn).part = s.part := rfl
@[simp] theorem State.drawn_stepping : (s.drawn).stepping = s.stepping := rfl
@[simp] theorem State.drawn_pkgId : (s.drawn).pkgId = s.pkgId := rfl
@[simp] theorem State.drawn_pairPkg : (s.drawn).pairPkg = s.pairPkg := rfl
@[simp] theorem State.drawn_ctl : (s.drawn).ctl = s.ctl := rfl
@[simp] theorem State.drawn_threads : (s.drawn).threads = s.threads := rfl
@[simp] theorem State.drawn_cores : (s.drawn).cores = s.cores := rfl
@[simp] theorem State.drawn_coreTile : (s.drawn).coreTile = s.coreTile := rfl
@[simp] theorem State.drawn_tiles : (s.drawn).tiles = s.tiles := rfl
@[simp] theorem State.drawn_dies : (s.drawn).dies = s.dies := rfl
@[simp] theorem State.drawn_dir : (s.drawn).dir = s.dir := rfl
@[simp] theorem State.drawn_txns : (s.drawn).txns = s.txns := rfl
@[simp] theorem State.drawn_atoms : (s.drawn).atoms = s.atoms := rfl
@[simp] theorem State.drawn_slices : (s.drawn).slices = s.slices := rfl
@[simp] theorem State.drawn_mem : (s.drawn).mem = s.mem := rfl
@[simp] theorem State.drawn_poisoned : (s.drawn).poisoned = s.poisoned := rfl
@[simp] theorem State.drawn_net : (s.drawn).net = s.net := rfl
@[simp] theorem State.drawn_backoffs : (s.drawn).backoffs = s.backoffs := rfl
@[simp] theorem State.drawn_nextTid : (s.drawn).nextTid = s.nextTid := rfl
@[simp] theorem State.drawn_chans : (s.drawn).chans = s.chans := rfl
@[simp] theorem State.drawn_keys : (s.drawn).keys = s.keys := rfl
@[simp] theorem State.drawn_almanac : (s.drawn).almanac = s.almanac := rfl
@[simp] theorem State.drawn_rootPorts : (s.drawn).rootPorts = s.rootPorts := rfl
@[simp] theorem State.drawn_links : (s.drawn).links = s.links := rfl
@[simp] theorem State.drawn_insts : (s.drawn).insts = s.insts := rfl
@[simp] theorem State.drawn_served : (s.drawn).served = s.served := rfl
@[simp] theorem State.drawn_sources : (s.drawn).sources = s.sources := rfl
@[simp] theorem State.drawn_srcPend : (s.drawn).srcPend = s.srcPend := rfl
@[simp] theorem State.drawn_gpios : (s.drawn).gpios = s.gpios := rfl
@[simp] theorem State.drawn_gpioOut : (s.drawn).gpioOut = s.gpioOut := rfl
@[simp] theorem State.drawn_gpioOe : (s.drawn).gpioOe = s.gpioOe := rfl
@[simp] theorem State.drawn_iommu : (s.drawn).iommu = s.iommu := rfl
@[simp] theorem State.drawn_quiesces : (s.drawn).quiesces = s.quiesces := rfl
@[simp] theorem State.drawn_mc : (s.drawn).mc = s.mc := rfl
@[simp] theorem State.drawn_wd : (s.drawn).wd = s.wd := rfl
@[simp] theorem State.drawn_errs : (s.drawn).errs = s.errs := rfl
@[simp] theorem State.drawn_frisket : (s.drawn).frisket = s.frisket := rfl
@[simp] theorem State.drawn_power : (s.drawn).power = s.power := rfl
@[simp] theorem State.drawn_pair : (s.drawn).pair = s.pair := rfl
@[simp] theorem State.drawn_ppsLast : (s.drawn).ppsLast = s.ppsLast := rfl
@[simp] theorem State.drawn_syncAt : (s.drawn).syncAt = s.syncAt := rfl
@[simp] theorem State.drawn_coreResets : (s.drawn).coreResets = s.coreResets := rfl
@[simp] theorem State.drawn_slew : (s.drawn).slew = s.slew := rfl
@[simp] theorem State.drawn_slewPhase : (s.drawn).slewPhase = s.slewPhase := rfl
@[simp] theorem State.drawn_pairSide : (s.drawn).pairSide = s.pairSide := rfl
@[simp] theorem State.drawn_outPorts : (s.drawn).outPorts = s.outPorts := rfl
@[simp] theorem State.drawn_urgentAt : (s.drawn).urgentAt = s.urgentAt := rfl
@[simp] theorem State.drawn_regFrac : (s.drawn).regFrac = s.regFrac := rfl
@[simp] theorem State.drawn_regWaits : (s.drawn).regWaits = s.regWaits := rfl
@[simp] theorem State.drawn_stamped : (s.drawn).stamped = s.stamped := rfl
@[simp] theorem State.drawn_srcSent : (s.drawn).srcSent = s.srcSent := rfl
@[simp] theorem State.drawn_ppsRate : (s.drawn).ppsRate = s.ppsRate := rfl
@[simp] theorem State.drawn_ppsAcc : (s.drawn).ppsAcc = s.ppsAcc := rfl
@[simp] theorem State.drawn_rootSeen : (s.drawn).rootSeen = s.rootSeen := rfl
@[simp] theorem State.freshTid_pending : (s.freshTid).pending = s.pending := rfl
@[simp] theorem State.freshTid_free : (s.freshTid).free = s.free := rfl
@[simp] theorem State.freshTid_now : (s.freshTid).now = s.now := rfl
@[simp] theorem State.freshTid_part : (s.freshTid).part = s.part := rfl
@[simp] theorem State.freshTid_stepping : (s.freshTid).stepping = s.stepping := rfl
@[simp] theorem State.freshTid_pkgId : (s.freshTid).pkgId = s.pkgId := rfl
@[simp] theorem State.freshTid_pairPkg : (s.freshTid).pairPkg = s.pairPkg := rfl
@[simp] theorem State.freshTid_ctl : (s.freshTid).ctl = s.ctl := rfl
@[simp] theorem State.freshTid_threads : (s.freshTid).threads = s.threads := rfl
@[simp] theorem State.freshTid_cores : (s.freshTid).cores = s.cores := rfl
@[simp] theorem State.freshTid_coreTile : (s.freshTid).coreTile = s.coreTile := rfl
@[simp] theorem State.freshTid_tiles : (s.freshTid).tiles = s.tiles := rfl
@[simp] theorem State.freshTid_dies : (s.freshTid).dies = s.dies := rfl
@[simp] theorem State.freshTid_dir : (s.freshTid).dir = s.dir := rfl
@[simp] theorem State.freshTid_txns : (s.freshTid).txns = s.txns := rfl
@[simp] theorem State.freshTid_atoms : (s.freshTid).atoms = s.atoms := rfl
@[simp] theorem State.freshTid_slices : (s.freshTid).slices = s.slices := rfl
@[simp] theorem State.freshTid_mem : (s.freshTid).mem = s.mem := rfl
@[simp] theorem State.freshTid_poisoned : (s.freshTid).poisoned = s.poisoned := rfl
@[simp] theorem State.freshTid_net : (s.freshTid).net = s.net := rfl
@[simp] theorem State.freshTid_backoffs : (s.freshTid).backoffs = s.backoffs := rfl
@[simp] theorem State.freshTid_chans : (s.freshTid).chans = s.chans := rfl
@[simp] theorem State.freshTid_keys : (s.freshTid).keys = s.keys := rfl
@[simp] theorem State.freshTid_almanac : (s.freshTid).almanac = s.almanac := rfl
@[simp] theorem State.freshTid_rootPorts : (s.freshTid).rootPorts = s.rootPorts := rfl
@[simp] theorem State.freshTid_links : (s.freshTid).links = s.links := rfl
@[simp] theorem State.freshTid_insts : (s.freshTid).insts = s.insts := rfl
@[simp] theorem State.freshTid_served : (s.freshTid).served = s.served := rfl
@[simp] theorem State.freshTid_sources : (s.freshTid).sources = s.sources := rfl
@[simp] theorem State.freshTid_srcPend : (s.freshTid).srcPend = s.srcPend := rfl
@[simp] theorem State.freshTid_gpios : (s.freshTid).gpios = s.gpios := rfl
@[simp] theorem State.freshTid_gpioOut : (s.freshTid).gpioOut = s.gpioOut := rfl
@[simp] theorem State.freshTid_gpioOe : (s.freshTid).gpioOe = s.gpioOe := rfl
@[simp] theorem State.freshTid_iommu : (s.freshTid).iommu = s.iommu := rfl
@[simp] theorem State.freshTid_quiesces : (s.freshTid).quiesces = s.quiesces := rfl
@[simp] theorem State.freshTid_mc : (s.freshTid).mc = s.mc := rfl
@[simp] theorem State.freshTid_wd : (s.freshTid).wd = s.wd := rfl
@[simp] theorem State.freshTid_errs : (s.freshTid).errs = s.errs := rfl
@[simp] theorem State.freshTid_frisket : (s.freshTid).frisket = s.frisket := rfl
@[simp] theorem State.freshTid_power : (s.freshTid).power = s.power := rfl
@[simp] theorem State.freshTid_pair : (s.freshTid).pair = s.pair := rfl
@[simp] theorem State.freshTid_ppsLast : (s.freshTid).ppsLast = s.ppsLast := rfl
@[simp] theorem State.freshTid_syncAt : (s.freshTid).syncAt = s.syncAt := rfl
@[simp] theorem State.freshTid_coreResets : (s.freshTid).coreResets = s.coreResets := rfl
@[simp] theorem State.freshTid_slew : (s.freshTid).slew = s.slew := rfl
@[simp] theorem State.freshTid_slewPhase : (s.freshTid).slewPhase = s.slewPhase := rfl
@[simp] theorem State.freshTid_pairSide : (s.freshTid).pairSide = s.pairSide := rfl
@[simp] theorem State.freshTid_outPorts : (s.freshTid).outPorts = s.outPorts := rfl
@[simp] theorem State.freshTid_urgentAt : (s.freshTid).urgentAt = s.urgentAt := rfl
@[simp] theorem State.freshTid_regFrac : (s.freshTid).regFrac = s.regFrac := rfl
@[simp] theorem State.freshTid_regWaits : (s.freshTid).regWaits = s.regWaits := rfl
@[simp] theorem State.freshTid_stamped : (s.freshTid).stamped = s.stamped := rfl
@[simp] theorem State.freshTid_srcSent : (s.freshTid).srcSent = s.srcSent := rfl
@[simp] theorem State.freshTid_ppsRate : (s.freshTid).ppsRate = s.ppsRate := rfl
@[simp] theorem State.freshTid_ppsAcc : (s.freshTid).ppsAcc = s.ppsAcc := rfl
@[simp] theorem State.freshTid_rootSeen : (s.freshTid).rootSeen = s.rootSeen := rfl
@[simp] theorem State.ctlPut_pending (a : Nat) (w : Word) : (s.ctlPut a w).pending = s.pending := rfl
@[simp] theorem State.ctlPut_free (a : Nat) (w : Word) : (s.ctlPut a w).free = s.free := rfl
@[simp] theorem State.ctlPut_now (a : Nat) (w : Word) : (s.ctlPut a w).now = s.now := rfl
@[simp] theorem State.ctlPut_part (a : Nat) (w : Word) : (s.ctlPut a w).part = s.part := rfl
@[simp] theorem State.ctlPut_stepping (a : Nat) (w : Word) : (s.ctlPut a w).stepping = s.stepping := rfl
@[simp] theorem State.ctlPut_pkgId (a : Nat) (w : Word) : (s.ctlPut a w).pkgId = s.pkgId := rfl
@[simp] theorem State.ctlPut_pairPkg (a : Nat) (w : Word) : (s.ctlPut a w).pairPkg = s.pairPkg := rfl
@[simp] theorem State.ctlPut_threads (a : Nat) (w : Word) : (s.ctlPut a w).threads = s.threads := rfl
@[simp] theorem State.ctlPut_cores (a : Nat) (w : Word) : (s.ctlPut a w).cores = s.cores := rfl
@[simp] theorem State.ctlPut_coreTile (a : Nat) (w : Word) : (s.ctlPut a w).coreTile = s.coreTile := rfl
@[simp] theorem State.ctlPut_tiles (a : Nat) (w : Word) : (s.ctlPut a w).tiles = s.tiles := rfl
@[simp] theorem State.ctlPut_dies (a : Nat) (w : Word) : (s.ctlPut a w).dies = s.dies := rfl
@[simp] theorem State.ctlPut_dir (a : Nat) (w : Word) : (s.ctlPut a w).dir = s.dir := rfl
@[simp] theorem State.ctlPut_txns (a : Nat) (w : Word) : (s.ctlPut a w).txns = s.txns := rfl
@[simp] theorem State.ctlPut_atoms (a : Nat) (w : Word) : (s.ctlPut a w).atoms = s.atoms := rfl
@[simp] theorem State.ctlPut_slices (a : Nat) (w : Word) : (s.ctlPut a w).slices = s.slices := rfl
@[simp] theorem State.ctlPut_mem (a : Nat) (w : Word) : (s.ctlPut a w).mem = s.mem := rfl
@[simp] theorem State.ctlPut_poisoned (a : Nat) (w : Word) : (s.ctlPut a w).poisoned = s.poisoned := rfl
@[simp] theorem State.ctlPut_net (a : Nat) (w : Word) : (s.ctlPut a w).net = s.net := rfl
@[simp] theorem State.ctlPut_backoffs (a : Nat) (w : Word) : (s.ctlPut a w).backoffs = s.backoffs := rfl
@[simp] theorem State.ctlPut_nextTid (a : Nat) (w : Word) : (s.ctlPut a w).nextTid = s.nextTid := rfl
@[simp] theorem State.ctlPut_chans (a : Nat) (w : Word) : (s.ctlPut a w).chans = s.chans := rfl
@[simp] theorem State.ctlPut_keys (a : Nat) (w : Word) : (s.ctlPut a w).keys = s.keys := rfl
@[simp] theorem State.ctlPut_almanac (a : Nat) (w : Word) : (s.ctlPut a w).almanac = s.almanac := rfl
@[simp] theorem State.ctlPut_rootPorts (a : Nat) (w : Word) : (s.ctlPut a w).rootPorts = s.rootPorts := rfl
@[simp] theorem State.ctlPut_links (a : Nat) (w : Word) : (s.ctlPut a w).links = s.links := rfl
@[simp] theorem State.ctlPut_insts (a : Nat) (w : Word) : (s.ctlPut a w).insts = s.insts := rfl
@[simp] theorem State.ctlPut_served (a : Nat) (w : Word) : (s.ctlPut a w).served = s.served := rfl
@[simp] theorem State.ctlPut_sources (a : Nat) (w : Word) : (s.ctlPut a w).sources = s.sources := rfl
@[simp] theorem State.ctlPut_srcPend (a : Nat) (w : Word) : (s.ctlPut a w).srcPend = s.srcPend := rfl
@[simp] theorem State.ctlPut_gpios (a : Nat) (w : Word) : (s.ctlPut a w).gpios = s.gpios := rfl
@[simp] theorem State.ctlPut_gpioOut (a : Nat) (w : Word) : (s.ctlPut a w).gpioOut = s.gpioOut := rfl
@[simp] theorem State.ctlPut_gpioOe (a : Nat) (w : Word) : (s.ctlPut a w).gpioOe = s.gpioOe := rfl
@[simp] theorem State.ctlPut_iommu (a : Nat) (w : Word) : (s.ctlPut a w).iommu = s.iommu := rfl
@[simp] theorem State.ctlPut_quiesces (a : Nat) (w : Word) : (s.ctlPut a w).quiesces = s.quiesces := rfl
@[simp] theorem State.ctlPut_mc (a : Nat) (w : Word) : (s.ctlPut a w).mc = s.mc := rfl
@[simp] theorem State.ctlPut_wd (a : Nat) (w : Word) : (s.ctlPut a w).wd = s.wd := rfl
@[simp] theorem State.ctlPut_errs (a : Nat) (w : Word) : (s.ctlPut a w).errs = s.errs := rfl
@[simp] theorem State.ctlPut_frisket (a : Nat) (w : Word) : (s.ctlPut a w).frisket = s.frisket := rfl
@[simp] theorem State.ctlPut_power (a : Nat) (w : Word) : (s.ctlPut a w).power = s.power := rfl
@[simp] theorem State.ctlPut_pair (a : Nat) (w : Word) : (s.ctlPut a w).pair = s.pair := rfl
@[simp] theorem State.ctlPut_ppsLast (a : Nat) (w : Word) : (s.ctlPut a w).ppsLast = s.ppsLast := rfl
@[simp] theorem State.ctlPut_syncAt (a : Nat) (w : Word) : (s.ctlPut a w).syncAt = s.syncAt := rfl
@[simp] theorem State.ctlPut_coreResets (a : Nat) (w : Word) : (s.ctlPut a w).coreResets = s.coreResets := rfl
@[simp] theorem State.ctlPut_slew (a : Nat) (w : Word) : (s.ctlPut a w).slew = s.slew := rfl
@[simp] theorem State.ctlPut_slewPhase (a : Nat) (w : Word) : (s.ctlPut a w).slewPhase = s.slewPhase := rfl
@[simp] theorem State.ctlPut_pairSide (a : Nat) (w : Word) : (s.ctlPut a w).pairSide = s.pairSide := rfl
@[simp] theorem State.ctlPut_outPorts (a : Nat) (w : Word) : (s.ctlPut a w).outPorts = s.outPorts := rfl
@[simp] theorem State.ctlPut_urgentAt (a : Nat) (w : Word) : (s.ctlPut a w).urgentAt = s.urgentAt := rfl
@[simp] theorem State.ctlPut_regFrac (a : Nat) (w : Word) : (s.ctlPut a w).regFrac = s.regFrac := rfl
@[simp] theorem State.ctlPut_regWaits (a : Nat) (w : Word) : (s.ctlPut a w).regWaits = s.regWaits := rfl
@[simp] theorem State.ctlPut_stamped (a : Nat) (w : Word) : (s.ctlPut a w).stamped = s.stamped := rfl
@[simp] theorem State.ctlPut_srcSent (a : Nat) (w : Word) : (s.ctlPut a w).srcSent = s.srcSent := rfl
@[simp] theorem State.ctlPut_ppsRate (a : Nat) (w : Word) : (s.ctlPut a w).ppsRate = s.ppsRate := rfl
@[simp] theorem State.ctlPut_ppsAcc (a : Nat) (w : Word) : (s.ctlPut a w).ppsAcc = s.ppsAcc := rfl
@[simp] theorem State.ctlPut_rootSeen (a : Nat) (w : Word) : (s.ctlPut a w).rootSeen = s.rootSeen := rfl
@[simp] theorem State.ctlField_pending (a hi lo v : Nat) : (s.ctlField a hi lo v).pending = s.pending := rfl
@[simp] theorem State.ctlField_free (a hi lo v : Nat) : (s.ctlField a hi lo v).free = s.free := rfl
@[simp] theorem State.ctlField_now (a hi lo v : Nat) : (s.ctlField a hi lo v).now = s.now := rfl
@[simp] theorem State.ctlField_part (a hi lo v : Nat) : (s.ctlField a hi lo v).part = s.part := rfl
@[simp] theorem State.ctlField_stepping (a hi lo v : Nat) : (s.ctlField a hi lo v).stepping = s.stepping := rfl
@[simp] theorem State.ctlField_pkgId (a hi lo v : Nat) : (s.ctlField a hi lo v).pkgId = s.pkgId := rfl
@[simp] theorem State.ctlField_pairPkg (a hi lo v : Nat) : (s.ctlField a hi lo v).pairPkg = s.pairPkg := rfl
@[simp] theorem State.ctlField_threads (a hi lo v : Nat) : (s.ctlField a hi lo v).threads = s.threads := rfl
@[simp] theorem State.ctlField_cores (a hi lo v : Nat) : (s.ctlField a hi lo v).cores = s.cores := rfl
@[simp] theorem State.ctlField_coreTile (a hi lo v : Nat) : (s.ctlField a hi lo v).coreTile = s.coreTile := rfl
@[simp] theorem State.ctlField_tiles (a hi lo v : Nat) : (s.ctlField a hi lo v).tiles = s.tiles := rfl
@[simp] theorem State.ctlField_dies (a hi lo v : Nat) : (s.ctlField a hi lo v).dies = s.dies := rfl
@[simp] theorem State.ctlField_dir (a hi lo v : Nat) : (s.ctlField a hi lo v).dir = s.dir := rfl
@[simp] theorem State.ctlField_txns (a hi lo v : Nat) : (s.ctlField a hi lo v).txns = s.txns := rfl
@[simp] theorem State.ctlField_atoms (a hi lo v : Nat) : (s.ctlField a hi lo v).atoms = s.atoms := rfl
@[simp] theorem State.ctlField_slices (a hi lo v : Nat) : (s.ctlField a hi lo v).slices = s.slices := rfl
@[simp] theorem State.ctlField_mem (a hi lo v : Nat) : (s.ctlField a hi lo v).mem = s.mem := rfl
@[simp] theorem State.ctlField_poisoned (a hi lo v : Nat) : (s.ctlField a hi lo v).poisoned = s.poisoned := rfl
@[simp] theorem State.ctlField_net (a hi lo v : Nat) : (s.ctlField a hi lo v).net = s.net := rfl
@[simp] theorem State.ctlField_backoffs (a hi lo v : Nat) : (s.ctlField a hi lo v).backoffs = s.backoffs := rfl
@[simp] theorem State.ctlField_nextTid (a hi lo v : Nat) : (s.ctlField a hi lo v).nextTid = s.nextTid := rfl
@[simp] theorem State.ctlField_chans (a hi lo v : Nat) : (s.ctlField a hi lo v).chans = s.chans := rfl
@[simp] theorem State.ctlField_keys (a hi lo v : Nat) : (s.ctlField a hi lo v).keys = s.keys := rfl
@[simp] theorem State.ctlField_almanac (a hi lo v : Nat) : (s.ctlField a hi lo v).almanac = s.almanac := rfl
@[simp] theorem State.ctlField_rootPorts (a hi lo v : Nat) : (s.ctlField a hi lo v).rootPorts = s.rootPorts := rfl
@[simp] theorem State.ctlField_links (a hi lo v : Nat) : (s.ctlField a hi lo v).links = s.links := rfl
@[simp] theorem State.ctlField_insts (a hi lo v : Nat) : (s.ctlField a hi lo v).insts = s.insts := rfl
@[simp] theorem State.ctlField_served (a hi lo v : Nat) : (s.ctlField a hi lo v).served = s.served := rfl
@[simp] theorem State.ctlField_sources (a hi lo v : Nat) : (s.ctlField a hi lo v).sources = s.sources := rfl
@[simp] theorem State.ctlField_srcPend (a hi lo v : Nat) : (s.ctlField a hi lo v).srcPend = s.srcPend := rfl
@[simp] theorem State.ctlField_gpios (a hi lo v : Nat) : (s.ctlField a hi lo v).gpios = s.gpios := rfl
@[simp] theorem State.ctlField_gpioOut (a hi lo v : Nat) : (s.ctlField a hi lo v).gpioOut = s.gpioOut := rfl
@[simp] theorem State.ctlField_gpioOe (a hi lo v : Nat) : (s.ctlField a hi lo v).gpioOe = s.gpioOe := rfl
@[simp] theorem State.ctlField_iommu (a hi lo v : Nat) : (s.ctlField a hi lo v).iommu = s.iommu := rfl
@[simp] theorem State.ctlField_quiesces (a hi lo v : Nat) : (s.ctlField a hi lo v).quiesces = s.quiesces := rfl
@[simp] theorem State.ctlField_mc (a hi lo v : Nat) : (s.ctlField a hi lo v).mc = s.mc := rfl
@[simp] theorem State.ctlField_wd (a hi lo v : Nat) : (s.ctlField a hi lo v).wd = s.wd := rfl
@[simp] theorem State.ctlField_errs (a hi lo v : Nat) : (s.ctlField a hi lo v).errs = s.errs := rfl
@[simp] theorem State.ctlField_frisket (a hi lo v : Nat) : (s.ctlField a hi lo v).frisket = s.frisket := rfl
@[simp] theorem State.ctlField_power (a hi lo v : Nat) : (s.ctlField a hi lo v).power = s.power := rfl
@[simp] theorem State.ctlField_pair (a hi lo v : Nat) : (s.ctlField a hi lo v).pair = s.pair := rfl
@[simp] theorem State.ctlField_ppsLast (a hi lo v : Nat) : (s.ctlField a hi lo v).ppsLast = s.ppsLast := rfl
@[simp] theorem State.ctlField_syncAt (a hi lo v : Nat) : (s.ctlField a hi lo v).syncAt = s.syncAt := rfl
@[simp] theorem State.ctlField_coreResets (a hi lo v : Nat) : (s.ctlField a hi lo v).coreResets = s.coreResets := rfl
@[simp] theorem State.ctlField_slew (a hi lo v : Nat) : (s.ctlField a hi lo v).slew = s.slew := rfl
@[simp] theorem State.ctlField_slewPhase (a hi lo v : Nat) : (s.ctlField a hi lo v).slewPhase = s.slewPhase := rfl
@[simp] theorem State.ctlField_pairSide (a hi lo v : Nat) : (s.ctlField a hi lo v).pairSide = s.pairSide := rfl
@[simp] theorem State.ctlField_outPorts (a hi lo v : Nat) : (s.ctlField a hi lo v).outPorts = s.outPorts := rfl
@[simp] theorem State.ctlField_urgentAt (a hi lo v : Nat) : (s.ctlField a hi lo v).urgentAt = s.urgentAt := rfl
@[simp] theorem State.ctlField_regFrac (a hi lo v : Nat) : (s.ctlField a hi lo v).regFrac = s.regFrac := rfl
@[simp] theorem State.ctlField_regWaits (a hi lo v : Nat) : (s.ctlField a hi lo v).regWaits = s.regWaits := rfl
@[simp] theorem State.ctlField_stamped (a hi lo v : Nat) : (s.ctlField a hi lo v).stamped = s.stamped := rfl
@[simp] theorem State.ctlField_srcSent (a hi lo v : Nat) : (s.ctlField a hi lo v).srcSent = s.srcSent := rfl
@[simp] theorem State.ctlField_ppsRate (a hi lo v : Nat) : (s.ctlField a hi lo v).ppsRate = s.ppsRate := rfl
@[simp] theorem State.ctlField_ppsAcc (a hi lo v : Nat) : (s.ctlField a hi lo v).ppsAcc = s.ppsAcc := rfl
@[simp] theorem State.ctlField_rootSeen (a hi lo v : Nat) : (s.ctlField a hi lo v).rootSeen = s.rootSeen := rfl
@[simp] theorem State.ctlCount_pending (a hi lo : Nat) : (s.ctlCount a hi lo).pending = s.pending := rfl
@[simp] theorem State.ctlCount_free (a hi lo : Nat) : (s.ctlCount a hi lo).free = s.free := rfl
@[simp] theorem State.ctlCount_now (a hi lo : Nat) : (s.ctlCount a hi lo).now = s.now := rfl
@[simp] theorem State.ctlCount_part (a hi lo : Nat) : (s.ctlCount a hi lo).part = s.part := rfl
@[simp] theorem State.ctlCount_stepping (a hi lo : Nat) : (s.ctlCount a hi lo).stepping = s.stepping := rfl
@[simp] theorem State.ctlCount_pkgId (a hi lo : Nat) : (s.ctlCount a hi lo).pkgId = s.pkgId := rfl
@[simp] theorem State.ctlCount_pairPkg (a hi lo : Nat) : (s.ctlCount a hi lo).pairPkg = s.pairPkg := rfl
@[simp] theorem State.ctlCount_threads (a hi lo : Nat) : (s.ctlCount a hi lo).threads = s.threads := rfl
@[simp] theorem State.ctlCount_cores (a hi lo : Nat) : (s.ctlCount a hi lo).cores = s.cores := rfl
@[simp] theorem State.ctlCount_coreTile (a hi lo : Nat) : (s.ctlCount a hi lo).coreTile = s.coreTile := rfl
@[simp] theorem State.ctlCount_tiles (a hi lo : Nat) : (s.ctlCount a hi lo).tiles = s.tiles := rfl
@[simp] theorem State.ctlCount_dies (a hi lo : Nat) : (s.ctlCount a hi lo).dies = s.dies := rfl
@[simp] theorem State.ctlCount_dir (a hi lo : Nat) : (s.ctlCount a hi lo).dir = s.dir := rfl
@[simp] theorem State.ctlCount_txns (a hi lo : Nat) : (s.ctlCount a hi lo).txns = s.txns := rfl
@[simp] theorem State.ctlCount_atoms (a hi lo : Nat) : (s.ctlCount a hi lo).atoms = s.atoms := rfl
@[simp] theorem State.ctlCount_slices (a hi lo : Nat) : (s.ctlCount a hi lo).slices = s.slices := rfl
@[simp] theorem State.ctlCount_mem (a hi lo : Nat) : (s.ctlCount a hi lo).mem = s.mem := rfl
@[simp] theorem State.ctlCount_poisoned (a hi lo : Nat) : (s.ctlCount a hi lo).poisoned = s.poisoned := rfl
@[simp] theorem State.ctlCount_net (a hi lo : Nat) : (s.ctlCount a hi lo).net = s.net := rfl
@[simp] theorem State.ctlCount_backoffs (a hi lo : Nat) : (s.ctlCount a hi lo).backoffs = s.backoffs := rfl
@[simp] theorem State.ctlCount_nextTid (a hi lo : Nat) : (s.ctlCount a hi lo).nextTid = s.nextTid := rfl
@[simp] theorem State.ctlCount_chans (a hi lo : Nat) : (s.ctlCount a hi lo).chans = s.chans := rfl
@[simp] theorem State.ctlCount_keys (a hi lo : Nat) : (s.ctlCount a hi lo).keys = s.keys := rfl
@[simp] theorem State.ctlCount_almanac (a hi lo : Nat) : (s.ctlCount a hi lo).almanac = s.almanac := rfl
@[simp] theorem State.ctlCount_rootPorts (a hi lo : Nat) : (s.ctlCount a hi lo).rootPorts = s.rootPorts := rfl
@[simp] theorem State.ctlCount_links (a hi lo : Nat) : (s.ctlCount a hi lo).links = s.links := rfl
@[simp] theorem State.ctlCount_insts (a hi lo : Nat) : (s.ctlCount a hi lo).insts = s.insts := rfl
@[simp] theorem State.ctlCount_served (a hi lo : Nat) : (s.ctlCount a hi lo).served = s.served := rfl
@[simp] theorem State.ctlCount_sources (a hi lo : Nat) : (s.ctlCount a hi lo).sources = s.sources := rfl
@[simp] theorem State.ctlCount_srcPend (a hi lo : Nat) : (s.ctlCount a hi lo).srcPend = s.srcPend := rfl
@[simp] theorem State.ctlCount_gpios (a hi lo : Nat) : (s.ctlCount a hi lo).gpios = s.gpios := rfl
@[simp] theorem State.ctlCount_gpioOut (a hi lo : Nat) : (s.ctlCount a hi lo).gpioOut = s.gpioOut := rfl
@[simp] theorem State.ctlCount_gpioOe (a hi lo : Nat) : (s.ctlCount a hi lo).gpioOe = s.gpioOe := rfl
@[simp] theorem State.ctlCount_iommu (a hi lo : Nat) : (s.ctlCount a hi lo).iommu = s.iommu := rfl
@[simp] theorem State.ctlCount_quiesces (a hi lo : Nat) : (s.ctlCount a hi lo).quiesces = s.quiesces := rfl
@[simp] theorem State.ctlCount_mc (a hi lo : Nat) : (s.ctlCount a hi lo).mc = s.mc := rfl
@[simp] theorem State.ctlCount_wd (a hi lo : Nat) : (s.ctlCount a hi lo).wd = s.wd := rfl
@[simp] theorem State.ctlCount_errs (a hi lo : Nat) : (s.ctlCount a hi lo).errs = s.errs := rfl
@[simp] theorem State.ctlCount_frisket (a hi lo : Nat) : (s.ctlCount a hi lo).frisket = s.frisket := rfl
@[simp] theorem State.ctlCount_power (a hi lo : Nat) : (s.ctlCount a hi lo).power = s.power := rfl
@[simp] theorem State.ctlCount_pair (a hi lo : Nat) : (s.ctlCount a hi lo).pair = s.pair := rfl
@[simp] theorem State.ctlCount_ppsLast (a hi lo : Nat) : (s.ctlCount a hi lo).ppsLast = s.ppsLast := rfl
@[simp] theorem State.ctlCount_syncAt (a hi lo : Nat) : (s.ctlCount a hi lo).syncAt = s.syncAt := rfl
@[simp] theorem State.ctlCount_coreResets (a hi lo : Nat) : (s.ctlCount a hi lo).coreResets = s.coreResets := rfl
@[simp] theorem State.ctlCount_slew (a hi lo : Nat) : (s.ctlCount a hi lo).slew = s.slew := rfl
@[simp] theorem State.ctlCount_slewPhase (a hi lo : Nat) : (s.ctlCount a hi lo).slewPhase = s.slewPhase := rfl
@[simp] theorem State.ctlCount_pairSide (a hi lo : Nat) : (s.ctlCount a hi lo).pairSide = s.pairSide := rfl
@[simp] theorem State.ctlCount_outPorts (a hi lo : Nat) : (s.ctlCount a hi lo).outPorts = s.outPorts := rfl
@[simp] theorem State.ctlCount_urgentAt (a hi lo : Nat) : (s.ctlCount a hi lo).urgentAt = s.urgentAt := rfl
@[simp] theorem State.ctlCount_regFrac (a hi lo : Nat) : (s.ctlCount a hi lo).regFrac = s.regFrac := rfl
@[simp] theorem State.ctlCount_regWaits (a hi lo : Nat) : (s.ctlCount a hi lo).regWaits = s.regWaits := rfl
@[simp] theorem State.ctlCount_stamped (a hi lo : Nat) : (s.ctlCount a hi lo).stamped = s.stamped := rfl
@[simp] theorem State.ctlCount_srcSent (a hi lo : Nat) : (s.ctlCount a hi lo).srcSent = s.srcSent := rfl
@[simp] theorem State.ctlCount_ppsRate (a hi lo : Nat) : (s.ctlCount a hi lo).ppsRate = s.ppsRate := rfl
@[simp] theorem State.ctlCount_ppsAcc (a hi lo : Nat) : (s.ctlCount a hi lo).ppsAcc = s.ppsAcc := rfl
@[simp] theorem State.ctlCount_rootSeen (a hi lo : Nat) : (s.ctlCount a hi lo).rootSeen = s.rootSeen := rfl
@[simp] theorem State.setByte_pending (a : Nat) (b : Byte) : (s.setByte a b).pending = s.pending := rfl
@[simp] theorem State.setByte_free (a : Nat) (b : Byte) : (s.setByte a b).free = s.free := rfl
@[simp] theorem State.setByte_now (a : Nat) (b : Byte) : (s.setByte a b).now = s.now := rfl
@[simp] theorem State.setByte_part (a : Nat) (b : Byte) : (s.setByte a b).part = s.part := rfl
@[simp] theorem State.setByte_stepping (a : Nat) (b : Byte) : (s.setByte a b).stepping = s.stepping := rfl
@[simp] theorem State.setByte_pkgId (a : Nat) (b : Byte) : (s.setByte a b).pkgId = s.pkgId := rfl
@[simp] theorem State.setByte_pairPkg (a : Nat) (b : Byte) : (s.setByte a b).pairPkg = s.pairPkg := rfl
@[simp] theorem State.setByte_ctl (a : Nat) (b : Byte) : (s.setByte a b).ctl = s.ctl := rfl
@[simp] theorem State.setByte_threads (a : Nat) (b : Byte) : (s.setByte a b).threads = s.threads := rfl
@[simp] theorem State.setByte_cores (a : Nat) (b : Byte) : (s.setByte a b).cores = s.cores := rfl
@[simp] theorem State.setByte_coreTile (a : Nat) (b : Byte) : (s.setByte a b).coreTile = s.coreTile := rfl
@[simp] theorem State.setByte_tiles (a : Nat) (b : Byte) : (s.setByte a b).tiles = s.tiles := rfl
@[simp] theorem State.setByte_dies (a : Nat) (b : Byte) : (s.setByte a b).dies = s.dies := rfl
@[simp] theorem State.setByte_dir (a : Nat) (b : Byte) : (s.setByte a b).dir = s.dir := rfl
@[simp] theorem State.setByte_txns (a : Nat) (b : Byte) : (s.setByte a b).txns = s.txns := rfl
@[simp] theorem State.setByte_atoms (a : Nat) (b : Byte) : (s.setByte a b).atoms = s.atoms := rfl
@[simp] theorem State.setByte_slices (a : Nat) (b : Byte) : (s.setByte a b).slices = s.slices := rfl
@[simp] theorem State.setByte_poisoned (a : Nat) (b : Byte) : (s.setByte a b).poisoned = s.poisoned := rfl
@[simp] theorem State.setByte_net (a : Nat) (b : Byte) : (s.setByte a b).net = s.net := rfl
@[simp] theorem State.setByte_backoffs (a : Nat) (b : Byte) : (s.setByte a b).backoffs = s.backoffs := rfl
@[simp] theorem State.setByte_nextTid (a : Nat) (b : Byte) : (s.setByte a b).nextTid = s.nextTid := rfl
@[simp] theorem State.setByte_chans (a : Nat) (b : Byte) : (s.setByte a b).chans = s.chans := rfl
@[simp] theorem State.setByte_keys (a : Nat) (b : Byte) : (s.setByte a b).keys = s.keys := rfl
@[simp] theorem State.setByte_almanac (a : Nat) (b : Byte) : (s.setByte a b).almanac = s.almanac := rfl
@[simp] theorem State.setByte_rootPorts (a : Nat) (b : Byte) : (s.setByte a b).rootPorts = s.rootPorts := rfl
@[simp] theorem State.setByte_links (a : Nat) (b : Byte) : (s.setByte a b).links = s.links := rfl
@[simp] theorem State.setByte_insts (a : Nat) (b : Byte) : (s.setByte a b).insts = s.insts := rfl
@[simp] theorem State.setByte_served (a : Nat) (b : Byte) : (s.setByte a b).served = s.served := rfl
@[simp] theorem State.setByte_sources (a : Nat) (b : Byte) : (s.setByte a b).sources = s.sources := rfl
@[simp] theorem State.setByte_srcPend (a : Nat) (b : Byte) : (s.setByte a b).srcPend = s.srcPend := rfl
@[simp] theorem State.setByte_gpios (a : Nat) (b : Byte) : (s.setByte a b).gpios = s.gpios := rfl
@[simp] theorem State.setByte_gpioOut (a : Nat) (b : Byte) : (s.setByte a b).gpioOut = s.gpioOut := rfl
@[simp] theorem State.setByte_gpioOe (a : Nat) (b : Byte) : (s.setByte a b).gpioOe = s.gpioOe := rfl
@[simp] theorem State.setByte_iommu (a : Nat) (b : Byte) : (s.setByte a b).iommu = s.iommu := rfl
@[simp] theorem State.setByte_quiesces (a : Nat) (b : Byte) : (s.setByte a b).quiesces = s.quiesces := rfl
@[simp] theorem State.setByte_mc (a : Nat) (b : Byte) : (s.setByte a b).mc = s.mc := rfl
@[simp] theorem State.setByte_wd (a : Nat) (b : Byte) : (s.setByte a b).wd = s.wd := rfl
@[simp] theorem State.setByte_errs (a : Nat) (b : Byte) : (s.setByte a b).errs = s.errs := rfl
@[simp] theorem State.setByte_frisket (a : Nat) (b : Byte) : (s.setByte a b).frisket = s.frisket := rfl
@[simp] theorem State.setByte_power (a : Nat) (b : Byte) : (s.setByte a b).power = s.power := rfl
@[simp] theorem State.setByte_pair (a : Nat) (b : Byte) : (s.setByte a b).pair = s.pair := rfl
@[simp] theorem State.setByte_ppsLast (a : Nat) (b : Byte) : (s.setByte a b).ppsLast = s.ppsLast := rfl
@[simp] theorem State.setByte_syncAt (a : Nat) (b : Byte) : (s.setByte a b).syncAt = s.syncAt := rfl
@[simp] theorem State.setByte_coreResets (a : Nat) (b : Byte) : (s.setByte a b).coreResets = s.coreResets := rfl
@[simp] theorem State.setByte_slew (a : Nat) (b : Byte) : (s.setByte a b).slew = s.slew := rfl
@[simp] theorem State.setByte_slewPhase (a : Nat) (b : Byte) : (s.setByte a b).slewPhase = s.slewPhase := rfl
@[simp] theorem State.setByte_pairSide (a : Nat) (b : Byte) : (s.setByte a b).pairSide = s.pairSide := rfl
@[simp] theorem State.setByte_outPorts (a : Nat) (b : Byte) : (s.setByte a b).outPorts = s.outPorts := rfl
@[simp] theorem State.setByte_urgentAt (a : Nat) (b : Byte) : (s.setByte a b).urgentAt = s.urgentAt := rfl
@[simp] theorem State.setByte_regFrac (a : Nat) (b : Byte) : (s.setByte a b).regFrac = s.regFrac := rfl
@[simp] theorem State.setByte_regWaits (a : Nat) (b : Byte) : (s.setByte a b).regWaits = s.regWaits := rfl
@[simp] theorem State.setByte_stamped (a : Nat) (b : Byte) : (s.setByte a b).stamped = s.stamped := rfl
@[simp] theorem State.setByte_srcSent (a : Nat) (b : Byte) : (s.setByte a b).srcSent = s.srcSent := rfl
@[simp] theorem State.setByte_ppsRate (a : Nat) (b : Byte) : (s.setByte a b).ppsRate = s.ppsRate := rfl
@[simp] theorem State.setByte_ppsAcc (a : Nat) (b : Byte) : (s.setByte a b).ppsAcc = s.ppsAcc := rfl
@[simp] theorem State.setByte_rootSeen (a : Nat) (b : Byte) : (s.setByte a b).rootSeen = s.rootSeen := rfl

/-! Reads after a write. -/

@[simp] theorem State.updThr_thr (t : Nat) (f : Thread → Thread) : (s.updThr t f).thr t = f (s.thr t) := by
  simp [State.updThr, State.setThr, State.thr]
theorem State.updThr_thr_other (t b : Nat) (f : Thread → Thread) (h : b ≠ t) : (s.updThr t f).thr b = s.thr b := by
  simp [State.updThr, State.setThr, State.thr, Tbl.get_set_other, h]
@[simp] theorem State.updThr_core (t b : Nat) (f : Thread → Thread) : (s.updThr t f).core b = s.core b := rfl
@[simp] theorem State.updThr_tile (t b : Nat) (f : Thread → Thread) : (s.updThr t f).tile b = s.tile b := rfl
@[simp] theorem State.updThr_die (t b : Nat) (f : Thread → Thread) : (s.updThr t f).die b = s.die b := rfl
@[simp] theorem State.updThr_chan (t b : Nat) (f : Thread → Thread) : (s.updThr t f).chan b = s.chan b := rfl
@[simp] theorem State.updThr_port (t b : Nat) (f : Thread → Thread) : (s.updThr t f).port b = s.port b := rfl
@[simp] theorem State.updThr_link (t b : Nat) (f : Thread → Thread) : (s.updThr t f).link b = s.link b := rfl
@[simp] theorem State.updThr_inst (t b : Nat) (f : Thread → Thread) : (s.updThr t f).inst b = s.inst b := rfl
@[simp] theorem State.updThr_slice (t b : Nat) (f : Thread → Thread) : (s.updThr t f).slice b = s.slice b := rfl
@[simp] theorem State.updCore_core (c : Nat) (f : Core → Core) : (s.updCore c f).core c = f (s.core c) := by
  simp [State.updCore, State.setCore, State.core]
theorem State.updCore_core_other (c b : Nat) (f : Core → Core) (h : b ≠ c) : (s.updCore c f).core b = s.core b := by
  simp [State.updCore, State.setCore, State.core, Tbl.get_set_other, h]
@[simp] theorem State.updCore_thr (c b : Nat) (f : Core → Core) : (s.updCore c f).thr b = s.thr b := rfl
@[simp] theorem State.updCore_tile (c b : Nat) (f : Core → Core) : (s.updCore c f).tile b = s.tile b := rfl
@[simp] theorem State.updCore_die (c b : Nat) (f : Core → Core) : (s.updCore c f).die b = s.die b := rfl
@[simp] theorem State.updCore_chan (c b : Nat) (f : Core → Core) : (s.updCore c f).chan b = s.chan b := rfl
@[simp] theorem State.updCore_port (c b : Nat) (f : Core → Core) : (s.updCore c f).port b = s.port b := rfl
@[simp] theorem State.updCore_link (c b : Nat) (f : Core → Core) : (s.updCore c f).link b = s.link b := rfl
@[simp] theorem State.updCore_inst (c b : Nat) (f : Core → Core) : (s.updCore c f).inst b = s.inst b := rfl
@[simp] theorem State.updCore_slice (c b : Nat) (f : Core → Core) : (s.updCore c f).slice b = s.slice b := rfl
@[simp] theorem State.updTile_tile (n : Nat) (f : Tile → Tile) : (s.updTile n f).tile n = f (s.tile n) := by
  simp [State.updTile, State.tile]
theorem State.updTile_tile_other (n b : Nat) (f : Tile → Tile) (h : b ≠ n) : (s.updTile n f).tile b = s.tile b := by
  simp [State.updTile, State.tile, Tbl.get_set_other, h]
@[simp] theorem State.updTile_thr (n b : Nat) (f : Tile → Tile) : (s.updTile n f).thr b = s.thr b := rfl
@[simp] theorem State.updTile_core (n b : Nat) (f : Tile → Tile) : (s.updTile n f).core b = s.core b := rfl
@[simp] theorem State.updTile_die (n b : Nat) (f : Tile → Tile) : (s.updTile n f).die b = s.die b := rfl
@[simp] theorem State.updTile_chan (n b : Nat) (f : Tile → Tile) : (s.updTile n f).chan b = s.chan b := rfl
@[simp] theorem State.updTile_port (n b : Nat) (f : Tile → Tile) : (s.updTile n f).port b = s.port b := rfl
@[simp] theorem State.updTile_link (n b : Nat) (f : Tile → Tile) : (s.updTile n f).link b = s.link b := rfl
@[simp] theorem State.updTile_inst (n b : Nat) (f : Tile → Tile) : (s.updTile n f).inst b = s.inst b := rfl
@[simp] theorem State.updTile_slice (n b : Nat) (f : Tile → Tile) : (s.updTile n f).slice b = s.slice b := rfl
@[simp] theorem State.updDie_die (d : Nat) (f : Die → Die) : (s.updDie d f).die d = f (s.die d) := by
  simp [State.updDie, State.die]
theorem State.updDie_die_other (d b : Nat) (f : Die → Die) (h : b ≠ d) : (s.updDie d f).die b = s.die b := by
  simp [State.updDie, State.die, Tbl.get_set_other, h]
@[simp] theorem State.updDie_thr (d b : Nat) (f : Die → Die) : (s.updDie d f).thr b = s.thr b := rfl
@[simp] theorem State.updDie_core (d b : Nat) (f : Die → Die) : (s.updDie d f).core b = s.core b := rfl
@[simp] theorem State.updDie_tile (d b : Nat) (f : Die → Die) : (s.updDie d f).tile b = s.tile b := rfl
@[simp] theorem State.updDie_chan (d b : Nat) (f : Die → Die) : (s.updDie d f).chan b = s.chan b := rfl
@[simp] theorem State.updDie_port (d b : Nat) (f : Die → Die) : (s.updDie d f).port b = s.port b := rfl
@[simp] theorem State.updDie_link (d b : Nat) (f : Die → Die) : (s.updDie d f).link b = s.link b := rfl
@[simp] theorem State.updDie_inst (d b : Nat) (f : Die → Die) : (s.updDie d f).inst b = s.inst b := rfl
@[simp] theorem State.updDie_slice (d b : Nat) (f : Die → Die) : (s.updDie d f).slice b = s.slice b := rfl
@[simp] theorem State.updChan_chan (c : Nat) (f : Channel → Channel) : (s.updChan c f).chan c = f (s.chan c) := by
  simp [State.updChan, State.chan]
theorem State.updChan_chan_other (c b : Nat) (f : Channel → Channel) (h : b ≠ c) : (s.updChan c f).chan b = s.chan b := by
  simp [State.updChan, State.chan, Tbl.get_set_other, h]
@[simp] theorem State.updChan_thr (c b : Nat) (f : Channel → Channel) : (s.updChan c f).thr b = s.thr b := rfl
@[simp] theorem State.updChan_core (c b : Nat) (f : Channel → Channel) : (s.updChan c f).core b = s.core b := rfl
@[simp] theorem State.updChan_tile (c b : Nat) (f : Channel → Channel) : (s.updChan c f).tile b = s.tile b := rfl
@[simp] theorem State.updChan_die (c b : Nat) (f : Channel → Channel) : (s.updChan c f).die b = s.die b := rfl
@[simp] theorem State.updChan_port (c b : Nat) (f : Channel → Channel) : (s.updChan c f).port b = s.port b := rfl
@[simp] theorem State.updChan_link (c b : Nat) (f : Channel → Channel) : (s.updChan c f).link b = s.link b := rfl
@[simp] theorem State.updChan_inst (c b : Nat) (f : Channel → Channel) : (s.updChan c f).inst b = s.inst b := rfl
@[simp] theorem State.updChan_slice (c b : Nat) (f : Channel → Channel) : (s.updChan c f).slice b = s.slice b := rfl
@[simp] theorem State.updPort_port (p : Nat) (f : RootPort → RootPort) : (s.updPort p f).port p = f (s.port p) := by
  simp [State.updPort, State.port]
theorem State.updPort_port_other (p b : Nat) (f : RootPort → RootPort) (h : b ≠ p) : (s.updPort p f).port b = s.port b := by
  simp [State.updPort, State.port, Tbl.get_set_other, h]
@[simp] theorem State.updPort_thr (p b : Nat) (f : RootPort → RootPort) : (s.updPort p f).thr b = s.thr b := rfl
@[simp] theorem State.updPort_core (p b : Nat) (f : RootPort → RootPort) : (s.updPort p f).core b = s.core b := rfl
@[simp] theorem State.updPort_tile (p b : Nat) (f : RootPort → RootPort) : (s.updPort p f).tile b = s.tile b := rfl
@[simp] theorem State.updPort_die (p b : Nat) (f : RootPort → RootPort) : (s.updPort p f).die b = s.die b := rfl
@[simp] theorem State.updPort_chan (p b : Nat) (f : RootPort → RootPort) : (s.updPort p f).chan b = s.chan b := rfl
@[simp] theorem State.updPort_link (p b : Nat) (f : RootPort → RootPort) : (s.updPort p f).link b = s.link b := rfl
@[simp] theorem State.updPort_inst (p b : Nat) (f : RootPort → RootPort) : (s.updPort p f).inst b = s.inst b := rfl
@[simp] theorem State.updPort_slice (p b : Nat) (f : RootPort → RootPort) : (s.updPort p f).slice b = s.slice b := rfl
@[simp] theorem State.updLink_link (p : Nat) (f : LinkPort → LinkPort) : (s.updLink p f).link p = f (s.link p) := by
  simp [State.updLink, State.link]
theorem State.updLink_link_other (p b : Nat) (f : LinkPort → LinkPort) (h : b ≠ p) : (s.updLink p f).link b = s.link b := by
  simp [State.updLink, State.link, Tbl.get_set_other, h]
@[simp] theorem State.updLink_thr (p b : Nat) (f : LinkPort → LinkPort) : (s.updLink p f).thr b = s.thr b := rfl
@[simp] theorem State.updLink_core (p b : Nat) (f : LinkPort → LinkPort) : (s.updLink p f).core b = s.core b := rfl
@[simp] theorem State.updLink_tile (p b : Nat) (f : LinkPort → LinkPort) : (s.updLink p f).tile b = s.tile b := rfl
@[simp] theorem State.updLink_die (p b : Nat) (f : LinkPort → LinkPort) : (s.updLink p f).die b = s.die b := rfl
@[simp] theorem State.updLink_chan (p b : Nat) (f : LinkPort → LinkPort) : (s.updLink p f).chan b = s.chan b := rfl
@[simp] theorem State.updLink_port (p b : Nat) (f : LinkPort → LinkPort) : (s.updLink p f).port b = s.port b := rfl
@[simp] theorem State.updLink_inst (p b : Nat) (f : LinkPort → LinkPort) : (s.updLink p f).inst b = s.inst b := rfl
@[simp] theorem State.updLink_slice (p b : Nat) (f : LinkPort → LinkPort) : (s.updLink p f).slice b = s.slice b := rfl
@[simp] theorem State.updInst_inst (i : Nat) (f : Inst → Inst) : (s.updInst i f).inst i = f (s.inst i) := by
  simp [State.updInst, State.inst]
theorem State.updInst_inst_other (i b : Nat) (f : Inst → Inst) (h : b ≠ i) : (s.updInst i f).inst b = s.inst b := by
  simp [State.updInst, State.inst, Tbl.get_set_other, h]
@[simp] theorem State.updInst_thr (i b : Nat) (f : Inst → Inst) : (s.updInst i f).thr b = s.thr b := rfl
@[simp] theorem State.updInst_core (i b : Nat) (f : Inst → Inst) : (s.updInst i f).core b = s.core b := rfl
@[simp] theorem State.updInst_tile (i b : Nat) (f : Inst → Inst) : (s.updInst i f).tile b = s.tile b := rfl
@[simp] theorem State.updInst_die (i b : Nat) (f : Inst → Inst) : (s.updInst i f).die b = s.die b := rfl
@[simp] theorem State.updInst_chan (i b : Nat) (f : Inst → Inst) : (s.updInst i f).chan b = s.chan b := rfl
@[simp] theorem State.updInst_port (i b : Nat) (f : Inst → Inst) : (s.updInst i f).port b = s.port b := rfl
@[simp] theorem State.updInst_link (i b : Nat) (f : Inst → Inst) : (s.updInst i f).link b = s.link b := rfl
@[simp] theorem State.updInst_slice (i b : Nat) (f : Inst → Inst) : (s.updInst i f).slice b = s.slice b := rfl
@[simp] theorem State.updSlice_slice (n : Nat) (f : Slice → Slice) : (s.updSlice n f).slice n = f (s.slice n) := by
  simp [State.updSlice, State.slice]
theorem State.updSlice_slice_other (n b : Nat) (f : Slice → Slice) (h : b ≠ n) : (s.updSlice n f).slice b = s.slice b := by
  simp [State.updSlice, State.slice, Tbl.get_set_other, h]
@[simp] theorem State.updSlice_thr (n b : Nat) (f : Slice → Slice) : (s.updSlice n f).thr b = s.thr b := rfl
@[simp] theorem State.updSlice_core (n b : Nat) (f : Slice → Slice) : (s.updSlice n f).core b = s.core b := rfl
@[simp] theorem State.updSlice_tile (n b : Nat) (f : Slice → Slice) : (s.updSlice n f).tile b = s.tile b := rfl
@[simp] theorem State.updSlice_die (n b : Nat) (f : Slice → Slice) : (s.updSlice n f).die b = s.die b := rfl
@[simp] theorem State.updSlice_chan (n b : Nat) (f : Slice → Slice) : (s.updSlice n f).chan b = s.chan b := rfl
@[simp] theorem State.updSlice_port (n b : Nat) (f : Slice → Slice) : (s.updSlice n f).port b = s.port b := rfl
@[simp] theorem State.updSlice_link (n b : Nat) (f : Slice → Slice) : (s.updSlice n f).link b = s.link b := rfl
@[simp] theorem State.updSlice_inst (n b : Nat) (f : Slice → Slice) : (s.updSlice n f).inst b = s.inst b := rfl
@[simp] theorem State.drawn_thr  (k : Nat) : (s.drawn).thr k = s.thr k := rfl
@[simp] theorem State.drawn_core  (k : Nat) : (s.drawn).core k = s.core k := rfl
@[simp] theorem State.drawn_tile  (k : Nat) : (s.drawn).tile k = s.tile k := rfl
@[simp] theorem State.drawn_die  (k : Nat) : (s.drawn).die k = s.die k := rfl
@[simp] theorem State.drawn_chan  (k : Nat) : (s.drawn).chan k = s.chan k := rfl
@[simp] theorem State.drawn_port  (k : Nat) : (s.drawn).port k = s.port k := rfl
@[simp] theorem State.drawn_link  (k : Nat) : (s.drawn).link k = s.link k := rfl
@[simp] theorem State.drawn_inst  (k : Nat) : (s.drawn).inst k = s.inst k := rfl
@[simp] theorem State.drawn_slice  (k : Nat) : (s.drawn).slice k = s.slice k := rfl
@[simp] theorem State.freshTid_thr  (k : Nat) : (s.freshTid).thr k = s.thr k := rfl
@[simp] theorem State.freshTid_core  (k : Nat) : (s.freshTid).core k = s.core k := rfl
@[simp] theorem State.freshTid_tile  (k : Nat) : (s.freshTid).tile k = s.tile k := rfl
@[simp] theorem State.freshTid_die  (k : Nat) : (s.freshTid).die k = s.die k := rfl
@[simp] theorem State.freshTid_chan  (k : Nat) : (s.freshTid).chan k = s.chan k := rfl
@[simp] theorem State.freshTid_port  (k : Nat) : (s.freshTid).port k = s.port k := rfl
@[simp] theorem State.freshTid_link  (k : Nat) : (s.freshTid).link k = s.link k := rfl
@[simp] theorem State.freshTid_inst  (k : Nat) : (s.freshTid).inst k = s.inst k := rfl
@[simp] theorem State.freshTid_slice  (k : Nat) : (s.freshTid).slice k = s.slice k := rfl
@[simp] theorem State.ctlPut_thr (a : Nat) (w : Word) (k : Nat) : (s.ctlPut a w).thr k = s.thr k := rfl
@[simp] theorem State.ctlPut_core (a : Nat) (w : Word) (k : Nat) : (s.ctlPut a w).core k = s.core k := rfl
@[simp] theorem State.ctlPut_tile (a : Nat) (w : Word) (k : Nat) : (s.ctlPut a w).tile k = s.tile k := rfl
@[simp] theorem State.ctlPut_die (a : Nat) (w : Word) (k : Nat) : (s.ctlPut a w).die k = s.die k := rfl
@[simp] theorem State.ctlPut_chan (a : Nat) (w : Word) (k : Nat) : (s.ctlPut a w).chan k = s.chan k := rfl
@[simp] theorem State.ctlPut_port (a : Nat) (w : Word) (k : Nat) : (s.ctlPut a w).port k = s.port k := rfl
@[simp] theorem State.ctlPut_link (a : Nat) (w : Word) (k : Nat) : (s.ctlPut a w).link k = s.link k := rfl
@[simp] theorem State.ctlPut_inst (a : Nat) (w : Word) (k : Nat) : (s.ctlPut a w).inst k = s.inst k := rfl
@[simp] theorem State.ctlPut_slice (a : Nat) (w : Word) (k : Nat) : (s.ctlPut a w).slice k = s.slice k := rfl
@[simp] theorem State.ctlField_thr (a hi lo v : Nat) (k : Nat) : (s.ctlField a hi lo v).thr k = s.thr k := rfl
@[simp] theorem State.ctlField_core (a hi lo v : Nat) (k : Nat) : (s.ctlField a hi lo v).core k = s.core k := rfl
@[simp] theorem State.ctlField_tile (a hi lo v : Nat) (k : Nat) : (s.ctlField a hi lo v).tile k = s.tile k := rfl
@[simp] theorem State.ctlField_die (a hi lo v : Nat) (k : Nat) : (s.ctlField a hi lo v).die k = s.die k := rfl
@[simp] theorem State.ctlField_chan (a hi lo v : Nat) (k : Nat) : (s.ctlField a hi lo v).chan k = s.chan k := rfl
@[simp] theorem State.ctlField_port (a hi lo v : Nat) (k : Nat) : (s.ctlField a hi lo v).port k = s.port k := rfl
@[simp] theorem State.ctlField_link (a hi lo v : Nat) (k : Nat) : (s.ctlField a hi lo v).link k = s.link k := rfl
@[simp] theorem State.ctlField_inst (a hi lo v : Nat) (k : Nat) : (s.ctlField a hi lo v).inst k = s.inst k := rfl
@[simp] theorem State.ctlField_slice (a hi lo v : Nat) (k : Nat) : (s.ctlField a hi lo v).slice k = s.slice k := rfl
@[simp] theorem State.ctlCount_thr (a hi lo : Nat) (k : Nat) : (s.ctlCount a hi lo).thr k = s.thr k := rfl
@[simp] theorem State.ctlCount_core (a hi lo : Nat) (k : Nat) : (s.ctlCount a hi lo).core k = s.core k := rfl
@[simp] theorem State.ctlCount_tile (a hi lo : Nat) (k : Nat) : (s.ctlCount a hi lo).tile k = s.tile k := rfl
@[simp] theorem State.ctlCount_die (a hi lo : Nat) (k : Nat) : (s.ctlCount a hi lo).die k = s.die k := rfl
@[simp] theorem State.ctlCount_chan (a hi lo : Nat) (k : Nat) : (s.ctlCount a hi lo).chan k = s.chan k := rfl
@[simp] theorem State.ctlCount_port (a hi lo : Nat) (k : Nat) : (s.ctlCount a hi lo).port k = s.port k := rfl
@[simp] theorem State.ctlCount_link (a hi lo : Nat) (k : Nat) : (s.ctlCount a hi lo).link k = s.link k := rfl
@[simp] theorem State.ctlCount_inst (a hi lo : Nat) (k : Nat) : (s.ctlCount a hi lo).inst k = s.inst k := rfl
@[simp] theorem State.ctlCount_slice (a hi lo : Nat) (k : Nat) : (s.ctlCount a hi lo).slice k = s.slice k := rfl
@[simp] theorem State.setByte_thr (a : Nat) (b : Byte) (k : Nat) : (s.setByte a b).thr k = s.thr k := rfl
@[simp] theorem State.setByte_core (a : Nat) (b : Byte) (k : Nat) : (s.setByte a b).core k = s.core k := rfl
@[simp] theorem State.setByte_tile (a : Nat) (b : Byte) (k : Nat) : (s.setByte a b).tile k = s.tile k := rfl
@[simp] theorem State.setByte_die (a : Nat) (b : Byte) (k : Nat) : (s.setByte a b).die k = s.die k := rfl
@[simp] theorem State.setByte_chan (a : Nat) (b : Byte) (k : Nat) : (s.setByte a b).chan k = s.chan k := rfl
@[simp] theorem State.setByte_port (a : Nat) (b : Byte) (k : Nat) : (s.setByte a b).port k = s.port k := rfl
@[simp] theorem State.setByte_link (a : Nat) (b : Byte) (k : Nat) : (s.setByte a b).link k = s.link k := rfl
@[simp] theorem State.setByte_inst (a : Nat) (b : Byte) (k : Nat) : (s.setByte a b).inst k = s.inst k := rfl
@[simp] theorem State.setByte_slice (a : Nat) (b : Byte) (k : Nat) : (s.setByte a b).slice k = s.slice k := rfl

end Sys2Proof.Machine
end

