-- ==== Sys2Proof/Laws/Retire.lean ====
section
/-! SUPPORT. What counting an event, retiring and completing an instruction can do. -/

namespace Sys2Proof.Machine

theorem Thread.near_refl (x : Thread) : x.near x := ⟨x.pmc, x.pmcCtl, x.ints, fun _ _ => rfl, rfl⟩

theorem Thread.near_trans {x y z : Thread} (h : x.near y) (h' : y.near z) : x.near z := by
  obtain ⟨p, c, i, hi, rfl⟩ := h
  obtain ⟨p', c', i', hi', rfl⟩ := h'
  exact ⟨p', c', i', fun n hn => (hi' n hn).trans (hi n hn), rfl⟩

theorem Thread.pend_near (x : Thread) (p : Tbl Word) (c : Word) (stamp : Word) : x.near ({ x with pmc := p, pmcCtl := c }.pend 17 stamp) := by
  have h : intidValid 17 = true := by decide
  refine ⟨p, c, ({ x with pmc := p, pmcCtl := c }.pend 17 stamp).ints, fun n hn => ?_, ?_⟩
  · simp [Thread.pend, Thread.updInt, h, Tbl.get_set_other, hn]
  · simp [Thread.pend, Thread.updInt, h]

theorem Thread.pmcBump_near (x : Thread) (stamp : Word) (n : Nat) : x.near (x.pmcBump stamp n) := by
  unfold Thread.pmcBump
  by_cases h : (Tbl.get 0 x.pmc n).toNat = 2 ^ 48 - 1
  · by_cases hb : bit (Tbl.get 0 x.pmcSel n) 62 = true
    · simpa only [h, hb, if_true] using Thread.pend_near x _ _ stamp
    · simp only [h, hb, if_true, if_false, Bool.false_eq_true]
      exact ⟨_, _, x.ints, fun _ _ => rfl, rfl⟩
  · simp only [h, if_false]
    exact ⟨_, x.pmcCtl, x.ints, fun _ _ => rfl, rfl⟩

theorem Thread.pmcFold_near (x : Thread) (stamp : Word) (f : Nat → Bool) (l : List Nat) (y : Thread) (h : x.near y) :
    x.near (l.foldl (fun y n => if f n then y.pmcBump stamp n else y) y) := by
  induction l generalizing y with
  | nil => exact h
  | cons n l ih =>
    refine ih _ ?_
    by_cases hf : f n = true
    · simpa only [hf, if_true] using Thread.near_trans h (Thread.pmcBump_near y stamp n)
    · simpa only [hf, if_false, Bool.false_eq_true] using h

/-- Counting an event moves the counters and INTID 17 alone. -/
theorem Thread.pmcEvent_near (x : Thread) (stamp : Word) (code : Nat) : x.near (x.pmcEvent stamp code) := by
  unfold Thread.pmcEvent
  split
  · exact x.near_refl
  · exact Thread.pmcFold_near x stamp (fun n => x.pmcAdmits n code) _ x x.near_refl

theorem Thread.pmcRetired_near (x : Thread) : x.near x.pmcRetired := by
  unfold Thread.pmcRetired
  by_cases h : (bit x.pmcCtl 1 && x.pmcAwake && (!x.secure || bit x.pmcCtl 3)) = true
  · by_cases hv : (Tbl.get 0 x.pmc 7).toNat = 2 ^ 48 - 1
    · simp only [h, hv, if_true]
      exact ⟨_, _, x.ints, fun _ _ => rfl, rfl⟩
    · simp only [h, hv, if_true, if_false]
      exact ⟨_, x.pmcCtl, x.ints, fun _ _ => rfl, rfl⟩
  · simp only [h, if_false, Bool.false_eq_true]
    exact x.near_refl

/-- A retired instruction leaves its thread past it, but for the counters and INTID 17. -/
theorem Thread.retired_near (x : Thread) (stamp pc : Word) : (x.past pc).near (x.retired stamp pc) :=
  Thread.near_trans (Thread.pmcRetired_near _) (Thread.pmcEvent_near _ stamp 2)

/-- An instruction that completes with no step due leaves its thread as its effect has it, past the instruction. -/
theorem State.finish_leaves (s : State) (t : Nat) (pc : Word) (f : Thread → Thread) (h : (s.thr t).stepDue = false) :
    s.leaves (s.finish t pc f) t ((f (s.thr t)).past pc) := by
  have hf : s.finish t pc f = s.updThr t (fun x => (f x).retired (s.tileStamp t) pc) := by
    simp only [State.finish, h, Bool.false_eq_true, if_false]
  rw [hf]
  exact ⟨rfl, fun k hk => State.updThr_thr_other s t k _ hk, by rw [State.updThr_thr]; exact Thread.retired_near _ _ _⟩

/-- The row of an instruction that begins performs its body. -/
theorem State.run_of_begins {s s₁ : State} {t : Nat} (h : s.begins s₁ t) (body : State → State) : s.run t body = .next (body s₁) := by
  simp only [State.run, h.1]

/-- A row whose body completes. -/
theorem State.run_completes {s s₁ : State} {t : Nat} (h : s.begins s₁ t) (pc : Word) (f : Thread → Thread) (body : State → State)
    (hb : body s₁ = s₁.finish t pc f) : completes (s.run t body) s₁ t ((f (s₁.thr t)).past pc) :=
  ⟨_, by rw [State.run_of_begins h, hb], State.finish_leaves s₁ t pc f h.2⟩

end Sys2Proof.Machine
end

