-- ==== Sys2Proof/Tests/Slice0.lean ====
section
/-! SUPPORT. Tests: small states, a witness for the hypotheses of every statement, what the well-formedness checks refuse, and hand-calculated steps. -/

open Sys2Proof Sys2Proof.Machine

namespace Sys2Proof.Tests

def lineX : L2Line := { st := .m, world := 0xFFF, data := 0xFEDCBA98765432100123456789ABCDEF, poison := false, way := 0, prefetch := false, need := none, got := 0, granted := true, reqWorld := 0xFFF, fromM := true, stamp := 0 }
def lineC : L2Line := { lineX with data := 0, way := 1 }
def thr0 : Thread := { Thread.reset with run := .running, pc := 0x1000, g := [(1, 0x2000), (2, 7)], f := [(1, 0x3FF8000000000000), (2, 0x4008000000000001), (3, 0xBFF0000000000000)] }
def tile0 : Tile := { Tile.reset with st := .t0 }
def demo : State := { State.reset with ctl := [(tilePort 0, some 0)], threads := [(0, thr0)], tiles := [(0, tile0)], cores := [(0, { Core.reset with l2 := [(0x40, some lineC), (0x80, some lineX)] })] }
/-- The state in which an instruction of a thread begins. -/
def started (s : State) (t : Nat) : State := match s.start t with | .go s => s | _ => s
/-- The pieces of a request and the state after their translation. -/
def located (s : State) (t : Nat) (r : MemReq) : State × List Piece :=
  let q := (s.opening t r).xlateMore t r r.pieces
  let ps := ((q.1.thr t).memOp.map (fun m => m.xl)).getD []
  ((q.1.tagChecks t r ps).1, ps)
/-- What State.ready asks of the state before the instruction, as a Bool. -/
def readyB (s : State) (t : Nat) (r : MemReq) : Bool :=
  let s₁ := started s t
  let s₀ := s₁.opening t r
  let q := s₀.xlateMore t r r.pieces
  let ps := (located s₁ t r).2
  decide ((s.thr t).memOp = none) && decide (s.start t = .go s₁) && (s₁.thr t).kept.all (fun k => !k.is (s₁.thr t) r) &&
    decide (r.misaligned = true → r.strictAlign = none) && decide (s₀.noneMode t = true → s₀.olderChecked t = true) &&
    decide (r.watched (s₀.thr t) = none) && r.ordered (s₀.thr t) && ps.all (fun p => p.reason.isNone) && decide (q.2 = .done) &&
    (q.1.thr t).memOp.isSome && decide ((q.1.tagChecks t r ps).2 = none)
theorem ready_located {s : State} {t : Nat} {r : MemReq} (h : readyB s t r = true) :
    s.ready (started s t) (located (started s t) t r).1 t r (located (started s t) t r).2 := by
  simp only [readyB, Bool.and_eq_true, decide_eq_true_eq, List.all_eq_true, Option.isNone_iff_eq_none, Bool.not_eq_true'] at h
  obtain ⟨⟨⟨⟨⟨⟨⟨⟨⟨⟨h1, h2⟩, h3⟩, h4⟩, h5⟩, h6⟩, h7⟩, h8⟩, h9⟩, h10⟩, h11⟩ := h
  refine ⟨h1, h2, h3, h4, h5, h6, h7, h8, (((started s t).opening t r).xlateMore t r r.pieces).1, Prod.ext rfl h9, ?_, Prod.ext rfl h11⟩
  obtain ⟨m, hm⟩ := Option.isSome_iff_exists.mp h10
  simp [located, hm]
def withThr (s : State) (t : Nat) (x : Thread) : State := s.updThr t (fun _ => x)
def demoN : State := { demo with ctl := (tilePort 0, some 0) :: (List.range 24).map (fun c => (guardReg c 0x200, some 1)), cores := [(0, { Core.reset with l2 := [(0x40, some { lineC with world := 0 }), (0x80, some { lineX with world := 0 }), (0x1000004, some { lineC with world := 5, way := 2 })] })] }
def page (vpn ppn : Nat) : TlbEntry := { regime := .secure, asid := 0, vmid := 0, global := true, vpn := vpn, bits := 12, ppn := ppn, s1 := true, s2 := false, r1 := true, w1 := true, x1 := true, u1 := false, a1 := true, d1 := true, r2 := false, w2 := false, x2 := false, a2 := false, d2 := false, mtype := 0, s2type := 0, np := false, enclave := 0, eR := false, eW := false, eX := false, ipa := 0, lvl1 := 0, lvl2 := 0, odd := false }
def gal0 : GalEntry := { way := 0, tag := 2 ^ 50, world := 0xFFF, full := true, lock := false, dirty := 0, wr := 0, poison := false, data := 5, parity := lineParity 5, aged := false }
def demoT : State := { demo with threads := [(0, { thr0 with level := .s, mmuCtl := 1 })], cores := [(0, { Core.reset with l2 := [(0x40, some lineC)], itlb := [page 1 1], dtlb := [page 2 (2 ^ 44)], galley := [gal0] })] }
def hn (s : State) (line : Nat) : Nat := match s.homeOf 0 line with | .home d t => d * 36 + t | _ => 0
def fl (op : Op) (src dst : Agent) (line : Nat) : Flit := { Flit.blank op src dst with line := line, req := .core 0, world := 0xFFF, tid := 7, thr := some 0, size := 8 }
/-- A flit at the node where it leaves the Transit. -/
def at_ (f : Flit) : Flit := { f with hop := demo.goal f }
def wN (s : State) (f : Flit) : State := { s with net := [f] }

end Sys2Proof.Tests

open Sys2Proof.Tests
-- Every test is checked in turn: a thread for each at once would not fit the memory.
set_option Elab.async false

namespace Sys2Proof.Tests.RegisterResults

/-- The hypotheses of RegisterResults can be met, each set of them. -/
theorem hypotheses_met :
    (∃ (s : State) (s₁ : State) (t : Thr),
      s.begins s₁ t) := by
  refine ⟨demo, (started demo 0), 0, ?_⟩ <;> (try dsimp only) <;> repeat' (first | decide +kernel | exact Exists.intro _ (And.intro rfl rfl) | exact Exists.intro _ rfl | apply And.intro)

end Sys2Proof.Tests.RegisterResults

namespace Sys2Proof.Tests.DivisionResults

/-- The hypotheses of DivisionResults can be met, each set of them. -/
theorem hypotheses_met :
    (∃ (s : State) (s₁ : State) (t : Thr),
      s.begins s₁ t) := by
  refine ⟨demo, (started demo 0), 0, ?_⟩ <;> (try dsimp only) <;> repeat' (first | decide +kernel | exact Exists.intro _ (And.intro rfl rfl) | exact Exists.intro _ rfl | apply And.intro)

end Sys2Proof.Tests.DivisionResults

namespace Sys2Proof.Tests.UnaryAndImmediateResults

/-- The hypotheses of UnaryAndImmediateResults can be met, each set of them. -/
theorem hypotheses_met :
    (∃ (s : State) (s₁ : State) (t : Thr),
      s.begins s₁ t) ∧
    (∃ (s : State) (s₁ : State) (t : Thr) (amt : BitVec 6),
      s.begins s₁ t ∧ amt.toNat < 32) := by
  refine ⟨⟨demo, (started demo 0), 0, ?_⟩,
    ⟨demo, (started demo 0), 0, 5, ?_⟩⟩ <;> (try dsimp only) <;> repeat' (first | decide +kernel | exact Exists.intro _ (And.intro rfl rfl) | exact Exists.intro _ rfl | apply And.intro)

end Sys2Proof.Tests.UnaryAndImmediateResults

namespace Sys2Proof.Tests.BranchAndJumpTargets

/-- The hypotheses of BranchAndJumpTargets can be met, each set of them. -/
theorem hypotheses_met :
    (∃ (s : State) (s₁ : State) (t : Thr),
      s.begins s₁ t) ∧
    (∃ (s : State) (s₁ : State) (t : Thr) (rs1 : RegNo) (off : BitVec 16),
      let x := s₁.thr t
      let a := x.readG rs1
      s.begins s₁ t ∧ (a + off.signExtend 64).toNat % 4 = 0) ∧
    (∃ (s : State) (s₁ : State) (t : Thr),
      s.begins s₁ t ∧ s₁.noneMode t = true) := by
  refine ⟨⟨demo, (started demo 0), 0, ?_⟩,
    ⟨demo, (started demo 0), 0, 1, 0xFFFC, ?_⟩,
    ⟨withThr demo 0 { thr0 with coreCtl := 1 }, (started (withThr demo 0 { thr0 with coreCtl := 1 }) 0), 0, ?_⟩⟩ <;> (try dsimp only) <;> repeat' (first | decide +kernel | exact Exists.intro _ (And.intro rfl rfl) | exact Exists.intro _ rfl | apply And.intro)

end Sys2Proof.Tests.BranchAndJumpTargets

namespace Sys2Proof.Tests.MisalignedJumpFaults

/-- The hypotheses of MisalignedJumpFaults can be met, each set of them. -/
theorem hypotheses_met :
    (∃ (s : State) (s₁ : State) (t : Thr) (rs1 : RegNo) (imm : BitVec 16),
      let x := s₁.thr t
      let target := x.readG rs1 + imm.signExtend 64
      s.start t = .go s₁ ∧ target.toNat % 4 ≠ 0) := by
  refine ⟨demo, (started demo 0), 0, 1, 2, ?_⟩ <;> (try dsimp only) <;> repeat' (first | decide +kernel | exact Exists.intro _ (And.intro rfl rfl) | exact Exists.intro _ rfl | apply And.intro)

end Sys2Proof.Tests.MisalignedJumpFaults

namespace Sys2Proof.Tests.FloatingPointResults

/-- The hypotheses of FloatingPointResults can be met, each set of them. -/
theorem hypotheses_met :
    (∃ (s : State) (s₁ : State) (t : Thr) (rm : BitVec 3) (m : Nat),
      s.begins s₁ t ∧ roundingMode (s₁.thr t).fcsr rm = some m) ∧
    (∃ (s : State) (s₁ : State) (t : Thr) (p : Bool) (rm : BitVec 3) (m : Nat),
      s.begins s₁ t ∧ roundingMode (s₁.thr t).fcsr rm = some m ∧ (p = false ∨ rm = 0)) ∧
    (Fp.enabled (1:Word) 31 = false) := by
  refine ⟨⟨demo, (started demo 0), 0, 0, 1, ?_⟩,
    ⟨demo, (started demo 0), 0, true, 0, 1, ?_⟩,
    ?_⟩ <;> (try dsimp only) <;> repeat' (first | decide +kernel | exact Exists.intro _ (And.intro rfl rfl) | exact Exists.intro _ rfl | apply And.intro)

end Sys2Proof.Tests.FloatingPointResults

namespace Sys2Proof.Tests.FloatingPointTraps

def thF : Thread := { thr0 with fcsr := 0x1F0000, f := [(1, 0x7FF0000000000001), (2, 0x7FF0000000000000)] }
def demoF := withThr demo 0 thF

/-- The hypotheses of FloatingPointTraps can be met, each set of them. -/
theorem hypotheses_met :
    (∃ (s : State) (s₁ : State) (t : Thr),
      s.start t = .go s₁) ∧
    (Fp.enabled thF.fcsr (Fp.add true 0 (thF.readF 1) (thF.readF 2)).flags = true) := by
  refine ⟨⟨demoF, (started demoF 0), 0, ?_⟩,
    ?_⟩ <;> (try dsimp only) <;> repeat' (first | decide +kernel | exact Exists.intro _ (And.intro rfl rfl) | exact Exists.intro _ rfl | apply And.intro)

end Sys2Proof.Tests.FloatingPointTraps

namespace Sys2Proof.Tests.LoadsComplete

/-- A load of thread 0 at `r` is ready, its pieces answer, and no single step falls due. -/
def answers (r : MemReq) : Bool :=
  let l := located (started demo 0) 0 r
  readyB demo 0 r && (match l.1.loadPieces 0 l.2 with | (s₃, .inl _) => !(s₃.thr 0).stepDue | _ => false)
def rq (k : MemKind) (va : Word) (n : Nat) (aq : Bool) : MemReq := ⟨k, va, n, 3, 0, 0, aq, false⟩

/-- The hypotheses of LoadsComplete can be met, for every form: at base + 8 for the plain ones, at base for the acquire ones of each width. -/
theorem hypotheses_met :
    ∀ r ∈ [rq (.loadG true) 0x2008 1 false, rq (.loadG false) 0x2008 1 false, rq (.loadG true) 0x2008 2 false, rq (.loadG false) 0x2008 2 false,
      rq (.loadG true) 0x2008 4 false, rq (.loadG false) 0x2008 4 false, rq (.loadG true) 0x2008 8 false, rq .loadF 0x2008 4 false,
      rq .loadF 0x2008 8 false, rq (.loadG false) 0x2000 1 true, rq (.loadG false) 0x2000 8 true, rq (.loadG true) 0x2000 1 true,
      rq (.loadG true) 0x2000 4 true],
      ∃ s₁ s₂ s₃ ps vs, demo.ready s₁ s₂ 0 r ps ∧ s₂.loadPieces 0 ps = (s₃, .inl vs) ∧ (s₃.thr 0).stepDue = false := by
  have all : ∀ r, answers r = true → ∃ s₁ s₂ s₃ ps vs, demo.ready s₁ s₂ 0 r ps ∧ s₂.loadPieces 0 ps = (s₃, .inl vs) ∧ (s₃.thr 0).stepDue = false := by
    intro r h
    simp only [answers, Bool.and_eq_true] at h
    obtain ⟨h₁, h₂⟩ := h
    split at h₂
    · rename_i s₃ vs e
      exact ⟨_, _, s₃, _, vs, ready_located h₁, e, by simpa using h₂⟩
    · simp at h₂
  intro r h
  exact all r (List.all_eq_true.mp (show List.all _ answers = true by decide +kernel) r h)

end Sys2Proof.Tests.LoadsComplete

namespace Sys2Proof.Tests.LoadHitReadsTheLine

/-- The hypotheses of LoadHitReadsTheLine can be met, each set of them. -/
theorem hypotheses_met :
    (∃ (s : State) (t : Nat) (tag : Tag) (pa : Nat) (size : Nat) (l : L2Line),
      (s.thr t).forward pa size tag = none ∧ (s.core (t / 2)).l2Line (pa / 64) = some l ∧ l.readable = true ∧ l.poison = false ∧ ((s.thr t).level = .m ∨ l.world = tag) ∧ (∀ m, (s.thr t).memOp = some m → m.fresh = false)) := by
  refine ⟨demo, 0, 0xFFF, 0x2004, 4, lineX, ?_⟩ <;> (try dsimp only) <;> repeat' (first | decide +kernel | exact Exists.intro _ (And.intro rfl rfl) | exact Exists.intro _ rfl | apply And.intro)

end Sys2Proof.Tests.LoadHitReadsTheLine

namespace Sys2Proof.Tests.StoresEnterTheBuffer

def stq (va : Word) (n : Nat) (v : Word) (rl : Bool) : MemReq := ⟨.store, va, n, 0, v, 0, false, rl⟩
/-- The store is ready at buffered memory, with room for its pieces and no single step due. -/
def enters (r : MemReq) : Bool :=
  let l := located (started demo 0) 0 r
  let x := l.1.thr 0
  readyB demo 0 r && l.2.all (fun q => decide (effType q.rank q.pa ≠ .devS)) && !x.stepDue && decide (x.stb.length + l.2.length ≤ 32)
def dv := withThr demo 0 { thr0 with g := [(1, 0x420000001040), (2, 7)] }
/-- The store is ready at a device of type DEV-S, nothing of the thread being out. -/
def waits (r : MemReq) : Bool :=
  let l := located (started dv 0) 0 r
  let x := l.1.thr 0
  readyB dv 0 r && decide (l.2.length = 1) && l.2.all (fun p => decide (effType p.rank p.pa = .devS) && !x.lineOut p.pa) && !x.asking && x.devDone && x.storesDone

/-- The hypotheses of StoresEnterTheBuffer can be met, for every form, to WB memory (a misaligned one, and one that crosses a line, among them) and to a
DEV-S address. -/
theorem hypotheses_met :
    (∀ r ∈ [stq 0x2008 1 7 false, stq 0x2008 2 7 false, stq 0x2008 4 7 false, stq 0x2008 8 7 false, stq 0x203D 8 7 false,
      stq 0x2009 4 0x4008000000000001 false, stq 0x2008 8 0x4008000000000001 false, stq 0x2000 1 7 true, stq 0x2000 8 7 true],
      ∃ s₁ s₂ ps, demo.ready s₁ s₂ 0 r ps ∧ (∀ q ∈ ps, effType q.rank q.pa ≠ .devS) ∧ (s₂.thr 0).stepDue = false ∧
        (s₂.thr 0).stb.length + ps.length ≤ 32) ∧
    (∀ r ∈ [stq 0x420000001040 1 7 false, stq 0x420000001040 2 7 false, stq 0x420000001040 4 7 false, stq 0x420000001040 8 7 false,
      stq 0x420000001040 4 0x4008000000000001 false, stq 0x420000001040 8 0x4008000000000001 false, stq 0x420000001040 4 7 true],
      ∃ s₁ s₂ p, dv.ready s₁ s₂ 0 r [p] ∧ effType p.rank p.pa = .devS ∧ (s₂.thr 0).asking = false ∧ (s₂.thr 0).lineOut p.pa = false ∧
        (s₂.thr 0).devDone = true ∧ (s₂.thr 0).storesDone = true) := by
  have a : ∀ r, enters r = true → ∃ s₁ s₂ ps, demo.ready s₁ s₂ 0 r ps ∧ (∀ q ∈ ps, effType q.rank q.pa ≠ .devS) ∧ (s₂.thr 0).stepDue = false ∧
      (s₂.thr 0).stb.length + ps.length ≤ 32 := by
    intro r h
    simp only [enters, Bool.and_eq_true, decide_eq_true_eq, List.all_eq_true, Bool.not_eq_true'] at h
    obtain ⟨⟨⟨h₁, h₂⟩, h₃⟩, h₄⟩ := h
    exact ⟨_, _, _, ready_located h₁, h₂, h₃, h₄⟩
  have b : ∀ r, waits r = true → ∃ s₁ s₂ p, dv.ready s₁ s₂ 0 r [p] ∧ effType p.rank p.pa = .devS ∧ (s₂.thr 0).asking = false ∧
      (s₂.thr 0).lineOut p.pa = false ∧ (s₂.thr 0).devDone = true ∧ (s₂.thr 0).storesDone = true := by
    intro r h
    simp only [waits, Bool.and_eq_true, decide_eq_true_eq, List.all_eq_true, Bool.not_eq_true'] at h
    obtain ⟨⟨⟨⟨⟨h₁, h₂⟩, h₃⟩, h₄⟩, h₅⟩, h₆⟩ := h
    obtain ⟨p, e⟩ := List.length_eq_one_iff.mp h₂
    have q := ready_located h₁
    rw [e] at h₃ q
    exact ⟨_, _, p, q, (h₃ p (List.mem_singleton.mpr rfl)).1, h₄, (h₃ p (List.mem_singleton.mpr rfl)).2, h₅, h₆⟩
  exact ⟨fun r h => a r (List.all_eq_true.mp (show List.all _ enters = true by decide +kernel) r h),
    fun r h => b r (List.all_eq_true.mp (show List.all _ waits = true by decide +kernel) r h)⟩

end Sys2Proof.Tests.StoresEnterTheBuffer

namespace Sys2Proof.Tests.StoreEntriesHoldTheBytes

/-- The hypotheses of StoreEntriesHoldTheBytes can be met, each set of them. -/
theorem hypotheses_met :
    (∃ (ps : List Piece) (n : Nat) (p : Piece),
      ps[n]? = some p ∧ (∀ q ∈ ps, q.size ≤ 8)) := by
  refine ⟨[⟨0,3,0x203D,0,none,none⟩,⟨0,5,0x2040,0,none,none⟩], 1, ⟨0,5,0x2040,0,none,none⟩, ?_⟩ <;> (try dsimp only) <;> repeat' (first | decide +kernel | exact Exists.intro _ (And.intro rfl rfl) | exact Exists.intro _ rfl | apply And.intro)

end Sys2Proof.Tests.StoreEntriesHoldTheBytes

namespace Sys2Proof.Tests.AtomicsComplete

def demoA := withThr demo 0 { thr0 with g := [(1, 0x2000), (2, 7), (4, 0x10)] }
def amoq (op : AmoOp) (n : Nat) (b : Word) (aq : Bool) : MemReq := ⟨.amo op, 0x2000, n, 3, 7, b, aq, !aq⟩
/-- The atomic is ready and its first piece is performed, no single step due. -/
def performed (r : MemReq) (op : AmoOp) : Bool :=
  let l := located (started demoA 0) 0 r
  readyB demoA 0 r && (match l.2 with
    | p :: _ => (match l.1.amoPiece 0 r op p with | (s₃, .val _) => !(s₃.thr 0).stepDue | _ => false)
    | [] => false)

def forms : List (MemReq × AmoOp) := [(amoq .swp 8 0 true, AmoOp.swp), (amoq .add 8 0 true, .add), (amoq .band 8 0 true, .band), (amoq .bor 8 0 true, .bor),
      (amoq .bxor 8 0 true, .bxor), (amoq .smin 8 0 true, .smin), (amoq .smax 8 0 true, .smax), (amoq .umin 8 0 true, .umin),
      (amoq .umax 8 0 true, .umax), (amoq .cas 8 0x10 true, .cas), (amoq .add 4 0 false, .add), (amoq .cas 4 0x10 false, .cas)]

/-- The hypotheses of AtomicsComplete can be met, for every form and both widths. -/
theorem hypotheses_met :
    ∀ q ∈ forms,
      ∃ s₁ s₂ s₃ p ps v, demoA.ready s₁ s₂ 0 q.1 (p :: ps) ∧ s₂.amoPiece 0 q.1 q.2 p = (s₃, .val v) ∧ (s₃.thr 0).stepDue = false := by
  have a : ∀ q : MemReq × AmoOp, performed q.1 q.2 = true →
      ∃ s₁ s₂ s₃ p ps v, demoA.ready s₁ s₂ 0 q.1 (p :: ps) ∧ s₂.amoPiece 0 q.1 q.2 p = (s₃, .val v) ∧ (s₃.thr 0).stepDue = false := by
    intro q h
    simp only [performed, Bool.and_eq_true] at h
    obtain ⟨h₁, h₂⟩ := h
    have g := ready_located h₁
    split at h₂
    · rename_i p ps e
      rw [e] at g
      split at h₂
      · rename_i s₃ v f
        exact ⟨_, _, s₃, p, ps, v, g, f, by simpa using h₂⟩
      · simp at h₂
    · simp at h₂
  intro q h
  exact a q (List.all_eq_true.mp (show forms.all (fun q => performed q.1 q.2) = true by decide +kernel) q h)

end Sys2Proof.Tests.AtomicsComplete

namespace Sys2Proof.Tests.NearAtomics

def nu (r : MemReq) (op : AmoOp) := demo.amoNear 0 r op 0xFFF 0x2004
def nok (r : MemReq) (op : AmoOp) : Bool := let u := (nu r op).1; let old := lineVal lineX.data 4 r.size; (nu r op).2 = .val (extend true r.size old) && u.mem = demo.mem && u.threads = demo.threads && u.net = demo.net && u.core 3 = demo.core 3 && (match amoNew op r.size old r.opA r.opB with | none => (u.core 0).l2Line 0x80 == some lineX | some v => ((u.core 0).l2Line 0x80).any (fun m => m.st == .m && m.world == lineX.world && m.data == mergeLine lineX.data (placeVal v 4) (byteMask 4 r.size)))

/-- The hypotheses of NearAtomics can be met, each set of them. -/
theorem hypotheses_met :
    (nok ⟨.amo .add, 0x2004, 4, 3, 7, 0, true, true⟩ .add = true) ∧
    (nok ⟨.amo .cas, 0x2004, 4, 3, 7, 0, true, true⟩ .cas = true) ∧
    (nok ⟨.amo .cas, 0x2004, 4, 3, 0x01234567, 9, true, true⟩ .cas = true) ∧
    ((demo.core 0).l2Line 0x80 = some lineX ∧ lineX.writable = true ∧ lineX.readable = true ∧ lineX.poison = false ∧ demo.mirrored = false ∧ (demo.thr 0).level = .m) := by
  refine ⟨?_,
    ?_,
    ?_,
    ?_⟩ <;> (try dsimp only) <;> repeat' (first | decide +kernel | exact Exists.intro _ (And.intro rfl rfl) | exact Exists.intro _ rfl | apply And.intro)

end Sys2Proof.Tests.NearAtomics

namespace Sys2Proof.Tests.PrefetchesLeaveNoTrace

/-- The hypotheses of PrefetchesLeaveNoTrace can be met, each set of them. -/
theorem hypotheses_met :
    ∀ h ∈ [0, 1, 2, 3],
      let s₁ := started demo 0
      let r : MemReq := ⟨.pref h, 0x2008, 1, 0, 0, 0, false, false⟩
      let s₂ := s₁.opening 0 r
      demo.begins s₁ 0 ∧ (demo.thr 0).memOp = none ∧ (s₁.thr 0).walk = none ∧ (∀ k ∈ (s₁.thr 0).kept, k.is (s₁.thr 0) r = false) ∧
      (s₂.noneMode 0 = true → s₂.olderChecked 0 = true) ∧ (match (s₂.translate 0 0x2008 .load false).2 with | .need _ _ _ _ => false | _ => true) = true := by
  intro h m
  simp only [List.mem_cons, List.not_mem_nil, or_false] at m
  rcases m with rfl | rfl | rfl | rfl <;> (try dsimp only) <;> repeat' (first | decide +kernel | exact Exists.intro _ (And.intro rfl rfl) | exact Exists.intro _ rfl | apply And.intro)

end Sys2Proof.Tests.PrefetchesLeaveNoTrace

namespace Sys2Proof.Tests.SysregReads

def dU : State := withThr demoN 0 { thr0 with level := .u, world := 0 }
def thI : Thread := { thr0 with ints := [(20, { IntId.reset with prio := 0x10, enable := true, pending := true, world := true, stamp := 77 }), (30, { IntId.reset with prio := 0x10, enable := true, pending := true, world := true }), (40, { IntId.reset with prio := 0x08, enable := true, pending := true, world := false })] }
def dI : State := withThr demo 0 thI

/-- The hypotheses of SysregReads can be met, each set of them. -/
theorem hypotheses_met :
    (∃ (s : State) (s₁ : State) (t : Thr) (i : BitVec 10),
      let x := s₁.thr t
      let n := i.toNat
      s.begins s₁ t ∧ (sysOwner n).isSome ∧ x.sysDenied n false = none ∧ n ≠ 0x140) ∧
    (∃ (s : State) (s₁ : State) (t : Thr) (i : BitVec 10),
      let x := s₁.thr t
      let n := i.toNat
      s.begins s₁ t ∧ (sysOwner n).isSome ∧ x.sysDenied n false = none ∧ n = 0x140) ∧
    (∃ (s : State) (s₁ : State) (t : Thr),
      let x := s₁.thr t
      s.begins s₁ t ∧ 1 ≤ x.level.num) ∧
    (∃ (s : State) (s₁ : State) (t : Thr) (i : BitVec 10),
      let n := i.toNat
      s.begins s₁ t ∧ sysOwner n = none) ∧
    (∃ (s : State) (s₁ : State) (t : Thr) (i : BitVec 10) (l : Level),
      let x := s₁.thr t
      let n := i.toNat
      s.begins s₁ t ∧ (sysOwner n).isSome ∧ x.sysDenied n false = some l) ∧
    (∃ (s : State) (s₁ : State) (t : Thr) (i : BitVec 10) (l : Level),
      let x := s₁.thr t
      let n := i.toNat
      s.begins s₁ t ∧ (sysOwner n).isSome ∧ x.sysDenied n true = some l) := by
  refine ⟨⟨dI, (started dI 0), 0, 0x146, ?_⟩,
    ⟨dI, (started dI 0), 0, 0x140, ?_⟩,
    ⟨dI, (started dI 0), 0, ?_⟩,
    ⟨demo, (started demo 0), 0, 0x3FF, ?_⟩,
    ⟨dU, (started dU 0), 0, 0x021, .s, ?_⟩,
    ⟨dU, (started dU 0), 0, 0x021, .s, ?_⟩⟩ <;> (try dsimp only) <;> repeat' (first | decide +kernel | exact Exists.intro _ (And.intro rfl rfl) | exact Exists.intro _ rfl | apply And.intro)

end Sys2Proof.Tests.SysregReads

namespace Sys2Proof.Tests.AcknowledgeSelects

def thI : Thread := { thr0 with ints := [(20, { IntId.reset with prio := 0x10, enable := true, pending := true, world := true, stamp := 77 }), (30, { IntId.reset with prio := 0x10, enable := true, pending := true, world := true }), (40, { IntId.reset with prio := 0x08, enable := true, pending := true, world := false })] }

/-- The hypotheses of AcknowledgeSelects can be met, each set of them. -/
theorem hypotheses_met :
    (∃ (x : Thread),
      let v := x.secView
      let lim := min (x.view v).pmr.toNat (x.rpr v)
      let q := fun (n : Nat) => (x.int n).pending = true ∧ (x.int n).enable = true ∧ (x.int n).world = v ∧ (x.int n).prio.toNat < lim
      Tbl.wf IntId.reset x.ints = true ∧ (∃ k, q k)) ∧
    (∃ (x : Thread) (k : Nat),
      let v := x.secView
      let lim := min (x.view v).pmr.toNat (x.rpr v)
      let q := fun (n : Nat) => (x.int n).pending = true ∧ (x.int n).enable = true ∧ (x.int n).world = v ∧ (x.int n).prio.toNat < lim
      Tbl.wf IntId.reset x.ints = true ∧ (∃ k, q k) ∧ q k) ∧
    (∃ (x : Thread) (k : Nat),
      let v := x.secView
      let lim := min (x.view v).pmr.toNat (x.rpr v)
      let q := fun (n : Nat) => (x.int n).pending = true ∧ (x.int n).enable = true ∧ (x.int n).world = v ∧ (x.int n).prio.toNat < lim
      let n := x.ack.2
      Tbl.wf IntId.reset x.ints = true ∧ (∃ k, q k) ∧ k ≠ n) ∧
    (∃ (x : Thread),
      let v := x.secView
      let lim := min (x.view v).pmr.toNat (x.rpr v)
      let q := fun (n : Nat) => (x.int n).pending = true ∧ (x.int n).enable = true ∧ (x.int n).world = v ∧ (x.int n).prio.toNat < lim
      Tbl.wf IntId.reset x.ints = true ∧ (∀ k, ¬ q k)) := by
  refine ⟨⟨thI, ?_⟩,
    ⟨thI, 30, ?_⟩,
    ⟨thI, 30, ?_⟩,
    ⟨thr0, ?_⟩⟩ <;> (try dsimp only) <;> repeat' (first | decide +kernel | exact Exists.intro _ (And.intro rfl rfl) | exact Exists.intro _ rfl | exact ⟨20, by decide +kernel⟩ | exact fun k h => Bool.noConfusion h.1 | apply And.intro)

end Sys2Proof.Tests.AcknowledgeSelects

namespace Sys2Proof.Tests.SysregWrites

/-- The hypotheses of SysregWrites can be met, each set of them. -/
theorem hypotheses_met :
    (∃ (s : State) (s₁ : State) (t : Thr) (i : BitVec 10),
      s.begins s₁ t ∧ i.toNat ∉ [0x010, 0x012, 0x013, 0x014, 0x021, 0x022, 0x144] ∧ (sysOwner i.toNat).isSome) ∧
    (∃ (s : State) (s₁ : State) (t : Thr),
      s.begins s₁ t) ∧
    (∃ (s : State) (s₁ : State) (t : Thr),
      let x := s₁.thr t
      s.begins s₁ t ∧ x.pendErrs = []) := by
  refine ⟨⟨demo, (started demo 0), 0, 2, ?_⟩,
    ⟨demo, (started demo 0), 0, ?_⟩,
    ⟨demo, (started demo 0), 0, ?_⟩⟩ <;> (try dsimp only) <;> repeat' (first | decide +kernel | exact Exists.intro _ (And.intro rfl rfl) | exact Exists.intro _ rfl | apply And.intro)

end Sys2Proof.Tests.SysregWrites

namespace Sys2Proof.Tests.SysregWriteThenRead

/-- The hypotheses of SysregWriteThenRead can be met, each set of them. -/
theorem hypotheses_met :
    (∃ (i : Nat) (j : Nat),
      let kept := [0x002, 0x008, 0x011, 0x020, 0x021, 0x022, 0x023, 0x130, 0x131, 0x132, 0x147, 0x150, 0x160] ++ (List.range 8).map (· + 0x100) ++
        (List.range 8).map (· + 0x110) ++ (List.range 8).map (· + 0x120) ++ (List.range 8).map (· + 0x151) ++ (List.range 6).map (· + 0x161) ++
        (List.range 8).map (· + 0x168)
      i ∈ kept ∧ j ∈ kept) ∧
    (∃ (i : Nat) (j : Nat),
      let kept := [0x002, 0x008, 0x011, 0x020, 0x021, 0x022, 0x023, 0x130, 0x131, 0x132, 0x147, 0x150, 0x160] ++ (List.range 8).map (· + 0x100) ++
        (List.range 8).map (· + 0x110) ++ (List.range 8).map (· + 0x120) ++ (List.range 8).map (· + 0x151) ++ (List.range 6).map (· + 0x161) ++
        (List.range 8).map (· + 0x168)
      i ∈ kept ∧ j ∈ kept ∧ j ≠ i) := by
  refine ⟨⟨0x100, 0x101, ?_⟩,
    ⟨0x100, 0x101, ?_⟩⟩ <;> (try dsimp only) <;> repeat' (first | decide +kernel | exact Exists.intro _ (And.intro rfl rfl) | exact Exists.intro _ rfl | apply And.intro)

end Sys2Proof.Tests.SysregWriteThenRead

namespace Sys2Proof.Tests.SysregEffects

def dV (v : Word) : State := withThr demo 0 { thr0 with g := [(1, v), (2, 7)] }
def dL : State := { demo with cores := [(0, { Core.reset with l2 := [(0x40, some lineC)], emptying := some (0, 0x3E) })], threads := [(0, { thr0 with hold := .emptying })] }

/-- The hypotheses of SysregEffects can be met, each set of them. -/
theorem hypotheses_met :
    (∃ (s : State) (s₁ : State) (t : Thr),
      let x := s₁.thr t
      s.begins s₁ t ∧ 1 ≤ x.level.num) ∧
    (∃ (s : State) (s₁ : State) (t : Thr) (rs1 : RegNo),
      let x := s₁.thr t
      let v := x.readG rs1
      s.begins s₁ t ∧ fieldOf v 23 22 = 3) ∧
    (∃ (s : State) (s₁ : State) (t : Thr) (rs1 : RegNo),
      let x := s₁.thr t
      let v := x.readG rs1
      let c := t.val / 2
      let k := s₁.core c
      s.begins s₁ t ∧ 1 ≤ x.level.num ∧ bit v 4 = true ∧ bit v 7 = k.smtFix) ∧
    (∃ (s : State) (s₁ : State) (t : Thr) (rs1 : RegNo),
      let x := s₁.thr t
      let v := x.readG rs1
      let c := t.val / 2
      let k := s₁.core c
      s.begins s₁ t ∧ 1 ≤ x.level.num ∧ bit v 7 ≠ k.smtFix ∧ s₁.drained t = true) ∧
    (∃ (s : State) (s₁ : State) (t : Thr) (rs1 : RegNo),
      let x := s₁.thr t
      let v := x.readG rs1
      s.begins s₁ t ∧ 1 ≤ x.level.num ∧ bit v 4 = true) ∧
    (∃ (s : State) (s₁ : State) (t : Thr) (rs1 : RegNo),
      let x := s₁.thr t
      let v := x.readG rs1
      let c := t.val / 2
      let k := s₁.core c
      let new := cacheCtlNew k.cacheCtl v
      s.begins s₁ t ∧ x.level = .m ∧ [0, 1, 2, 3].any (clears k.cacheCtl new) = true ∧ k.emptying = none) ∧
    ((dL.core 0).emptying = some (0, 0x3E) ∧ ((dL.emptyMore 0 0x3E).core 0).emptied 0x3E = true ∧ ((dL.emptyMore 0 0x3E).thr 0).hold = .emptying ∧ (dL.emptyMore 0 0x3E).awake 0 = true ∧ ((dL.emptyMore 0 0x3E).thr 0).stepDue = false) := by
  refine ⟨⟨(dV 0x123), (started (dV 0x123) 0), 0, ?_⟩,
    ⟨(dV 0xC00003), (started (dV 0xC00003) 0), 0, 1, ?_⟩,
    ⟨(dV 0x10), (started (dV 0x10) 0), 0, 1, ?_⟩,
    ⟨(dV 0x80), (started (dV 0x80) 0), 0, 1, ?_⟩,
    ⟨(dV 0x10), (started (dV 0x10) 0), 0, 1, ?_⟩,
    ⟨(dV 0x3E), (started (dV 0x3E) 0), 0, 1, ?_⟩,
    ?_⟩ <;> (try dsimp only) <;> repeat' (first | decide +kernel | exact Exists.intro _ (And.intro rfl rfl) | exact Exists.intro _ rfl | apply And.intro)

end Sys2Proof.Tests.SysregEffects

namespace Sys2Proof.Tests.ExceptionEntry

def e1 : Exc := { Exc.plain 0x29 0x1000 with a := 3, b := 5, faddr := 9, fpa := 8 }
def e2 : Exc := { Exc.plain 0x02 0x1000 with a := 3, b := 5, faddr := 9, fpa := 8 }
def thV : Thread := { thr0 with level := .u, world := 0, excM := { ExcRegs.reset 0xE01 with vbase := 0x123456FFF }, excS := { ExcRegs.reset 0x301 with vbase := 0x555000 }, delegM := 0xFFFFFFFFFFFFFFFF }
def dVV := withThr demo 0 thV

/-- The hypotheses of ExceptionEntry can be met, each set of them. -/
theorem hypotheses_met :
    (∃ (s : State) (t : Nat) (e : Exc),
      (s.thr t).encl = none ∧ (e.cause ≠ 0x38 ∨ s.sessionReaches t = false)) ∧
    (∃ (s : State) (t : Nat) (e : Exc) (k : Nat),
      (s.thr t).encl = none ∧ (e.cause ≠ 0x38 ∨ s.sessionReaches t = false) ∧ k ≠ t) ∧
    (∃ (s : State) (t : Nat) (e : Exc) (k : Level),
      let x := s.thr t
      let l := x.target e
      (s.thr t).encl = none ∧ (e.cause ≠ 0x38 ∨ s.sessionReaches t = false) ∧ k ≠ l) := by
  refine ⟨⟨demo, 0, e1, ?_⟩,
    ⟨dVV, 0, e2, 1, ?_⟩,
    ⟨dVV, 0, e2, .m, ?_⟩⟩ <;> (try dsimp only) <;> repeat' (first | decide +kernel | exact Exists.intro _ (And.intro rfl rfl) | exact Exists.intro _ rfl | apply And.intro)

end Sys2Proof.Tests.ExceptionEntry

namespace Sys2Proof.Tests.TargetLevels

/-- The hypotheses of TargetLevels can be met, each set of them. -/
theorem hypotheses_met :
    ((Exc.plain 2 0).route = none ∧ (Exc.plain 2 0).raiseTo = .u) := by
  refine ?_ <;> (try dsimp only) <;> repeat' (first | decide +kernel | exact Exists.intro _ (And.intro rfl rfl) | exact Exists.intro _ rfl | apply And.intro)

end Sys2Proof.Tests.TargetLevels

namespace Sys2Proof.Tests.TrapsAndReturns

def dU : State := withThr demoN 0 { thr0 with level := .u, world := 0 }
def dB3 := withThr demo 0 { thr0 with excM := { ExcRegs.reset 0x800 with epc := 0x3000 } }

/-- The hypotheses of TrapsAndReturns can be met, each set of them. -/
theorem hypotheses_met :
    (∃ (s : State) (s₁ : State) (t : Thr),
      s.start t = .go s₁) ∧
    (∃ (s : State) (s₁ : State) (t : Thr),
      let x := s₁.thr t
      let e := x.exc x.level
      s.begins s₁ t ∧ x.level ≠ .u ∧ x.badReturn = false ∧ x.pendErrs = [] ∧ e.epc.toNat % 4 = 0) ∧
    (∃ (s : State) (s₁ : State) (t : Thr),
      let x := s₁.thr t
      s.start t = .go s₁ ∧ x.level ≠ .u ∧ x.badReturn = true) ∧
    (∃ (s : State) (s₁ : State) (t : Thr),
      let x := s₁.thr t
      s.start t = .go s₁ ∧ x.level = .u) := by
  refine ⟨⟨demo, (started demo 0), 0, ?_⟩,
    ⟨demo, (started demo 0), 0, ?_⟩,
    ⟨dB3, (started dB3 0), 0, ?_⟩,
    ⟨dU, (started dU 0), 0, ?_⟩⟩ <;> (try dsimp only) <;> repeat' (first | decide +kernel | exact Exists.intro _ (And.intro rfl rfl) | exact Exists.intro _ rfl | apply And.intro)

end Sys2Proof.Tests.TrapsAndReturns

namespace Sys2Proof.Tests.WaitsEventsAndTime

def dE : State := withThr demo 0 { thr0 with eventFlag := true }
def dW : State := withThr demo 0 { thr0 with run := .waiting, eventFlag := true }
def dU0 : State := withThr demoN 0 { thr0 with level := .u, world := 0, timeCtl := 0 }

/-- The hypotheses of WaitsEventsAndTime can be met, each set of them. -/
theorem hypotheses_met :
    (∃ (s : State) (s₁ : State) (t : Thr),
      let x := s₁.thr t
      s.begins s₁ t ∧ x.waiteTraps = none ∧ x.eventFlag = true) ∧
    (∃ (s : State) (s₁ : State) (t : Thr),
      let x := s₁.thr t
      s.begins s₁ t ∧ x.waiteTraps = none ∧ x.wakeReady (s₁.stamp (dieOfThr t)) = false) ∧
    (∃ (s : State) (s₁ : State) (t : Thr),
      let x := s₁.thr t
      s.begins s₁ t ∧ x.timeOk = true) ∧
    (∃ (s : State) (s₁ : State) (t : Thr),
      let x := s₁.thr t
      s.begins s₁ t ∧ x.timeOk = false) ∧
    (∃ (s : State) (s₁ : State) (t : Thr),
      s.begins s₁ t) ∧
    (∃ (s : State) (t : Thr),
      let y := s.thr t
      let n := s.tileOf (t.val / 2)
      y.run = .waiting ∧ y.wakeReady (s.stamp (dieOfThr t)) = true ∧ s.thrPresent t = true ∧ s.halted = false ∧ (s.tile n).st = .t0 ∧ (s.tile n).waking = false ∧ s.quiesced t = false ∧ y.hold = .none ∧ y.stepDue = false) := by
  refine ⟨⟨dE, (started dE 0), 0, ?_⟩,
    ⟨demo, (started demo 0), 0, ?_⟩,
    ⟨demo, (started demo 0), 0, ?_⟩,
    ⟨dU0, (started dU0 0), 0, ?_⟩,
    ⟨demo, (started demo 0), 0, ?_⟩,
    ⟨dW, 0, ?_⟩⟩ <;> (try dsimp only) <;> repeat' (first | decide +kernel | exact Exists.intro _ (And.intro rfl rfl) | exact Exists.intro _ rfl | apply And.intro)

end Sys2Proof.Tests.WaitsEventsAndTime

namespace Sys2Proof.Tests.Fences

def se : StoreEntry := { va := 0x2000, pa := 0x2000, type := .wb, world := 0xFFF, size := 8, data := 3, issued := false, fromM := true, release := false, rank := 0, mate := none, checked := false }
def dB : State := withThr demo 0 { thr0 with stb := [se] }
def dC : State := withThr demo 0 { thr0 with hold := .fenceC }

/-- The hypotheses of Fences can be met, each set of them. -/
theorem hypotheses_met :
    (∃ (s : State) (s₁ : State) (t : Thr) (mask : BitVec 5),
      let x := s₁.thr t
      s.begins s₁ t ∧ x.fenceOReady mask = true ∧ (bit mask 4 = true → x.pendErrs = [])) ∧
    (∃ (s : State) (s₁ : State) (t : Thr) (mask : BitVec 5),
      let x := s₁.thr t
      s.begins s₁ t ∧ x.fenceOReady mask = false) ∧
    (∃ (s : State) (s₁ : State) (t : Thr),
      let x := s₁.thr t
      s.begins s₁ t ∧ x.stb = [] ∧ x.outst = [] ∧ s₁.mirrorClear t = true ∧ x.pendErrs = []) ∧
    (∃ (s : State) (s₁ : State) (t : Thr),
      let x := s₁.thr t
      s.begins s₁ t ∧ (x.stb ≠ [] ∨ x.outst ≠ [])) ∧
    (∃ (s : State) (s₁ : State) (t : Thr),
      let x := s₁.thr t
      s.begins s₁ t ∧ x.storesDone = true) ∧
    (∃ (s : State) (s₁ : State) (t : Thr),
      let x := s₁.thr t
      s.begins s₁ t ∧ x.storesDone = false) ∧
    (∃ (s : State) (t : Thr),
      let y := s.thr t
      s.awake t = true ∧ y.hold = .fenceC ∧ y.stb = [] ∧ y.outst = [] ∧ s.mirrorClear t = true ∧ y.pendErrs = [] ∧ y.stepDue = false) := by
  refine ⟨⟨demo, (started demo 0), 0, 31, ?_⟩,
    ⟨dB, (started dB 0), 0, 31, ?_⟩,
    ⟨demo, (started demo 0), 0, ?_⟩,
    ⟨dB, (started dB 0), 0, ?_⟩,
    ⟨demo, (started demo 0), 0, ?_⟩,
    ⟨dB, (started dB 0), 0, ?_⟩,
    ⟨dC, 0, ?_⟩⟩ <;> (try dsimp only) <;> repeat' (first | decide +kernel | exact Exists.intro _ (And.intro rfl rfl) | exact Exists.intro _ rfl | apply And.intro)

end Sys2Proof.Tests.Fences

namespace Sys2Proof.Tests.EventsTaken

def dI : State := withThr demo 0 { thr0 with level := .u, ints := [(20, { IntId.reset with prio := 0x10, enable := true, pending := true, world := true })] }
def cm : ContainMsg := ⟨5, 1⟩
def dK : State := withThr demo 0 { thr0 with level := .s, contains := [cm] }
def dT : State := withThr demo 0 { thr0 with intN := { IntView.reset with timerEn := true } }

/-- The hypotheses of EventsTaken can be met, each set of them. -/
theorem hypotheses_met :
    (∃ (s : State) (t : Thr) (n : Nat) (l : Level),
      let x := s.thr t
      s.atBoundary t = true ∧ x.mustCheck = false ∧ x.nextInt false = some (n, l)) ∧
    (∃ (s : State) (t : Thr) (m : ContainMsg) (r : List ContainMsg),
      let x := s.thr t
      s.atBoundary t = true ∧ x.mustCheck = true ∧ s.pair.scanning = false ∧ x.contains = m :: r) ∧
    (∃ (s : State) (t : Thr) (sec : Bool),
      let x := s.thr t
      (x.int 16).world = sec ∧ (x.view sec).timerEn = true ∧ (x.view sec).timer.toNat ≤ (s.tileStamp t).toNat ∧ (x.int 16).active = false) ∧
    (∃ (s : State) (t : Thr) (i : Fin 1024),
      s.thrPresent t = true ∧ i.val ≠ 16) := by
  refine ⟨⟨dI, 0, 20, .s, ?_⟩,
    ⟨dK, 0, cm, [], ?_⟩,
    ⟨dT, 0, false, ?_⟩,
    ⟨demo, 0, 30, ?_⟩⟩ <;> (try dsimp only) <;> repeat' (first | decide +kernel | exact Exists.intro _ (And.intro rfl rfl) | exact Exists.intro _ rfl | apply And.intro)

end Sys2Proof.Tests.EventsTaken

namespace Sys2Proof.Tests.MaintenanceByAddress

def mq (k : MemKind) : MemReq := ⟨k, 0x2000, 1, 0, 0, 0, false, false⟩
/-- A CMO of thread 0 is ready with one piece, and its operation completes. -/
def cmoGoes (op : Fin 3) (pou : Bool) : Bool :=
  let l := located (started demo 0) 0 (mq (.cmo op pou))
  readyB demo 0 (mq (.cmo op pou)) && (match l.2 with
    | [p] => (match l.1.cmoVa 0 op pou p.pa ((l.1.thr 0).tagAt p.va) with | some s₃ => !(s₃.thr 0).stepDue | none => false)
    | _ => false)
def lc := located (started demo 0) 0 (mq (.cmo 0 false))
def pc₀ : Piece := lc.2.getD 0 ⟨0,0,0,0,none,none⟩
/-- Readiness with one piece named. -/
theorem ready_one {s : State} {r : MemReq} {p : Piece} (h : readyB s 0 r = true) (e : (located (started s 0) 0 r).2 = [p]) :
    s.ready (started s 0) (located (started s 0) 0 r).1 0 r [p] := e ▸ ready_located h
def g0 := located (started demoT 0) 0 (mq .galLock)
def q0 : Piece := g0.2.getD 0 ⟨0,0,0,0,none,none⟩
def g1 := located (started demoT 0) 0 (mq .galUnlock)
def q1 : Piece := g1.2.getD 0 ⟨0,0,0,0,none,none⟩
def g2 := located (started demoT 0) 0 (mq .tlbLock)
def q2 : Piece := g2.2.getD 0 ⟨0,0,0,0,none,none⟩

/-- The hypotheses of MaintenanceByAddress can be met: of each CMO, -/
theorem cmo_met : ∀ q ∈ [((0 : Fin 3), false), (1, false), (2, false), (0, true), (1, true), (2, true)],
    ∃ s₁ s₂ s₃ p, demo.ready s₁ s₂ 0 (mq (.cmo q.1 q.2)) [p] ∧ s₂.cmoVa 0 q.1 q.2 p.pa ((s₂.thr 0).tagAt p.va) = some s₃ ∧ (s₃.thr 0).stepDue = false := by
  have a : ∀ q : Fin 3 × Bool, cmoGoes q.1 q.2 = true →
      ∃ s₁ s₂ s₃ p, demo.ready s₁ s₂ 0 (mq (.cmo q.1 q.2)) [p] ∧ s₂.cmoVa 0 q.1 q.2 p.pa ((s₂.thr 0).tagAt p.va) = some s₃ ∧ (s₃.thr 0).stepDue = false := by
    intro q h
    simp only [cmoGoes, Bool.and_eq_true] at h
    obtain ⟨h₁, h₂⟩ := h
    split at h₂
    · rename_i p e
      split at h₂
      · rename_i s₃ f
        exact ⟨_, _, s₃, p, ready_one h₁ e, f, by simpa using h₂⟩
      · simp at h₂
    · simp at h₂
  intro q h
  exact a q (List.all_eq_true.mp (show List.all [((0 : Fin 3), false), (1, false), (2, false), (0, true), (1, true), (2, true)] (fun q => cmoGoes q.1 q.2) = true
    by decide +kernel) q h)

/-- of what a CMO does, and of the Galley locks and the pin. -/
theorem hypotheses_met :
    (pc₀.pa < 2 ^ 56 ∧ (lc.1.thr 0).stb = [] ∧ hasHome (pc₀.pa / 64) = true ∧ lc.1.backed pc₀.pa = true ∧ (lc.1.thr 0).lineOut pc₀.pa = false ∧
      lc.1.lineAsked 0 (pc₀.pa / 64) = false) ∧
    (let k := g0.1.core 0
     let line := q0.pa / 64
     (readyB demoT 0 (mq .galLock) = true ∧ (located (started demoT 0) 0 (mq .galLock)).2 = [q0]) ∧ effType q0.rank q0.pa = .gw ∧ k.galOff = false ∧ k.galEntry line = some gal0 ∧
     k.hellEntry line = none ∧ gal0.lock = false ∧ k.locked < 32 ∧ gal0.full = true ∧ gal0.poison = false ∧ (g0.1.thr 0).stepDue = false) ∧
    ((readyB demoT 0 (mq .galUnlock) = true ∧ (located (started demoT 0) 0 (mq .galUnlock)).2 = [q1]) ∧ (g1.1.core 0).galEntry (q1.pa / 64) = some gal0 ∧
      (g1.1.thr 0).stepDue = false) ∧
    ((readyB demoT 0 (mq .tlbLock) = true ∧ (located (started demoT 0) 0 (mq .tlbLock)).2 = [q2]) ∧ ((started demoT 0).thr 0).level ≠ .u ∧
      ((started demoT 0).thr 0).tctx.s1 = true ∧ q2.entry = some (page 2 (2 ^ 44)) ∧ (g2.1.core 0).pinned = [] ∧ (g2.1.thr 0).stepDue = false) := by
  dsimp only; repeat' (first | decide +kernel | apply And.intro)

end Sys2Proof.Tests.MaintenanceByAddress

namespace Sys2Proof.Tests.MaintenanceOfCaches

def dw (w : Word) (lv : Level) : State := { demoT with
  threads := [(0, { thr0 with level := lv, g := [(1, w), (2, 7)] })],
  cores := [(0, { Core.reset with
    l1d := [⟨0x80,0⟩,⟨0x81,1⟩], l1i := [⟨0x80,0⟩], l2 := [(0x40, some lineC), (0x80, some lineX)], galley := [gal0], hellbox := [{ gal0 with tag := 2 ^ 50 + 1 }]
    itlb := [page 1 1], dtlb := [page 2 (2 ^ 44)], pinned := [page 2 (2^44)] })] }
/-- The word of a BY_SETWAY: its level, way and set. -/
def sw (level way set : Nat) : Word := BitVec.ofNat 64 (level * 2 ^ 60 + way * 2 ^ 16 + set)
def at0 (s : State) : State := started s 0

/-- The hypotheses of MaintenanceOfCaches can be met, each set of them: an instruction begins, -/
theorem begins_met : ∀ w ∈ [sw 0 0 0, sw 1 0 0, sw 2 1 0x80, sw 3 0 0, sw 4 0 0, sw 5 0 0, sw 6 0 0], (dw w .m).begins (at0 (dw w .m)) 0 ∧ ((at0 (dw w .m)).thr 0).readG 1 = w := by
  intro w h
  simp only [List.mem_cons, List.not_mem_nil, or_false] at h
  rcases h with rfl | rfl | rfl | rfl | rfl | rfl | rfl <;> repeat' (first | decide +kernel | apply And.intro)
/-- a level, way and set name an entry or none, the operation goes or waits for nothing, -/
theorem levels_met :
    (fieldOf (sw 0 0 0) 63 60 = 0 ∧ fieldOf (sw 1 0 0) 63 60 = 1 ∧ fieldOf (sw 2 1 0x80) 63 60 = 2 ∧ fieldOf (sw 2 1 0x80) 10 0 < 1024 ∧ fieldOf (sw 2 1 0x80) 21 16 < 16 ∧
      fieldOf (sw 3 0 0) 63 60 = 3 ∧ fieldOf (sw 4 0 0) 63 60 = 4 ∧ fieldOf (sw 5 0 0) 63 60 = 5 ∧ 5 < fieldOf (sw 6 0 0) 63 60) ∧
    (∀ op : Fin 3, ((at0 (dw (sw 2 0 0x40) .m)).setwayL2 0 op 0x40 0).isSome = true ∧ ((at0 (dw (sw 2 0 0x80) .s)).setwayL2 0 op 0x80 0).isSome = true ∧
      ((at0 (dw (sw 3 0 0) .m)).setwayL3 0 op 0 0).isSome = true ∧ ((at0 (dw (sw 4 0 0) .m)).setwayGal 0 op false 0).isSome = true ∧
      ((at0 (dw (sw 5 0 0) .m)).setwayGal 0 op true 0).isSome = true) ∧
    (((at0 (dw (sw 2 5 0x80) .m)).core 0).l2Set 0x80).find? (fun p => p.2.way == 5) = none ∧ (∀ e ∈ ((at0 (dw (sw 4 5 0) .m)).core 0).galley, e.way ≠ 5) ∧
    (∀ e ∈ ((at0 (dw (sw 5 5 0) .m)).core 0).hellbox, e.way ≠ 5) := by
  repeat' (first | decide +kernel | apply And.intro)
/-- and a level is below the one that is asked for; TLBI finds the stores performed or not. -/
theorem denied_met :
    ((dw 0 .u).begins (at0 (dw 0 .u)) 0 ∧ ((at0 (dw 0 .u)).thr 0).level = .u) ∧
    ((dw (sw 3 0 0) .s).begins (at0 (dw (sw 3 0 0) .s)) 0 ∧ ((at0 (dw (sw 3 0 0) .s)).thr 0).level ≠ .m ∧ ((at0 (dw (sw 3 0 0) .s)).thr 0).level.num < 2 ∧
      1 ≤ ((at0 (dw (sw 3 0 0) .s)).thr 0).level.num ∧ ((at0 (dw (sw 3 0 0) .s)).thr 0).storesDone = true) ∧
    (let s := withThr (dw 0 .m) 0 { thr0 with outst := [⟨1, .ncStore, 0x2000, 0, none, 0⟩] }
     s.begins (at0 s) 0 ∧ 2 ≤ ((at0 s).thr 0).level.num ∧ ((at0 s).thr 0).storesDone = false) := by
  dsimp only; repeat' (first | decide +kernel | apply And.intro)

end Sys2Proof.Tests.MaintenanceOfCaches

namespace Sys2Proof.Tests.EnclaveBuilding

def gA (b l : Nat) : Word := BitVec.ofNat 64 (2^63 + l * 2^32 + b)
def ctlE : Tbl (Option Word) := [(tilePort 0, some 0)] ++ [(guardReg 0 0, some (gA 1 1)), (guardReg 0 1, some 0xFFF000F), (guardReg 0 2, some (gA 2 2)), (guardReg 0 3, some 0x5800F), (guardReg 0 4, some (gA 0x4000 0x4000)), (guardReg 0 5, some 0x5800F), (guardReg 0 0x200, some 1)]
def cells (l : List (Nat × Nat)) : List Host.Cell := l.flatMap (fun p => (List.range 8).filterMap (fun i => if p.2 / 256 ^ i % 256 = 0 then none else some (p.1 + i, BitVec.ofNat 8 (p.2 / 256 ^ i))))
def dE (st prog : Nat) (x : Thread) : State :=
  { withThr { demoN with ctl := ctlE } 0 x with
    chans := (List.range 23).map (fun c => (c + 1, { Channel.reset with trained := false }))
    mem := cells [(0x3000, 0x10000), (0x10000, st * 2 ^ 62 + 5), (0x10008, 0x40000000), (0x10010, 0x4000), (0x10018, 0x11000), (0x10020, 0x100), (0x10028, 0x0100000000000001), (0x10068, prog), (0x11008, 0xC000000000021000), (0x12000, 0x10000), (0x12010, 0x20000000E), (0x12018, 0x20000)] }
def tM (a : Word) : Thread := { thr0 with g := [(1, a)] }
def m0 := dE 0 0 (tM 0x10000)
def m1 := dE 1 0 (tM 0x10000)
def m1a := dE 1 0 (tM 0x12000)
def m3 := dE 3 4 (tM 0x10000)
def eUU := dE 2 0 { thr0 with level := .u, world := 0, g := [(1, 0x3000)] }
def m0s : State := started m0 0
def m1s : State := started m1a 0

set_option maxRecDepth 20000 in
/-- The hypotheses of EnclaveBuilding can be met, each set of them. -/
theorem hypotheses_met :
    (∃ (s : State) (s₁ : State) (t : Thr) (rs1 : RegNo),
      let x := s₁.thr t
      let ecd := (x.readG rs1).toNat
      s.begins s₁ t ∧ x.level = .m ∧ s₁.ecdCheck t ecd = none ∧ s₁.ecdState ecd = 1) ∧
    (∃ (s : State) (s₁ : State) (t : Thr) (rs1 : RegNo),
      let x := s₁.thr t
      let ecd := (x.readG rs1).toNat
      let n := s₁.ecdPages ecd
      s.begins s₁ t ∧ x.level = .m ∧ s₁.ecdCheck t ecd = none ∧ s₁.ecdState ecd = 3 ∧ s₁.ecdWord ecd 0x60 = 0 ∧ n ≤ (s₁.ecdWord ecd 0x68).toNat ∧ x.outst = [] ∧ s₁.cohPoison (s₁.ecdWord ecd 0x18).toNat (8 * n) = false) ∧
    (∃ (s : State) (s₁ : State) (t : Thr) (rs1 : RegNo),
      let x := s₁.thr t
      let ecd := (x.readG rs1).toNat
      s.begins s₁ t ∧ x.level = .m ∧ s₁.ecdCheck t ecd = none ∧ s₁.ecdState ecd ≠ 0) ∧
    (∃ (s : State) (s₁ : State) (t : Thr) (rs1 : RegNo),
      let x := s₁.thr t
      let ecd := (x.readG rs1).toNat
      s.begins s₁ t ∧ x.level = .m ∧ s₁.ecdCheck t ecd = none ∧ s₁.ecdState ecd ≠ 1) ∧
    (∃ (s : State) (s₁ : State) (t : Thr) (rs1 : RegNo),
      let x := s₁.thr t
      let ecd := (x.readG rs1).toNat
      s.begins s₁ t ∧ x.level = .m ∧ s₁.ecdCheck t ecd = none ∧ s₁.ecdState ecd ≠ 2 ∧ s₁.ecdState ecd ≠ 3) ∧
    (∃ (s : State) (s₁ : State) (t : Thr),
      let x := s₁.thr t
      s.begins s₁ t ∧ x.level ≠ .m) ∧
    (m0.begins m0s 0 ∧ m0s.ecdCheck 0 0x10000 = none ∧ m0s.ecdState 0x10000 = 0 ∧ m0s.ecdFields 0x10000 = true ∧ m0s.placedSecure 0x11000 32 = true) ∧
    (m1a.begins m1s 0 ∧ (m1s.thr 0).level = .m ∧ m1s.physOk 0x12000 32 = true ∧ m1s.cohPoison 0x12000 32 = false ∧ m1s.cohWord 0x12000 = 0x10000 ∧ m1s.cohWord 0x12010 = 0x20000000E ∧ m1s.cohWord 0x12018 = 0x20000 ∧ m1s.cohWord 0x12008 = 0 ∧ m1s.ecdCheck 0 0x10000 = none ∧ m1s.ecdState 0x10000 = 1 ∧ m1s.placedEncl 0x20000 4096 (m1s.ecdId 0x10000) = true ∧ 2 < m1s.ecdPages 0x10000 ∧ m1s.cohPoison (m1s.epmAt 0x10000 2) 8 = false ∧ bit (m1s.cohWord (m1s.epmAt 0x10000 2)) 63 = false) := by
  refine ⟨⟨m1, (started m1 0), 0, 1, ?_⟩,
    ⟨m3, (started m3 0), 0, 1, ?_⟩,
    ⟨m1, (started m1 0), 0, 1, ?_⟩,
    ⟨m0, (started m0 0), 0, 1, ?_⟩,
    ⟨m0, (started m0 0), 0, 1, ?_⟩,
    ⟨eUU, (started eUU 0), 0, ?_⟩,
    ?_,
    ?_⟩ <;> (try dsimp only) <;> repeat' (first | decide +kernel | exact Exists.intro _ (And.intro rfl rfl) | exact Exists.intro _ rfl | apply And.intro)

end Sys2Proof.Tests.EnclaveBuilding

namespace Sys2Proof.Tests.EnclaveEntry

def gA (b l : Nat) : Word := BitVec.ofNat 64 (2^63 + l * 2^32 + b)
def ctlE : Tbl (Option Word) := [(tilePort 0, some 0)] ++ [(guardReg 0 0, some (gA 1 1)), (guardReg 0 1, some 0xFFF000F), (guardReg 0 2, some (gA 2 2)), (guardReg 0 3, some 0x5800F), (guardReg 0 4, some (gA 0x4000 0x4000)), (guardReg 0 5, some 0x5800F), (guardReg 0 0x200, some 1)]
def cells (l : List (Nat × Nat)) : List Host.Cell := l.flatMap (fun p => (List.range 8).filterMap (fun i => if p.2 / 256 ^ i % 256 = 0 then none else some (p.1 + i, BitVec.ofNat 8 (p.2 / 256 ^ i))))
def dE (st prog : Nat) (x : Thread) : State :=
  { withThr { demoN with ctl := ctlE } 0 x with
    chans := (List.range 23).map (fun c => (c + 1, { Channel.reset with trained := false }))
    mem := cells [(0x3000, 0x10000), (0x10000, st * 2 ^ 62 + 5), (0x10008, 0x40000000), (0x10010, 0x4000), (0x10018, 0x11000), (0x10020, 0x100), (0x10028, 0x0100000000000001), (0x10068, prog), (0x11008, 0xC000000000013000), (0x12000, 0x10000), (0x12010, 0x20000000E), (0x12018, 0x20000)] }
def eUU := dE 2 0 { thr0 with level := .u, world := 0, g := [(1, 0x3000)] }
def cx : EnclCtx := { ecd := 0x10000, id := 5, base := 0x40000000, size := 0x4000, epm := 0x11000, slot := 0, slotPa := 0x13000, forceNp := false, debug := false, enterVa := 0x1000, blockVa := 0x3000, rs1 := 1 }
def eI (a : Word) := dE 2 0 { thr0 with level := .u, world := 5, g := [(1, a)], pc := 0x40000100, encl := some cx }
def eR := dE 2 0 { thr0 with level := .u, world := 5, g := [(1, 0x2000)], pc := 0x40000100, encl := some cx, hold := .report, report := some (0x40000400, 3) }
def eV := eI 0x40000400
def x2 := (started eV 0).xlate 0 0x40000400 .store false
def b2 := x2.1.blockCheck 0 5 0x40000400 0x40000400 .store
def eUs : State := started eUU 0
def eB : State × BRes := eUs.readBlock 0 0x3000
def eBytes : List Byte := match eB.2 with | .ok _ b => b | _ => []

def eVs : State := started eV 0
def eAt : Nat := eB.1.epmAt 0x10000 1
set_option maxRecDepth 20000
/-- The hypotheses of EnclaveEntry can be met, each set of them: of ENTER, -/
theorem enter_met :
    (eUU.begins eUs 0 ∧ (eUs.thr 0).level = .u ∧ (eUs.thr 0).secure = false ∧ (eUs.thr 0).encl = none) ∧
    (eB.2 = .ok 0x3000 eBytes ∧ blockWord eBytes 0 = 0x10000 ∧ blockWord eBytes 1 = 0 ∧ blockWord eBytes 2 = 0 ∧ blockWord eBytes 3 = 0) ∧
    (eB.1.ecdCheck 0 0x10000 = none ∧ eB.1.ecdState 0x10000 = 2 ∧ 0 < fieldOf (eB.1.ecdWord 0x10000 0x28) 63 56 ∧
      fieldOf (eB.1.ecdWord 0x10000 0x28) 31 0 + 0 = 1 ∧ bit (eB.1.ecdWord 0x10000 0x60) 0 = false ∧ bit (eB.1.ecdWord 0x10000 0) 60 = false ∧
      eB.1.ecdWord 0x10000 0x08 + eB.1.ecdWord 0x10000 0x20 = 0x40000100) ∧
    (eB.1.cohWord eAt = 0xC000000000013000 ∧ eB.1.cohPoison eAt 8 = false ∧ eB.1.cohPoison 0x13000 0x240 = false ∧ bit (eB.1.cohWord 0x13210) 63 = false) := by
  repeat' (first | decide +kernel | apply And.intro)
/-- of EXIT, -/
theorem exit_met :
    (eI 0x2000).begins (started (eI 0x2000) 0) 0 ∧ ((started (eI 0x2000) 0).thr 0).encl = some cx ∧ ((started (eI 0x2000) 0).thr 0).level = .u ∧
      ((started (eI 0x2000) 0).thr 0).secure = false ∧ ((started (eI 0x2000) 0).thr 0).readG 1 = 0x2000 ∧ cx.holds 0x2000 = false := by
  repeat' (first | decide +kernel | apply And.intro)
/-- of a REPORT that waits, of one to a place outside, -/
theorem report_met :
    (eV.begins eVs 0 ∧ (eVs.thr 0).level = .u ∧ (eVs.thr 0).secure = false ∧ (eVs.thr 0).encl = some cx ∧ (eVs.thr 0).readG 1 = 0x40000400) ∧
    (cx.holds 0x40000400 = true ∧ cx.holds (0x40000400 + 255) = true ∧ x2.2 = .ok 0x40000400 0 none ∧ b2.2 = none ∧ b2.1.cohPoison 0x40000400 256 = false ∧
      b2.1.reportsPending < 16) := by
  repeat' (first | decide +kernel | apply And.intro)
/-- and of its answer. -/
theorem answer_met :
    (eR.thr 0).encl = some cx ∧ (eR.thr 0).report = some (0x40000400, 3) ∧ eR.awake 0 = true ∧ (eR.thr 0).hold = .report ∧ (eR.thr 0).stepDue = false := by
  repeat' (first | decide +kernel | apply And.intro)

end Sys2Proof.Tests.EnclaveEntry

namespace Sys2Proof.Tests.InterruptDelivery

def im : IntMsg := { intid := 40, target := 0, secure := false, refusal := false, sender := some 3, level := false, stamp := 5 }
def f1 : Flit := at_ { fl .intDlv .router (.core 0) 0 with msg := some im }
def f2 : Flit := at_ { fl .intDlv .router (.core 0) 0 with msg := some { im with secure := true } }
def f3 : Flit := at_ (fl .sevtB .router (.die 0) 0)
def dAll : State := { demo with tiles := (List.range 36).map (fun n => (n, tile0)), ctl := (List.range 36).map (fun n => (tilePort n, some 0)) }

/-- The hypotheses of InterruptDelivery can be met, each set of them. -/
theorem hypotheses_met :
    (∃ (s : State) (k : Nat) (f : Flit) (m : IntMsg) (c : CoreId),
      let t := m.target.val
      let n := m.intid.val
      let q := s.tileOf (t / 2)
      s.lands k .intDlv f ∧ f.msg = some m ∧ f.dst = .core c ∧ s.dieAlive (c.val / 32) = true ∧ s.thrPresent t = true ∧ (s.tile q).st ≠ .t3 ∧ s.portSt (tilePort q) = 0 ∧ s.quiesced t = false ∧ m.quiet = false ∧ m.refusal = false ∧ m.level = false ∧ intidValid n = true ∧ ((s.thr t).int n).world = m.secure) ∧
    (∃ (s : State) (k : Nat) (f : Flit) (m : IntMsg) (c : CoreId) (z : Thr),
      let t := m.target.val
      let n := m.intid.val
      let q := s.tileOf (t / 2)
      s.lands k .intDlv f ∧ f.msg = some m ∧ f.dst = .core c ∧ s.dieAlive (c.val / 32) = true ∧ s.thrPresent t = true ∧ (s.tile q).st ≠ .t3 ∧ s.portSt (tilePort q) = 0 ∧ s.quiesced t = false ∧ m.quiet = false ∧ m.refusal = false ∧ m.level = false ∧ intidValid n = true ∧ ((s.thr t).int n).world ≠ m.secure ∧ m.sender = some z) ∧
    (∃ (s : State) (k : Nat) (f : Flit) (d : Nat),
      s.lands k .sevtB f ∧ f.dst = .die d ∧ (∀ j ∈ s.dieCores d, (s.tile (s.tileOf j)).st ≠ .t3 ∧ s.portSt (tilePort (s.tileOf j)) = 0 ∧ s.quiesced (2 * j) = false)) := by
  refine ⟨⟨(wN demo f1), 0, f1, im, 0, ?_⟩,
    ⟨(wN demo f2), 0, f2, { im with secure := true }, 0, 3, ?_⟩,
    ⟨(wN dAll f3), 0, f3, 0, ?_⟩⟩ <;> (try dsimp only) <;> repeat' (first | decide +kernel | exact Exists.intro _ (And.intro rfl rfl) | exact Exists.intro _ rfl | apply And.intro)

end Sys2Proof.Tests.InterruptDelivery

namespace Sys2Proof.Tests.RouterSources

def dR (w : Word) (p : List Nat) : State := { demo with sources := [(3, w), (40, w)], srcPend := p }

/-- The hypotheses of RouterSources can be met, each set of them. -/
theorem hypotheses_met :
    (∃ (s : State) (src : Fin 4096),
      let n := src.val
      let w := s.source n
      sourceExists n = true ∧ bit w 63 = true) ∧
    (∃ (s : State) (src : Fin 4096),
      let n := src.val
      let w := s.source n
      bit w 63 = false) ∧
    (∃ (s : State) (src : Fin 4096),
      let n := src.val
      let w := s.source n
      n ∈ s.srcPend ∧ fieldOf w 52 52 = s.pkgBit ∧ s.thrPresent (thrOf (fieldOf w 51 42)).val = true) ∧
    (∃ (s : State) (pin : Fin 32) (b : Bool),
      let g := s.gpio pin.val
      b ≠ g.sample) ∧
    (∃ (s : State) (pin : Fin 32) (b : Bool),
      let g := s.gpio pin.val
      b = g.sample ∧ b ≠ g.level) ∧
    (∃ (s : State) (pin : Fin 32),
      let g := s.gpio pin.val
      2 ≤ s.trig pin.val ∧ levelHit (s.trig pin.val) g.level = false ∧ (3, 5, 20) ∈ s.srcSent ∧ ∀ p ∈ s.srcSent, p.1 ≠ pin.val → p.2 ≠ (5, 20)) ∧
    (let s := { dR 0x8000000000000014 [] with gpios := [(3, ⟨true, false⟩)] }
     true = (s.gpio 3).sample ∧ true ≠ (s.gpio 3).level ∧ bit (s.source 3) 63 = true ∧ s.trig 3 = 0) ∧
    (let s := { dR 0x9000000000000014 [] with gpios := [(3, ⟨true, false⟩)] }
     true = (s.gpio 3).sample ∧ true ≠ (s.gpio 3).level ∧ s.trig 3 = 1) := by
  refine ⟨⟨(dR 0x8000000000000014 [40]), 3, ?_⟩,
    ⟨(dR 0x14 []), 3, ?_⟩,
    ⟨(dR 0x8000000000000014 [3,40]), 3, ?_⟩,
    ⟨(dR 0x8000000000000014 [3,40]), 3, true, ?_⟩,
    ⟨{ dR 0x8000000000000014 [] with gpios := [(3, ⟨true, false⟩)] }, 3, true, ?_⟩,
    ⟨{ dR 0xA000000000000014 [3,40] with srcSent := [(3, 5, 20), (40, 6, 20)] }, 3, ?_⟩, ?_, ?_⟩ <;> (try dsimp only) <;> repeat' (first | decide +kernel | exact Exists.intro _ (And.intro rfl rfl) | exact Exists.intro _ rfl | apply And.intro)

end Sys2Proof.Tests.RouterSources

namespace Sys2Proof.Tests.StoresDrain

def se : StoreEntry := { va := 0x2004, pa := 0x2004, type := .wb, world := 0xFFF, size := 4, data := 0x11223344, issued := false, fromM := true, release := false, rank := 0, mate := none, checked := false }
def sn : StoreEntry := { se with type := .nc, rank := 1 }
def dS (e : StoreEntry) : State := withThr demo 0 { thr0 with stb := [e] }
def st1 : Stream := { thr := false, key := 0, last := 2 ^ 56, stride := 64, count := 2, gw := true, world := 0xFFF, va := BitVec.ofNat 64 (2 ^ 56) }
def dPf : State := { demo with cores := [(0, { Core.reset with l2 := [(0x40, some lineC)], streams := [st1] })] }

/-- The hypotheses of StoresDrain can be met, each set of them. -/
theorem hypotheses_met :
    (∀ e ∈ [se, sn], ((dS e).thr 0).stb[0]? = some e ∧ (dS e).thrPresent 0 = true ∧ ((dS e).tile ((dS e).tileOf 0)).st = .t0 ∧ (dS e).drainOver 0 = false ∧
      ((dS e).thr 0).mayDrain 0 e = true ∧ ((dS e).thr 0).memOp = none ∧ ((dS e).thr 1).memOp = none) ∧
    (((dS se).core 0).l2Off = false ∧ ((dS se).core 0).l2Line (se.pa / 64) = some lineX ∧ lineX.writable = true ∧ se.fromM = true ∧ se.mate = none ∧ (dS se).mirrored = false) ∧
    (let k := dPf.core 0
     let next : Int := st1.last + st1.reach
     k.streams[0]? = some st1 ∧ dPf.corePresent 0 = true ∧ (dPf.tile (dPf.tileOf 0)).st = .t0 ∧ 2 ≤ st1.count ∧ bit k.cacheCtl 5 = true ∧ k.galOff = false ∧ 0 ≤ next ∧
      dPf.streamPage 0 st1 = some 12 ∧ next.toNat / 2 ^ 12 = st1.last / 2 ^ 12 ∧ k.galEntry (next.toNat / 64) = none ∧ k.hellEntry (next.toNat / 64) = none ∧ k.locked < 48) := by
  dsimp only; repeat' (first | decide +kernel | apply And.intro)

end Sys2Proof.Tests.StoresDrain

namespace Sys2Proof.Tests.AnswersReachTheirThread

def o1 : OutOp := { tid := 7, kind := .devStore, pa := 0x800000000000, due := 1, port := none, stamp := 0 }
def fA : Flit := at_ { fl .ack .mmio (.core 0) 0 with acc := .devStore }
def fE : Flit := at_ { fl .ack .mmio (.core 0) 0 with acc := .devStore, err := some 0x0101 }
def dO : State := wN (withThr demo 0 { thr0 with outst := [o1] }) fA
def dOE : State := wN (withThr demo 0 { thr0 with outst := [o1] }) fE
def mo : MemOp := { req := ⟨.loadG true, 0x800000000000, 8, 3, 0, 0, false, false⟩, tid := 7, want := some 0x800000000000, got := [], once := true, fresh := false, stamp := 0, xl := [], errs := [] }
def fL : Flit := at_ { fl .ack .mmio (.core 0) 0 with acc := .devLoad, err := some 0x0101 }
def dM : State := wN (withThr demo 0 { thr0 with memOp := some mo }) fL
def wk : Walk := { va := 0x0, acc := .load, answers := [], upd := none, tid := 0, stamp := 0, line := none }
def dWk : State := { withThr demo 0 { thr0 with level := .s, mmuCtl := 1, root1 := 0x2000, walk := some wk } with cores := [(0, { Core.reset with l2 := [(0x40, some lineC), (0x80, some lineX)] })] }

/-- The hypotheses of AnswersReachTheirThread can be met, each set of them. -/
theorem hypotheses_met :
    (let x := dO.thr 0
     dO.net[0]? = some fA ∧ dO.firstOfFlow 0 fA = true ∧ fA.dst = .core 0 ∧ fA.thr = some 0 ∧ fA.err = none ∧ fA.acc = .devStore ∧ fA.op = .ack ∧ x.opIs fA.tid = false ∧
      x.hasOut fA.tid = true ∧ fA.promoted = false ∧ x.memOp = none ∧ (dO.thr 1).memOp = none) ∧
    (let x := dM.thr 0
     dM.net[0]? = some fL ∧ dM.firstOfFlow 0 fL = true ∧ fL.dst = .core 0 ∧ fL.thr = some 0 ∧ fL.err = some 0x0101 ∧ fL.acc = .devLoad ∧ x.walk = none ∧ x.run = .running ∧
      x.nextInt false = none ∧ x.memOp = some mo ∧ mo.once = true ∧ mo.want = some 0x800000000000 ∧ mo.tid = fL.tid ∧ fL.tid ≠ 0) ∧
    (let x := dOE.thr 0
     dOE.net[0]? = some fE ∧ dOE.firstOfFlow 0 fE = true ∧ fE.dst = .core 0 ∧ fE.thr = some 0 ∧ fE.err = some 0x0101 ∧ fE.acc = .devStore ∧ x.walk = none ∧ x.memOp = none ∧
      x.kept = [] ∧ x.fetchReq = none ∧ x.pendErrs.length < 4 ∧ o1 ∈ x.outst ∧ o1.tid = fE.tid ∧ o1.due = 1 ∧ (∀ q ∈ x.outst, q.tid = fE.tid → q = o1) ∧
      (dOE.thr 1).memOp = none) ∧
    (let x := dWk.thr 0
     x.walk = some wk ∧ dWk.walkNeeds 0 = some (0x2000, false, false, 7) ∧ (dWk.core 0).l2Line (0x2000 / 64) = some lineX ∧ lineX.readable = true ∧ lineX.world = x.walkWorld ∧
      lineX.poison = false ∧ x.memOp = none) := by
  dsimp only; repeat' (first | decide +kernel | apply And.intro)

end Sys2Proof.Tests.AnswersReachTheirThread

namespace Sys2Proof.Tests.RequestsReachTheirHome

def hN := hn demo 0x1000
def fq (op : Op) (dst : Agent) : Flit := at_ (fl op (.core 0) dst 0x1000)
def lands0 (op : Op) (dst : Agent) : Bool :=
  let s := wN demo (fq op dst)
  decide (s.arrival 0 op = some (fq op dst)) && !s.portHolds (fq op dst) && ((s.portOf (fq op dst)).bind (fun a => (s.taken 0).proxied a (fq op dst))).isNone
/-- The hypotheses of RequestsReachTheirHome can be met: the messages land, -/
theorem lands_met : ∀ q ∈ [(Op.rdS, Agent.filter 0), (.rdU, .filter 0), (.upg, .filter 0), (.rdS, sliceAgent hN), (.rdU, sliceAgent hN), (.upg, sliceAgent hN),
    (.rdS, .mem 5), (.rdU, .mem 5), (.rdNc, .mem 5), (.atomM, .mem 5), (.cmoP, sliceAgent hN)], lands0 q.1 q.2 = true := by
  decide +kernel
/-- and find the filter, the home and the controller as they are asked for. -/
theorem places_met :
    (demo.fent 0 0x1000 = none ∧ demo.ftxn 0 0x1000 = none ∧ demo.l3Buf 0 0x1000 = none ∧ (demo.filterLines 0 (filterSet 0x1000)).length < 15) ∧
    (hN < 576 ∧ demo.homeOf (hN / 36) 0x1000 = sliceAgent hN ∧ hasHome 0x1000 = true ∧ demo.backed (0x1000 * 64) = true ∧ bit (demo.homeMap (hN / 36) (bucketOf 0x1000)) 22 = false ∧
      demo.held 2 (bucketOf 0x1000) = false ∧ demo.txns = [] ∧ demo.inOrder (fq .rdS (sliceAgent hN)) = true ∧ demo.atom 0x1000 = none ∧ demo.dirEnt 0x1000 = none ∧
      (demo.dirLines hN 0x1000).length < 15 ∧ (fq .rdS (sliceAgent hN)).pf = false ∧ (fq .cmoP (sliceAgent hN)).req ≠ sliceAgent hN) ∧
    (demo.held 3 5 = false ∧ demo.mirrored = false ∧ demo.dramBacked (0x1000 * 64) = true ∧ demo.region (0x1000 * 64) = .dram (0x1000 * 64) ∧
      ∀ op ∈ [Op.rdS, .rdU, .rdNc, .atomM], demo.guardOk (0x1000 * 64) 0xFFF op.needs.1 op.needs.2 = true) := by
  repeat' (first | decide +kernel | apply And.intro)

end Sys2Proof.Tests.RequestsReachTheirHome

namespace Sys2Proof.Tests.WritesReachMemory

def hN := hn demo 0x1000
def fw : Flit := at_ { fl .wrNc (.core 0) (.mem 5) 0x1000 with mask := BitVec.allOnes 64, data := 0x1234567 }
def fm : Flit := at_ { fl .wbD (sliceAgent hN) (.mem 5) 0x1000 with data := 0x1234567 }
def fb : Flit := at_ { fl .wbD (.filter 0) (sliceAgent hN) 0x1000 with data := 0x1234567 }
def fc : Flit := at_ { fl .evictC (.filter 0) (sliceAgent hN) 0x1000 with data := 0 }
def de : DirEntry := { st := .shared, presence := 3, partner := false, owner := 0, used := 0 }
def dD : State := { demo with dir := [(0x1000, some de)] }
def fk : Flit := at_ { fl .ack (.mem 5) (sliceAgent hN) 0x1000 with was := .wbD }
def tx : Txn := { flit := fb, slice := hN, served := true, snoop := .snpS, tried := 0, due := 0, wbFrom := 0, got := none, held := [], waiting := [], compDue := false, writes := [(7, 0)], answers := [fb.answer (sliceAgent hN) .ack], stamp := 0 }
def dK : State := { demo with txns := [(0x1000, some tx)] }
def at0 : AtomLine := { world := 0xFFF, data := 0x55, poison := false, used := 0 }
def fa : Flit := at_ { fl .atomH (.filter 0) (sliceAgent hN) 0x1000 with mask := 0xFF, func := .add, opA := 3 }
def dA : State := { demo with atoms := [(0x1000, some at0)] }
def landsB (s : State) (op : Op) (f : Flit) : Bool :=
  let u := wN s f
  decide (u.arrival 0 op = some f) && !u.portHolds f && ((u.portOf f).bind (fun a => (u.taken 0).proxied a f)).isNone

/-- The hypotheses of WritesReachMemory can be met, each set of them. -/
theorem hypotheses_met :
    (landsB demo .wrNc fw = true ∧ landsB demo .wbD fm = true ∧ fw.dst = .mem 5 ∧ fm.dst = .mem 5 ∧ fw.mask = BitVec.allOnes 64 ∧ demo.held 3 5 = false ∧ demo.mirrored = false ∧
      demo.dramBacked (0x1000 * 64) = true ∧ demo.region (0x1000 * 64) = .dram (0x1000 * 64) ∧ demo.guardOk (0x1000 * 64) 0xFFF false true = true ∧
      demo.lineBusy 5 0x1000 = false ∧ demo.bankBusy 5 0x1000 = false ∧ (demo.chan 5).reads = []) ∧
    (landsB dD .wbD fb = true ∧ landsB dD .evictC fc = true ∧ hN < 576 ∧ dD.txns = [] ∧ (∀ f ∈ [fb, fc], f.dst = sliceAgent hN ∧ f.src = .filter 0 ∧ dD.inOrder f = true ∧
      f.superseded = false ∧ f.keep = false)) ∧
    (landsB dK .ack fk = true ∧ fk.dst = sliceAgent hN ∧ fk.acc ≠ .dma ∧ fk.comp = false ∧ fk.ofMemory = true ∧ dK.txns = [(fk.line, some tx)] ∧ tx.flit.op = .wbD ∧
      tx.writes = [(fk.tid, 0)] ∧ tx.answers.length = 1) ∧
    (landsB dA .atomH fa = true ∧ fa.dst = sliceAgent hN ∧ dA.homeOf (hN / 36) 0x1000 = sliceAgent hN ∧ hasHome 0x1000 = true ∧ dA.backed (0x1000 * 64) = true ∧
      bit (dA.homeMap (hN / 36) (bucketOf 0x1000)) 22 = false ∧ dA.held 2 (bucketOf 0x1000) = false ∧ dA.txns = [] ∧ dA.inOrder fa = true ∧ dA.atom 0x1000 = some at0 ∧
      dA.mirrored = false ∧ dA.copyWorld 0x1000 = some fa.world ∧ fa.func ≠ .read ∧ fa.func ≠ .write ∧ fa.mask ≠ 0 ∧
      amoNew fa.func fa.size (lineVal at0.data 0 8) fa.opA fa.opB = some 0x58) := by
  repeat' (first | decide +kernel | apply And.intro)

end Sys2Proof.Tests.WritesReachMemory

namespace Sys2Proof.Tests.SnoopsAreAnswered

def fs (op : Op) (clean : Bool) : Flit := at_ { fl op (.home 0 3) (.filter 1) 0x1000 with req := .filter 2, clean := clean }
def fe : FilterEntry := { l2vec := 0, l3 := true, l3Dirty := true, dstate := .e, pending := false, used := 0 }
def l3 : L3Line := { way := 0, dirty := true, world := 0xFFF, data := 0x77, poison := false, used := 0 }
def dS1 : State := { demo with dies := [(1, { Die.reset with filter := [(0x1000, some fe)], l3 := [(0x1000, some l3)] })] }
def here (s : State) (op : Op) (clean : Bool) : Bool :=
  let f := fs op clean
  let u := wN s f
  decide (u.arrival 0 op = some f) && !u.portHolds f && ((u.portOf f).bind (fun a => (u.taken 0).proxied a f)).isNone && decide (u.ftxn 1 f.line = none)

/-- The hypotheses of SnoopsAreAnswered can be met: of each snoop, with a copy in the L3 alone and with none. -/
theorem hypotheses_met :
    (∀ q ∈ [(Op.snpS, false), (.snpS, true), (.snpNear, false), (.snpU, false), (.snpI, false)], here dS1 q.1 q.2 = true ∧ here demo q.1 q.2 = true) ∧
    (dS1.fent 1 0x1000 = some fe ∧ fe.l2vec = 0 ∧ fe.pending = false ∧ dS1.l3Line 1 0x1000 = some l3 ∧ dS1.l3Buf 1 0x1000 = none) ∧ demo.fent 1 0x1000 = none := by
  repeat' (first | decide +kernel | apply And.intro)

end Sys2Proof.Tests.SnoopsAreAnswered

namespace Sys2Proof.Tests.AnswersAtTheRequester

def lw : L2Line := { lineX with st := .isD, world := 0, data := 0, granted := false }
def dW : State := { demo with cores := [(0, { Core.reset with l2 := [(0x40, some lineC), (0x80, some lw)], galWb := [⟨gal0, 7, 0⟩, ⟨gal0, 8, 0⟩] })] }
def fg : Flit := at_ { fl .ack .gwHub (.core 0) 0x80 with acc := .galWb }
def fd (op : Op) : Flit := at_ { fl op (.filter 0) (.core 0) 0x80 with data := 0x99 }
def fr : Flit := at_ { fl .retry (.filter 0) (.core 0) 0x80 with was := .rdS, hint := 3 }
def bo : Backoff := { flit := { fl .rdS (.core 0) (.filter 0) 0x80 with rcnt := 2 }, untilStamp := 0, moved := false }
def dBk : State := { demo with backoffs := [bo] }
def dSl : State := { demo with slices := [(5, { starved := [], offers := [(9, 0)], lastServed := 0 })] }
def landsB (s : State) (op : Op) (f : Flit) : Bool :=
  let u := wN s f
  decide (u.arrival 0 op = some f) && !u.portHolds f && ((u.portOf f).bind (fun a => (u.taken 0).proxied a f)).isNone

/-- The hypotheses of AnswersAtTheRequester can be met, each set of them. -/
theorem hypotheses_met :
    (∀ op ∈ [Op.dataS, .dataE, .dataM], landsB dW op (fd op) = true ∧ (fd op).dst = .core 0 ∧ (fd op).err = none ∧ (fd op).acc = .coherent ∧ (fd op).ackCnt = 0 ∧ (fd op).dirty = false) ∧
    ((dW.core 0).l2Line 0x80 = some lw ∧ lw.st = .isD ∧ lw.need = none ∧ lw.fromM = true ∧ (dW.thr 0).memOp = none ∧ (dW.thr 1).memOp = none) ∧
    (landsB dW .ack fg = true ∧ fg.dst = .core 0 ∧ fg.err = none ∧ fg.acc = .galWb ∧ (∃ w ∈ (dW.core 0).galWb, w.tid = fg.tid)) ∧
    (landsB demo .retry fr = true ∧ fr.dst = .core 0) ∧
    (dBk.backoffs[0]? = some bo ∧ bo.flit.regu = none ∧ bo.untilStamp.toNat ≤ (dBk.stamp bo.flit.src.dieNum).toNat) ∧
    ((dSl.slice 5).offers = [(9, 0)] ∧ (0 : Word).toNat ≤ (dSl.stamp (5 / 36)).toNat ∧ (dSl.slice 5).starved = []) := by
  repeat' (first | decide +kernel | apply And.intro)

end Sys2Proof.Tests.AnswersAtTheRequester

namespace Sys2Proof.Tests.FabricMoves

def tq : TlbiReq := { form := .va, regime := .secure, level := .s, va := 0x2000, asid := 0, vmid := 0, pinned := false, enclave := 0 }
def ft : Flit := at_ { fl .tlbiB (.core 0) (.core 0) 0 with tlbi := some tq }
def cm : ContainMsg := ⟨5, 0⟩
def fc : Flit := at_ { fl .contain (.die 0) (.die 0) 0 with containRec := some cm, containThr := some 0 }
def fh : Flit := at_ { fl .heart (.die 0) (.die 0) 0 with opA := 0x33 }
def fm : Flit := at_ { fl .merSync .meridian (.die 0) 0 with opA := 0x33 }
def dLate : State := { demo with mc := { demo.mc with stage := 6 } }
def fx : Flit := let f := fl .rdNc (.die 0) (.mem 5) 0x1000; { f with hop := demo.node f.src }
def dX : State := { wN demo fx with dies := [(0, { Die.reset with ephCtl := 0 })] }
def nx : BitVec 12 := dX.nextNode fx.hop (dX.goal fx)
def fy (fails : Nat) : Flit := { fx with hop := nx, inPort := some fx.hop, fails := fails }
def dY (f : Flit) : State := { wN demo f with outPorts := [(linkNum fx.hop nx, { OutPort.reset with sent := [f] })] }
def fg : Flit := { fl .rdNc (.core 0) (.mem 5) 0x1000 with gate := some (regAddr 0x80 0) }
def dG : State := { wN demo fg with ctl := [(regAddr 0x80 0, some 0x8000000500000001)] }
def dP (v : Nat) : State := { demo with ctl := [(tilePort 0, some (BitVec.ofNat 64 v))] }
def landsB (s : State) (op : Op) (f : Flit) : Bool :=
  let u := wN s f
  decide (u.arrival 0 op = some f) && !u.portHolds f && ((u.portOf f).bind (fun a => (u.taken 0).proxied a f)).isNone

/-- The hypotheses of FabricMoves can be met, each set of them. -/
theorem hypotheses_met :
    (landsB demoT .tlbiB ft = true ∧ ft.tlbi = some tq ∧ ft.dst = .core 0 ∧ (demoT.tile (demoT.tileOf 0)).st = .t0 ∧ (demoT.thr 0).memOp = none ∧ (demoT.thr 1).memOp = none) ∧
    (landsB demo .contain fc = true ∧ fc.containRec = some cm ∧ fc.dst = .die 0 ∧ fc.containThr = some 0 ∧ cm.scope = 0 ∧ demo.thrPresent 0 = true ∧
      demo.portSt (tilePort (demo.tileOf 0)) = 0 ∧ (demo.thr 0).contains.length < 4) ∧
    (landsB demo .heart fh = true ∧ landsB dLate .merSync fm = true ∧ 5 < dLate.mc.stage.toNat) ∧
    (dX.net[0]? = some fx ∧ dX.heldBack fx = false ∧ dX.dropped fx = false ∧ fx.hop ≠ dX.goal fx ∧ dX.granted fx.hop nx = some 0 ∧ (dX.outPort fx.hop nx).last ≤ dX.cycle ∧
      (dX.die (fieldOf nx 10 6)).ephCtl = 0) ∧
    (∀ n ∈ [0, 2], (dY (fy n)).net[0]? = some (fy n) ∧ (fy n).inPort = some fx.hop ∧ (fy n).inside = false ∧ (dY (fy n)).badBytes (fy n) 1 ≠ [] ∧
      (dY (fy n)).badBytes (fy n) (1 <<< 240) = [30] ∧ fy n ∈ ((dY (fy n)).outPort fx.hop (fy n).hop).sent) ∧
    (dG.net[0]? = some fg ∧ fg.gate = some (regAddr 0x80 0) ∧ bit (dG.ctlGet (regAddr 0x80 0)) 63 = true ∧ fieldOf (dG.ctlGet (regAddr 0x80 0)) 43 32 ≠ 0 ∧
      fieldOf (dG.ctlGet (regAddr 0x80 0)) 11 0 ≠ 0) ∧
    ((dP 1).portSt (portAddr (.tile 0)) = 1 ∧ portBlock (portAddr (.tile 0)) = none ∧ (dP 1).net = []) ∧
    ((dP 3).portSt (portAddr (.tile 0)) = 3 ∧ (dP 3).domainReady (portAddr (.tile 0)) = true) := by
  repeat' (first | decide +kernel | apply And.intro)

end Sys2Proof.Tests.FabricMoves

namespace Sys2Proof.Tests.TimeAndLimits

def mo : MemOp := { req := ⟨.loadG true, 0x3000, 8, 3, 0, 0, false, false⟩, tid := 7, want := some 0x3000, got := [], once := true, fresh := false, stamp := 0, xl := [], errs := [] }
def dL : State := { withThr demo 0 { thr0 with memOp := some mo } with now := 2^50 }
def fq : Flit := fl .rdS (.core 0) (.home 0 0) 0x1000
def tx : Txn := { flit := fq, slice := 0, served := true, snoop := .snpS, tried := 1, due := 1, wbFrom := 0, got := none, held := [], waiting := [], compDue := false, writes := [], answers := [], stamp := 0 }
def dX : State := { demo with txns := [(0x1000, some tx)], now := 2^50 }
def ff : FilterEntry := { l2vec := 1, l3 := false, l3Dirty := false, dstate := .e, pending := false, used := 0 }
def dFt : State := { demo with dies := [(0, { Die.reset with filter := [(0x1000, some ff)], ftxn := [(0x1000, some tx)] })], now := 2^50 }
def dPps (last : Option Word) (now : Word) : State := { demo with mc := { Mc.reset with cfg := { Mc.reset.cfg with pps := true } }, ppsLast := last, now := now }
def dH : State := { demo with mc := { Mc.reset with hubPg := true } }

/-- The hypotheses of TimeAndLimits can be met, each set of them. -/
theorem hypotheses_met :
    (∃ (s : State),
      let now := s.stamp 16
      s.mc.hubPg = true ∧ s.syncAt.toNat ≤ s.now.toNat) ∧
    (∃ (s : State),
      s.mc.cfg.pps = false) ∧
    (∃ (s : State),
      s.mc.cfg.pps = true ∧ s.ppsLast = none) ∧
    (∃ (s : State) (last : Word),
      let now := s.stamp 16
      let off : Int := (now.toNat : Int) - (last.toNat : Int) - 4000000000
      s.mc.cfg.pps = true ∧ s.ppsLast = some last ∧ off.natAbs ≤ 4000000) ∧
    (∃ (s : State) (last : Word),
      let now := s.stamp 16
      let off : Int := (now.toNat : Int) - (last.toNat : Int) - 4000000000
      s.mc.cfg.pps = true ∧ s.ppsLast = some last ∧ 4000000 < off.natAbs) ∧
    (∃ (s : State) (last : Word),
      let now := s.stamp 16
      s.ppsLast = some last ∧ last.toNat + 3 * 4000000000 ≤ s.now.toNat) ∧
    (∃ (s : State) (line : Nat) (x : Txn),
      s.txn line = some x ∧ x.due ≠ 0 ∧ bit x.due 16 = false ∧ x.stamp.toNat + s.pkgLimit (x.slice / 36) ≤ (s.stamp (x.slice / 36)).toNat) ∧
    (dFt.ftxn 0 0x1000 = some tx ∧ dFt.fent 0 0x1000 = some ff ∧ tx.served = true ∧ tx.due ≠ 0 ∧ tx.held = [] ∧
      tx.stamp.toNat + dFt.pkgLimit 0 ≤ (dFt.stamp 0).toNat) ∧
    ((dL.thr 0).memOp = some mo ∧ (dL.core 0).l2Line 0xC0 = none ∧ dL.late 0 0x3000 mo.stamp = true ∧ mo.want = some 0x3000 ∧ mo.tid ≠ 0 ∧ mo.once = true ∧ (dL.thr 0).run = .running ∧ (dL.thr 0).nextInt false = none) := by
  refine ⟨⟨dH, ?_⟩,
    ⟨{ demo with mc := { Mc.reset with cfg := { Mc.reset.cfg with pps := false } } }, ?_⟩,
    ⟨dPps none 0, ?_⟩,
    ⟨dPps (some 0) 4000000100, 0, ?_⟩,
    ⟨dPps (some 0) 3000000100, 0, ?_⟩,
    ⟨{ demo with ppsLast := some 0, now := 12000000100 }, 0, ?_⟩,
    ⟨dX, 0x1000, tx, ?_⟩,
    ?_,
    ?_⟩ <;> (try dsimp only) <;> repeat' (first | decide +kernel | exact Exists.intro _ (And.intro rfl rfl) | exact Exists.intro _ rfl | apply And.intro)

end Sys2Proof.Tests.TimeAndLimits

namespace Sys2Proof.Tests.ControllersReadAndRepair

def fq : Flit := fl .rdNc (.core 0) (.mem 5) 0x1005
def rp (p : Nat) : Repair := { line := 0x1005, device := 0, phase := p, data := 0, repaired := false }
def dC (c : Channel) : State := { demo with chans := [(5, c)] }
def c0 : Channel := { Channel.reset with reads := [{ flit := fq, again := 0 }] }
def dF : State := { demo with mc := { Mc.reset with stage := 7 } }

set_option maxRecDepth 20000 in
/-- The hypotheses of ControllersReadAndRepair can be met, each set of them. -/
theorem hypotheses_met :
    (∃ (s : State) (ch : Fin 24) (f : Flit),
      let c := s.chan ch.val
      let a := s.rankReg ch.val f.line
      c.reads = [{ flit := f, again := 0 }] ∧ c.repair = none ∧ c.selfRefresh = false ∧ fieldOf (s.ctlGet a) 63 62 = 0 ∧ s.memPoison f.line = false ∧ f.op = .rdNc ∧ f.req ≠ .mem ch.val) ∧
    (∃ (s : State) (ch : Fin 24) (r : Repair),
      let c := s.chan ch.val
      c.repair = some r ∧ r.phase = 0 ∧ s.memPoison r.line = false) ∧
    (∃ (s : State) (ch : Fin 24) (r : Repair),
      let c := s.chan ch.val
      c.repair = some r ∧ r.phase = 1) ∧
    (∃ (s : State) (ch : Fin 24) (r : Repair),
      let c := s.chan ch.val
      c.repair = some r ∧ r.phase = 3 ∧ (∀ i, i < 16 → s.memPoison ((s.probeLines ch.val r.line).getD i 0) = false)) ∧
    (∃ (s : State) (ch : Fin 24),
      let c := s.chan ch.val
      let next := s.chanLine ch.val c.scrubAt
      s.trained.contains ch.val = true ∧ c.filled = true ∧ c.selfRefresh = false ∧ s.held 3 ch.val = false ∧ bit (s.rasCtl ch.val) 63 = true ∧ s.lineBusy ch.val next = false) ∧
    (∃ (s : State) (ch : Fin 24),
      let c := s.chan ch.val
      c.trained = true ∧ c.filled = false ∧ c.fillErr = false ∧ s.mc.stage = 7) := by
  refine ⟨⟨(dC c0), 5, fq, ?_⟩,
    ⟨(dC { Channel.reset with repair := some (rp 0) }), 5, (rp 0), ?_⟩,
    ⟨(dC { Channel.reset with repair := some (rp 1) }), 5, (rp 1), ?_⟩,
    ⟨(dC { Channel.reset with repair := some (rp 3) }), 5, (rp 3), ?_⟩,
    ⟨(dC { Channel.reset with filled := true }), 5, ?_⟩,
    ⟨dF, 5, ?_⟩⟩ <;> (try dsimp only) <;> repeat' (first | decide +kernel | exact Exists.intro _ (And.intro rfl rfl) | exact Exists.intro _ rfl | exact (by decide +kernel : ∀ k : Fin 8, fieldOf ((dC c0).ctlGet (caddr 16 5 (0x118 + k.val))) 63 62 = 0) (Fin.mk _ (Nat.mod_lt _ (by decide))) | apply And.intro)

end Sys2Proof.Tests.ControllersReadAndRepair

namespace Sys2Proof.Tests.GuardsAndPins

def dG (s v : Nat) : State := { demo with ctl := [(guardReg 3 0, some 0x8000000000000000), (guardReg 3 1, some 0x8500), (guardReg 3 0x100, some 0x8000000100000001), (guardReg 3 0x101, some 7), (guardReg 3 0x200, some (BitVec.ofNat 64 (v * 2^32))), (guardReg 3 0x201, some (BitVec.ofNat 64 s))] }

def dOff : State := { demo with power := { Power.reset with hubOff := [3] } }
/-- The hypotheses of GuardsAndPins can be met, each set of them. -/
theorem hypotheses_met :
    (∃ (s : State) (g : Fin 24) (v : BitVec 32) (val : Word) (n : Nat) (i : Nat),
      let staged := fieldOf (s.ctlGet (guardReg g.val 0x201)) 31 0
      let version := fieldOf (s.ctlGet (guardReg g.val 0x200)) 63 32
      s.regOff (guardReg g.val 0x202) = false ∧ staged = v.toNat ∧ version < v.toNat ∧ n < 128 ∧ i < 2) ∧
    (∃ (s : State) (g : Fin 24) (v : BitVec 32) (val : Word),
      let staged := fieldOf (s.ctlGet (guardReg g.val 0x201)) 31 0
      let version := fieldOf (s.ctlGet (guardReg g.val 0x200)) 63 32
      (staged ≠ v.toNat ∨ v.toNat ≤ version)) ∧
    (∃ (s : State) (g : Fin 24) (slot : Fin 64) (val : Word),
      s.regOff (guardReg g.val 0x1000) = false ∧ s.slotInUse g.val slot.val = false) ∧
    (∃ (s : State) (g : Fin 24) (slot : Fin 64) (val : Word),
      s.regOff (guardReg g.val 0x1000) = false ∧ s.slotInUse g.val slot.val = true) ∧
    (∃ (s : State) (g : Fin 24),
      s.regOff (guardReg g.val 0x1000) = true) ∧
    (∃ (p : Nat),
      p < 32) := by
  refine ⟨⟨(dG 5 4), 3, 5, 0, 0, 0, ?_⟩,
    ⟨(dG 5 4), 3, 6, 0, ?_⟩,
    ⟨(dG 5 5), 3, 4, 9, ?_⟩,
    ⟨(dG 5 5), 3, 5, 9, ?_⟩,
    ⟨dOff, 3, ?_⟩,
    ⟨0, ?_⟩⟩ <;> (try dsimp only) <;> repeat' (first | decide +kernel | exact Exists.intro _ (And.intro rfl rfl) | exact Exists.intro _ rfl | apply And.intro)

end Sys2Proof.Tests.GuardsAndPins

namespace Sys2Proof.Tests.LinksComeUp

def hi : HelloIn := { pkgId := 9, pairSide := false, part := 0, stepping := 0, mode := 0, encOffered := true, encRequired := false, ownerCert := true }
def ai : AuthIn := ⟨true, true, true⟩
def dL (l : LinkPort) : State := { demo with links := [(2, l)] }

/-- The hypotheses of LinksComeUp can be met, each set of them. -/
theorem hypotheses_met :
    (∃ (s : State) (port : Fin 8),
      let p := port.val
      let l := s.link p
      l.st = .down ∧ l.present = true ∧ s.minimalRun = false) ∧
    (∃ (s : State) (port : Fin 8),
      let p := port.val
      let l := s.link p
      l.st = .down ∧ bit (s.sylCtl p) 63 = true ∧ s.minimalRun = false) ∧
    (∃ (s : State) (port : Fin 8) (lanes : BitVec 4),
      let p := port.val
      let l := s.link p
      l.st = .training ∧ 4 ≤ lanes.toNat ∧ lanes.toNat ≤ popBits (BitVec.ofNat 8 (fieldOf (s.sylCtl p) 55 48))) ∧
    (∃ (s : State) (port : Fin 8),
      let p := port.val
      let l := s.link p
      l.st = .auth) ∧
    (∃ (s : State) (port : Fin 8) (h : HelloIn) (a : AuthIn),
      let p := port.val
      let l := s.link p
      l.st = .auth ∧ l.hello = some h ∧ s.authLate p = false ∧ s.refusal p h a = 0) ∧
    (∃ (s : State) (port : Fin 8) (h : HelloIn) (a : AuthIn),
      let p := port.val
      let l := s.link p
      l.st = .auth ∧ l.hello = some h ∧ s.authLate p = false ∧ s.refusal p h a ≠ 0) ∧
    (∃ (s : State) (port : Fin 8),
      let p := port.val
      let l := s.link p
      l.st = .auth ∧ s.authLate p = true) := by
  refine ⟨⟨(dL { LinkPort.reset with st := .down, present := true }), 2, ?_⟩,
    ⟨{ dL LinkPort.reset with ctl := [(caddr 16 0xC2 0, some 0x80FF000000000000)] }, 2, ?_⟩,
    ⟨{ dL { LinkPort.reset with st := .training } with ctl := [(caddr 16 0xC2 0, some 0x80FF000000000000)] }, 2, 8, ?_⟩,
    ⟨(dL { LinkPort.reset with st := .auth }), 2, ?_⟩,
    ⟨(dL { LinkPort.reset with st := .auth, hello := some hi }), 2, hi, ai, ?_⟩,
    ⟨(dL { LinkPort.reset with st := .auth, hello := some hi }), 2, hi, { ai with chainOk := false }, ?_⟩,
    ⟨{ dL { LinkPort.reset with st := .auth } with now := 2^40 }, 2, ?_⟩⟩ <;> (try dsimp only) <;> repeat' (first | decide +kernel | exact Exists.intro _ (And.intro rfl rfl) | exact Exists.intro _ rfl | apply And.intro)

end Sys2Proof.Tests.LinksComeUp

namespace Sys2Proof.Tests.LinksCarry

def fr : FrameIn := { dstPkg := 77, srcPkg := 9, hopsLeft := 0, kind := .read, addr := 0, world := 0, tid := 0, func := 0, dword := false, opA := 0, opB := 0, mask := 0, data := 0, poison := false, flags := 0, stamp := 0, node := 0, crcOk := true, tagOk := true, seq := 0 }
def dL (l : LinkPort) : State := { demo with links := [(2, l)], mc := { Mc.reset with resetting := false } }
def me : MirrorEntry := ⟨0x100, 0, 5, 1, 0⟩
def cl : TimeClaim := ⟨false, 3, 0⟩
def after (s : State) : State := s.updLink 2 (fun l => { l with exchanges := l.exchanges + 1, claim := some cl })
def up : LinkPort := { LinkPort.reset with st := .up }
def dTm : State := { dL { up with partner := 3 } with pkgId := 9 }

/-- The hypotheses of LinksCarry can be met, each set of them. -/
theorem hypotheses_met :
    (∃ (s : State) (port : Fin 8) (st : Word),
      let p := port.val
      let l := s.link p
      let now := (s.stamp 16).toNat
      l.st = .up ∧ l.lastHeart.toNat + 14000 ≤ now ∧ s.paired = false ∧ l.waits = []) ∧
    (∃ (s : State) (port : Fin 8) (seq : BitVec 16) (st : Word),
      let p := port.val
      let l := s.link p
      l.st = .up ∧ l.out.any (fun f => f.seq == seq) = true ∧ l.nakSeq ≠ seq) ∧
    (∃ (s : State) (port : Fin 8) (st : Word),
      let p := port.val
      let l := s.link p
      let now := (s.stamp 16).toNat
      l.st = .up ∧ l.heartAt.toNat + 4000 ≤ now) ∧
    (∃ (s : State) (port : Fin 8) (st : Word),
      let p := port.val
      let l := s.link p
      l.st = .up ∧ l.enc = true ∧ 2 ^ 32 ≤ l.frames) ∧
    (∃ (s : State) (port : Fin 8) (fr : FrameIn) (st : Word),
      let p := port.val
      let l := s.link p
      l.st = .up ∧ fr.kind = .heartbeat ∧ fr.crcOk = true ∧ fr.tagOk = true) ∧
    (∃ (s : State) (port : Fin 8) (fr : FrameIn) (st : Word),
      let p := port.val
      let l := s.link p
      l.st = .up ∧ fr.kind ≠ .heartbeat ∧ s.outsideWaits = false ∧ fr.crcOk = false) ∧
    (∃ (s : State) (port : Fin 8) (seq : BitVec 16) (fr : FrameIn) (st : Word),
      let p := port.val
      let l := s.link p
      l.st = .up ∧ fr.kind ≠ .heartbeat ∧ s.outsideWaits = false ∧ fr.crcOk = true ∧ fr.tagOk = true ∧ fr.seq = l.rxSeq ∧ fr.dstPkg ≠ s.pkgId ∧ fr.hopsLeft = 0) ∧
    (∃ (s : State) (port : Fin 8) (st : Word),
      let p := port.val
      let l := s.link p
      let now := (s.stamp 16).toNat
      l.st = .up ∧ (after s).timeRoot ≠ s.pkgId.toNat ∧ (after s).timePort = some p ∧ port = 2 ∧ s.rootSeen = false ∧ s.now.toNat + 4000 < st.toNat) ∧
    (let s := { dTm with rootSeen := true }
     (s.link 2).st = .up ∧ (after s).timeRoot ≠ s.pkgId.toNat ∧ (after s).timePort = some 2 ∧ s.rootSeen = true) ∧
    (let s := { dTm with pkgId := 3 }
     (s.link 2).st = .up ∧ (after s).timeRoot = s.pkgId.toNat) ∧
    (∃ (s : State) (c : CoreId) (n : Nat) (e : MirrorEntry),
      (s.core c.val).mirror[n]? = some e) ∧
    (∃ (s : State),
      s.pair.scanning = true) := by
  refine ⟨⟨{ dL up with now := 14000 }, 2, 0, ?_⟩,
    ⟨(dL { up with out := [{ fr with seq := 5 }] }), 2, 5, 0, ?_⟩,
    ⟨{ dL up with now := 4000 }, 2, 0, ?_⟩,
    ⟨(dL { up with enc := true, frames := 2^32 }), 2, 0, ?_⟩,
    ⟨(dL up), 2, { fr with kind := .heartbeat }, 0, ?_⟩,
    ⟨(dL up), 2, { fr with crcOk := false }, 0, ?_⟩,
    ⟨(dL up), 2, 0, fr, 0, ?_⟩,
    ⟨dTm, 2, 5000, ?_⟩,
    ?_,
    ?_,
    ⟨{ dL up with cores := [(0, { Core.reset with mirror := [me] })] }, 0, 0, me, ?_⟩,
    ⟨{ dL up with pair := { scanning := true } }, ?_⟩⟩ <;> (try dsimp only) <;> repeat' (first | decide +kernel | exact Exists.intro _ (And.intro rfl rfl) | exact Exists.intro _ rfl | apply And.intro)

end Sys2Proof.Tests.LinksCarry

namespace Sys2Proof.Tests.PowerAndClocks

def sr : SlewReq := { node := 0, kind := .clock 0 9, delta := 100, stamp := 0, ready := none }
def dS : State := { demo with power := { Power.reset with waiting := [sr] }, ctl := [(caddr 16 0xD8 0x10, some 0x320a19461c2e1200)] }
def dT : State := { demo with threads := [(0, { thr0 with run := .waiting })], power := { Power.reset with granted := [{ sr with kind := .enter 0 }] }, ctl := [(tilePort 0, some 0)] }
def dWk : State := { demo with tiles := [(0, { Tile.reset with st := .t2, waking := true, sevt := true })], power := { Power.reset with granted := [{ sr with kind := .wake 0 }] } }
def dV (l : List Nat) : State := { demo with power := { Power.reset with hubStretch := l } }

/-- The hypotheses of PowerAndClocks can be met, each set of them. -/
theorem hypotheses_met :
    (∃ (s : State) (r : SlewReq),
      let w := s.ctlGet (caddr 16 0xD8 0x10)
      s.power.slotAt = 0 ∧ bit w 63 = false ∧ s.power.waiting = [r] ∧ s.power.recent = [] ∧ r.ready = none ∧ r.delta.natAbs ≤ fieldOf w 45 39 * 1000 ∧ r.delta.natAbs ≤ fieldOf w 62 53 * 100) ∧
    (∃ (s : State) (tile : Fin 576) (c : Nat),
      let n := tile.val
      let q := s.tile n
      s.tileCore n = some c ∧ q.st = .t0 ∧ q.waking = false ∧ (∀ t ∈ s.tileThreads n, (s.thr t).rests = true) ∧ s.tileWoken n = false ∧ s.tileGoal n = 1 ∧ s.slewGranted (.enter n) = true) ∧
    (∃ (s : State) (tile : Fin 576) (c : Nat),
      let n := tile.val
      let q := s.tile n
      s.tileCore n = some c ∧ q.waking = true ∧ q.st ≠ .t0 ∧ s.power.pkg = .p0 ∧ s.halted = false ∧ s.slewGranted (.wake n) = true ∧ q.pend = [] ∧ q.tlbis = [] ∧ q.sevt = true ∧ s.quiesced (2 * c) = false) ∧
    (∃ (s : State) (die : Fin 17) (i : Fin 47),
      islandOk die.val i.val = true ∧ s.stretched die.val i.val = false) ∧
    (∃ (s : State) (die : Fin 17) (i : Fin 47),
      islandOk die.val i.val = true ∧ s.stretched die.val i.val = true) := by
  refine ⟨⟨dS, sr, ?_⟩,
    ⟨dT, 0, 0, ?_⟩,
    ⟨dWk, 0, 0, ?_⟩,
    ⟨demo, 16, 3, ?_⟩,
    ⟨(dV [3]), 16, 3, ?_⟩⟩ <;> (try dsimp only) <;> repeat' (first | decide +kernel | exact Exists.intro _ (And.intro rfl rfl) | exact Exists.intro _ rfl | apply And.intro)

end Sys2Proof.Tests.PowerAndClocks

namespace Sys2Proof.Tests.PackageStatesAndWatchdog

def dP1 : State := { demo with tiles := [], ctl := [(caddr 16 0xD8 0x10, some 0x200)] }
def dQ (p : PkgState) : State := { demo with power := { Power.reset with pkg := p, p5Leave := true }, mc := { Mc.reset with hubPg := true, vinPg := true } }
def d5 : State := { demo with tiles := [], power := { Power.reset with p5Asked := true }, mc := { Mc.reset with resetting := false } }
def dW (w : Watchdog) : State := { demo with wd := w, mc := { Mc.reset with resetting := false } }
def w0 : Watchdog := { Watchdog.reset with booting := false }

/-- The hypotheses of PackageStatesAndWatchdog can be met, each set of them. -/
theorem hypotheses_met :
    (∃ (s : State),
      bit (s.ctlGet (caddr 16 0xD8 0x10)) 9 = true ∧ s.power.pkg = .p0 ∧ s.tilesDeep = true ∧ s.moversBusy = false) ∧
    (∃ (s : State),
      s.power.pkg = .p1) ∧
    (∃ (s : State),
      s.power.p5Asked = true ∧ s.p5Ready = true) ∧
    (∃ (s : State),
      s.power.pkg = .p5 ∧ s.power.p5Leave = true ∧ s.mc.hubPg = true ∧ s.mc.vinPg = true ∧ s.paired = false) ∧
    (∃ (s : State),
      let w := s.wd
      w.start = false ∧ w.booting = false) ∧
    (∃ (s : State),
      let w := s.wd
      w.start = true) ∧
    (∃ (s : State),
      let w := s.wd
      w.start = true ∧ w.booting = false) ∧
    (∃ (s : State),
      let w := s.wd
      w.start = false) ∧
    (∃ (s : State) (dl : Word),
      let w := s.wd
      w.deadline = some dl ∧ w.paused = none ∧ w.booting = false ∧ dl.toNat ≤ (s.stamp 16).toNat ∧ s.mc.haltedBit = false ∧ s.mc.stbyPg = true ∧ s.mc.resetting = false) ∧
    (∃ (s : State) (dl : Word),
      let w := s.wd
      w.deadline = some dl ∧ (s.stamp 16).toNat < dl.toNat) := by
  refine ⟨⟨dP1, ?_⟩,
    ⟨(dQ .p1), ?_⟩,
    ⟨d5, ?_⟩,
    ⟨(dQ .p5), ?_⟩,
    ⟨(dW w0), ?_⟩,
    ⟨(dW { w0 with start := true }), ?_⟩,
    ⟨(dW { w0 with start := true }), ?_⟩,
    ⟨(dW w0), ?_⟩,
    ⟨(dW { w0 with deadline := some 0 }), 0, ?_⟩,
    ⟨(dW { w0 with deadline := some 100 }), 100, ?_⟩⟩ <;> (try dsimp only) <;> repeat' (first | decide +kernel | exact Exists.intro _ (And.intro rfl rfl) | exact Exists.intro _ rfl | apply And.intro)

end Sys2Proof.Tests.PackageStatesAndWatchdog

namespace Sys2Proof.Tests.ResetsAndBoot

def o1 : StageIn := { imageAOk := true, imageBOk := true, svnA := 0, svnB := 0, failDies := 0, failTiles := [], failChannels := 0, imageOk := true, loadAddr := 0x10000, vector := 0x10004, words := [] }
def dM (m : Mc) : State := { demo with mc := m }
def m0 : Mc := { Mc.reset with resetting := false, hubPg := true, vinPg := true, resetN := true }
def mA : Mc := { m0 with resetting := true }
def dPk : State := { demo with dies := [(0, { Die.reset with parked := true })] }
def dCr : State := { demo with cores := [] }

/-- The hypotheses of ResetsAndBoot can be met, each set of them. -/
theorem hypotheses_met :
    (∃ (s : State),
      s.mc.haltedBit = false ∧ s.resetRank < 5) ∧
    (∃ (s : State),
      s.mc.haltedBit = false ∧ s.power.thermtrip = false ∧ s.resetRank < 4 ∧ s.paired = false) ∧
    (∃ (s : State),
      s.mc.stbyPg = true) ∧
    (∃ (s : State),
      s.mc.stbyPg = false) ∧
    (∃ (s : State),
      s.mc.hubPg = true ∧ s.power.pkg = .p0 ∧ s.mc.haltedBit = false ∧ s.mc.stbyPg = true ∧ s.mc.resetting = false) ∧
    (∃ (s : State),
      s.mc.stbyPg = true ∧ s.mc.haltedBit = false ∧ s.resetRank < 5) ∧
    (∃ (s : State),
      s.attempting = true ∧ s.mc.powered = true ∧ s.mc.stage = 1) ∧
    (∃ (s : State) (o : StageIn),
      s.attempting = true ∧ s.mc.powered = true ∧ s.mc.stage = 8 ∧ o.imageOk = true) ∧
    (∃ (s : State),
      s.attempting = true ∧ s.mc.powered = true ∧ s.mc.minimal = false ∧ s.mc.stageStart.toNat + msTicks s.stageLimit ≤ (s.stamp 16).toNat) ∧
    (∃ (s : State) (m : Fin 16) (b : Nat),
      let t := 64 * m.val + b
      b < 64 ∧ s.thrPresent t = true ∧ bit (Tbl.get 0 s.mc.release m.val) b = false) ∧
    (∃ (s : State) (die : Fin 16),
      (s.die die.val).parked = true) ∧
    (∃ (s : State) (c : CoreId),
      s.corePresent c.val = true ∧ s.coreResets = [] ∧ s.threadsDone [2 * c.val, 2 * c.val + 1] = true ∧ (s.core c.val).bare = true) := by
  refine ⟨⟨(dM m0), ?_⟩,
    ⟨(dM m0), ?_⟩,
    ⟨(dM m0), ?_⟩,
    ⟨(dM { m0 with stbyPg := false }), ?_⟩,
    ⟨(dM m0), ?_⟩,
    ⟨(dM m0), ?_⟩,
    ⟨(dM mA), ?_⟩,
    ⟨(dM { mA with stage := 8 }), o1, ?_⟩,
    ⟨{ dM mA with now := 2^50 }, ?_⟩,
    ⟨(dM mA), 0, 0, ?_⟩,
    ⟨dPk, 0, ?_⟩,
    ⟨dCr, 0, ?_⟩⟩ <;> (try dsimp only) <;> repeat' (first | decide +kernel | exact Exists.intro _ (And.intro rfl rfl) | exact Exists.intro _ rfl | apply And.intro)

end Sys2Proof.Tests.ResetsAndBoot

namespace Sys2Proof.Tests.ErrorRecords

def ri : RecordIn := { node := 5, code := 0x0101, sev := 2, world := 0, addr := some 0x1000, thread := some 0, synd := 3 }
def rec0 : Record := { Record.free 3 with valid := true, code := 0x0101, world := 0xFFF }
def dR : State := { demo with dies := [(0, { Die.reset with store := [(4, some rec0)] })] }

/-- The hypotheses of ErrorRecords can be met, each set of them. -/
theorem hypotheses_met :
    (∃ (s : State) (die : Fin 17) (r : RecordIn) (n : Nat) (val : Word),
      let d := die.val
      (s.die d).inService = true ∧ 1 ≤ r.sev.toNat ∧ r.sev.toNat ≤ 3 ∧ r.code ≠ 0x0203 ∧ s.mergeSlot d r = none ∧ s.freeSlot d = some n) ∧
    (∃ (s : State) (die : Fin 17) (slot : Fin 512) (val : Word),
      let d := die.val
      bit val 63 = true ∧ (s.slot d slot.val).valid = true ∧ fieldOf val 47 32 = (s.slot d slot.val).gen.toNat) ∧
    (∃ (s : State) (die : Fin 17) (slot : Fin 512) (val : Word),
      let d := die.val
      (s.slot d slot.val).world = 0xFFF) := by
  refine ⟨⟨demo, 0, ri, 0, 0, ?_⟩,
    ⟨dR, 0, 4, 0x8000000300000000, ?_⟩,
    ⟨dR, 0, 4, 0x8000000300000000, ?_⟩⟩ <;> (try dsimp only) <;> repeat' (first | decide +kernel | exact Exists.intro _ (And.intro rfl rfl) | exact Exists.intro _ rfl | apply And.intro)

end Sys2Proof.Tests.ErrorRecords

namespace Sys2Proof.Tests.InstanceCommands

def dI (x : Inst) (w : Tag) : State := { demo with insts := [(5, x)], ctl := [(caddr 16 0xC8 0x40, some (w.setWidth 64))] }
def i0 (st : InstState) : Inst := { Inst.reset with st := st, engine := 0, slot := 2, tail := 3, head := 1, h2gPend := 1, g2hPend := 2 }

/-- The hypotheses of InstanceCommands can be met, each set of them. -/
theorem hypotheses_met :
    (∃ (s : State) (e : Fin 4) (ch : Fin 16),
      s.regOff (caddr 16 (0xC8 + e.val) (0x40 + ch.val)) = false ∧ (∀ k, k < 4 → s.slotInst e.val (4 * ch.val + k) = none)) ∧
    (∃ (s : State) (inst : Fin 512) (e : Fin 4) (slot : Fin 64),
      let i := inst.val
      let x := s.inst i
      s.regOff (slotAddr e.val slot.val) = false ∧ s.slotInst e.val slot.val = none ∧ x.st = .unbound) ∧
    (∃ (s : State) (sec : Bool) (inst : Fin 512),
      let i := inst.val
      let x := s.inst i
      s.instOpen i sec = true ∧ x.st = .running) ∧
    (∃ (s : State) (sec : Bool) (inst : Fin 512),
      let i := inst.val
      let x := s.inst i
      s.instOpen i sec = true ∧ x.st ≠ .running) ∧
    (∃ (s : State) (sec : Bool) (inst : Fin 512),
      let i := inst.val
      let x := s.inst i
      s.instOpen i sec = true ∧ x.st = .frozen) ∧
    (∃ (s : State) (sec : Bool) (inst : Fin 512),
      let i := inst.val
      let x := s.inst i
      s.instOpen i sec = true ∧ x.st ≠ .frozen) ∧
    (∃ (s : State) (sec : Bool) (inst : Fin 512),
      let i := inst.val
      let x := s.inst i
      s.instOpen i sec = true ∧ (x.st = .running ∨ x.st = .frozen)) ∧
    (∃ (s : State) (sec : Bool) (inst : Fin 512),
      let i := inst.val
      let x := s.inst i
      s.instOpen i sec = true ∧ x.st ≠ .running ∧ x.st ≠ .frozen) ∧
    (∃ (s : State) (sec : Bool) (inst : Fin 512),
      let i := inst.val
      s.instOpen i sec = true) ∧
    ((dI (i0 .running) 0).instOpen 5 true = false) := by
  refine ⟨⟨demo, 0, 0, ?_⟩,
    ⟨demo, 5, 0, 2, ?_⟩,
    ⟨(dI (i0 .running) 0), false, 5, ?_⟩,
    ⟨(dI (i0 .frozen) 0), false, 5, ?_⟩,
    ⟨(dI (i0 .frozen) 0), false, 5, ?_⟩,
    ⟨(dI (i0 .running) 0), false, 5, ?_⟩,
    ⟨(dI (i0 .running) 0), false, 5, ?_⟩,
    ⟨(dI (i0 .freezing) 0), false, 5, ?_⟩,
    ⟨(dI (i0 .running) 0), false, 5, ?_⟩,
    ?_⟩ <;> (try dsimp only) <;> repeat' (first | decide +kernel | exact Exists.intro _ (And.intro rfl rfl) | exact Exists.intro _ rfl | apply And.intro)

end Sys2Proof.Tests.InstanceCommands

namespace Sys2Proof.Tests.InstanceProgress

def dI (x : Inst) : State := { demo with insts := [(5, x)], ctl := [(caddr 16 0xC8 0x40, some 0xFFF), (slotAddr 0 0, some (BitVec.ofNat 64 (2^63+5)))], iommu := { Iommu.reset with streams := [(0, [0, 0, 0, 0])] } }
def d4 : List Word := [4, 0x0100000000000000, 0, 0x2000, 0, 0, 0, 0]
def i0 (st : InstState) : Inst := { Inst.reset with st := st, engine := 0, slot := 0, tail := 3, head := 1, desc := d4, started := true }
def sA := dI { i0 .running with flight := 0x40 }
def sB := dI (i0 .running)
def tB : State := match sB.segment 5 with | .go t => t | _ => sB
def f0 (b : Bool) : Inst := { i0 .freezing with started := false, desc := [], resetting := b, h2gPend := 3 }
/-- The words of the record of a frozen instance that are not zero (the last one its CRC), and its lines. -/
def recWords : List (Nat × Nat) := [(0x40000, 5525359940), (0x40008, 4095), (0x40010, 4), (0x40040, 4295163905), (0x40068, 18446744073709551615), (0x403F8, 13985311876905435136)]
def recLines : List LineData := ([0x40000, 0x40040] ++ List.replicate 13 0 ++ [0x403C0]).map (fun a =>
  BitVec.ofNat 512 (recWords.foldl (fun (n : Nat) (p : Nat × Nat) => if a ≠ 0 ∧ p.1 / 64 = a / 64 then n + p.2 * 2 ^ (8 * (p.1 % 64)) else n) 0))
def cells (l : List (Nat × Nat)) : List Host.Cell := l.flatMap (fun p => (List.range 8).filterMap (fun i => if p.2 / 256 ^ i % 256 = 0 then none else some (p.1 + i, BitVec.ofNat 8 (p.2 / 256 ^ i))))
def sR : State := { dI { Inst.reset with st := .busy, doing := .restoring, savePa := 0x40000 } with mem := cells recWords }
def gR := sR.gather 5 (sR.inst 5).recordLines

/-- The hypotheses of InstanceProgress can be met, each set of them. -/
theorem hypotheses_met :
    (∃ (s : State) (inst : Fin 512) (e : Fin 4) (ch : Fin 16),
      let i := inst.val
      let x := s.inst i
      let settled := x.doing = .none ∧ x.waits = false ∧ x.ioErr = 0
      let key := 16 * e.val + ch.val
      Tbl.get 0 s.served key = 0 ∧ s.slotInst e.val (4 * ch.val) = some i ∧ x.st = .running ∧ settled ∧ x.flight ≠ 0 ∧ x.done + x.flight < descLen x.desc) ∧
    (∃ (s : State) (t : State) (inst : Fin 512) (e : Fin 4) (ch : Fin 16),
      let i := inst.val
      let x := s.inst i
      let settled := x.doing = .none ∧ x.waits = false ∧ x.ioErr = 0
      let key := 16 * e.val + ch.val
      Tbl.get 0 s.served key = 0 ∧ s.slotInst e.val (4 * ch.val) = some i ∧ x.st = .running ∧ settled ∧ x.flight = 0 ∧ x.started = true ∧ x.done < descLen x.desc ∧ s.segment i = .go t ∧ (t.inst i).waits = true) ∧
    (∃ (s : State) (inst : Fin 512),
      let i := inst.val
      let x := s.inst i
      let settled := x.doing = .none ∧ x.waits = false ∧ x.ioErr = 0
      x.st = .freezing ∧ settled ∧ x.started = false ∧ x.resetting = false) ∧
    (∃ (s : State) (inst : Fin 512),
      let i := inst.val
      let x := s.inst i
      let settled := x.doing = .none ∧ x.waits = false ∧ x.ioErr = 0
      x.st = .freezing ∧ settled ∧ x.started = false ∧ x.resetting = true) ∧
    (∃ (s : State) (inst : Fin 512),
      let i := inst.val
      let x := s.inst i
      x.st = .busy ∧ x.doing = .savingSent ∧ x.ioErr = 0 ∧ x.waits = false ∧ s.mirrored = false) := by
  refine ⟨⟨sA, 5, 0, 0, ?_⟩,
    ⟨sB, tB, 5, 0, 0, ?_⟩,
    ⟨(dI (f0 false)), 5, ?_⟩,
    ⟨(dI (f0 true)), 5, ?_⟩,
    ⟨(dI { i0 .busy with doing := .savingSent }), 5, ?_⟩⟩ <;> (try dsimp only) <;> repeat' (first | decide +kernel | exact Exists.intro _ (And.intro rfl rfl) | exact Exists.intro _ rfl | apply And.intro)

/-- A record in memory is gathered whole. -/
theorem record_met : (sR.inst 5).st = .busy ∧ (sR.inst 5).doing = .restoring ∧ (sR.inst 5).ioErr = 0 ∧ (sR.inst 5).waits = false ∧
    (sR.gather 5 (sR.inst 5).recordLines).2 = .ok ∧ (∀ l ∈ (sR.inst 5).recordLines, (gR.1.gathered 5 l).2 = false) ∧
    (sR.inst 5).recordLines.map (fun l => (gR.1.gathered 5 l).1) = recLines := by
  repeat' (first | decide +kernel | apply And.intro)
/-- and its bytes are those of an instance. -/
theorem instance_met : (gR.1.recordInst 5 (recLines.flatMap lineBytes)).isSome = true := by decide +kernel

end Sys2Proof.Tests.InstanceProgress

namespace Sys2Proof.Tests.RootPorts

def fP : Flit := { fl .rdNc (.core 0) (.port 2) 0x10000000000 with mask := 0xFF }
def rq : PortReq := { flit := fP, sub := 1, zeroRead := false, covers := [], stamp := 0 }
def dR (c : Word) (p : SubPort) : State := { demo with rootPorts := [(2, { RootPort.reset with reqs := [rq], subs := [(1, p)] })], ctl := [(caddr 16 0x82 0, some c)] }
def dB := dR 0x80000000000003E8 SubPort.reset
def dLate := { dB with now := 2^40 }
def dLate2 := { dR 0x90000000000003E8 SubPort.reset with now := 2^40 }
def dH : State := { demo with mc := { Mc.reset with hubPg := true }, now := 2^40 }

/-- The hypotheses of RootPorts can be met, each set of them. -/
theorem hypotheses_met :
    (∃ (s : State) (port : Fin 10) (n : Nat) (r : PortReq),
      let p := port.val
      let f := r.flit
      let here := (s.port p).reqs[n]? = some r ∧ f.req ≠ .port p ∧ (s.port p).owed = []
      let inTime := (s.stamp 16).toNat < r.stamp.toNat + s.endptLimit p
      here ∧ inTime ∧ s.isCxl f.line = false ∧ r.zeroRead = false ∧ r.covers = [] ∧ f.op = .rdNc) ∧
    (∃ (s : State) (port : Fin 10) (n : Nat) (r : PortReq),
      let p := port.val
      let f := r.flit
      let here := (s.port p).reqs[n]? = some r ∧ f.req ≠ .port p ∧ (s.port p).owed = []
      let inTime := (s.stamp 16).toNat < r.stamp.toNat + s.endptLimit p
      here ∧ inTime) ∧
    (∃ (s : State) (port : Fin 10) (n : Nat) (r : PortReq),
      let p := port.val
      let f := r.flit
      let here := (s.port p).reqs[n]? = some r ∧ f.req ≠ .port p ∧ (s.port p).owed = []
      let inTime := (s.stamp 16).toNat < r.stamp.toNat + s.endptLimit p
      here ∧ ¬ inTime ∧ bit (s.pcieCtl p) 60 = false) ∧
    (∃ (s : State) (port : Fin 10) (sub : Fin 4) (n : Nat) (r : PortReq),
      let p := port.val
      let k := sub.val
      let f := r.flit
      let here := (s.port p).reqs[n]? = some r ∧ f.req ≠ .port p ∧ (s.port p).owed = []
      let inTime := (s.stamp 16).toNat < r.stamp.toNat + s.endptLimit p
      here ∧ ¬ inTime ∧ bit (s.pcieCtl p) 60 = true ∧ r.sub = k) ∧
    (∃ (s : State) (port : Fin 10) (sub : Fin 4),
      let p := port.val
      let k := sub.val
      let x := s.sub p k
      s.isContained p k = true ∧ x.hotReset = true) ∧
    (∃ (s : State) (port : Fin 10) (sub : Fin 4),
      let p := port.val
      let k := sub.val
      let x := s.sub p k
      x.up = true) ∧
    (∃ (s : State) (port : Fin 10) (sub : Fin 4),
      let p := port.val
      let k := sub.val
      let x := s.sub p k
      x.up = false ∧ x.perst = false ∧ s.isContained p k = false ∧ k < subCount (s.trainBifur p) ∧ s.minimalRun = false) ∧
    (∃ (s : State) (port : Fin 10) (sub : Fin 4),
      let p := port.val
      let k := sub.val
      let x := s.sub p k
      s.mc.hubPg = true ∧ s.mc.hubRise.toNat + usTicks 100000 ≤ (s.stamp 16).toNat ∧ x.hotReset = false) := by
  refine ⟨⟨dB, 2, 0, rq, ?_⟩,
    ⟨dB, 2, 0, rq, ?_⟩,
    ⟨dLate, 2, 0, rq, ?_⟩,
    ⟨dLate2, 2, 1, 0, rq, ?_⟩,
    ⟨(dR 0x82000000000003E8 { SubPort.reset with hotReset := true }), 2, 1, ?_⟩,
    ⟨(dR 0x90000000000003E8 { SubPort.reset with up := true }), 2, 1, ?_⟩,
    ⟨(dR 0xA0000000000003E8 { SubPort.reset with perst := false }), 2, 1, ?_⟩,
    ⟨dH, 2, 1, ?_⟩⟩ <;> (try dsimp only) <;> repeat' (first | decide +kernel | exact Exists.intro _ (And.intro rfl rfl) | exact Exists.intro _ rfl | apply And.intro)

end Sys2Proof.Tests.RootPorts

namespace Sys2Proof.Tests.InboundRequests

def rW (k : InboundKind) : InboundReq := { stream := 3, kind := k, iova := 0x5008, size := 8, data := 0x1122334455667788, cmp := 0, relaxed := false, translated := false }
def base : State := { demoN with rootPorts := [(2, { RootPort.reset with subs := [(1, { SubPort.reset with up := true })] })], mc := { Mc.reset with resetting := false }, iommu := { Iommu.reset with streams := [(3, [0x8000000000000000, 0, 0, 0])], prqBase := 0x60008 } }
def fT : Flit := fl .tlbiB (.core 0) .iommu 0
def dO : State := { base with iommu := { base.iommu with atsWaits := [(3, 7, 0)], tlbiWaits := [(fT, 1)] } }
def ws0 : List Word := [0x8000000000000000, 0, 0, 0]
def ws1 : List Word := [0x8800000000000000, 0, 0, 0]
def dPr : State := { base with iommu := { base.iommu with streams := [(3, ws1)] } }

abbrev alone (s : State) (l : Nat) : Prop := s.ioWaits l = false ∧ s.dirEnt l = none ∧ s.atom l = none ∧ s.copyWorld l = none ∧ s.memPoison l = false ∧ s.rankFailed l = false

set_option maxRecDepth 20000 in
/-- The hypotheses of InboundRequests can be met, each set of them. -/
theorem hypotheses_met :
    (∃ (s : State) (port : Fin 10) (sub : Fin 4) (r : InboundReq) (stream : BitVec 16) (ws : List Word),
      let p := port.val
      let k := sub.val
      let live := s.isContained p k = false ∧ (s.sub p k).up = true ∧ s.outsideWaits = false ∧ s.writesAway (.port p) k = false
      let cached := s.iommu.streams.find? (fun q => q.1 == stream) = some (stream, ws)
      let pa := r.iova.toNat
      let line := pa / 64
      let tag := s.streamWorld stream.toNat
      let bare := bit (ws.getD 0 0) 62 = false ∧ bit (ws.getD 0 0) 61 = false ∧ pa < 2 ^ 57 ∧ msiPage pa = none
      let clear := (∃ o, s.region pa = .dram o) ∧ alone s line ∧ s.ioLocal line = true
      let free := bit (s.ctlGet (s.streamReg p stream)) 63 = false ∧ s.regBusy (s.streamReg p stream) = false
      live ∧ cached ∧ bare ∧ clear ∧ free ∧ r.stream = stream ∧ r.translated = false ∧ r.kind = .write ∧ s.memReady line tag false true ∧ tag ≠ 0xFFF) ∧
    (∃ (s : State) (port : Fin 10) (sub : Fin 4) (r : InboundReq) (stream : BitVec 16) (ws : List Word),
      let p := port.val
      let k := sub.val
      let live := s.isContained p k = false ∧ (s.sub p k).up = true ∧ s.outsideWaits = false ∧ s.writesAway (.port p) k = false
      let cached := s.iommu.streams.find? (fun q => q.1 == stream) = some (stream, ws)
      let pa := r.iova.toNat
      let line := pa / 64
      let tag := s.streamWorld stream.toNat
      let bare := bit (ws.getD 0 0) 62 = false ∧ bit (ws.getD 0 0) 61 = false ∧ pa < 2 ^ 57 ∧ msiPage pa = none
      let clear := (∃ o, s.region pa = .dram o) ∧ alone s line ∧ s.ioLocal line = true
      let free := bit (s.ctlGet (s.streamReg p stream)) 63 = false ∧ s.regBusy (s.streamReg p stream) = false
      live ∧ cached ∧ bare ∧ clear ∧ free ∧ r.stream = stream ∧ r.translated = false ∧ r.kind = .read ∧ s.memReady line tag true false ∧ tag ≠ 0xFFF) ∧
    (∃ (s : State) (port : Fin 10) (sub : Fin 4) (stream : BitVec 16) (sec : Bool) (data : BitVec 32),
      let p := port.val
      let k := sub.val
      let live := s.isContained p k = false ∧ (s.sub p k).up = true ∧ s.outsideWaits = false ∧ s.writesAway (.port p) k = false
      let n := data.toNat % 4096
      let world : Tag := if sec then 0xFFF else 0
      live ∧ s.streamWorld stream.toNat = world ∧ 128 ≤ n ∧ s.sourceSecure n = sec) ∧
    (∃ (s : State) (stream : BitVec 16) (f : Flit) (at_ : Word),
      let io := s.iommu
      let outstanding := io.atsWaits = [(stream, f.tid, at_)] ∧ io.tlbiWaits = [(f, 1)]
      outstanding) ∧
    (∃ (s : State) (stream : BitVec 16) (f : Flit) (at_ : Word),
      let io := s.iommu
      let outstanding := io.atsWaits = [(stream, f.tid, at_)] ∧ io.tlbiWaits = [(f, 1)]
      let limit := usTicks (fieldOf (s.pcieCtl (((s.busPort (stream.toNat / 256)).map Prod.fst).getD (stream.toNat / 8 % 32 % 10))) 47 32)
      outstanding ∧ at_.toNat + limit ≤ (s.stamp 16).toNat) ∧
    (∃ (s : State) (stream : BitVec 16) (ws : List Word),
      let cached := s.iommu.streams.find? (fun q => q.1 == stream) = some (stream, ws)
      cached ∧ bit (ws.getD 0 0) 59 = false) ∧
    (∃ (s : State) (stream : BitVec 16) (ws : List Word),
      let cached := s.iommu.streams.find? (fun q => q.1 == stream) = some (stream, ws)
      let io := s.iommu
      let ring := fieldOf io.prqBase 56 12 * 4096 + 16 * (io.prqTail % s.prqSize)
      cached ∧ bit (ws.getD 0 0) 59 = true ∧ (io.prqTail + 65536 - io.prqHead) % 65536 < s.prqSize ∧ alone s (ring / 64) ∧ s.memReady (ring / 64) 0 false true) := by
  refine ⟨⟨base, 2, 1, (rW .write), 3, ws0, ?_⟩,
    ⟨base, 2, 1, (rW .read), 3, ws0, ?_⟩,
    ⟨base, 2, 1, 3, false, 128, ?_⟩,
    ⟨dO, 3, fT, 0, ?_⟩,
    ⟨{ dO with now := 2^50 }, 3, fT, 0, ?_⟩,
    ⟨base, 3, ws0, ?_⟩,
    ⟨dPr, 3, ws1, ?_⟩⟩ <;> (try dsimp only) <;> repeat' (first | decide +kernel | exact Exists.intro _ (And.intro rfl rfl) | exact Exists.intro _ rfl | apply And.intro)

end Sys2Proof.Tests.InboundRequests

namespace Sys2Proof.Tests.FormeSteps

def op (o : Nat) (rest : Nat) : Word := BitVec.ofNat 64 (o * 2^58 + rest)
def fx (ws : List Word) : FrmEngine := { FrmEngine.reset with st := .running, words := ws, rollbackAt := 3, cls := 0 }
def dF (x : FrmEngine) : State := { demo with dies := [(16, { Die.reset with frm := x })], mc := { Mc.reset with resetting := false, hubPg := true, vinPg := true, resetN := true } }
def ra : Nat := caddr 16 0xD1 0x10003
def ws (o : Nat) (b : Nat) : List Word := [op o b, 5, 5, op 0 0, op 0 0]
def dd (o b : Nat) : State := dF (fx (ws o b))
def old : Word := ((dd 3 ra).regRead ra).getD 7

/-- The hypotheses of FormeSteps can be met, each set of them. -/
theorem hypotheses_met :
    (∃ (s : State) (engine : Fin 17) (w : Word),
      let e := engine.val
      let at_ := fun (op : Nat) => s.wordOf e op = some w
      at_ 0) ∧
    (∃ (s : State) (engine : Fin 17) (w : Word) (v : Word),
      let e := engine.val
      let x := s.frm e
      let a := fieldOf w 39 0
      let at_ := fun (op : Nat) => s.wordOf e op = some w
      at_ 1 ∧ x.hold = false ∧ bit w 57 = false ∧ x.operand 1 = some v ∧ (s.formePut x.cls.toNat a v).isSome = true) ∧
    (∃ (s : State) (engine : Fin 17) (w : Word),
      let e := engine.val
      let x := s.frm e
      let a := fieldOf w 39 0
      let at_ := fun (op : Nat) => s.wordOf e op = some w
      at_ 1 ∧ x.hold = false ∧ bit w 57 = true ∧ (s.formePut x.cls.toNat a (x.accOf w)).isSome = true) ∧
    (∃ (s : State) (engine : Fin 17) (w : Word) (v : Word),
      let e := engine.val
      let x := s.frm e
      let a := fieldOf w 39 0
      let at_ := fun (op : Nat) => s.wordOf e op = some w
      at_ 1 ∧ x.hold = true ∧ x.buffer.length < 64 ∧ bit w 57 = false ∧ x.operand 1 = some v ∧ s.mayWrite x.cls.toNat a v = true) ∧
    (∃ (s : State) (engine : Fin 17) (w : Word) (v : Word),
      let e := engine.val
      let a := fieldOf w 39 0
      let at_ := fun (op : Nat) => s.wordOf e op = some w
      at_ 2 ∧ s.regRead a = some v) ∧
    (∃ (s : State) (engine : Fin 17) (w : Word) (v : Word) (mask : Word) (old : Word),
      let e := engine.val
      let x := s.frm e
      let a := fieldOf w 39 0
      let at_ := fun (op : Nat) => s.wordOf e op = some w
      at_ 3 ∧ x.hold = false ∧ s.regRead a = some old ∧ x.operand 1 = some mask ∧ x.operand 2 = some v ∧ (s.formePut x.cls.toNat a ((old &&& ~~~ mask) ||| (v &&& mask))).isSome = true) ∧
    (∃ (s : State) (engine : Fin 17) (w : Word) (v : Word) (mask : Word) (now : Word),
      let e := engine.val
      let x := s.frm e
      let a := fieldOf w 39 0
      let at_ := fun (op : Nat) => s.wordOf e op = some w
      at_ 4 ∧ s.regRead a = some now ∧ x.operand 1 = some mask ∧ x.operand 2 = some v ∧ now &&& mask = v) ∧
    (∃ (s : State) (engine : Fin 17) (w : Word) (v : Word) (mask : Word) (now : Word),
      let e := engine.val
      let x := s.frm e
      let a := fieldOf w 39 0
      let at_ := fun (op : Nat) => s.wordOf e op = some w
      at_ 4 ∧ s.regRead a = some now ∧ x.operand 1 = some mask ∧ x.operand 2 = some v ∧ now &&& mask ≠ v ∧ x.polling = none) ∧
    (∃ (s : State) (engine : Fin 17) (w : Word),
      let e := engine.val
      let at_ := fun (op : Nat) => s.wordOf e op = some w
      at_ 8 ∧ bit (s.die e).ephCtl 63 = false ∧ (s.die e).ringCycle < s.cycle) ∧
    (∃ (s : State) (engine : Fin 17) (w : Word) (p : Nat),
      let e := engine.val
      let x := s.frm e
      let at_ := fun (op : Nat) => s.wordOf e op = some w
      at_ 9 ∧ x.target w = some p) ∧
    (∃ (s : State) (engine : Fin 17) (w : Word),
      let e := engine.val
      let x := s.frm e
      let at_ := fun (op : Nat) => s.wordOf e op = some w
      at_ 0xA ∧ x.accOf w = 0) ∧
    (∃ (s : State) (engine : Fin 17) (w : Word) (p : Nat),
      let e := engine.val
      let x := s.frm e
      let at_ := fun (op : Nat) => s.wordOf e op = some w
      at_ 0xA ∧ x.accOf w ≠ 0 ∧ x.target w = some p) ∧
    (∃ (s : State) (engine : Fin 17) (w : Word) (k : Nat),
      let e := engine.val
      let x := s.frm e
      let at_ := fun (op : Nat) => s.wordOf e op = some w
      at_ 0xB ∧ libClass (fieldOf w 15 0) = some k ∧ x.cls.toNat ≤ k ∧ x.calling = none ∧ fieldOf w 15 0 = 0x12 ∧ (s.libCall e (fieldOf w 15 0) true 0).2 = .done) := by
  refine ⟨⟨(dd 0 0), 16, (op 0 0), ?_⟩,
    ⟨(dd 1 ra), 16, (op 1 ra), 5, ?_⟩,
    ⟨(dd 1 (2^57+ra)), 16, (op 1 (2^57+ra)), ?_⟩,
    ⟨(dF { fx (ws 1 ra) with hold := true }), 16, (op 1 ra), 5, ?_⟩,
    ⟨(dd 2 ra), 16, (op 2 ra), old, ?_⟩,
    ⟨(dd 3 ra), 16, (op 3 ra), 5, 5, old, ?_⟩,
    ⟨(dF (fx [op 4 ra, 0, 0])), 16, (op 4 ra), 0, 0, old, ?_⟩,
    ⟨(dd 4 ra), 16, (op 4 ra), 5, 5, old, ?_⟩,
    ⟨{ dd 8 0x1230000000000 with now := 100, dies := [(16, { Die.reset with ephCtl := 0, frm := fx (ws 8 0x1230000000000) })] }, 16, (op 8 0x1230000000000), ?_⟩,
    ⟨(dd 9 0x30000000000), 16, (op 9 0x30000000000), 3, ?_⟩,
    ⟨(dd 10 0x30000000000), 16, (op 10 0x30000000000), ?_⟩,
    ⟨(dF { fx (ws 10 0x30000000000) with acc := [(0, 9)] }), 16, (op 10 0x30000000000), 3, ?_⟩,
    ⟨(dF { fx (ws 0xB 0x12) with cls := 1 }), 16, (op 0xB 0x12), 1, ?_⟩⟩ <;> (try dsimp only) <;> repeat' (first | decide +kernel | exact Exists.intro _ (And.intro rfl rfl) | exact Exists.intro _ rfl | apply And.intro)

end Sys2Proof.Tests.FormeSteps

namespace Sys2Proof.Tests.FormeCourse

def op (o : Nat) (rest : Nat) : Word := BitVec.ofNat 64 (o * 2^58 + rest)
def fx (ws : List Word) : FrmEngine := { FrmEngine.reset with st := .running, words := ws, rollbackAt := 3, cls := 0 }
def dF (x : FrmEngine) : State := { demo with dies := [(16, { Die.reset with frm := x })], mc := { Mc.reset with resetting := false, hubPg := true, vinPg := true, resetN := true } }
def ra : Nat := caddr 16 0xD1 0x10003
def ws (o : Nat) (b : Nat) : List Word := [op o b, 5, 5, op 0 0, op 0 0]
def dd (o b : Nat) : State := dF (fx (ws o b))
def rdy (x : FrmEngine) := dF { x with queue := [(0x5000, 2, false)] }
def img (s : State) (l : List (Nat × Word)) : State := l.foldl (fun s p => s.putCohWord p.1 p.2) s
def dImg : State := img (rdy FrmEngine.reset) [(0x5000, 0x14D524F46), (0x5008, BitVec.ofNat 64 (2 + 0 * 2^40)), (0x5010, 1), (0x5040, op 0 0), (0x5048, op 14 0)]
def q0 : Quiesce := { engine := 16, scope := 1, target := 0, limit := 9, held := false, stamp := 0 }
def w5 : Word := op 5 (1 * 2^48 + 9 * 2^40)
def dQ (x : FrmEngine) (l : List Quiesce) : State := { dF x with quiesces := l }

/-- The hypotheses of FormeCourse can be met, each set of them. -/
theorem hypotheses_met :
    (∃ (s : State) (engine : Fin 17) (val : Word),
      let e := engine.val
      let x := s.frm e
      x.queue.length < 16 ∧ x.fault = false) ∧
    (∃ (s : State) (engine : Fin 17) (val : Word),
      let e := engine.val
      let x := s.frm e
      16 ≤ x.queue.length) ∧
    (∃ (s : State) (engine : Fin 17) (val : Word) (pa : Nat) (group : Nat) (fromMc : Bool) (sigOk : Bool) (rest : List (Nat × Nat × Bool)),
      let e := engine.val
      let x := s.frm e
      let cls := fieldOf (s.imageWord (pa + 8)) 47 40
      let words := (List.range (fieldOf (s.imageWord (pa + 8)) 31 0)).map (fun i => s.imageWord (pa + 64 + 8 * i))
      let ready := x.queue = (pa, group, fromMc) :: rest ∧ x.st = .idle ∧ (s.die e).inService = true ∧ s.halted = false ∧ s.inReset = false
      ready ∧ s.imageOk pa = true ∧ (cls = 2 → fromMc = false) ∧ (cls ≠ 2 → sigOk = true) ∧ s.wordsOk cls 0 words = true) ∧
    (∃ (s : State) (engine : Fin 17) (val : Word) (pa : Nat) (group : Nat) (fromMc : Bool) (sigOk : Bool) (rest : List (Nat × Nat × Bool)),
      let e := engine.val
      let x := s.frm e
      let cls := fieldOf (s.imageWord (pa + 8)) 47 40
      let ready := x.queue = (pa, group, fromMc) :: rest ∧ x.st = .idle ∧ (s.die e).inService = true ∧ s.halted = false ∧ s.inReset = false
      ready ∧ cls ≠ 2 ∧ sigOk = false) ∧
    (∃ (s : State) (engine : Fin 17) (w : Word) (val : Word) (since : Word),
      let e := engine.val
      let x := s.frm e
      let at_ := fun (op : Nat) => s.wordOf e op = some w
      at_ 4 ∧ x.polling = some since ∧ since.toNat + usTicks (fieldOf w 51 40) ≤ (s.stamp e).toNat) ∧
    (∃ (s : State) (engine : Fin 17) (w : Word) (val : Word),
      let e := engine.val
      let x := s.frm e
      let at_ := fun (op : Nat) => s.wordOf e op = some w
      at_ 5 ∧ x.quiescing = false ∧ s.scopeOk (fieldOf w 51 48) (quiesceTarget w) = true) ∧
    (∃ (s : State) (engine : Fin 17) (w : Word) (val : Word) (q : Quiesce),
      let e := engine.val
      let at_ := fun (op : Nat) => s.wordOf e op = some w
      at_ 5 ∧ s.asked e = some q ∧ s.drainedScope q = true ∧ s.quiesceWaits q = false ∧ s.quiesceLate e q = false) ∧
    (∃ (s : State) (engine : Fin 17) (val : Word),
      let e := engine.val
      let x := s.frm e
      s.frmAwake e = true ∧ x.st = .running ∧ x.rollbackAt < x.words.length ∧ (∃ r ∈ s.quiesces, r.engine = e ∧ s.quiesceLate e r = true)) ∧
    (∃ (s : State) (engine : Fin 17) (w : Word) (val : Word),
      let e := engine.val
      let at_ := fun (op : Nat) => s.wordOf e op = some w
      at_ 6) ∧
    (∃ (s : State) (engine : Fin 17) (w : Word) (val : Word) (group : Nat),
      let e := engine.val
      let x := s.frm e
      let at_ := fun (op : Nat) => s.wordOf e op = some w
      at_ 7 ∧ x.group = 0 ∧ bit w 48 = true) ∧
    (∃ (s : State) (engine : Fin 17) (w : Word) (val : Word) (group : Nat),
      let e := engine.val
      let x := s.frm e
      let at_ := fun (op : Nat) => s.wordOf e op = some w
      at_ 7 ∧ x.group = 0 ∧ bit w 48 = false ∧ x.buffer = []) ∧
    (∃ (s : State) (engine : Fin 17) (w : Word) (val : Word) (pa : Nat) (group : Nat),
      let e := engine.val
      let x := s.frm e
      let words := (List.range (fieldOf (s.imageWord (pa + 8)) 31 0)).map (fun i => s.imageWord (pa + 64 + 8 * i))
      s.frmAwake e = true ∧ x.group = 0 ∧ x.atSync.isSome = true ∧ x.words[x.pc]? = some w ∧ bit w 48 = true) ∧
    (∃ (s : State) (engine : Fin 17) (w : Word) (val : Word),
      let e := engine.val
      let at_ := fun (op : Nat) => s.wordOf e op = some w
      at_ 0xD) ∧
    (∃ (s : State) (engine : Fin 17) (w : Word) (val : Word),
      let e := engine.val
      let at_ := fun (op : Nat) => s.wordOf e op = some w
      at_ 0xC) ∧
    (∃ (s : State) (engine : Fin 17) (w : Word) (val : Word),
      let e := engine.val
      let at_ := fun (op : Nat) => s.wordOf e op = some w
      at_ 0xE) ∧
    ((dd 1 0).mayWrite 0 ra 5 = true ∧ (dd 1 0).mayWrite 2 (caddr 0 0xC8 0) 5 = false ∧ mcWrites ra = false) ∧
    (∃ a off, (dd 1 0).region a = .pkg off ∧ (dd 1 0).secureMmio off = true) := by
  refine ⟨⟨(dF FrmEngine.reset), 16, 0x2000000000001238, ?_⟩,
    ⟨(dF { FrmEngine.reset with queue := List.replicate 16 (1,1,true) }), 16, 0x2000000000001238, ?_⟩,
    ⟨dImg, 16, 77, 0x5000, 2, false, true, [], ?_⟩,
    ⟨dImg, 16, 77, 0x5000, 2, false, false, [], ?_⟩,
    ⟨{ dF { fx [op 4 (5*2^40), 0, 0, op 0 0] with polling := some 0 } with now := 2^40 }, 16, (op 4 (5*2^40)), 77, 0, ?_⟩,
    ⟨(dF (fx [w5, op 0 0])), 16, w5, 77, ?_⟩,
    ⟨(dQ (fx [w5, op 0 0]) [q0]), 16, w5, 77, q0, ?_⟩,
    ⟨{ dQ (fx [w5, op 0 0, op 0 0, op 0 0]) [q0] with now := 2^50 }, 16, 77, ?_⟩,
    ⟨(dQ (fx [op 6 (1 * 2^48), op 0 0]) [{ q0 with held := true }, { q0 with target := 5 }]), 16, (op 6 (1 * 2^48)), 77, ?_⟩,
    ⟨(dF (fx [op 7 (2^48), op 0 0])), 16, (op 7 (2^48)), 77, 2, ?_⟩,
    ⟨(dF (fx [op 7 0, op 0 0])), 16, (op 7 0), 77, 2, ?_⟩,
    ⟨(dF { fx [op 7 (2^48), op 0 0] with atSync := some 0 }), 16, (op 7 (2^48)), 77, 0x5000, 2, ?_⟩,
    ⟨(dd 0xD 0), 16, (op 0xD 0), 77, ?_⟩,
    ⟨(dd 0xC 0), 16, (op 0xC 0), 77, ?_⟩,
    ⟨(dd 0xE 0), 16, (op 0xE 0), 77, ?_⟩,
    ?_,
    ⟨2 ^ 47 + 0x20100000, 0x20100000, ?_⟩⟩ <;> (try dsimp only) <;> repeat' (first | decide +kernel | exact Exists.intro _ (And.intro rfl rfl) | exact Exists.intro _ rfl | apply And.intro)

end Sys2Proof.Tests.FormeCourse

namespace Sys2Proof.Tests.MailboxRequests

def dM (r : List Word) (m : Mc) : State := { demo with mc := { m with inHand := some r } }
def m1 : Mc := { Mc.reset with resetting := false, stage := 10, hubPg := true, vinPg := true, resetN := true }
def rr (o a : Nat) : List Word := [BitVec.ofNat 64 (0x99 + o * 2^48), BitVec.ofNat 64 a]
def m9 : Mc := { Mc.reset with stage := 9, hubPg := true, vinPg := true, resetN := true }

/-- The hypotheses of MailboxRequests can be met, each set of them. -/
theorem hypotheses_met :
    (∃ (s : State) (r : List Word),
      let has := fun (op : Nat) => s.reqOf op = some r
      has 1 ∧ s.mc.resetting = true ∧ s.mc.stage = 9) ∧
    (∃ (s : State) (r : List Word),
      let has := fun (op : Nat) => s.reqOf op = some r
      has 1 ∧ s.mc.stage ≠ 9) ∧
    (∃ (s : State) (r : List Word),
      let has := fun (op : Nat) => s.reqOf op = some r
      has 3 ∧ s.chainBuffer (r.getD 1 0).toNat = true) ∧
    (∃ (s : State) (r : List Word),
      let has := fun (op : Nat) => s.reqOf op = some r
      has 3 ∧ s.chainBuffer (r.getD 1 0).toNat = false) ∧
    (∃ (s : State) (r : List Word),
      let has := fun (op : Nat) => s.reqOf op = some r
      has 4 ∧ bit (r.getD 1 0) 0 = false ∧ s.mc.haltedBit = false ∧ s.resetRank < 5) ∧
    (∃ (s : State) (r : List Word),
      let has := fun (op : Nat) => s.reqOf op = some r
      has 4 ∧ bit (r.getD 1 0) 0 = true ∧ s.mc.haltedBit = false ∧ s.power.thermtrip = false ∧ s.resetRank < 4 ∧ s.paired = false) ∧
    (∃ (s : State) (r : List Word),
      let has := fun (op : Nat) => s.reqOf op = some r
      has 5 ∧ s.p5Ready = true) ∧
    (∃ (s : State) (r : List Word),
      let has := fun (op : Nat) => s.reqOf op = some r
      has 5 ∧ s.p5Ready = false) ∧
    (∃ (s : State) (r : List Word),
      let has := fun (op : Nat) => s.reqOf op = some r
      has 6) ∧
    (∃ (s : State) (r : List Word),
      let has := fun (op : Nat) => s.reqOf op = some r
      has 7) ∧
    (∃ (s : State) (r : List Word) (v : BitVec 16) (i : BitVec 16) (c : BitVec 16),
      let has := fun (op : Nat) => s.reqOf op = some r
      has 8 ∧ s.mc.telemetry = some (v, i, c)) ∧
    (∃ (s : State) (r : List Word),
      let has := fun (op : Nat) => s.reqOf op = some r
      let sub := fieldOf (r.getD 1 0) 1 0
      has 9 ∧ sub = 0) ∧
    (∃ (s : State) (r : List Word),
      let has := fun (op : Nat) => s.reqOf op = some r
      let sub := fieldOf (r.getD 1 0) 1 0
      has 9 ∧ sub = 1 ∧ s.frisket.life = .owner) ∧
    (∃ (s : State) (r : List Word),
      let has := fun (op : Nat) => s.reqOf op = some r
      let sub := fieldOf (r.getD 1 0) 1 0
      has 9 ∧ sub = 1 ∧ s.frisket.life ≠ .owner) ∧
    (∃ (s : State) (r : List Word),
      let has := fun (op : Nat) => s.reqOf op = some r
      let sub := fieldOf (r.getD 1 0) 1 0
      has 9 ∧ sub = 2) ∧
    (∃ (s : State) (stamp : Word) (tai : Word) (ns : Word) (age : Word),
      s.mcServes = true ∧ s.mc.tod = some (stamp, tai, ns, age) ∧ s.mc.rspPend = false) ∧
    (∃ (s : State),
      s.mcServes = true) ∧
    (∃ (s : State) (r : List Word),
      s.mc.stbyPg = true ∧ s.mc.restarting = true ∧ s.mc.restartReq = some r) := by
  refine ⟨⟨(dM (rr 1 0) m9), (rr 1 0), ?_⟩,
    ⟨(dM (rr 1 0) m1), (rr 1 0), ?_⟩,
    ⟨{ dM (rr 3 0x10000) m1 with ctl := (List.range 24).flatMap (fun c => [(guardReg c 0, some (0x8000000100000001)), (guardReg c 1, some 0xFFF0000)]) }, (rr 3 0x10000), ?_⟩,
    ⟨(dM (rr 3 0x3000) m1), (rr 3 0x3000), ?_⟩,
    ⟨(dM (rr 4 0) m1), (rr 4 0), ?_⟩,
    ⟨(dM (rr 4 1) m1), (rr 4 1), ?_⟩,
    ⟨{ dM (rr 5 0) m1 with tiles := [] }, (rr 5 0), ?_⟩,
    ⟨(dM (rr 5 0) m1), (rr 5 0), ?_⟩,
    ⟨(dM (rr 6 0) m1), (rr 6 0), ?_⟩,
    ⟨(dM (rr 7 3) m1), (rr 7 3), ?_⟩,
    ⟨(dM (rr 8 0) { m1 with telemetry := some (11,12,13) }), (rr 8 0), 11, 12, 13, ?_⟩,
    ⟨(dM (rr 9 0) m1), (rr 9 0), ?_⟩,
    ⟨{ dM (rr 9 1) m1 with frisket := { demo.frisket with life := .owner } }, (rr 9 1), ?_⟩,
    ⟨{ dM (rr 9 1) m1 with frisket := { demo.frisket with life := .field } }, (rr 9 1), ?_⟩,
    ⟨(dM (rr 9 2) m1), (rr 9 2), ?_⟩,
    ⟨(dM (rr 9 2) { m1 with tod := some (1,2,3,4) }), 1, 2, 3, 4, ?_⟩,
    ⟨(dM (rr 9 2) m1), ?_⟩,
    ⟨(dM (rr 9 2) { m1 with restarting := true, restartReq := some (rr 5 5) }), (rr 5 5), ?_⟩⟩ <;> (try dsimp only) <;> repeat' (first | decide +kernel | exact Exists.intro _ (And.intro rfl rfl) | exact Exists.intro _ rfl | apply And.intro)

end Sys2Proof.Tests.MailboxRequests

namespace Sys2Proof.Tests.BmcFrisketAndTest

def dM (f : Frisket) : State := { demo with mc := { Mc.reset with resetting := false, stage := 10, hubPg := true, vinPg := true, resetN := true }, frisket := f }
def f0 : Frisket := { demo.frisket with life := .field, slots := [(5, true), (6, false)] }
def rec0 : Record := { Record.free 3 with valid := true, code := 0x0101, world := 0xFFF }
def dRc : State := { dM f0 with dies := [(0, { Die.reset with store := [(4, some rec0)] })] }
def fc (l : BitVec 2) : Frisket := { f0 with challenges := [(l, 9, 0), (1, 4, 0)] }
def dH : State := { dM f0 with mc := { (dM f0).mc with tries := 0x780A0 } }
def dbg (x : Thread) : State := withThr (dM { f0 with session := 2 }) 0 x

/-- The hypotheses of BmcFrisketAndTest can be met, each set of them. -/
theorem hypotheses_met :
    (∃ (s : State),
      s.mcServes = true) ∧
    (∃ (s : State) (die : Fin 17) (slot : Fin 512) (gen : BitVec 16) (val : Word),
      s.mcServes = true ∧ (s.slot die.val slot.val).valid = true ∧ (s.slot die.val slot.val).gen = gen) ∧
    (∃ (s : State),
      s.mcServes = true ∧ s.mc.haltedBit = false ∧ s.resetRank < 5) ∧
    (∃ (s : State),
      s.mcServes = true ∧ s.mc.haltedBit = false ∧ s.power.thermtrip = false ∧ s.resetRank < 4 ∧ s.paired = false) ∧
    (∃ (s : State),
      s.mcServes = true ∧ s.p5Ready = true ∧ s.heldBlocks = []) ∧
    (∃ (s : State),
      s.mcServes = true ∧ s.power.pkg = .p5) ∧
    (∃ (s : State),
      s.mcServes = true ∧ s.mc.haltedBit = true ∧ 0 < s.mc.limit) ∧
    (∃ (s : State),
      let f := s.frisket
      s.mcServes = true ∧ (f.life = .opened ∨ f.life = .owner) ∧ f.slots.length < 4) ∧
    (∃ (s : State) (k : Nat),
      let f := s.frisket
      s.mcServes = true ∧ f.ownerSlot = some k ∧ f.slots.length < 4) ∧
    (∃ (s : State) (k : Nat),
      let f := s.frisket
      s.mcServes = true ∧ f.ownerSlot = some k ∧ f.life = .owner) ∧
    (∃ (s : State) (level : BitVec 2),
      s.frkOpen = true ∧ (level = 1 ∨ level = 2)) ∧
    (∃ (s : State) (st : Word) (nonce : BitVec 256) (rest : List (BitVec 2 × BitVec 256 × Word)),
      s.frkOpen = true ∧ s.frkLive = (1, nonce, st) :: rest) ∧
    (∃ (s : State) (st : Word) (nonce : BitVec 256) (rest : List (BitVec 2 × BitVec 256 × Word)) (k : Nat),
      let f := s.frisket
      s.frkOpen = true ∧ s.frkLive = (1, nonce, st) :: rest ∧ f.ownerSlot = some k) ∧
    (∃ (s : State) (st : Word) (nonce : BitVec 256) (rest : List (BitVec 2 × BitVec 256 × Word)),
      s.frkOpen = true ∧ s.frkLive = (2, nonce, st) :: rest) ∧
    (∃ (s : State) (st : Word) (nonce : BitVec 256) (rest : List (BitVec 2 × BitVec 256 × Word)) (k : Nat),
      let f := s.frisket
      s.frkOpen = true ∧ s.frkLive = (2, nonce, st) :: rest ∧ f.ownerSlot = some k) ∧
    (∃ (s : State),
      let f := s.frisket
      f.locked = true ∧ f.lockUntil.toNat < (s.stamp 16).toNat) ∧
    (∃ (s : State),
      let f := s.frisket
      f.session = 0) ∧
    (∃ (s : State) (w : Word) (addr : BitVec 57),
      let f := s.frisket
      f.session ≠ 0 ∧ s.debugRead addr.toNat = some w) ∧
    ((dbg thr0).thrPresent 0 = true ∧ (dbg thr0).sessionReaches 0 = true ∧ ((dbg thr0).thr 0).run = .running ∧ ((dbg thr0).thr 0).idle = true) ∧
    (((dbg { thr0 with run := .debug }).thr 0).run = .debug ∧ (dbg { thr0 with run := .debug }).sessionReaches 0 = true) := by
  refine ⟨⟨dRc, ?_⟩,
    ⟨dRc, 0, 4, 3, 5, ?_⟩,
    ⟨dRc, ?_⟩,
    ⟨dRc, ?_⟩,
    ⟨{ dM f0 with tiles := [] }, ?_⟩,
    ⟨{ dM f0 with power := { Power.reset with pkg := .p5 } }, ?_⟩,
    ⟨dH, ?_⟩,
    ⟨(dM { f0 with life := .opened, slots := [] }), ?_⟩,
    ⟨dRc, 1, ?_⟩,
    ⟨(dM { f0 with life := .owner }), 1, ?_⟩,
    ⟨(dM f0), 1, ?_⟩,
    ⟨(dM (fc 1)), 0, 9, [(1, 4, 0)], ?_⟩,
    ⟨(dM (fc 1)), 0, 9, [(1, 4, 0)], 1, ?_⟩,
    ⟨(dM (fc 2)), 0, 9, [(1, 4, 0)], ?_⟩,
    ⟨(dM (fc 2)), 0, 9, [(1, 4, 0)], 1, ?_⟩,
    ⟨{ dM { f0 with locked := true, lockUntil := 5 } with now := 6 }, ?_⟩,
    ⟨(dM f0), ?_⟩,
    ⟨(dM { f0 with session := 2 }), 0x0123456789ABCDEF, 0x2000, ?_⟩,
    ?_,
    ?_⟩ <;> (try dsimp only) <;> repeat' (first | decide +kernel | exact Exists.intro _ (And.intro rfl rfl) | exact Exists.intro _ rfl | apply And.intro)

end Sys2Proof.Tests.BmcFrisketAndTest

namespace Sys2Proof.Tests.StepTakesFront

/-- The hypotheses of StepTakesFront can be met, each set of them. -/
theorem hypotheses_met :
    (∃ (s : State),
      s.pending = [] ∧ s.slew = 0 ∧ s.ppsRate = 0 ∧ s.ppsAcc.natAbs < ppsTicks) := by
  refine ⟨demo, ?_⟩ <;> (try dsimp only) <;> repeat' (first | decide +kernel | exact Exists.intro _ (And.intro rfl rfl) | exact Exists.intro _ rfl | apply And.intro)

end Sys2Proof.Tests.StepTakesFront

namespace Sys2Proof.Tests.StepsKeepMemoryCanonical

/-- The hypotheses of StepsKeepMemoryCanonical can be met, each set of them. -/
theorem hypotheses_met :
    (∃ (s : State),
      s.memCanonical = true) := by
  refine ⟨demo, ?_⟩ <;> (try dsimp only) <;> repeat' (first | decide +kernel | exact Exists.intro _ (And.intro rfl rfl) | exact Exists.intro _ rfl | apply And.intro)

end Sys2Proof.Tests.StepsKeepMemoryCanonical


namespace Sys2Proof.Tests

/-! What the well-formedness checks refuse. -/

/-- A 32-bit shift by 32 (03 R72). -/
theorem test_wf_shift_amount : WellFormed (.slliw 0 1 2 32) = false ∧ WellFormed (.srliw 0 1 2 63) = false ∧ WellFormed (.sraiw 0 1 2 32) = false ∧ WellFormed (.slliw 0 1 2 31) = true := by decide +kernel
/-- A sign-extending acquire load of a doubleword (03 R83). -/
theorem test_wf_acquire_width : WellFormed (.ldAqS 0 1 2 3) = false ∧ WellFormed (.ldAqS 0 1 2 2) = true := by decide +kernel
/-- A reserved rounding mode (03 R88). -/
theorem test_wf_rounding : WellFormed (.fadd 0 1 2 3 true 6) = false ∧ WellFormed (.fmadd 0 1 2 3 4 false 7) = false ∧ WellFormed (.fcvtFL 0 1 2 true 6) = false ∧ WellFormed (.fadd 0 1 2 3 true 5) = true := by decide +kernel
/-- A rounding mode where the conversion does not round (03 R89). -/
theorem test_wf_no_rounding : WellFormed (.fcvtFF 0 1 2 true 1) = false ∧ WellFormed (.fcvtFW 0 1 2 true 2) = false ∧ WellFormed (.fcvtFF 0 1 2 false 1) = true := by decide +kernel
/-- Flipped bits of more than sixteen beats (12 R288). -/
theorem test_wf_flips : WellFormed (.dramReadReturn 0 0 (List.replicate 17 0)) = false ∧ WellFormed (.dramVerifyReturn 0 (List.replicate 17 0)) = false ∧ WellFormed (.dramReadReturn 0 0 (List.replicate 16 0)) = true := by decide +kernel
/-- An inbound request across a line's end, of no byte, or an atomic off its size (16 R366, R374). -/
theorem test_wf_inbound :
    let r : InboundReq := { stream := 0, kind := .read, iova := 60, size := 8, data := 0, cmp := 0, relaxed := false, translated := false }
    WellFormed (.pcieInboundRequest 0 0 r) = false ∧ WellFormed (.pcieInboundRequest 0 0 { r with size := 0 }) = false ∧
      WellFormed (.pcieInboundRequest 0 0 { r with iova := 4, kind := .atomicAdd }) = false ∧ WellFormed (.pcieInboundRequest 0 0 { r with size := 4 }) = true := by decide +kernel

/-! One step each, the results worked out by hand from the rules. -/

/-- The state that an answer holds. -/
def after (o : Host.Outcome State Fault Refusal) : State := match o with | .next s => s | _ => State.reset
/-- A thread of `demo` with general and floating-point registers of its own. -/
def regs (g : List (Nat × Word)) (f : List (Nat × Word)) : State := withThr demo 0 { thr0 with g := g, f := f }
/-- The same in NONE mode, where a transfer starts no wrong path (05 R140). -/
def plain (g : List (Nat × Word)) : State := withThr demo 0 { thr0 with g := g, coreCtl := 1 }
/-- General register r after a command. -/
def g (o : Host.Outcome State Fault Refusal) (r : RegNo) : Word := ((after o).thr 0).readG r
/-- Floating-point register r after a command. -/
def f (o : Host.Outcome State Fault Refusal) (r : RegNo) : Word := ((after o).thr 0).readF r
/-- The program counter after a command. -/
def pc (o : Host.Outcome State Fault Refusal) : Word := ((after o).thr 0).pc

/-- ADD wraps, and g0 is not written (03 R59, R68). -/
theorem test_add : g (exec (.add 0 3 1 2) (regs [(1, 0xFFFFFFFFFFFFFFFF), (2, 5)] [])) 3 = 4 ∧ g (exec (.add 0 0 1 2) demo) 0 = 0 ∧ pc (exec (.add 0 3 1 2) demo) = 0x1004 := by decide +kernel
/-- SUB takes rs2 from rs1 (03 R68). -/
theorem test_sub : g (exec (.sub 0 3 1 2) (regs [(1, 3), (2, 5)] [])) 3 = 0xFFFFFFFFFFFFFFFE := by decide +kernel
/-- ANDN complements rs2 (03 R68). -/
theorem test_andn : g (exec (.andn 0 3 1 2) (regs [(1, 0xF0F0), (2, 0xFF00)] [])) 3 = 0xF0 := by decide +kernel
/-- Shifts take six bits of rs2 (03 R68). -/
theorem test_shifts : g (exec (.sll 0 3 1 2) (regs [(1, 3), (2, 0x41)] [])) 3 = 6 ∧ g (exec (.sra 0 3 1 2) (regs [(1, 0x8000000000000000), (2, 4)] [])) 3 = 0xF800000000000000 ∧
    g (exec (.ror 0 3 1 2) (regs [(1, 1), (2, 1)] [])) 3 = 0x8000000000000000 := by decide +kernel
/-- Signed and unsigned comparison (03 R68). -/
theorem test_compare : g (exec (.slt 0 3 1 2) (regs [(1, 0xFFFFFFFFFFFFFFFF), (2, 1)] [])) 3 = 1 ∧ g (exec (.sltu 0 3 1 2) (regs [(1, 0xFFFFFFFFFFFFFFFF), (2, 1)] [])) 3 = 0 ∧
    g (exec (.minu 0 3 1 2) (regs [(1, 0xFFFFFFFFFFFFFFFF), (2, 1)] [])) 3 = 1 := by decide +kernel
/-- Counts, and the bytes reversed (03 R68). -/
theorem test_unary : g (exec (.clz 0 3 1) (regs [(1, 0)] [])) 3 = 64 ∧ g (exec (.ctz 0 3 1) (regs [(1, 0x50)] [])) 3 = 4 ∧ g (exec (.popc 0 3 1) (regs [(1, 0xFF01)] [])) 3 = 9 ∧
    g (exec (.rev8 0 3 1) (regs [(1, 0x0102030405060708)] [])) 3 = 0x0807060504030201 ∧ g (exec (.sextB 0 3 1) (regs [(1, 0x180)] [])) 3 = 0xFFFFFFFFFFFFFF80 := by decide +kernel
/-- The high half of a product, signed and mixed (03 R69). -/
theorem test_mulh : g (exec (.mulh 0 3 1 2) (regs [(1, 0xFFFFFFFFFFFFFFFF), (2, 2)] [])) 3 = 0xFFFFFFFFFFFFFFFF ∧ g (exec (.mulhu 0 3 1 2) (regs [(1, 0xFFFFFFFFFFFFFFFF), (2, 2)] [])) 3 = 1 ∧
    g (exec (.mulhsu 0 3 1 2) (regs [(1, 0xFFFFFFFFFFFFFFFF), (2, 2)] [])) 3 = 0xFFFFFFFFFFFFFFFF := by decide +kernel
/-- Division by zero and its overflow saturate (03 R70). -/
theorem test_div : g (exec (.div 0 3 1 2) (regs [(1, 7)] [])) 3 = 0x7FFFFFFFFFFFFFFF ∧ g (exec (.div 0 3 1 2) (regs [(1, 0xFFFFFFFFFFFFFFF9)] [])) 3 = 0x8000000000000000 ∧
    g (exec (.div 0 3 1 2) (regs [(1, 0x8000000000000000), (2, 0xFFFFFFFFFFFFFFFF)] [])) 3 = 0x7FFFFFFFFFFFFFFF ∧ g (exec (.rem 0 3 1 2) (regs [(1, 0xFFFFFFFFFFFFFFF9), (2, 2)] [])) 3 = 0xFFFFFFFFFFFFFFFF ∧
    g (exec (.divuw 0 3 1 2) (regs [(1, 7)] [])) 3 = 0xFFFFFFFFFFFFFFFF := by decide +kernel
/-- The 32-bit forms sign-extend (03 R69, R71). -/
theorem test_addw : g (exec (.addw 0 3 1 2) (regs [(1, 0x7FFFFFFF), (2, 1)] [])) 3 = 0xFFFFFFFF80000000 ∧ g (exec (.srlw 0 3 1 2) (regs [(1, 0xFFFFFFFF80000000), (2, 31)] [])) 3 = 1 := by decide +kernel
/-- ADDI sign-extends its immediate; ANDI, ORI and XORI extend theirs with zeros (03 R72). -/
theorem test_immediates : g (exec (.addi 0 3 1 0xFFFF) (regs [(1, 5)] [])) 3 = 4 ∧ g (exec (.ori 0 3 1 0x8000) (regs [(1, 1)] [])) 3 = 0x8001 := by decide +kernel
/-- LUI and AUIPC shift a sign-extended IMM21 by 16 and by 12 (03 R73). -/
theorem test_wide : g (exec (.lui 0 3 0x1FFFFF) demo) 3 = 0xFFFFFFFFFFFF0000 ∧ g (exec (.auipc 0 3 1) demo) 3 = 0x2000 := by decide +kernel
/-- J links and jumps by words; a branch is taken or not (03 R74). -/
theorem test_branches : pc (exec (.j 0 1 0x1FFFFF) (plain [])) = 0xFFC ∧ g (exec (.j 0 1 0x1FFFFF) (plain [])) 1 = 0x1004 ∧ pc (exec (.blt 0 1 2 8) (plain [(1, 0xFFFFFFFFFFFFFFFF), (2, 1)])) = 0x1020 ∧
    pc (exec (.bltu 0 1 2 8) (plain [(1, 0xFFFFFFFFFFFFFFFF), (2, 1)])) = 0x1004 := by decide +kernel
/-- JR reads its base before it links, in one register (03 R75). -/
theorem test_jr : pc (exec (.jr 0 1 1 4) (plain [(1, 0x2000)])) = 0x2004 ∧ g (exec (.jr 0 1 1 4) (plain [(1, 0x2000)])) 1 = 0x1004 := by decide +kernel
/-- A misaligned target of JR takes exception 0x01 and leaves rd alone (03 R74, R75). -/
theorem test_jr_misaligned : g (exec (.jr 0 3 1 2) demo) 3 = 0 ∧ pc (exec (.jr 0 3 1 2) demo) ≠ 0x2002 := by decide +kernel
/-- Loads of one line: the lowest address holds the least significant byte (03 R77; 00 R8). -/
theorem test_loads : g (exec (.ldD 0 3 1 0) demo) 3 = 0x0123456789ABCDEF ∧ g (exec (.ldB 0 3 1 0) demo) 3 = 0xFFFFFFFFFFFFFFEF ∧ g (exec (.ldHu 0 3 1 6) demo) 3 = 0x0123 ∧
    g (exec (.ldW 0 3 1 0) demo) 3 = 0xFFFFFFFF89ABCDEF ∧ g (exec (.ldWu 0 3 1 12) demo) 3 = 0xFEDCBA98 := by decide +kernel
/-- 1.5 + 2⁻⁵² rounds to even, or up when the field says so, and raises IX (03 R88, R89). -/
theorem test_fadd : f (exec (.fadd 0 3 1 2 true 0) (regs [] [(1, 0x3FF8000000000000), (2, 0x3CA0000000000000)])) 3 = 0x3FF8000000000000 ∧
    f (exec (.fadd 0 3 1 2 true 5) (regs [] [(1, 0x3FF8000000000000), (2, 0x3CA0000000000000)])) 3 = 0x3FF8000000000001 := by decide +kernel
/-- 1 ÷ 3 to nearest, and 1 ÷ 0 (03 R89). -/
theorem test_fdiv : f (exec (.fdiv 0 3 1 2 true 0) (regs [] [(1, 0x3FF0000000000000), (2, 0x4008000000000000)])) 3 = 0x3FD5555555555555 ∧
    f (exec (.fdiv 0 3 1 2 true 0) (regs [] [(1, 0x3FF0000000000000)])) 3 = 0x7FF0000000000000 := by decide +kernel
/-- √2 to nearest, and the root of a negative number is the canonical NaN (03 R89, R92). -/
theorem test_fsqrt : f (exec (.fsqrt 0 3 1 true 0) (regs [] [(1, 0x4000000000000000)])) 3 = 0x3FF6A09E667F3BCD ∧ f (exec (.fsqrt 0 3 1 false 0) (regs [] [(1, 0xBF800000)])) 3 = 0x7FC00000 := by decide +kernel
/-- FMIN orders −0 below +0 and passes over a quiet NaN (03 R89). -/
theorem test_fmin : f (exec (.fmin 0 3 1 2 true) (regs [] [(2, 0x8000000000000000)])) 3 = 0x8000000000000000 ∧ f (exec (.fmin 0 3 1 2 true) (regs [] [(1, 0x7FF8000000000000), (2, 0x3FF0000000000000)])) 3 = 0x3FF0000000000000 := by decide +kernel
/-- The spec's own example of FKIND (03 R94). -/
theorem test_fkind : g (exec (.fkind 0 3 1 true) (regs [] [(1, 0x8000000000000000)])) 3 = 0x8 ∧ g (exec (.fkind 0 3 1 false) (regs [] [(1, 0x7F800001)])) 3 = 0x5 := by decide +kernel
/-- Conversions saturate: −1.5 unsigned, a NaN, and 2^31 (03 R93). -/
theorem test_fcvt : g (exec (.fcvtWuF 0 3 1 true 0) (regs [] [(1, 0xBFF8000000000000)])) 3 = 0 ∧ g (exec (.fcvtLF 0 3 1 true 0) (regs [] [(1, 0x7FF8000000000000)])) 3 = 0x7FFFFFFFFFFFFFFF ∧
    g (exec (.fcvtWF 0 3 1 true 0) (regs [] [(1, 0x41E0000000000000)])) 3 = 0x7FFFFFFF ∧ g (exec (.fcvtWF 0 3 1 true 1) (regs [] [(1, 0xC004000000000000)])) 3 = 0xFFFFFFFFFFFFFFFE := by decide +kernel
/-- FMADD rounds once: (1 + 2⁻⁵²)² − (1 + 2⁻⁵¹) is 2⁻¹⁰⁴ (03 R90). -/
theorem test_fmadd : f (exec (.fmadd 0 4 1 2 3 true 0) (regs [] [(1, 0x3FF0000000000001), (2, 0x3FF0000000000001), (3, 0xBFF0000000000002)])) 4 = 0x3970000000000000 := by decide +kernel
/-- The spec's own example of an address of another package (01 R31). -/
theorem test_region : State.reset.region 0x12A712345678000 = .window 0x2A7 0x12345678000 := by decide +kernel
/-- The spec's own example of hop counts: C5 to C0, C10 and C15 (09 R246). -/
theorem test_hops : torusHops 5 0 = 2 ∧ torusHops 5 10 = 2 ∧ torusHops 5 15 = 4 := by decide +kernel
/-- A step takes the first command only. -/
theorem test_step_takes_the_front : (after (step { demo with pending := [.add 0 3 1 2, .sub 0 3 1 2] })).pending = [.sub 0 3 1 2] := by decide +kernel
/-- With no command waiting Meridian moves on by one tick (02 R43). -/
theorem test_step_ticks : (after (step State.reset)).now = 1 ∧ (after (step State.reset)).pending = [] := by decide +kernel

end Sys2Proof.Tests
end

section
/-! SUPPORT. How the shapes of the integer instructions complete: the destination takes the function of the sources, and the PC moves on (03 R57, R68 to R73). -/

namespace Sys2Proof.Machine

/-- A register-register form completes with its function of the two sources. -/
theorem alu2_completes {s s₁ : State} {t : Thr} (h : s.begins s₁ t) (f : Word → Word → Word) (rd rs1 rs2 : RegNo) {v : Word}
    (hv : f ((s₁.thr t).readG rs1) ((s₁.thr t).readG rs2) = v) :
    completes (alu2 f t rd rs1 rs2 s) s₁ t (((s₁.thr t).writeG rd v).past ((s₁.thr t).pc + 4)) := by
  subst hv
  exact State.run_completes h _ (fun x => x.writeG rd (f (x.readG rs1) (x.readG rs2))) _ rfl

/-- A form of one source completes with its function of the source. -/
theorem alu1_completes {s s₁ : State} {t : Thr} (h : s.begins s₁ t) (f : Word → Word) (rd rs1 : RegNo) {v : Word}
    (hv : f ((s₁.thr t).readG rs1) = v) :
    completes (alu1 f t rd rs1 s) s₁ t (((s₁.thr t).writeG rd v).past ((s₁.thr t).pc + 4)) := by
  subst hv
  exact State.run_completes h _ (fun x => x.writeG rd (f (x.readG rs1))) _ rfl

/-- A constant form completes with its function of the PC. -/
theorem alu0_completes {s s₁ : State} {t : Thr} (h : s.begins s₁ t) (f : Word → Word) (rd : RegNo) {v : Word}
    (hv : f (s₁.thr t).pc = v) :
    completes (alu0 f t rd s) s₁ t (((s₁.thr t).writeG rd v).past ((s₁.thr t).pc + 4)) := by
  subst hv
  exact State.run_completes h _ (fun x => x.writeG rd (f x.pc)) _ rfl

/-- A 32-bit shift by an immediate below 32 is a legal form of one source (03 R72). -/
theorem shiftW_of_lt (sel : Nat) (f : Word → Word) (t : Thr) (rd rs1 : RegNo) {amt : BitVec 6} (h : amt.toNat < 32) (s : State) :
    shiftW sel f t rd rs1 amt s = alu1 f t rd rs1 s := by
  have hbit : bit amt 5 = false := Nat.testBit_lt_two_pow h
  simp [shiftW, hbit]

/-- A 32-bit shift by an immediate below 32 completes with its function of the source. -/
theorem shiftW_completes {s s₁ : State} {t : Thr} (h : s.begins s₁ t) {amt : BitVec 6} (hamt : amt.toNat < 32) (sel : Nat)
    (f : Word → Word) (rd rs1 : RegNo) {v : Word} (hv : f ((s₁.thr t).readG rs1) = v) :
    completes (shiftW sel f t rd rs1 amt s) s₁ t (((s₁.thr t).writeG rd v).past ((s₁.thr t).pc + 4)) := by
  rw [shiftW_of_lt sel f t rd rs1 hamt]
  exact alu1_completes h f rd rs1 hv

end Sys2Proof.Machine
end

section
/-! PROOF. Saturating division as the spec states it, and the division forms (03 R69 to R71). -/

namespace Sys2Proof.Machine

/-- A non-zero divisor is all ones exactly when it reads as −1. -/
theorem eq_allOnes_iff_toInt {n : Nat} {y : BitVec n} (hy : y ≠ 0) : y = BitVec.allOnes n ↔ y.toInt = -1 := by
  have hn : 0 < n := Nat.pos_of_ne_zero (fun h => hy (by subst h; exact BitVec.of_length_zero))
  rw [← BitVec.toInt_inj, BitVec.toInt_allOnes, if_pos hn]

/-- Signed division saturates by zero and on overflow (03 R70). -/
theorem divS_eq (n : Nat) (x y : BitVec n) :
    divS n x y =
      if y = 0 then (if x.toInt < 0 then BitVec.intMin n else BitVec.intMax n)
      else if x = BitVec.intMin n ∧ y.toInt = -1 then BitVec.intMax n else BitVec.ofInt n (x.toInt.tdiv y.toInt) := by
  unfold divS
  by_cases hy : y = 0
  · simp only [hy, if_true]
  · simp only [hy, if_false, Bool.and_eq_true, decide_eq_true_eq, eq_allOnes_iff_toInt hy]

/-- The signed remainder of the most negative value by −1 is zero, so overflow needs no case of its own (03 R70). -/
theorem remS_eq (n : Nat) (x y : BitVec n) :
    remS n x y = if y = 0 then x else BitVec.ofInt n (x.toInt.tmod y.toInt) := by
  unfold remS
  by_cases hy : y = 0
  · simp only [hy, if_true]
  · simp only [hy, if_false, Bool.and_eq_true, decide_eq_true_eq, eq_allOnes_iff_toInt hy]
    split
    case isTrue hover => rw [hover.2, Int.tmod_neg, Int.tmod_one]; rfl
    case isFalse => rfl

end Sys2Proof.Machine

open Sys2Proof Sys2Proof.Machine

/-- Settles O2: each division form is a register-register form whose function is the saturating division of its width. -/
theorem divisionResults : Obligations.DivisionResults := by
  unfold Obligations.DivisionResults
  intro s s₁ t rd rs1 rs2 h
  dsimp only
  refine ⟨?div, ?rem, ?divu, ?remu, ?divw, ?remw, ?divuw, ?remuw⟩
  case div => exact alu2_completes h (divS 64) rd rs1 rs2 (divS_eq 64 _ _)
  case rem => exact alu2_completes h (remS 64) rd rs1 rs2 (remS_eq 64 _ _)
  case divu => exact alu2_completes h (divU 64) rd rs1 rs2 rfl
  case remu => exact alu2_completes h (remU 64) rd rs1 rs2 rfl
  case divw => exact alu2_completes h (fun x y => (divS 32 (x.setWidth 32) (y.setWidth 32)).signExtend 64) rd rs1 rs2 (by rw [divS_eq])
  case remw => exact alu2_completes h (fun x y => (remS 32 (x.setWidth 32) (y.setWidth 32)).signExtend 64) rd rs1 rs2 (by rw [remS_eq])
  case divuw => exact alu2_completes h (fun x y => (divU 32 (x.setWidth 32) (y.setWidth 32)).signExtend 64) rd rs1 rs2 rfl
  case remuw => exact alu2_completes h (fun x y => (remU 32 (x.setWidth 32) (y.setWidth 32)).signExtend 64) rd rs1 rs2 rfl

end

section
/-! PROOF. The counts, the byte reversal and the 32-bit shifts of one source, and the unary, immediate and constant forms (03 R63, R68, R72, R73). -/

namespace Sys2Proof.Machine

/-! Counts of zeros (03 R68). -/

/-- The place of the first hit below n + 1: the first place, or one past the place among the rest. -/
theorem findIdx_range_succ (p : Nat → Bool) (n : Nat) :
    (List.range (n + 1)).findIdx p = if p 0 then 0 else 1 + (List.range n).findIdx (fun i => p (i + 1)) := by
  rw [List.range_succ_eq_map, List.findIdx_cons, List.findIdx_map]
  cases p 0
  case false => exact Nat.add_comm _ 1
  case true => rfl

/-- Counting down from bit n, the leading zeros end at the place of the first one bit. -/
theorem leading_eq_findIdx (x : Word) (n : Nat) : leading x n = (List.range n).findIdx (fun i => x.getLsbD (n - 1 - i)) := by
  induction n with
  | zero => rfl
  | succ n ih => simp only [leading, ih, findIdx_range_succ, bit, Nat.add_sub_cancel, Nat.sub_zero, Nat.sub_sub, Nat.add_comm 1]

/-- Counting up from bit i, the trailing zeros end at the place of the first one bit. -/
theorem trailing_eq_findIdx (x : Word) (n i : Nat) : trailing x n i = (List.range n).findIdx (fun k => x.getLsbD (i + k)) := by
  induction n generalizing i with
  | zero => rfl
  | succ n ih => simp only [trailing, ih, findIdx_range_succ, bit, Nat.add_zero, Nat.add_assoc, Nat.add_comm 1]

/-! The bytes of a number, and their reversal (03 R68). -/

/-- Byte i of the number that a list of bytes spells is the list's entry, zero beyond its end. -/
theorem leNat_byte (l : List Byte) (i : Nat) : Crypto.leNat l / 256 ^ i % 256 = (l.getD i 0).toNat := by
  induction l generalizing i with
  | nil => simp [Crypto.leNat]
  | cons b r ih =>
    have hb : b.toNat < 256 := b.isLt
    cases i with
    | zero => simp only [Crypto.leNat, pow_zero, Nat.div_one, List.getD_cons_zero]; omega
    | succ i =>
      have hdrop : (b.toNat + 256 * Crypto.leNat r) / 256 = Crypto.leNat r := by omega
      rw [Crypto.leNat, pow_succ', ← Nat.div_div_eq_div_mul, hdrop, ih, List.getD_cons_succ]

/-- A list of bytes spells a number below 256 to its length. -/
theorem leNat_lt (l : List Byte) : Crypto.leNat l < 256 ^ l.length := by
  induction l with
  | nil => simp [Crypto.leNat]
  | cons b r ih =>
    have hb : b.toNat < 256 := b.isLt
    rw [Crypto.leNat, List.length_cons, pow_succ]
    omega

/-- Entry i of a number's bytes is its byte i. -/
theorem leBytes_getElem? (n v i : Nat) (h : i < n) : (Crypto.leBytes n v)[i]? = some (BitVec.ofNat 8 (v / 256 ^ i)) := by
  induction n generalizing v i with
  | zero => omega
  | succ n ih =>
    cases i with
    | zero => simp [Crypto.leBytes]
    | succ i => rw [Crypto.leBytes, List.getElem?_cons_succ, ih _ _ (by omega), Nat.div_div_eq_div_mul, ← pow_succ']

/-- Bits [8i+7:8i] of a word are byte i of its number. -/
theorem fieldOf_byte {n : Nat} (w : BitVec n) (i : Nat) : fieldOf w (8 * i + 7) (8 * i) = w.toNat / 256 ^ i % 256 := by
  have hw : 8 * i + 7 + 1 - 8 * i = 8 := by omega
  rw [fieldOf, hw, Nat.pow_mul, show 2 ^ 8 = 256 from rfl]

/-- Byte i of the reversed word is byte 7 − i of the word (03 R68). -/
theorem rev8_byte (a : Word) {i : Nat} (h : i < 8) :
    fieldOf (rev8 a) (8 * i + 7) (8 * i) = fieldOf a (8 * (7 - i) + 7) (8 * (7 - i)) := by
  have hlt : Crypto.leNat (Crypto.leBytes 8 a.toNat).reverse < 2 ^ 64 := by
    simpa using leNat_lt (Crypto.leBytes 8 a.toNat).reverse
  have hentry : (Crypto.leBytes 8 a.toNat).reverse[i]? = some (BitVec.ofNat 8 (a.toNat / 256 ^ (7 - i))) := by
    rw [List.getElem?_reverse (by simpa using h), leBytes_length, Nat.sub_right_comm]
    exact leBytes_getElem? 8 _ _ (by omega)
  rw [fieldOf_byte, fieldOf_byte, rev8, BitVec.toNat_ofNat, Nat.mod_eq_of_lt hlt, leNat_byte, List.getD_eq_getElem?_getD, hentry]
  rfl

/-! The low half of a word (03 R71, R72). -/

/-- The mask of the low half keeps it and clears the rest. -/
theorem and_low32 (x : Word) : x &&& 0xFFFFFFFF = (x.setWidth 32).setWidth 64 := by
  apply BitVec.eq_of_toNat_eq
  have hmask : (x &&& 0xFFFFFFFF).toNat = x.toNat % 2 ^ 32 := Nat.and_two_pow_sub_one_eq_mod x.toNat 32
  rw [hmask, BitVec.toNat_setWidth_of_le (by decide), BitVec.toNat_setWidth]

/-- A 32-bit shift left. -/
theorem sext32_shiftLeft (x : Word) (k : Nat) : sext32 (x <<< k) = (x.setWidth 32 <<< k).signExtend 64 := by
  rw [sext32, BitVec.setWidth_shiftLeft_of_le (by decide)]

/-- A 32-bit shift right with zero fill. -/
theorem sext32_low_ushiftRight (x : Word) (k : Nat) : sext32 ((x &&& 0xFFFFFFFF) >>> k) = (x.setWidth 32 >>> k).signExtend 64 := by
  rw [sext32, and_low32, ← BitVec.setWidth_ushiftRight (by decide), BitVec.setWidth_setWidth_of_le _ (by decide), BitVec.setWidth_eq]

/-- A 32-bit shift right with sign fill. -/
theorem sext32_sshiftRight (x : Word) (k : Nat) : (sext32 x).sshiftRight k = ((x.setWidth 32).sshiftRight k).signExtend 64 := by
  apply BitVec.eq_of_toInt_eq
  rw [sext32, BitVec.toInt_sshiftRight, BitVec.toInt_signExtend_of_le (by decide), BitVec.toInt_signExtend_of_le (by decide),
    BitVec.toInt_sshiftRight]

end Sys2Proof.Machine

open Sys2Proof Sys2Proof.Machine

/-- Settles O3: each form is a function of one source or of the PC, and the counts, the byte reversal and the 32-bit shifts are those of the spec. -/
theorem unaryAndImmediateResults : Obligations.UnaryAndImmediateResults := by
  unfold Obligations.UnaryAndImmediateResults
  intro s s₁ t rd rs1 imm amt wide h
  dsimp only
  refine ⟨?clz, ?ctz, ?popc, ?sextB, ?sextH, ?sextW, ?zextW, ?rev8, ?addi, ?andi, ?ori, ?xori, ?slti, ?sltiu, ?addiw,
    ?slli, ?srli, ?srai, ?rori, ?shiftsW, ?lui, ?auipc⟩
  case clz => exact alu1_completes h (fun x => BitVec.ofNat 64 (leading x 64)) rd rs1 (by rw [leading_eq_findIdx])
  case ctz => exact alu1_completes h (fun x => BitVec.ofNat 64 (trailing x 64 0)) rd rs1 (by simp only [trailing_eq_findIdx, Nat.zero_add])
  case popc => exact alu1_completes h (fun x => BitVec.ofNat 64 ((List.range 64).countP (fun i => bit x i))) rd rs1 rfl
  case sextB => exact alu1_completes h (fun x => (x.setWidth 8).signExtend 64) rd rs1 rfl
  case sextH => exact alu1_completes h (fun x => (x.setWidth 16).signExtend 64) rd rs1 rfl
  case sextW => exact alu1_completes h sext32 rd rs1 rfl
  case zextW => exact alu1_completes h (fun x => x &&& 0xFFFFFFFF) rd rs1 (and_low32 _)
  case rev8 => exact ⟨_, alu1_completes h rev8 rd rs1 rfl, fun i hi => rev8_byte _ hi⟩
  case addi => exact alu1_completes h (fun x => x + sext imm) rd rs1 rfl
  case andi => exact alu1_completes h (fun x => x &&& zext imm) rd rs1 rfl
  case ori => exact alu1_completes h (fun x => x ||| zext imm) rd rs1 rfl
  case xori => exact alu1_completes h (fun x => x ^^^ zext imm) rd rs1 rfl
  case slti => exact alu1_completes h (fun x => if x.slt (sext imm) then 1 else 0) rd rs1 (by simp only [BitVec.slt_iff_toInt_lt, sext])
  case sltiu => exact alu1_completes h (fun x => if x.ult (sext imm) then 1 else 0) rd rs1 (by simp only [BitVec.ult_iff_toNat_lt, sext])
  case addiw => exact alu1_completes h (fun x => sext32 (x + sext imm)) rd rs1 rfl
  case slli => exact alu1_completes h (fun x => x <<< amt.toNat) rd rs1 rfl
  case srli => exact alu1_completes h (fun x => x >>> amt.toNat) rd rs1 rfl
  case srai => exact alu1_completes h (fun x => x.sshiftRight amt.toNat) rd rs1 rfl
  case rori => exact alu1_completes h (fun x => x.rotateRight amt.toNat) rd rs1 rfl
  case shiftsW =>
    intro hamt
    exact ⟨shiftW_completes h hamt 8 (fun x => sext32 (x <<< amt.toNat)) rd rs1 (sext32_shiftLeft _ _),
      shiftW_completes h hamt 9 (fun x => sext32 ((x &&& 0xFFFFFFFF) >>> amt.toNat)) rd rs1 (sext32_low_ushiftRight _ _),
      shiftW_completes h hamt 10 (fun x => (sext32 x).sshiftRight amt.toNat) rd rs1 (sext32_sshiftRight _ _)⟩
  case lui => exact alu0_completes h (fun _ => sext wide <<< (16 : Nat)) rd rfl
  case auipc => exact alu0_completes h (fun pc => pc + sext wide <<< (12 : Nat)) rd rfl

end

section
/-! PROOF. The register-register integer forms: minima and maxima by their order, 32-bit forms on the low halves (03 R68 to R71). -/

namespace Sys2Proof.Machine

/-- Of two equal words either is the smaller one, so the signed choice by < is the one by ≤. -/
theorem ite_slt_eq_ite_le {a b x y : Word} (h : a = b → x = y) : (if a.slt b then x else y) = if a.toInt ≤ b.toInt then x else y := by
  simp only [BitVec.slt_iff_toInt_lt]
  by_cases hlt : a.toInt < b.toInt
  · rw [if_pos hlt, if_pos (Int.le_of_lt hlt)]
  · rw [if_neg hlt]
    split
    case isTrue hle => exact (h (BitVec.eq_of_toInt_eq (by omega))).symm
    case isFalse => rfl

/-- The unsigned choice by < is the one by ≤. -/
theorem ite_ult_eq_ite_le {a b x y : Word} (h : a = b → x = y) : (if a.ult b then x else y) = if a.toNat ≤ b.toNat then x else y := by
  simp only [BitVec.ult_iff_toNat_lt]
  by_cases hlt : a.toNat < b.toNat
  · rw [if_pos hlt, if_pos (Nat.le_of_lt hlt)]
  · rw [if_neg hlt]
    split
    case isTrue hle => exact (h (BitVec.eq_of_toNat_eq (by omega))).symm
    case isFalse => rfl

end Sys2Proof.Machine

open Sys2Proof Sys2Proof.Machine

/-- Settles O1: each form is a register-register form with the function that the spec names. -/
theorem registerResults : Obligations.RegisterResults := by
  unfold Obligations.RegisterResults
  intro s s₁ t rd rs1 rs2 h
  dsimp only
  refine ⟨?add, ?sub, ?and, ?or, ?xor, ?andn, ?sll, ?srl, ?sra, ?rol, ?ror, ?slt, ?sltu, ?min, ?max, ?minu, ?maxu,
    ?mul, ?mulh, ?mulhu, ?mulhsu, ?addw, ?subw, ?sllw, ?srlw, ?sraw, ?mulw⟩
  case add => exact alu2_completes h (fun x y => x + y) rd rs1 rs2 rfl
  case sub => exact alu2_completes h (fun x y => x - y) rd rs1 rs2 rfl
  case and => exact alu2_completes h (fun x y => x &&& y) rd rs1 rs2 rfl
  case or => exact alu2_completes h (fun x y => x ||| y) rd rs1 rs2 rfl
  case xor => exact alu2_completes h (fun x y => x ^^^ y) rd rs1 rs2 rfl
  case andn => exact alu2_completes h (fun x y => x &&& ~~~ y) rd rs1 rs2 rfl
  case sll => exact alu2_completes h (fun x y => x <<< (y.toNat % 64)) rd rs1 rs2 rfl
  case srl => exact alu2_completes h (fun x y => x >>> (y.toNat % 64)) rd rs1 rs2 rfl
  case sra => exact alu2_completes h (fun x y => x.sshiftRight (y.toNat % 64)) rd rs1 rs2 rfl
  case rol => exact alu2_completes h (fun x y => x.rotateLeft (y.toNat % 64)) rd rs1 rs2 rfl
  case ror => exact alu2_completes h (fun x y => x.rotateRight (y.toNat % 64)) rd rs1 rs2 rfl
  case slt => exact alu2_completes h (fun x y => if x.slt y then 1 else 0) rd rs1 rs2 (by simp only [BitVec.slt_iff_toInt_lt])
  case sltu => exact alu2_completes h (fun x y => if x.ult y then 1 else 0) rd rs1 rs2 (by simp only [BitVec.ult_iff_toNat_lt])
  case min => exact alu2_completes h (fun x y => if x.slt y then x else y) rd rs1 rs2 (ite_slt_eq_ite_le id)
  case max => exact alu2_completes h (fun x y => if x.slt y then y else x) rd rs1 rs2 (ite_slt_eq_ite_le Eq.symm)
  case minu => exact alu2_completes h (fun x y => if x.ult y then x else y) rd rs1 rs2 (ite_ult_eq_ite_le id)
  case maxu => exact alu2_completes h (fun x y => if x.ult y then y else x) rd rs1 rs2 (ite_ult_eq_ite_le Eq.symm)
  case mul => exact alu2_completes h (fun x y => x * y) rd rs1 rs2 rfl
  case mulh => exact alu2_completes h (fun x y => BitVec.ofInt 64 (x.toInt * y.toInt / 2 ^ 64)) rd rs1 rs2 rfl
  case mulhu => exact alu2_completes h (fun x y => BitVec.ofNat 64 (x.toNat * y.toNat / 2 ^ 64)) rd rs1 rs2 rfl
  case mulhsu => exact alu2_completes h (fun x y => BitVec.ofInt 64 (x.toInt * (y.toNat : Int) / 2 ^ 64)) rd rs1 rs2 rfl
  case addw => exact alu2_completes h (fun x y => sext32 (x + y)) rd rs1 rs2 rfl
  case subw => exact alu2_completes h (fun x y => sext32 (x - y)) rd rs1 rs2 rfl
  case sllw => exact alu2_completes h (fun x y => sext32 (x <<< (y.toNat % 32))) rd rs1 rs2 (sext32_shiftLeft _ _)
  case srlw => exact alu2_completes h (fun x y => sext32 ((x &&& 0xFFFFFFFF) >>> (y.toNat % 32))) rd rs1 rs2 (sext32_low_ushiftRight _ _)
  case sraw => exact alu2_completes h (fun x y => (sext32 x).sshiftRight (y.toNat % 32)) rd rs1 rs2 (sext32_sshiftRight _ _)
  case mulw => exact alu2_completes h (fun x y => sext32 (x * y)) rd rs1 rs2 rfl

end

section
/-! PROOF. A jump to a misaligned target (03 R59, R75). -/

open Sys2Proof Sys2Proof.Machine

/-- Settles O5: the target is computed before anything is written, and its check comes first. -/
theorem misalignedJumpFaults : Obligations.MisalignedJumpFaults := by
  unfold Obligations.MisalignedJumpFaults
  intro s s₁ t rd rs1 imm hstart x target hmis
  have hrun : exec (.jr t rd rs1 imm) s = execJr t rd rs1 imm s := rfl
  rw [hrun, execJr, State.run, hstart]
  exact congrArg Host.Outcome.next (if_pos hmis)

end

section
/-! PROOF. Floating-point operations that trap nothing (03 R88 to R94). -/

namespace Sys2Proof.Machine

variable {s s₁ : State} {t : Thr}

/-- A result none of whose flags is enabled raises its flags and is written. -/
theorem State.fpDone_of_not_enabled (s : State) (t : Nat) (r : Fp.Res) (write : Thread → Word → Thread)
    (hen : Fp.enabled (s.thr t).fcsr r.flags = false) :
    s.fpDone t r write = s.finish t (s.thr t).npc (fun x => write { x with fcsr := Fp.raise x.fcsr r.flags } r.bits) := by
  simp only [State.fpDone, hen, Bool.false_eq_true, if_false]

/-- An operation that does not round completes with its result. -/
theorem fpPlain_completes (h : s.begins s₁ t) (f : Thread → Fp.Res) (write : Thread → Word → Thread) {r : Fp.Res}
    (hr : f (s₁.thr t) = r) (hen : Fp.enabled (s₁.thr t).fcsr r.flags = false) :
    completes (fpPlain t f write s) s₁ t
      ((write { s₁.thr t with fcsr := Fp.raise (s₁.thr t).fcsr r.flags } r.bits).past ((s₁.thr t).pc + 4)) := by
  subst hr
  exact State.run_completes h _ (fun x => write { x with fcsr := Fp.raise x.fcsr (f (s₁.thr t)).flags } (f (s₁.thr t)).bits)
    (fun s => s.fpDone t (f (s.thr t)) write) (State.fpDone_of_not_enabled s₁ t _ write hen)

/-- An operation that rounds in a mode that exists completes with its result in that mode. -/
theorem fpRound_completes (h : s.begins s₁ t) {rm : BitVec 3} {m : Nat} (hm : roundingMode (s₁.thr t).fcsr rm = some m)
    (word : BitVec 32) (f : Thread → Nat → Fp.Res) (write : Thread → Word → Thread) {r : Fp.Res}
    (hr : f (s₁.thr t) m = r) (hen : Fp.enabled (s₁.thr t).fcsr r.flags = false) :
    completes (fpRound t word rm f write s) s₁ t
      ((write { s₁.thr t with fcsr := Fp.raise (s₁.thr t).fcsr r.flags } r.bits).past ((s₁.thr t).pc + 4)) := by
  subst hr
  refine State.run_completes h _ (fun x => write { x with fcsr := Fp.raise x.fcsr (f (s₁.thr t) m).flags } (f (s₁.thr t) m).bits) _ ?_
  simp only [hm]
  exact State.fpDone_of_not_enabled s₁ t _ write hen

/-- A conversion that rounds in one format only rounds as any other where its field is legal. -/
theorem fpRoundIf_of_legal (rounds : Bool) (t : Thr) (word : BitVec 32) {rm : BitVec 3} (f : Thread → Nat → Fp.Res)
    (write : Thread → Word → Thread) (s : State) (h : rounds = true ∨ rm = 0) :
    fpRoundIf rounds t word rm f write s = fpRound t word rm f write s := by
  rcases h with rfl | rfl <;> simp [fpRoundIf]

/-- A conversion with a legal rounding field completes with its result. -/
theorem fpRoundIf_completes (h : s.begins s₁ t) {rm : BitVec 3} {m : Nat} (hm : roundingMode (s₁.thr t).fcsr rm = some m)
    {rounds : Bool} (hlegal : rounds = true ∨ rm = 0)
    (word : BitVec 32) (f : Thread → Nat → Fp.Res) (write : Thread → Word → Thread) {r : Fp.Res}
    (hr : f (s₁.thr t) m = r) (hen : Fp.enabled (s₁.thr t).fcsr r.flags = false) :
    completes (fpRoundIf rounds t word rm f write s) s₁ t
      ((write { s₁.thr t with fcsr := Fp.raise (s₁.thr t).fcsr r.flags } r.bits).past ((s₁.thr t).pc + 4)) := by
  rw [fpRoundIf_of_legal rounds t word f write s hlegal]
  exact fpRound_completes h hm word f write hr hen

end Sys2Proof.Machine

open Sys2Proof Sys2Proof.Machine

/-- Settles O6: each operation is a plain or a rounding form whose function is the one of its name. -/
theorem floatingPointResults : Obligations.FloatingPointResults := by
  unfold Obligations.FloatingPointResults
  intro s s₁ t rd rs1 rs2 rs3 p rm m h hm
  dsimp only
  have hlegal (hp : p = false ∨ rm = 0) : (!p) = true ∨ rm = 0 := hp.imp_left (by simp)
  refine ⟨?fadd, ?fsub, ?fmul, ?fdiv, ?fsqrt, ?fmin, ?fmax, ?fsign, ?fsignn, ?fsignx, ?feq, ?flt, ?fle, ?fkind, ?fcvtFF,
    ?fcvtWF, ?fcvtWuF, ?fcvtLF, ?fcvtLuF, ?fcvtFW, ?fcvtFL, ?fcvtFLu, ?fmvGF, ?fmvFG, ?fmadd, ?fmsub, ?fnmadd, ?fnmsub⟩
  case fadd => exact fpRound_completes h hm _ (fun x m => Fp.add p m (x.readF rs1) (x.readF rs2)) (fun x v => x.writeF rd v) rfl
  case fsub => exact fpRound_completes h hm _ (fun x m => Fp.sub p m (x.readF rs1) (x.readF rs2)) (fun x v => x.writeF rd v) rfl
  case fmul => exact fpRound_completes h hm _ (fun x m => Fp.mul p m (x.readF rs1) (x.readF rs2)) (fun x v => x.writeF rd v) rfl
  case fdiv => exact fpRound_completes h hm _ (fun x m => Fp.div p m (x.readF rs1) (x.readF rs2)) (fun x v => x.writeF rd v) rfl
  case fsqrt => exact fpRound_completes h hm _ (fun x m => Fp.sqrt p m (x.readF rs1)) (fun x v => x.writeF rd v) rfl
  case fmin => exact fpPlain_completes h (fun x => Fp.minMax p false (x.readF rs1) (x.readF rs2)) (fun x v => x.writeF rd v) rfl
  case fmax => exact fpPlain_completes h (fun x => Fp.minMax p true (x.readF rs1) (x.readF rs2)) (fun x v => x.writeF rd v) rfl
  case fsign => exact fpPlain_completes h (fun x => ⟨Fp.withSign p (x.readF rs1) (Fp.signOf p (x.readF rs2)), 0⟩) (fun x v => x.writeF rd v) rfl
  case fsignn => exact fpPlain_completes h (fun x => ⟨Fp.withSign p (x.readF rs1) (!Fp.signOf p (x.readF rs2)), 0⟩) (fun x v => x.writeF rd v) rfl
  case fsignx => exact fpPlain_completes h (fun x => ⟨Fp.withSign p (x.readF rs1) (Fp.signOf p (x.readF rs1) != Fp.signOf p (x.readF rs2)), 0⟩) (fun x v => x.writeF rd v) rfl
  case feq => exact fpPlain_completes h (fun x => Fp.compare p 0 (x.readF rs1) (x.readF rs2)) (fun x v => x.writeG rd v) rfl
  case flt => exact fpPlain_completes h (fun x => Fp.compare p 1 (x.readF rs1) (x.readF rs2)) (fun x v => x.writeG rd v) rfl
  case fle => exact fpPlain_completes h (fun x => Fp.compare p 2 (x.readF rs1) (x.readF rs2)) (fun x v => x.writeG rd v) rfl
  case fkind => exact fpPlain_completes h (fun x => ⟨Fp.kind p (x.readF rs1), 0⟩) (fun x v => x.writeG rd v) rfl
  case fcvtFF =>
    intro hp
    exact fpRoundIf_completes h hm (hlegal hp) _ (fun x m => Fp.convert p m (x.readF rs1)) (fun x v => x.writeF rd v) rfl
  case fcvtWF => exact fpRound_completes h hm _ (fun x m => Fp.toInt p m true 32 (x.readF rs1)) (fun x v => x.writeG rd v) rfl
  case fcvtWuF => exact fpRound_completes h hm _ (fun x m => Fp.toInt p m false 32 (x.readF rs1)) (fun x v => x.writeG rd v) rfl
  case fcvtLF => exact fpRound_completes h hm _ (fun x m => Fp.toInt p m true 64 (x.readF rs1)) (fun x v => x.writeG rd v) rfl
  case fcvtLuF => exact fpRound_completes h hm _ (fun x m => Fp.toInt p m false 64 (x.readF rs1)) (fun x v => x.writeG rd v) rfl
  case fcvtFW =>
    intro hp
    exact ⟨fpRoundIf_completes h hm (hlegal hp) _ (fun x m => Fp.ofInt p m ((x.readG rs1).setWidth 32).toInt) (fun x v => x.writeF rd v) rfl,
      fpRoundIf_completes h hm (hlegal hp) _ (fun x m => Fp.ofInt p m ((x.readG rs1).setWidth 32).toNat) (fun x v => x.writeF rd v) rfl⟩
  case fcvtFL => exact fpRoundIf_completes h hm (.inl rfl) _ (fun x m => Fp.ofInt p m (x.readG rs1).toInt) (fun x v => x.writeF rd v) rfl
  case fcvtFLu => exact fpRoundIf_completes h hm (.inl rfl) _ (fun x m => Fp.ofInt p m (x.readG rs1).toNat) (fun x v => x.writeF rd v) rfl
  case fmvGF => exact fpPlain_completes h (fun x => ⟨if p then x.readF rs1 else sext32 (x.readF rs1), 0⟩) (fun x v => x.writeG rd v) rfl
  case fmvFG =>
    rw [← and_low32]
    exact fpPlain_completes h (fun x => ⟨if p then x.readG rs1 else x.readG rs1 &&& 0xFFFFFFFF, 0⟩) (fun x v => x.writeF rd v) rfl
  case fmadd => exact fpRound_completes h hm _ (fun x m => Fp.fma p m false false (x.readF rs1) (x.readF rs2) (x.readF rs3)) (fun x v => x.writeF rd v) rfl
  case fmsub => exact fpRound_completes h hm _ (fun x m => Fp.fma p m false true (x.readF rs1) (x.readF rs2) (x.readF rs3)) (fun x v => x.writeF rd v) rfl
  case fnmadd => exact fpRound_completes h hm _ (fun x m => Fp.fma p m true true (x.readF rs1) (x.readF rs2) (x.readF rs3)) (fun x v => x.writeF rd v) rfl
  case fnmsub => exact fpRound_completes h hm _ (fun x m => Fp.fma p m true false (x.readF rs1) (x.readF rs2) (x.readF rs3)) (fun x v => x.writeF rd v) rfl

end

section
/-! PROOF. The register file (03 R57). -/

namespace Sys2Proof.Machine

/-- A read of a general register after a write. -/
theorem Thread.readG_writeG (x : Thread) (r q : RegNo) (v : Word) :
    (x.writeG r v).readG q = if q = r ∧ r ≠ 0 then v else x.readG q := by
  by_cases hr : r = 0
  · simp [Thread.writeG, hr]
  · by_cases hq : q = r
    · simp [Thread.writeG, Thread.readG, hq, hr]
    · simp [Thread.writeG, Thread.readG, hq, hr, Tbl.get_set, Fin.val_inj]

/-- A read of a floating-point register after a write. -/
theorem Thread.readF_writeF (x : Thread) (r q : RegNo) (v : Word) : (x.writeF r v).readF q = if q = r then v else x.readF q := by
  simp [Thread.writeF, Thread.readF, Tbl.get_set, Fin.val_inj]

/-- A write of a general register leaves the floating-point registers alone. -/
theorem Thread.readF_writeG (x : Thread) (r q : RegNo) (v : Word) : (x.writeG r v).readF q = x.readF q := by
  unfold Thread.writeG
  split <;> rfl

end Sys2Proof.Machine

open Sys2Proof Sys2Proof.Machine

/-- Settles O8: a register is its own entry of its table, and g0 none. -/
theorem registerFile : Obligations.RegisterFile := by
  unfold Obligations.RegisterFile
  intro x r q v
  exact ⟨rfl, rfl, x.readG_writeG r q v, x.readF_writeF r q v, x.readF_writeG r q v, rfl⟩

end

section
/-! PROOF. The values of the atomics (03 R83 to R85). -/

namespace Sys2Proof.Machine

/-- The low half of a sign-extended low half is the low half. -/
theorem setWidth_sext32 (x : Word) : (sext32 x).setWidth 32 = x.setWidth 32 := by
  refine BitVec.eq_of_getLsbD_eq fun i hi => ?_
  have hi64 : i < 64 := by omega
  simp only [sext32, BitVec.getLsbD_setWidth, BitVec.getLsbD_signExtend, hi, hi64, decide_true, Bool.true_and, if_true]

/-- Sign extension keeps the signed value of the low half. -/
theorem toInt_sext32 (x : Word) : (sext32 x).toInt = (x.setWidth 32).toInt := BitVec.toInt_signExtend_of_le (by decide)

/-- Sign extension moves the values from 2³¹ on to the top and keeps the others. -/
theorem toNat_sext32 (x : Word) :
    (sext32 x).toNat = (x.setWidth 32).toNat + if 2 ^ 31 ≤ (x.setWidth 32).toNat then 2 ^ 64 - 2 ^ 32 else 0 := by
  have hmsb : (x.setWidth 32).msb = decide (2 ^ 31 ≤ (x.setWidth 32).toNat) := BitVec.msb_eq_decide _
  rw [sext32, BitVec.toNat_signExtend, hmsb, BitVec.toNat_setWidth_of_le (by decide)]
  simp only [decide_eq_true_eq]

/-- Sign extension keeps the unsigned order of low halves. -/
theorem toNat_sext32_le_iff (x y : Word) : (sext32 x).toNat ≤ (sext32 y).toNat ↔ (x.setWidth 32).toNat ≤ (y.setWidth 32).toNat := by
  have hx := (x.setWidth 32).isLt
  have hy := (y.setWidth 32).isLt
  rw [toNat_sext32, toNat_sext32]
  split <;> split <;> omega

/-- Two low halves are equal exactly when their sign extensions are. -/
theorem sext32_inj (x y : Word) : sext32 x = sext32 y ↔ x.setWidth 32 = y.setWidth 32 := by
  rw [← BitVec.toInt_inj, toInt_sext32, toInt_sext32, BitVec.toInt_inj]

/-- The low half of a choice between sign extensions is the choice between low halves. -/
theorem setWidth_ite_sext32 {p q : Prop} [Decidable p] [Decidable q] (h : p ↔ q) (x y : Word) :
    (if p then sext32 x else sext32 y).setWidth 32 = if q then x.setWidth 32 else y.setWidth 32 := by
  simp only [h]
  rw [apply_ite (BitVec.setWidth 32), setWidth_sext32, setWidth_sext32]

end Sys2Proof.Machine

open Sys2Proof Sys2Proof.Machine

/-- Settles O15: a double-word operation works on whole words, and a word operation on sign extensions, which keep sums, orders and equality of low halves. -/
theorem atomicValues : Obligations.AtomicValues := by
  unfold Obligations.AtomicValues
  intro old a b
  dsimp only
  have hsext (x : Word) : extend true 4 x = sext32 x := rfl
  refine ⟨rfl, rfl, rfl, rfl, rfl, ?dsmin, ?dsmax, ?dumin, ?dumax, rfl, ?wswp, ?wadd, ?wand, ?wor, ?wxor, ?wsmin, ?wsmax, ?wumin, ?wumax, ?wcas⟩
  case dsmin => exact congrArg some (ite_slt_eq_ite_le id)
  case dsmax => exact congrArg some (ite_slt_eq_ite_le Eq.symm)
  case dumin => exact congrArg some (ite_ult_eq_ite_le id)
  case dumax => exact congrArg some (ite_ult_eq_ite_le Eq.symm)
  case wswp => exact congrArg some (setWidth_sext32 a)
  all_goals simp only [amoNew, hsext, Option.map_some, Option.some.injEq]
  case wadd => rw [BitVec.setWidth_add _ _ (by decide), setWidth_sext32, setWidth_sext32]
  case wand => rw [BitVec.setWidth_and, setWidth_sext32, setWidth_sext32]
  case wor => rw [BitVec.setWidth_or, setWidth_sext32, setWidth_sext32]
  case wxor => rw [BitVec.setWidth_xor, setWidth_sext32, setWidth_sext32]
  case wsmin => rw [ite_slt_eq_ite_le id, setWidth_ite_sext32 (by rw [toInt_sext32, toInt_sext32])]
  case wsmax => rw [ite_slt_eq_ite_le Eq.symm, setWidth_ite_sext32 (by rw [toInt_sext32, toInt_sext32])]
  case wumin => rw [ite_ult_eq_ite_le id, setWidth_ite_sext32 (toNat_sext32_le_iff _ _)]
  case wumax => rw [ite_ult_eq_ite_le Eq.symm, setWidth_ite_sext32 (toNat_sext32_le_iff _ _)]
  case wcas => simp only [sext32_inj, apply_ite (Option.map _), Option.map_some, Option.map_none]

end

section
/-! PROOF. Reset and the tick of an idle block (02 R41 to R48; 18 R399, R400, R408). -/

namespace Sys2Proof.Machine

/-- Two states agree on what a tick leaves alone: the queue, the threads, memory, the net and, until the master moves, its count. -/
structure State.IdleSame (s u : State) : Prop where
  pending : u.pending = s.pending
  threads : u.threads = s.threads
  mem : u.mem = s.mem
  net : u.net = s.net
  now : u.now = s.now

theorem State.IdleSame.trans {s u v : State} (h : s.IdleSame u) (k : u.IdleSame v) : s.IdleSame v :=
  ⟨k.pending.trans h.pending, k.threads.trans h.threads, k.mem.trans h.mem, k.net.trans h.net, k.now.trans h.now⟩

/-- A fold of steps that each leave those alone leaves them alone. -/
theorem State.idleSame_foldl {α : Type} (f : State → α → State) (hf : ∀ (s : State) (a : α), s.IdleSame (f s a)) (l : List α) (s : State) :
    s.IdleSame (l.foldl f s) := by
  induction l generalizing s with
  | nil => exact ⟨rfl, rfl, rfl, rfl, rfl⟩
  | cons a l ih => exact (hf s a).trans (ih _)

theorem State.slewTick_idleSame (s : State) : s.IdleSame s.slewTick.1 := by
  unfold State.slewTick
  split
  · exact ⟨rfl, rfl, rfl, rfl, rfl⟩
  · split <;> exact ⟨rfl, rfl, rfl, rfl, rfl⟩

theorem State.ppsTick_idleSame (s : State) : s.IdleSame s.ppsTick.1 := by
  unfold State.ppsTick
  dsimp only
  split
  · exact ⟨rfl, rfl, rfl, rfl, rfl⟩
  · split <;> exact ⟨rfl, rfl, rfl, rfl, rfl⟩

theorem State.diesShift_idleSame (s : State) (k : Int) : s.IdleSame (s.diesShift k) := by
  unfold State.diesShift
  split
  · exact ⟨rfl, rfl, rfl, rfl, rfl⟩
  · refine State.idleSame_foldl _ (fun u d => ?_) _ s
    exact ⟨rfl, rfl, rfl, rfl, rfl⟩

theorem State.regsTick_idleSame (s : State) (m n : Nat) : s.IdleSame (s.regsTick m n) := by
  unfold State.regsTick
  split
  · exact ⟨rfl, rfl, rfl, rfl, rfl⟩
  · refine State.idleSame_foldl _ (fun s p => ?_) _ s
    split <;> exact ⟨rfl, rfl, rfl, rfl, rfl⟩

/-- Each die's copy over one tick (02 R43). -/
def State.diesTick (s : State) : State :=
  { s with dies := s.dies.foldl (fun (r : Tbl Die) (p : Nat × Die) => Tbl.set Die.reset r p.1 { p.2 with time := p.2.time.tick }) [] }

theorem State.diesTick_idleSame (s : State) : s.IdleSame s.diesTick := ⟨rfl, rfl, rfl, rfl, rfl⟩

/-- The ticks of Meridian by which one tick moves the master (02 R43, R46, R48). -/
def State.tickStep (s : State) : Nat := (1 + s.slewTick.2 + s.slewTick.1.ppsTick.2).toNat

/-- A tick moves the master, the dies' copies and the regulators alone. -/
theorem State.tick_same (s : State) :
    s.tick.pending = s.pending ∧ s.tick.threads = s.threads ∧ s.tick.mem = s.mem ∧ s.tick.net = s.net ∧
      s.tick.now = s.now + BitVec.ofNat 64 s.tickStep := by
  have hclocks := (s.slewTick_idleSame.trans s.slewTick.1.ppsTick_idleSame).trans (State.diesShift_idleSame _ (1 - s.tickStep))
  have hcopies := hclocks.trans (State.diesTick_idleSame _)
  have hall (m n : Nat) := hcopies.trans (State.regsTick_idleSame _ m n)
  exact ⟨(hall _ _).pending, (hall _ _).threads, (hall _ _).mem, (hall _ _).net, congrArg (· + BitVec.ofNat 64 s.tickStep) hcopies.now⟩

/-- A master that is neither slewed nor disciplined moves by one tick. -/
theorem State.tickStep_eq_one (s : State) (hslew : s.slew = 0) (hrate : s.ppsRate = 0) (hacc : s.ppsAcc.natAbs < ppsTicks) : s.tickStep = 1 := by
  have hs : s.slewTick = (s, 0) := by simp [State.slewTick, hslew]
  have hp : s.ppsTick.2 = 0 := by
    unfold State.ppsTick
    dsimp only
    rw [hrate, if_neg (by omega), if_neg (by omega)]
  simp [State.tickStep, hs, hp]

end Sys2Proof.Machine

open Sys2Proof Sys2Proof.Machine

/-- Settles O58: an idle step is a tick. -/
theorem stepTakesFront : Obligations.StepTakesFront := by
  unfold Obligations.StepTakesFront
  intro s c rest
  refine ⟨rfl, fun hempty => ⟨s.tick, by rw [step, hempty], ?_⟩⟩
  obtain ⟨hp, ht, hm, hn, hnow⟩ := s.tick_same
  refine ⟨hp.trans hempty, ht, hm, hn, fun hslew hrate hacc => ?_⟩
  rw [hnow, s.tickStep_eq_one hslew hrate hacc]
  rfl

/-- Settles O59: every table of the state after reset is empty, so each thread is a thread after reset. -/
theorem resetState : Obligations.ResetState := by
  unfold Obligations.ResetState
  exact ⟨rfl, rfl, rfl, rfl, rfl, rfl, fun _ r => ⟨rfl, rfl, rfl, rfl, by unfold Thread.readG; split <;> rfl⟩⟩

end

section
/-! SUPPORT. What an operation of one core leaves alone: everything but its thread, its core, the flits sent, the transaction numbers and what was drawn. -/

namespace Sys2Proof.Machine

/-- The state u is s but for thread t, which R relates, its core, the flits sent, the transaction numbers and what was drawn. -/
structure State.Local (R : Thread → Thread → Prop) (t : Nat) (s u : State) : Prop where
  frame : u = { s with threads := u.threads, cores := u.cores, net := u.net, nextTid := u.nextTid, free := u.free }
  core_other : ∀ c, c ≠ t / 2 → u.core c = s.core c
  thr_other : ∀ k, k ≠ t → u.thr k = s.thr k
  thr : R (s.thr t) (u.thr t)

namespace State.Local

variable {R : Thread → Thread → Prop} {t : Nat} {s u v : State}

theorem trans (hR : ∀ {x y z : Thread}, R x y → R y z → R x z) (h : s.Local R t u) (k : u.Local R t v) : s.Local R t v where
  frame := by
    have hk := k.frame
    rw [h.frame] at hk
    exact hk
  core_other c hc := (k.core_other c hc).trans (h.core_other c hc)
  thr_other b hb := (k.thr_other b hb).trans (h.thr_other b hb)
  thr := hR h.thr k.thr

theorem mono {Q : Thread → Thread → Prop} (hRQ : ∀ {x y : Thread}, R x y → Q x y) (h : s.Local R t u) : s.Local Q t u :=
  ⟨h.frame, h.core_other, h.thr_other, hRQ h.thr⟩

theorem mem (h : s.Local R t u) : u.mem = s.mem := by rw [h.frame]
theorem ctl (h : s.Local R t u) : u.ctl = s.ctl := by rw [h.frame]

end State.Local

/-- The state u is s but for the counters of thread t, its core, the flits sent, the transaction numbers and what was drawn. -/
abbrev State.CoreLocal (t : Nat) (s u : State) : Prop := s.Local Thread.near t u

namespace State.CoreLocal

variable {t : Nat} {s u v : State}

theorem refl (t : Nat) (s : State) : State.CoreLocal t s s := ⟨rfl, fun _ _ => rfl, fun _ _ => rfl, Thread.near_refl _⟩

theorem trans (h : State.CoreLocal t s u) (k : State.CoreLocal t u v) : State.CoreLocal t s v := State.Local.trans Thread.near_trans h k

/-- A choice between two such states. -/
theorem ite {p : Prop} [Decidable p] (h : p → State.CoreLocal t s u) (k : ¬ p → State.CoreLocal t s v) :
    State.CoreLocal t s (if p then u else v) := by
  split
  case isTrue hp => exact h hp
  case isFalse hp => exact k hp

end State.CoreLocal

section
variable (s : State) (t : Nat)

theorem State.send_coreLocal (f : Flit) : State.CoreLocal t s (s.send f) := ⟨rfl, fun _ _ => rfl, fun _ _ => rfl, Thread.near_refl _⟩
theorem State.freshTid_coreLocal : State.CoreLocal t s s.freshTid := ⟨rfl, fun _ _ => rfl, fun _ _ => rfl, Thread.near_refl _⟩
theorem State.drawn_coreLocal : State.CoreLocal t s s.drawn := ⟨rfl, fun _ _ => rfl, fun _ _ => rfl, Thread.near_refl _⟩
theorem State.updCore_coreLocal (f : Core → Core) : State.CoreLocal t s (s.updCore (t / 2) f) :=
  ⟨rfl, fun c hc => s.updCore_core_other _ c f hc, fun _ _ => rfl, Thread.near_refl _⟩
theorem State.pmc_coreLocal (code : Nat) : State.CoreLocal t s (s.pmc t code) :=
  ⟨rfl, fun _ _ => rfl, fun k hk => s.updThr_thr_other t k _ hk, by
    rw [State.pmc, State.updThr_thr]; exact Thread.pmcEvent_near _ _ _⟩
theorem State.train_coreLocal (pa : Nat) (gw : Bool) (va : Word) (world : Tag) : State.CoreLocal t s (s.train t pa gw va world) := by
  unfold State.train
  exact s.updCore_coreLocal t _

/-! The L2: victims and requests (09 R232). -/

theorem State.mirrorSend_coreLocal (e : MirrorEntry) : State.CoreLocal t s (s.mirrorSend (t / 2) e) :=
  ((s.freshTid_coreLocal t).trans (s.freshTid.updCore_coreLocal t _)).trans (State.send_coreLocal _ t _)

theorem State.mirrorLine_coreLocal (line : Nat) : State.CoreLocal t s (s.mirrorLine (t / 2) line) := by
  unfold State.mirrorLine
  split
  case h_1 e _ => exact s.mirrorSend_coreLocal t e
  case h_2 => exact .refl t s

theorem State.l2Evict_coreLocal (line : Nat) : State.CoreLocal t s (s.l2Evict (t / 2) line) := by
  have hm := s.mirrorLine_coreLocal t line
  unfold State.l2Evict
  dsimp only
  split
  case h_1 l _ =>
    have hgo (u : State) (f : Core → Core) (g : Flit) : State.CoreLocal t u ((u.updCore (t / 2) f).send g) :=
      (u.updCore_coreLocal t f).trans (State.send_coreLocal _ t g)
    split
    all_goals first | exact hm.trans (hgo _ _ _) | exact hm
  case h_2 => exact hm

theorem State.l2Place_coreLocal (line : Nat) (mk : Nat → L2Line) {u : State} (h : s.l2Place (t / 2) t line mk = some u) :
    State.CoreLocal t s u := by
  unfold State.l2Place at h
  dsimp only at h
  split at h
  case h_1 => cases h; exact s.updCore_coreLocal t _
  case h_2 =>
    split at h
    case h_1 v l _ =>
      cases h
      exact ((s.drawn_coreLocal t).trans (s.drawn.l2Evict_coreLocal t v)).trans (State.updCore_coreLocal _ t _)
    case h_2 => cases h

theorem State.l2Send_coreLocal (c line : Nat) (op : Op) (world : Tag) (fromM pf : Bool) :
    State.CoreLocal t s (s.l2Send c t line op world fromM pf) :=
  (s.freshTid_coreLocal t).trans (State.send_coreLocal _ t _)

theorem State.l2Request_coreLocal (line : Nat) (excl : Bool) (world : Tag) (fromM pf : Bool) :
    State.CoreLocal t s (s.l2Request (t / 2) t line excl world fromM pf) := by
  have hup (f : Core → Core) : State.CoreLocal t s ((s.updCore (t / 2) f).l2Send (t / 2) t line .upg world fromM pf) :=
    (s.updCore_coreLocal t f).trans (State.l2Send_coreLocal _ t _ _ _ _ _ _)
  unfold State.l2Request
  split
  case h_1 l _ =>
    dsimp only
    split
    case h_1 => exact .ite (fun _ => hup _) (fun _ => .refl t s)
    case h_2 => exact .ite (fun _ => hup _) (fun _ => .refl t s)
    case h_3 => exact .refl t s
  case h_2 =>
    split
    case h_1 u hu =>
      exact ((s.l2Place_coreLocal t _ _ hu).trans (u.pmc_coreLocal t _)).trans (State.l2Send_coreLocal _ t _ _ _ _ _ _)
    case h_2 => exact .refl t s

/-! The Galley (08 R214, R215). -/

theorem State.galPush_coreLocal (e : GalEntry) {u : State} (h : s.galPush (t / 2) e = some u) : State.CoreLocal t s u := by
  unfold State.galPush at h
  split at h
  · cases h; exact .refl t s
  · split at h
    · cases h
    · cases h
      exact ((s.freshTid_coreLocal t).trans (s.freshTid.updCore_coreLocal t _)).trans (State.send_coreLocal _ t _)

theorem State.galAlloc_coreLocal (e : GalEntry) {u : State} (h : s.galAlloc (t / 2) e = some u) : State.CoreLocal t s u := by
  unfold State.galAlloc at h
  dsimp only at h
  split at h
  case h_1 => cases h; exact s.updCore_coreLocal t _
  case h_2 =>
    split at h
    case h_1 => cases h
    case h_2 v _ =>
      split at h
      case h_1 => cases h; exact (s.drawn_coreLocal t).trans (State.updCore_coreLocal _ t _)
      case h_2 e' r _ _ =>
        obtain ⟨w, hw, rfl⟩ := Option.map_eq_some_iff.mp h
        exact (((s.drawn_coreLocal t).trans (s.drawn.galPush_coreLocal t e' hw)).trans (w.updCore_coreLocal t _)).trans (State.updCore_coreLocal _ t _)
      case h_3 => cases h

theorem State.galRecall_coreLocal (line : Nat) : State.CoreLocal t s (s.galRecall (t / 2) line) := by
  unfold State.galRecall
  split
  case h_1 e _ =>
    dsimp only
    refine State.CoreLocal.trans ?_ (State.updCore_coreLocal _ t _)
    generalize hu : s.updCore (t / 2) _ = u
    have hsu : State.CoreLocal t s u := hu ▸ s.updCore_coreLocal t _
    cases ha : u.galAlloc (t / 2) { e with lock := false } with
    | none => exact hsu
    | some v => exact hsu.trans (u.galAlloc_coreLocal t _ ha)
  case h_2 => exact .refl t s

/-! Translation (06 R163, R168, R170). -/

theorem State.walkKeep_coreLocal (pa : Nat) (nested : Bool) (v : Word) : State.CoreLocal t s (s.walkKeep t pa nested v) := by
  unfold State.walkKeep
  dsimp only
  refine .ite (fun _ => .ite (fun _ => ?_) (fun _ => ?_)) (fun _ => .refl t s)
  · exact s.updCore_coreLocal t _
  · exact (s.updCore_coreLocal t _).trans (State.drawn_coreLocal _ t)

theorem State.tlbFill_coreLocal (fetch : Bool) (e : TlbEntry) : State.CoreLocal t s (s.tlbFill t fetch e) :=
  (s.updCore_coreLocal t _).trans (State.drawn_coreLocal _ t)

theorem State.tlbPromote_coreLocal (fetch : Bool) (e : TlbEntry) : State.CoreLocal t s (s.tlbPromote t fetch e) :=
  (s.updCore_coreLocal t _).trans (State.drawn_coreLocal _ t)

theorem State.walkFor_coreLocal (c : TCtx) (va : Word) (acc : Access) (vec : Bool) (pins : List TlbEntry) :
    State.CoreLocal t s (s.walkFor t c va acc vec pins).1 := by
  unfold State.walkFor
  dsimp only
  generalize hu : s.updCore (t / 2) _ = u
  have hsu : State.CoreLocal t s u := hu ▸ s.updCore_coreLocal t _
  have hpin (w : State) (p : Prop) [Decidable p] (f : Core → Core) (hw : State.CoreLocal t s w) :
      State.CoreLocal t s (if p then w.updCore (t / 2) f else w) := .ite (fun _ => hw.trans (w.updCore_coreLocal t f)) (fun _ => hw)
  split
  case h_1 => exact hsu
  case h_2 => exact hsu
  case h_3 e _ =>
    split
    case h_1 => exact hpin u _ _ hsu
    case h_2 e' _ =>
      split
      · exact hpin u _ _ hsu
      · exact hpin _ _ _ (hsu.trans (u.tlbFill_coreLocal t _ e'))
  case h_4 => exact hpin u _ _ hsu

theorem State.translate_coreLocal (va : Word) (acc : Access) (vec : Bool) : State.CoreLocal t s (s.translate t va acc vec).1 := by
  have hcount (w : State) (p : Prop) [Decidable p] (code : Nat) (hw : State.CoreLocal t s w) :
      State.CoreLocal t s (if p then w.pmc t code else w) := .ite (fun _ => hw.trans (w.pmc_coreLocal t code)) (fun _ => hw)
  unfold State.translate
  extract_lets x c fetch k encl l1 pin l2 s₁ s₂ s₃
  have hs₃ : State.CoreLocal t s s₃ := .ite (fun _ => .refl t s) (fun _ => hcount _ _ _ (hcount _ _ _ (hcount _ _ _ (.refl t s))))
  clear_value s₃
  split
  · split
    · exact .refl t s
    · split <;> exact .refl t s
  · split
    case h_1 e _ =>
      split
      · split
        · exact .ite (fun _ => hs₃) (fun _ => hs₃.trans (s₃.tlbPromote_coreLocal t _ e))
        · exact hs₃
      · exact hs₃.trans (s₃.walkFor_coreLocal t _ _ _ _ _)
    case h_2 => exact hs₃.trans (s₃.walkFor_coreLocal t _ _ _ _ _)

end

end Sys2Proof.Machine
end

section
/-! SUPPORT. What a transfer leaves: the predictors it trains, the thread's history and return stack, and a wrong path (05 R132, R143). -/

namespace Sys2Proof.Machine

/-- A thread but for its history, its return stack and its counters. -/
def Thread.guessed (x y : Thread) : Prop := ∃ h p r, { x with hist := h, path := p, retStack := r }.near y

theorem Thread.guessed_of_near {x y : Thread} (h : x.near y) : x.guessed y := ⟨x.hist, x.path, x.retStack, h⟩

theorem Thread.guessed_trans {x y z : Thread} (h : x.guessed y) (k : y.guessed z) : x.guessed z := by
  obtain ⟨_, _, _, p, c, i, hi, rfl⟩ := h
  obtain ⟨h', p', r', q, d, j, hj, rfl⟩ := k
  exact ⟨h', p', r', q, d, j, fun n hn => (hj n hn).trans (hi n hn), rfl⟩

/-- The state u is s but for what a transfer of thread t leaves. -/
abbrev State.GuessLocal (t : Nat) (s u : State) : Prop := s.Local Thread.guessed t u

namespace State.GuessLocal

variable {t : Nat} {s u v : State}

theorem of_coreLocal (h : State.CoreLocal t s u) : State.GuessLocal t s u := h.mono Thread.guessed_of_near

theorem trans (h : State.GuessLocal t s u) (k : State.GuessLocal t u v) : State.GuessLocal t s v := State.Local.trans Thread.guessed_trans h k

theorem foldl {α : Type} (f : State → α → State) (hf : ∀ (s : State) (a : α), State.GuessLocal t s (f s a)) (l : List α) (s : State) :
    State.GuessLocal t s (l.foldl f s) := by
  induction l generalizing s with
  | nil => exact .of_coreLocal (.refl t s)
  | cons a l ih => exact (hf s a).trans (ih _)

end State.GuessLocal

section
variable (s : State) (t : Nat)

theorem State.trainXfer_guessLocal (kind : Xfer) (pc target : Word) (taken : Bool) : State.GuessLocal t s (s.trainXfer t kind pc target taken) := by
  unfold State.trainXfer
  extract_lets x odd u
  refine (State.GuessLocal.of_coreLocal (s.updCore_coreLocal t _)).trans ⟨rfl, fun _ _ => rfl, fun k hk => u.updThr_thr_other t k _ hk, ?_⟩
  rw [State.updThr_thr]
  exact ⟨_, _, _, Thread.near_refl _⟩

theorem State.wrongLine_coreLocal (line : Nat) (tag : Tag) : State.CoreLocal t s (s.wrongLine t line tag) := by
  unfold State.wrongLine
  extract_lets c m ok
  exact .ite (fun _ => s.l2Request_coreLocal t line false tag m false) (fun _ => .refl t s)

theorem State.wrongWalk_coreLocal (va : Word) (acc : Access) (fuel : Nat) (known : List (Nat × Word)) :
    State.CoreLocal t s (s.wrongWalk t va acc fuel known).1 := by
  induction fuel generalizing s known with
  | zero => exact .refl t s
  | succ fuel ih =>
    unfold State.wrongWalk
    extract_lets x read
    split
    case h_1 pa nested _ _ _ =>
      split
      case h_1 l _ =>
        split
        · exact (s.walkKeep_coreLocal t pa nested _).trans (ih _ _)
        · exact .refl t s
      case h_2 => exact s.wrongLine_coreLocal t _ _
    case h_2 e _ =>
      extract_lets e'
      clear_value e'
      split
      case h_1 q =>
        split
        · exact .refl t s
        · exact s.tlbFill_coreLocal t _ q
      case h_2 => exact .refl t s
    case h_3 => exact .refl t s

theorem State.wrongXlate_coreLocal (va : Word) (acc : Access) : State.CoreLocal t s (s.wrongXlate t va acc).1 := by
  unfold State.wrongXlate
  extract_lets x c k encl
  split
  · exact .refl t s
  · split
    case h_1 => exact .refl t s
    case h_2 => exact s.wrongWalk_coreLocal t va acc 48 []

theorem State.wrongAccess_coreLocal (va : Word) (fetch : Bool) : State.CoreLocal t s (s.wrongAccess t va fetch) := by
  have hx := s.wrongXlate_coreLocal t va (if fetch then .fetch else .load)
  unfold State.wrongAccess
  extract_lets x c tag
  split
  case h_1 u hu => rwa [hu] at hx
  case h_2 u pa rank np hu =>
    rw [hu] at hx
    have hfill (w : State) (f : Core → Core) (hw : State.CoreLocal t s w) : State.CoreLocal t s (w.updCore c f).drawn :=
      hw.trans ((w.updCore_coreLocal t f).trans (State.drawn_coreLocal _ t))
    extract_lets line v
    have hv : State.CoreLocal t s v := .ite (fun _ => hx) (fun _ => hx.trans (u.train_coreLocal t _ _ _ _))
    clear_value v
    split
    · exact hx
    · split
      case h_1 =>
        split
        case h_1 l _ =>
          refine .ite (fun _ => hv) (fun _ => .ite (fun _ => ?_) (fun _ => ?_))
          · exact .ite (fun _ => hfill v _ hv) (fun _ => hv)
          · exact .ite (fun _ => hfill v _ hv) (fun _ => hv)
        case h_2 => exact hv.trans (v.wrongLine_coreLocal t line tag)
      case h_2 =>
        refine .ite (fun _ => hx) (fun _ => ?_)
        split
        case h_1 e _ => exact .ite (fun _ => hx.trans (u.galRecall_coreLocal t line)) (fun _ => hx)
        case h_2 => exact hx
      case h_3 => exact hx

theorem State.wrongStep_guessLocal : State.GuessLocal t s (s.wrongStep t) := by
  have hdraw := ((s.drawn_coreLocal t).trans (s.drawn.drawn_coreLocal t)).trans (s.drawn.drawn.drawn_coreLocal t)
  unfold State.wrongStep
  extract_lets kind n m u
  clear_value kind
  split
  case h_1 => exact .of_coreLocal (hdraw.trans (State.wrongAccess_coreLocal _ t _ _))
  case h_2 => exact .of_coreLocal (hdraw.trans (State.wrongAccess_coreLocal _ t _ _))
  case h_3 => exact (State.GuessLocal.of_coreLocal hdraw).trans (State.trainXfer_guessLocal _ t _ _ _ _)
  case h_4 => exact .of_coreLocal (hdraw.trans (State.pmc_coreLocal _ t _))

theorem State.wrongPath_guessLocal : State.GuessLocal t s (s.wrongPath t) :=
  (State.GuessLocal.of_coreLocal (s.drawn_coreLocal t)).trans (.foldl _ (fun u _ => u.wrongStep_guessLocal t) _ _)

theorem State.predict_of_none (kind : Xfer) (target : Word) (taken back : Bool) (h : s.noneMode t = true) :
    s.predict t kind target taken back = s := by
  rw [State.predict, if_pos h]

theorem State.predict_guessLocal (kind : Xfer) (target : Word) (taken back : Bool) : State.GuessLocal t s (s.predict t kind target taken back) := by
  unfold State.predict
  split
  · exact .of_coreLocal (.refl t s)
  · extract_lets pc s₁ s₂
    have h₁ : State.GuessLocal t s s₁ := .of_coreLocal (s.pmc_coreLocal t 0x5)
    have h₂ : State.GuessLocal t s s₂ := by
      unfold s₂
      split
      · exact (h₁.trans (.of_coreLocal (s₁.pmc_coreLocal t 0x4))).trans (State.wrongPath_guessLocal _ t)
      · exact h₁
    exact h₂.trans (s₂.trainXfer_guessLocal t _ _ _ _)

end

/-! How a transfer ends (03 R74 to R76). -/

/-- The state left by a retirement, after steps that moved the thread's counters alone. -/
theorem State.leaves_finish {s u : State} {t : Nat} (pc : Word) {f : Thread → Thread} {want : Thread}
    (hf : u = { s with threads := u.threads }) (ho : ∀ k, k ≠ t → u.thr k = s.thr k) (hstep : (u.thr t).stepDue = false)
    (hw : want.near (f (u.thr t))) : s.leaves (u.finish t pc f) t (want.past pc) := by
  obtain ⟨hfr, hoth, hnear⟩ := State.finish_leaves u t pc f hstep
  refine ⟨?_, fun k hk => (hoth k hk).trans (ho k hk), Thread.near_trans ?_ hnear⟩
  · generalize u.finish t pc f = v at hfr ⊢
    rw [hfr, hf]
  · obtain ⟨p, c, i, hi, hy⟩ := hw
    rw [hy]
    exact ⟨p, c, i, hi, rfl⟩

/-- The state left by a retirement, after what a transfer leaves. -/
theorem State.guesses_finish {s u : State} {t : Nat} (pc : Word) {f : Thread → Thread} {want : Thread}
    (h : State.GuessLocal t s u) (hstep : (s.thr t).stepDue = false) (hw : want.guessed (f (u.thr t))) :
    s.guesses (u.finish t pc f) t (want.past pc) := by
  have hdue : (u.thr t).stepDue = false := by
    obtain ⟨_, _, _, _, _, _, _, hy⟩ := h.thr
    rw [hy]
    exact hstep
  obtain ⟨hfr, hoth, hnear⟩ := State.finish_leaves u t pc f hdue
  refine ⟨?_, fun c hc => ?_, fun k hk => (hoth k hk).trans (h.thr_other k hk), ?_⟩
  · have hu := h.frame
    generalize u.finish t pc f = v at hfr ⊢
    rw [hfr, hu]
  · rw [hfr]
    exact h.core_other c hc
  · obtain ⟨g, p, r, hg⟩ := hw
    refine ⟨g, p, r, Thread.near_trans ?_ hnear⟩
    obtain ⟨p, c, i, hi, hy⟩ := hg
    rw [hy]
    exact ⟨p, c, i, hi, rfl⟩

/-- What a transfer of a thread comes to: in NONE mode the completion, and in every mode the predictors and a wrong path besides (05 R132, R140, R143). -/
def State.goes (s : State) (t : Nat) (o : Host.Outcome State Fault Refusal) (want : Thread) : Prop :=
  (s.noneMode t = true → completes o s t want) ∧ ∃ u, o = .next u ∧ s.guesses u t want

theorem Thread.near_link {x y : Thread} (h : x.near y) (rd : RegNo) : (x.writeG rd (x.pc + 4)).near (y.writeG rd y.npc) := by
  obtain ⟨p, c, i, hi, rfl⟩ := h
  unfold Thread.writeG
  split <;> exact ⟨p, c, i, hi, rfl⟩

theorem Thread.guessed_link {x y : Thread} (h : x.guessed y) (rd : RegNo) : (x.writeG rd (x.pc + 4)).guessed (y.writeG rd y.npc) := by
  obtain ⟨g, p, r, q, c, i, hi, rfl⟩ := h
  by_cases hr : rd = 0
  · simp only [Thread.writeG, hr, if_true]
    exact ⟨g, p, r, q, c, i, hi, rfl⟩
  · simp only [Thread.writeG, hr, if_false]
    exact ⟨g, p, r, q, c, i, hi, rfl⟩

theorem Thread.guessed_push (x : Thread) (a : Word) : x.guessed (x.push a) := ⟨x.hist, x.path, _, Thread.near_refl _⟩
theorem Thread.guessed_pop (x : Thread) : x.guessed x.pop := ⟨x.hist, x.path, _, Thread.near_refl _⟩

theorem Thread.stepDue_of_near {x y : Thread} (h : x.near y) : y.stepDue = x.stepDue := by
  obtain ⟨_, _, _, _, rfl⟩ := h
  rfl

/-- A transfer that retires after its predictor work and the count of some events. -/
theorem State.goes_of_finish {s s₁ : State} {t : Thr} (h : s.begins s₁ t) (kind : Xfer) (target : Word) (taken back : Bool) (pc : Word)
    {f : Thread → Thread} {want : Thread} (count : State → State) (hc : ∀ u, State.CoreLocal t u (count u) ∧ count u = { u with threads := (count u).threads })
    (body : State → State) (hb : body s₁ = (count (s₁.predict t kind target taken back)).finish t pc f)
    (hnone : s₁.noneMode t = true → ∀ y, (s₁.thr t).near y → want.near (f y)) (hw : ∀ y, (s₁.thr t).guessed y → want.guessed (f y)) :
    s₁.goes t (s.run t body) (want.past pc) := by
  rw [State.run_of_begins h, hb]
  refine ⟨fun hn => ⟨_, rfl, ?_⟩, _, rfl, ?_⟩
  · rw [s₁.predict_of_none t kind target taken back hn]
    obtain ⟨hp, hf⟩ := hc s₁
    exact State.leaves_finish pc hf hp.thr_other ((Thread.stepDue_of_near hp.thr).trans h.2) (hnone hn _ hp.thr)
  · have hp := (s₁.predict_guessLocal t kind target taken back).trans (.of_coreLocal (hc _).1)
    exact State.guesses_finish pc hp h.2 (hw _ hp.thr)

/-- A conditional branch goes where its condition says. -/
theorem branch_goes {s s₁ : State} {t : Thr} (h : s.begins s₁ t) (cond : Word → Word → Bool) (rs1 rs2 : RegNo) (off : BitVec 16) {c : Bool}
    (hc : cond ((s₁.thr t).readG rs1) ((s₁.thr t).readG rs2) = c) :
    s₁.goes t (branch cond t rs1 rs2 off s)
      ((s₁.thr t).past (if c then (s₁.thr t).pc + off.signExtend 64 * 4 else (s₁.thr t).pc + 4)) := by
  subst hc
  exact State.goes_of_finish h .cond (branchTarget (s₁.thr t).pc off) _ (bit off 15) _ (fun u => u.pmc t 0x3) (fun u => ⟨u.pmc_coreLocal t 0x3, rfl⟩)
    _ rfl (fun _ _ hy => hy) (fun _ hy => hy)

end Sys2Proof.Machine

open Sys2Proof Sys2Proof.Machine

/-- Settles O4: a transfer is its predictor work, which is nothing in NONE mode, followed by a retirement at its target. -/
theorem branchAndJumpTargets : Obligations.BranchAndJumpTargets := by
  unfold Obligations.BranchAndJumpTargets
  intro s s₁ t rd rs1 rs2 off wide h
  dsimp only
  refine ⟨?beq, ?bne, ?blt, ?bge, ?bltu, ?bgeu, ?j, ?jr⟩
  case beq => exact branch_goes h (fun x y => x == y) rs1 rs2 off rfl
  case bne => exact branch_goes h (fun x y => x != y) rs1 rs2 off rfl
  case blt => exact branch_goes h (fun x y => x.slt y) rs1 rs2 off rfl
  case bge => exact branch_goes h (fun x y => !x.slt y) rs1 rs2 off (by simp only [BitVec.slt, ← decide_not, Int.not_lt])
  case bltu => exact branch_goes h (fun x y => x.ult y) rs1 rs2 off rfl
  case bgeu => exact branch_goes h (fun x y => !x.ult y) rs1 rs2 off (by simp only [BitVec.ult, ← decide_not, Nat.not_lt])
  case j =>
    refine State.goes_of_finish h .jump (branchTarget (s₁.thr t).pc wide) true false _ id (fun u => ⟨.refl t u, rfl⟩)
      (f := fun x => if rd = 1 && !s₁.noneMode t then (x.writeG rd x.npc).push x.npc else x.writeG rd x.npc) _ rfl (fun hn y hy => ?_) (fun y hy => ?_)
    · simp only [hn, Bool.not_true, Bool.and_false, Bool.false_eq_true, if_false]
      exact Thread.near_link hy rd
    · split
      · exact Thread.guessed_trans (Thread.guessed_link hy rd) (Thread.guessed_push _ _)
      · exact Thread.guessed_link hy rd
  case jr =>
    intro hal
    refine State.goes_of_finish h (if rd = 0 && rs1 = 1 && off = 0 then .ret else .indirect) _ true false _ (fun u => u.pmc t 0x3) (fun u => ⟨u.pmc_coreLocal t 0x3, rfl⟩)
      (f := fun x => if s₁.noneMode t then x.writeG rd x.npc else if rd = 1 then (x.writeG rd x.npc).push x.npc
        else if rd = 0 && rs1 = 1 && off = 0 then (x.writeG rd x.npc).pop else x.writeG rd x.npc)
      _ (if_neg (not_not_intro hal)) (fun hn y hy => ?_) (fun y hy => ?_)
    · simp only [hn, if_true]
      exact Thread.near_link hy rd
    · have hlink := Thread.guessed_link hy rd
      split
      · exact hlink
      · split
        · exact Thread.guessed_trans hlink (Thread.guessed_push _ _)
        · split
          · exact Thread.guessed_trans hlink (Thread.guessed_pop _)
          · exact hlink

end

section
/-! SUPPORT. An instruction that accesses memory, once its pieces are translated and checked (03 R77 to R86; 04 R115; 07 R186, R194). -/

namespace Sys2Proof.Machine

/-! Checks that pass change nothing. -/

theorem State.hitCheck_none {s u : State} {t : Nat} {l : L2Line} {tag : Tag} {va : Word} {pa : Nat} {acc : Access} {consume : Bool}
    (h : s.hitCheck t l tag va pa acc consume = (u, none)) : u = s := by
  unfold State.hitCheck at h
  split at h
  · cases h
  · split at h
    · cases h
    · cases h; rfl

theorem State.galCheck_none {s u : State} {t pa : Nat} {tag : Tag} {va : Word} {acc : Access}
    (h : s.galCheck t pa tag va acc = (u, none)) : u = s := by
  unfold State.galCheck at h
  split at h
  · split at h
    · cases h
    · cases h; rfl
  · cases h; rfl

theorem State.precheck_none {s u : State} {t pa : Nat} {tag : Tag} {va : Word} {acc : Access}
    (h : s.precheck t pa tag va acc = (u, none)) : u = s := by
  unfold State.precheck at h
  split at h
  · cases h
  · split at h
    · split at h
      · cases h
      · cases h; rfl
    · cases h; rfl

theorem State.tagCheck_none {s u : State} {t : Nat} {acc : Access} {p : Piece} (h : s.tagCheck t acc p = (u, none)) : u = s := by
  unfold State.tagCheck at h
  dsimp only at h
  split at h
  case h_1 => cases h
  case h_2 v hv =>
    have hvs : v = s := State.precheck_none hv
    subst hvs
    split at h
    case h_1 =>
      split at h
      · split at h
        · exact State.hitCheck_none h
        · cases h; rfl
      · cases h; rfl
    case h_2 => exact State.galCheck_none h
    case h_3 => exact State.galCheck_none h
    case h_4 => cases h; rfl

/-- Checks of an access that refuse nothing leave the state as it is. -/
theorem State.tagChecks_none {s u : State} {t : Nat} {r : MemReq} {ps : List Piece} (h : s.tagChecks t r ps = (u, none)) : u = s := by
  induction ps generalizing s with
  | nil => cases h; rfl
  | cons p ps ih =>
    unfold State.tagChecks at h
    extract_lets one at h
    have hone : ∀ v, one = (v, none) → v = s := by
      intro v hv
      unfold one at hv
      split at hv
      case h_1 | h_2 | h_3 | h_4 => exact State.tagCheck_none hv
      case h_5 =>
        split at hv
        · exact State.galCheck_none hv
        · cases hv; rfl
      case h_6 =>
        split at hv
        · cases hv; rfl
        · exact State.tagCheck_none hv
      case h_7 => exact State.galCheck_none hv
      case h_8 => cases hv; rfl
    clear_value one
    split at h
    case h_1 v => rw [ih h]; exact hone v rfl
    case h_2 => cases h

/-! An access that is ready. -/

/-- A kind of access that translates its pieces before it is performed: every one but a prefetch hint. -/
def MemKind.translates : MemKind → Bool
  | .pref _ => false
  | _ => true

/-- The row of an access that is ready performs it. -/
theorem State.memRow_of_ready {s s₁ s₂ : State} {t : Thr} {r : MemReq} {ps : List Piece} (h : s.ready s₁ s₂ t r ps)
    (hk : r.kind.translates = true) : s.memRow t r = .next (s₂.perform t r ps) := by
  obtain ⟨hop, hstart, hkept, halign, hnone, hwatch, hord, hreason, u, hx, hps, htag⟩ := h
  have hfind : (s₁.thr t).kept.find? (fun k => k.is (s₁.thr t) r) = none := by
    rw [List.find?_eq_none]
    intro k hkmem
    rw [hkept k hkmem]
    exact Bool.false_ne_true
  have hattempt : (s₁.opening t r).attempt t r = s₂.perform t r ps := by
    have ha : (if r.misaligned then r.strictAlign else none) = none := by
      split
      · exact halign ‹_›
      · rfl
    have hn : ((s₁.opening t r).noneMode t && !(s₁.opening t r).olderChecked t) = false := by
      cases hm : (s₁.opening t r).noneMode t with
      | false => rfl
      | true => rw [hnone hm]; rfl
    have hr : ps.find? (fun p => p.reason.isSome) = none := by
      rw [List.find?_eq_none]
      intro p hp
      rw [hreason p hp]
      exact Bool.false_ne_true
    unfold State.attempt
    dsimp only
    rw [ha]
    dsimp only
    rw [hn]
    simp only [Bool.false_eq_true, if_false]
    split
    case h_1 hint hkind => rw [hkind] at hk; cases hk
    case h_2 =>
      rw [hx]
      dsimp only
      rw [hwatch, hps]
      dsimp only [Option.getD]
      rw [htag]
      dsimp only
      rw [hr]
      dsimp only
      rw [hord, if_pos rfl]
  unfold State.memRow
  rw [hop]
  dsimp only
  rw [State.run, hstart]
  dsimp only
  rw [State.beginMem, hfind]
  exact congrArg Host.Outcome.next hattempt

end Sys2Proof.Machine
end

section
/-! PROOF. Loads, stores and atomics that are ready (03 R77 to R86; 07 R190, R194, R195, R201). -/

namespace Sys2Proof.Machine

/-- Training the prefetch streams leaves every thread alone. -/
theorem State.trainGw_threads (s : State) (t : Nat) (ps : List Piece) : (s.trainGw t ps).threads = s.threads := by
  unfold State.trainGw
  induction ps generalizing s with
  | nil => rfl
  | cons p ps ih =>
    rw [List.foldl_cons, ih]
    split <;> rfl

/-- The thread after training. -/
theorem State.trainGw_thr (s : State) (t : Nat) (ps : List Piece) (k : Nat) : (s.trainGw t ps).thr k = s.thr k := by
  rw [State.thr, State.trainGw_threads, State.thr]

/-- A retirement whose thread is the given one. -/
theorem State.finish_completes {s : State} {t : Nat} {pc : Word} {f : Thread → Thread} {x : Thread} (hx : s.thr t = x) (hstep : x.stepDue = false) :
    completes (.next (s.finish t pc f)) s t ((f x).past pc) := by
  subst hx
  exact ⟨_, rfl, State.finish_leaves s t pc f hstep⟩

section
variable {s s₁ s₂ s₃ : State} {t : Thr} {r : MemReq} {ps : List Piece} {vs : List (Nat × Word)}
  (hl : s₂.loadPieces t ps = (s₃, .inl vs)) (hstep : (s₃.thr t).stepDue = false) (h : s.ready s₁ s₂ t r ps)
include hl hstep h

/-- A load of a general register that is ready and whose pieces answer completes. -/
theorem loadG_completes {sg : Bool} (hk : r.kind = .loadG sg) {v : Word} (hv : extend sg r.size (BitVec.ofNat 64 (joinPieces vs)) = v) :
    completes (s.memRow t r) (s₃.trainGw t ps) t (((s₃.thr t).writeG r.rd v).past ((s₂.thr t).pc + 4)) := by
  subst hv
  rw [State.memRow_of_ready h (by rw [hk]; rfl)]
  have hperf : s₂.perform t r ps = (s₃.trainGw t ps).finish t (s₂.thr t).npc
      (fun x => x.writeG r.rd (extend sg r.size (BitVec.ofNat 64 (joinPieces vs)))) := by
    unfold State.perform
    dsimp only
    rw [hk]
    dsimp only
    rw [hl]
  rw [hperf]
  exact State.finish_completes (State.trainGw_thr s₃ t ps t) hstep

/-- A load of a floating-point register that is ready and whose pieces answer completes. -/
theorem loadF_completes (hk : r.kind = .loadF) :
    completes (s.memRow t r) (s₃.trainGw t ps) t
      (((s₃.thr t).writeF r.rd (BitVec.ofNat 64 (joinPieces vs))).past ((s₂.thr t).pc + 4)) := by
  rw [State.memRow_of_ready h (by rw [hk]; rfl)]
  have hperf : s₂.perform t r ps = (s₃.trainGw t ps).finish t (s₂.thr t).npc (fun x => x.writeF r.rd (BitVec.ofNat 64 (joinPieces vs))) := by
    unfold State.perform
    dsimp only
    rw [hk]
    dsimp only
    rw [hl]
  rw [hperf]
  exact State.finish_completes (State.trainGw_thr s₃ t ps t) hstep

end

/-- The mask of the low byte keeps it and clears the rest. -/
theorem and_low8 (x : Word) : x &&& 0xFF = (x.setWidth 8).setWidth 64 := by
  apply BitVec.eq_of_toNat_eq
  have hmask : (x &&& 0xFF).toNat = x.toNat % 2 ^ 8 := Nat.and_two_pow_sub_one_eq_mod x.toNat 8
  rw [hmask, BitVec.toNat_setWidth_of_le (by decide), BitVec.toNat_setWidth]

/-- The mask of the low two bytes keeps them and clears the rest. -/
theorem and_low16 (x : Word) : x &&& 0xFFFF = (x.setWidth 16).setWidth 64 := by
  apply BitVec.eq_of_toNat_eq
  have hmask : (x &&& 0xFFFF).toNat = x.toNat % 2 ^ 16 := Nat.and_two_pow_sub_one_eq_mod x.toNat 16
  rw [hmask, BitVec.toNat_setWidth_of_le (by decide), BitVec.toNat_setWidth]

end Sys2Proof.Machine

open Sys2Proof Sys2Proof.Machine

/-- Settles O9: each load is a memory row of its width and extension. -/
theorem loadsComplete : Obligations.LoadsComplete := by
  unfold Obligations.LoadsComplete
  intro s s₁ s₂ s₃ t rt base imm w ps vs hl hstep
  dsimp only
  refine ⟨?ldB, ?ldBu, ?ldH, ?ldHu, ?ldW, ?ldWu, ?ldD, ?fldS, ?fldD, ?ldAq, ?ldAqS⟩
  case ldB => exact fun h => loadG_completes hl hstep h rfl rfl
  case ldBu => exact fun h => loadG_completes hl hstep h rfl (and_low8 _)
  case ldH => exact fun h => loadG_completes hl hstep h rfl rfl
  case ldHu => exact fun h => loadG_completes hl hstep h rfl (and_low16 _)
  case ldW => exact fun h => loadG_completes hl hstep h rfl rfl
  case ldWu => exact fun h => loadG_completes hl hstep h rfl (and_low32 _)
  case ldD => exact fun h => loadG_completes hl hstep h rfl rfl
  case fldS => exact fun h => loadF_completes hl hstep h rfl
  case fldD => exact fun h => loadF_completes hl hstep h rfl
  case ldAq => exact fun h => loadG_completes hl hstep h rfl rfl
  case ldAqS =>
    intro hw h
    have hexec : exec (.ldAqS t rt base w) s = s.memRow t ⟨.loadG true, (s.thr t).readG base, 2 ^ w.toNat, rt, 0, 0, true, false⟩ := if_neg hw
    rw [hexec]
    exact loadG_completes hl hstep h rfl rfl

end

section
/-! PROOF. A load that hits the L2 (08 R208; 14 R336). -/

namespace Sys2Proof.Machine

/-- A hit that passes its checks: the tag is the thread's, or the thread is at M, and no poison is consumed (14 R336). -/
theorem State.hitCheck_passes {s : State} {t : Nat} {l : L2Line} {tag : Tag} {va : Word} {pa : Nat} {acc : Access} {consume : Bool}
    (hp : l.poison = false) (htag : (s.thr t).level = .m ∨ l.world = tag) : s.hitCheck t l tag va pa acc consume = (s, none) := by
  have hm : ¬ ((s.thr t).level ≠ .m && decide (l.world ≠ tag)) = true := by
    rcases htag with hm | hw
    · simp [hm]
    · simp [hw]
  unfold State.hitCheck
  rw [if_neg (by simpa using hm), if_neg (by simp [hp])]

end Sys2Proof.Machine

open Sys2Proof Sys2Proof.Machine

/-- Settles O10: with no buffered store over it, a load of a line that the L2 holds passes its checks and reads the line; the L1D may take a copy. -/
theorem loadHitReadsTheLine : Obligations.LoadHitReadsTheLine := by
  unfold Obligations.LoadHitReadsTheLine
  intro s t tag va pa size l hfwd hline hread hpoison htag hfresh
  have hload : s.loadWb t tag va pa size =
      (if (s.core (t / 2)).l1dOn && !l1Has (s.core (t / 2)).l1d (pa / 64) then
        (s.updCore (t / 2) (fun k => { k with l1d := l1Insert 128 (k.waysOf t 8) (Config.freeValue s.free) k.l1d (pa / 64) })).drawn else s,
        .val (lineVal l.data (pa % 64) size)) := by
    unfold State.loadWb
    dsimp only
    rw [hfwd]
    cases hm : (s.thr t).memOp with
    | none => simp only [Bool.false_eq_true, if_false, hline, hread, if_true, State.hitCheck_passes hpoison htag]
    | some m => simp only [hfresh m hm, Bool.false_eq_true, if_false, hline, hread, if_true, State.hitCheck_passes hpoison htag]
  refine ⟨_, hload, ?_⟩
  split
  · exact ⟨by simpa [Core.l2Line] using hline, rfl, rfl, rfl, fun c hc => (State.drawn_core _ c).trans (s.updCore_core_other _ c _ hc)⟩
  · exact ⟨hline, rfl, rfl, rfl, fun _ _ => rfl⟩

end

section
/-! PROOF. Stores that are ready (07 R190, R194, R195, R201). -/

namespace Sys2Proof.Machine

/-- A ready access has its pieces in the instruction in progress. -/
theorem State.ready.memOp_isSome {s s₁ s₂ : State} {t : Nat} {r : MemReq} {ps : List Piece} (h : s.ready s₁ s₂ t r ps) :
    ∃ m, (s₂.thr t).memOp = some m := by
  obtain ⟨-, -, -, -, -, -, -, -, u, -, hps, htag⟩ := h
  rw [State.tagChecks_none htag]
  obtain ⟨m, hm, -⟩ := Option.map_eq_some_iff.mp hps
  exact ⟨m, hm⟩

/-- A store that is ready, none of whose pieces is DEV-S, enters the store buffer where it has room (07 R190, R194). -/
theorem store_completes {s s₁ s₂ : State} {t : Thr} {r : MemReq} {ps : List Piece} (h : s.ready s₁ s₂ t r ps) (hk : r.kind = .store)
    (hdev : ∀ q ∈ ps, effType q.rank q.pa ≠ .devS) (hstep : (s₂.thr t).stepDue = false) (hroom : (s₂.thr t).stb.length + ps.length ≤ 32) :
    completes (s.memRow t r) s₂ t
      ({ s₂.thr t with stb := (s₂.thr t).stb ++ storeEntries (s₂.thr t) r.rl r.opA (wbLines ps) (s₂.seenLine (t.val / 2)) ps }.past ((s₂.thr t).pc + 4)) := by
  rw [State.memRow_of_ready h (by rw [hk]; rfl)]
  have hfind : ps.find? (fun p => effType p.rank p.pa == .devS) = none := by
    rw [List.find?_eq_none]
    intro p hp
    simpa using hdev p hp
  have hperf : s₂.perform t r ps = s₂.finish t (s₂.thr t).npc
      (fun x => { x with stb := x.stb ++ storeEntries x r.rl r.opA (wbLines ps) (s₂.seenLine (t.val / 2)) ps }) := by
    unfold State.perform
    dsimp only
    rw [hk]
    dsimp only
    rw [hfind]
    exact if_neg (by omega)
  rw [hperf]
  exact State.finish_completes rfl hstep

/-- A flit as its source injects it (11 R264). -/
def State.injected (s : State) (f : Flit) : Flit :=
  { f with hop := s.node f.src, inPort := none, dateline := false, inside := s.accepts f (s.node f.src), came := s.cycle
           stamp := s.stampAt f.src.dieNum (s.node f.src) }

@[simp] theorem State.send_net (s : State) (f : Flit) : (s.send f).net = s.net ++ [s.injected f] := rfl
@[simp] theorem State.send_thr (s : State) (f : Flit) (k : Nat) : (s.send f).thr k = s.thr k := rfl
@[simp] theorem State.send_mem (s : State) (f : Flit) : (s.send f).mem = s.mem := rfl

/-- The write of a DEV-S store (07 R195). -/
def State.strictFlit (s : State) (t : Nat) (r : MemReq) (p : Piece) : Flit :=
  { Flit.blank .wrNc (.core (coreId (t / 2))) (s.endpoint p.pa) with
    thr := some (thrOf t), tid := s.nextTid + 1, line := p.pa / 64, world := (s.thr t).tagAt p.va, size := p.size, mask := byteMask (p.pa % 64) p.size
    data := placeVal r.opA (p.pa % 64), acc := .devStore, hint := p.rank, fromM := (s.thr t).level == .m }

theorem State.strictFlit_tid (s : State) (t : Nat) (r : MemReq) (p : Piece) : (s.strictFlit t r p).tid = s.nextTid + 1 := rfl

/-- A DEV-S store that nothing earlier holds up is sent, and waits for its acknowledgement. -/
theorem State.strictStore_free {s : State} {t : Nat} {r : MemReq} {p : Piece} (hask : (s.thr t).asking = false)
    (hfree : ((s.thr t).lineOut p.pa || !(s.thr t).devDone || (r.rl && !(s.thr t).storesDone)) = false) :
    s.strictStore t r p = (((s.freshTid.pmc t 0x38).wants t p.pa true).send (s.strictFlit t r p), .wait) := by
  unfold State.strictStore
  dsimp only
  rw [hask, hfree]
  rfl

/-- A DEV-S store that nothing earlier holds up sends its write and waits for the acknowledgement (07 R190, R195). -/
theorem strictStore_sends {s s₁ s₂ : State} {t : Thr} {r : MemReq} {p : Piece} (h : s.ready s₁ s₂ t r [p]) (hk : r.kind = .store)
    (hdev : effType p.rank p.pa = .devS) (hask : (s₂.thr t).asking = false) (hline : (s₂.thr t).lineOut p.pa = false)
    (hdone : (s₂.thr t).devDone = true) (hrl : r.rl = true → (s₂.thr t).storesDone = true) :
    ∃ u f, s.memRow t r = .next u ∧ u.net = s₂.net ++ [f] ∧ f.op = .wrNc ∧ f.dst = s₂.endpoint p.pa ∧ f.acc = .devStore ∧
      f.data = placeVal r.opA (p.pa % 64) ∧ f.tid = s₂.nextTid + 1 ∧ (u.thr t).opIs f.tid = true ∧ (u.thr t).pc = (s₂.thr t).pc ∧
      (u.thr t).stb = (s₂.thr t).stb ∧ u.mem = s₂.mem := by
  rw [State.memRow_of_ready h (by rw [hk]; rfl)]
  obtain ⟨m, hm⟩ := h.memOp_isSome
  have hfree : ((s₂.thr t).lineOut p.pa || !(s₂.thr t).devDone || (r.rl && !(s₂.thr t).storesDone)) = false := by
    cases hr : r.rl with
    | false => simp [hline, hdone]
    | true => simp [hline, hdone, hrl hr]
  have hperf : s₂.perform t r [p] = (((s₂.freshTid.pmc t 0x38).wants t p.pa true).send (s₂.strictFlit t r p)).waits t := by
    unfold State.perform
    dsimp only
    rw [hk]
    dsimp only
    rw [List.find?_cons_of_pos (by simpa using hdev)]
    dsimp only
    rw [State.strictStore_free hask hfree]
  rw [hperf]
  refine ⟨_, State.injected ((s₂.freshTid.pmc t 0x38).wants t p.pa true) (s₂.strictFlit t r p), rfl, ?net, rfl, rfl, rfl, rfl, s₂.strictFlit_tid t r p, ?opIs, ?pc, ?stb, ?mem⟩
  case net => simp [State.waits, State.wants, State.pmc]
  case mem => simp [State.waits, State.wants, State.pmc]
  all_goals
    obtain ⟨_, _, _, _, hy⟩ := (State.pmc_coreLocal s₂.freshTid t 0x38).thr
    rw [State.freshTid_thr] at hy
    simp only [State.waits, State.wants, State.updThr_thr, State.send_thr, hy]
  case opIs => simp [Thread.opIs, Thread.opFor, Thread.updMem, hm, MemOp.waits, State.injected, State.strictFlit, State.pmc, State.freshTid]
  case pc => rfl
  case stb => rfl

end Sys2Proof.Machine

open Sys2Proof Sys2Proof.Machine

/-- Settles O11. -/
theorem storesEnterTheBuffer : Obligations.StoresEnterTheBuffer := by
  unfold Obligations.StoresEnterTheBuffer
  intro s s₁ s₂ t rt base imm w ps p
  dsimp only
  refine ⟨?stB, ?stH, ?stW, ?stD, ?fstS, ?fstD, ?stRl⟩
  all_goals
    intro h
    refine ⟨fun hdev hstep hroom => store_completes h rfl hdev hstep hroom, fun hps hdev hask hline hdone hrl => ?_⟩
    subst hps
    exact strictStore_sends h rfl hdev hask hline hdone hrl

end

section
/-! PROOF. The bytes that the entries of a store hold (03 R58; 07 R201). -/

open Sys2Proof Sys2Proof.Machine

/-- Settles O12, by induction on the pieces: each entry takes its bytes off the value's low end. -/
theorem storeEntriesHoldTheBytes : Obligations.StoreEntriesHoldTheBytes := by
  unfold Obligations.StoreEntriesHoldTheBytes
  intro x rl v lines seen ps n p hp hsize
  dsimp only
  clear hsize
  induction ps generalizing v n with
  | nil => cases hp
  | cons q ps ih =>
    cases n with
    | zero =>
      obtain rfl : q = p := Option.some.inj hp
      refine ⟨_, rfl, rfl, rfl, rfl, rfl, ?_⟩
      have hlt : v.toNat % 2 ^ (8 * q.size) < 2 ^ 64 := Nat.lt_of_le_of_lt (Nat.mod_le _ _) v.isLt
      simpa using hlt
    | succ n =>
      obtain ⟨e, he, hpa, hs, ht, hi, hd⟩ := ih (v >>> (8 * q.size)) n hp
      refine ⟨e, he, hpa, hs, ht, hi, hd.trans ?_⟩
      rw [BitVec.toNat_ushiftRight, Nat.shiftRight_eq_div_pow, Nat.div_div_eq_div_mul, ← pow_add, List.take_succ_cons, List.map_cons, List.sum_cons,
        Nat.mul_add]

end

section
/-! PROOF. Atomics that are performed (03 R83 to R85; 09 R251). -/

namespace Sys2Proof.Machine

/-- An atomic that is ready and is performed completes with the old value. -/
theorem amo_completes {s s₁ s₂ s₃ : State} {t : Thr} {r : MemReq} {p : Piece} {ps : List Piece} {op : AmoOp} {v : Word} (hk : r.kind = .amo op)
    (h : s.ready s₁ s₂ t r (p :: ps)) (hv : s₂.amoPiece t r op p = (s₃, .val v)) (hstep : (s₃.thr t).stepDue = false) :
    completes (s.memRow t r) s₃ t (((s₃.thr t).writeG r.rd v).past ((s₂.thr t).pc + 4)) := by
  rw [State.memRow_of_ready h (by rw [hk]; rfl)]
  have hperf : s₂.perform t r (p :: ps) = s₃.finish t (s₂.thr t).npc (fun x => x.writeG r.rd v) := by
    unfold State.perform
    dsimp only
    rw [hk]
    dsimp only
    rw [hv]
  rw [hperf]
  exact State.finish_completes rfl hstep

/-- A package that mirrors nothing notes no store for its mirror (13 R330). -/
theorem State.mirrorStore_of_not_mirrored {s : State} (h : s.mirrored = false) (c t line : Nat) (world : Tag) (d : LineData) (mask : BitVec 64) :
    s.mirrorStore c t line world d mask = s := by
  unfold State.mirrorStore
  rw [h]
  rfl

/-- A line of an L2 that was put is the one that is found. -/
theorem Core.l2Line_setL2 (c : Core) (line : Nat) (l : Option L2Line) : (c.setL2 line l).l2Line line = l := Tbl.get_set_same _ _ _ _

end Sys2Proof.Machine

open Sys2Proof Sys2Proof.Machine

/-- Settles O13: each atomic is a memory row of its operation. -/
theorem atomicsComplete : Obligations.AtomicsComplete := by
  unfold Obligations.AtomicsComplete
  intro s s₁ s₂ s₃ t rd rs1 rs2 rs3 d aq rl p ps v op
  dsimp only
  refine ⟨?swp, ?add, ?band, ?bor, ?bxor, ?smin, ?smax, ?umin, ?umax, ?cas⟩
  all_goals
    intro hop h hv hstep
    subst hop
    exact amo_completes rfl h hv hstep

/-- Settles O14: the line passes its checks, and the new value, where there is one, is merged into it. -/
theorem nearAtomics : Obligations.NearAtomics := by
  unfold Obligations.NearAtomics
  intro s t r op tag pa l hline hwr hrd hpoison hmir htag
  dsimp only
  have hamo : s.amoNear t r op tag pa =
      (match amoNew op r.size (lineVal l.data (pa % 64) r.size) r.opA r.opB with
        | some v => s.updCore (t / 2) (fun k => k.setL2 (pa / 64) (some { l with
            st := .m, data := mergeLine l.data (placeVal v (pa % 64)) (byteMask (pa % 64) r.size) }))
        | none => s,
        .val (extend true r.size (lineVal l.data (pa % 64) r.size))) := by
    unfold State.amoNear
    dsimp only
    rw [hline]
    dsimp only
    rw [if_pos hrd, State.hitCheck_passes hpoison htag]
    dsimp only
    rw [if_pos hwr]
    cases amoNew op r.size (lineVal l.data (pa % 64) r.size) r.opA r.opB with
    | none => rfl
    | some v => exact congrArg (·, _) (State.mirrorStore_of_not_mirrored (s := s.updCore (t / 2) _) hmir _ _ _ _ _ _)
  refine ⟨_, hamo, ?_⟩
  cases amoNew op r.size (lineVal l.data (pa % 64) r.size) r.opA r.opB with
  | none => exact ⟨rfl, rfl, rfl, fun _ _ => rfl, hline⟩
  | some v =>
    exact ⟨rfl, rfl, rfl, fun c hc => s.updCore_core_other _ c _ hc, _,
      (congrArg (Core.l2Line · _) (s.updCore_core _ _)).trans (Core.l2Line_setL2 _ _ _), rfl, rfl, rfl⟩

end

section
/-! PROOF. Prefetch hints (03 R81). -/

namespace Sys2Proof.Machine

/-- A prefetch hint fetches within its core, and retires. -/
theorem State.prefAt_leaves (s : State) (t hint : Nat) (tag : Tag) (pa rank : Nat) :
    ∃ u, State.CoreLocal t s u ∧ s.prefAt t hint tag pa rank = u.finish t (u.thr t).npc id := by
  unfold State.prefAt
  extract_lets c line m ok s₁ f₁ s₃ f₃ v
  refine ⟨v, ?_, rfl⟩
  unfold v s₁ s₃
  split
  case h_1 | h_2 => exact .ite (fun _ => s.l2Request_coreLocal t line _ tag m true) (fun _ => .refl t s)
  case h_3 => exact .ite (fun _ => (s.freshTid_coreLocal t).trans (State.send_coreLocal _ t _)) (fun _ => .refl t s)
  case h_4 =>
    exact .ite (fun _ => (((s.freshTid_coreLocal t).trans (State.pmc_coreLocal _ t _)).trans (State.pmc_coreLocal _ t _)).trans (State.send_coreLocal _ t _))
      (fun _ => .refl t s)
  case h_5 => exact .refl t s

/-- A thread but for the instruction in progress and its counters. -/
def Thread.underway (x y : Thread) : Prop := ∃ m, { x with memOp := m }.near y

theorem Thread.underway_near {x y z : Thread} (h : x.underway y) (k : y.near z) : x.underway z := by
  obtain ⟨m, h⟩ := h
  exact ⟨m, Thread.near_trans h k⟩

/-- With no walk in progress, dropping it changes nothing. -/
theorem Thread.underway_noWalk {x y : Thread} (hx : x.walk = none) (h : x.underway y) : x.underway y.noWalk := by
  obtain ⟨m, p, c, i, hi, rfl⟩ := h
  exact ⟨m, p, c, i, hi, by simp only [Thread.noWalk, Thread.walkLeft, hx]⟩

/-- The state u is s but for the instruction in progress of thread t, its counters, and what its core leaves. -/
abbrev State.Underway (t : Nat) (s u : State) : Prop := s.Local Thread.underway t u

theorem State.Underway.coreLocal {t : Nat} {s u v : State} (h : State.Underway t s u) (k : State.CoreLocal t u v) : State.Underway t s v where
  frame := by
    have hk := k.frame
    rw [h.frame] at hk
    exact hk
  core_other c hc := (k.core_other c hc).trans (h.core_other c hc)
  thr_other b hb := (k.thr_other b hb).trans (h.thr_other b hb)
  thr := Thread.underway_near h.thr k.thr

theorem State.opening_underway (s : State) (t : Nat) (r : MemReq) : State.Underway t s (s.opening t r) :=
  ⟨rfl, fun _ _ => rfl, fun k hk => s.updThr_thr_other t k _ hk, by
    rw [State.opening, State.updThr_thr]; exact ⟨_, Thread.near_refl _⟩⟩

theorem State.Underway.noWalk {t : Nat} {s u : State} (hx : (s.thr t).walk = none) (h : State.Underway t s u) :
    State.Underway t s (u.updThr t Thread.noWalk) where
  frame := by
    have hu := h.frame
    generalize hv : u.updThr t Thread.noWalk = v
    have hf : v = { u with threads := v.threads } := hv ▸ rfl
    rw [hf, hu]
  core_other c hc := h.core_other c hc
  thr_other b hb := (u.updThr_thr_other t b _ hb).trans (h.thr_other b hb)
  thr := by rw [State.updThr_thr]; exact Thread.underway_noWalk hx h.thr

/-- A retirement of an instruction that was underway: memory, the registers of control space and every other thread are as before. -/
theorem State.Underway.finish {s u : State} {t : Nat} (h : State.Underway t s u) (hstep : (s.thr t).stepDue = false) :
    let v := u.finish t (u.thr t).npc id
    v.mem = s.mem ∧ v.ctl = s.ctl ∧ (∀ k, k ≠ t → v.thr k = s.thr k) ∧ ((s.thr t).past ((s.thr t).pc + 4)).near (v.thr t) := by
  intro v
  obtain ⟨m, p, c, i, hi, hy⟩ := h.thr
  obtain ⟨hfr, hoth, hnear⟩ := State.finish_leaves u t (u.thr t).npc id (by rw [hy]; exact hstep)
  refine ⟨(congrArg State.mem hfr).trans h.mem, (congrArg State.ctl hfr).trans h.ctl, fun k hk => (hoth k hk).trans (h.thr_other k hk),
    Thread.near_trans ?_ hnear⟩
  rw [hy]
  exact ⟨p, c, i, hi, rfl⟩

/-- A hint whose translation needs no walk retires from a state that differs in the instruction in progress and in what its core leaves. -/
theorem State.attempt_pref {s : State} {t : Nat} {h : Nat} {va : Word} (hwalk : (s.thr t).walk = none)
    (hone : let s₂ := s.opening t (MemReq.plain (.pref h) va 1 0 0); s₂.noneMode t = true → s₂.olderChecked t = true)
    (hneed : ∀ a b c d, ((s.opening t (MemReq.plain (.pref h) va 1 0 0)).translate t va .load false).2 ≠ .need a b c d) :
    ∃ u, State.Underway t s u ∧
      (s.opening t (MemReq.plain (.pref h) va 1 0 0)).attempt t (MemReq.plain (.pref h) va 1 0 0) = u.finish t (u.thr t).npc id := by
  generalize hr : MemReq.plain (.pref h) va 1 0 0 = r at hone hneed ⊢
  have hopen := s.opening_underway t r
  generalize s.opening t r = s₂ at hone hneed hopen ⊢
  have htr := hopen.coreLocal (s₂.translate_coreLocal t va .load false)
  have hn : (s₂.noneMode t && !s₂.olderChecked t) = false := by
    cases hm : s₂.noneMode t with
    | false => rfl
    | true => rw [hone hm]; rfl
  have hmis : ¬ r.misaligned = true := by
    subst hr
    simp [MemReq.misaligned, MemReq.plain, Nat.mod_one]
  unfold State.attempt
  dsimp only
  rw [if_neg hmis]
  dsimp only
  rw [hn]
  subst hr
  dsimp only [MemReq.plain]
  simp only [Bool.false_eq_true, if_false]
  generalize s₂.translate t va .load false = q at hneed htr ⊢
  obtain ⟨v, res⟩ := q
  cases res with
  | ok pa rank e =>
    obtain ⟨u, hu, hpref⟩ := State.prefAt_leaves (v.updThr t Thread.noWalk) t h ((s₂.thr t).tagAt va) pa rank
    exact ⟨u, (htr.noWalk hwalk).coreLocal hu, hpref⟩
  | need pa nested st2 lvl => exact absurd rfl (hneed pa nested st2 lvl)
  | epm | upd | fault => exact ⟨s₂, hopen, rfl⟩

end Sys2Proof.Machine

open Sys2Proof Sys2Proof.Machine

/-- Settles O16: a hint is translated and sent within its core, and retires. -/
theorem prefetchesLeaveNoTrace : Obligations.PrefetchesLeaveNoTrace := by
  unfold Obligations.PrefetchesLeaveNoTrace
  intro s s₁ t base imm h hop hwalk
  have hpref (n : Nat) (hkept : ∀ k ∈ (s₁.thr t).kept, k.is (s₁.thr t) (MemReq.plain (.pref n) ((s.thr t).readG base + imm.signExtend 64) 1 0 0) = false)
      (hone : let s₂ := s₁.opening t (MemReq.plain (.pref n) ((s.thr t).readG base + imm.signExtend 64) 1 0 0); s₂.noneMode t = true → s₂.olderChecked t = true)
      (hneed : ∀ a b c d, ((s₁.opening t (MemReq.plain (.pref n) ((s.thr t).readG base + imm.signExtend 64) 1 0 0)).translate t
        ((s.thr t).readG base + imm.signExtend 64) .load false).2 ≠ .need a b c d) :
      ∃ u, prefForm n t base imm s = .next u ∧ u.mem = s₁.mem ∧ u.ctl = s₁.ctl ∧ (∀ k, k ≠ t.val → u.thr k = s₁.thr k) ∧
        ((s₁.thr t).past ((s₁.thr t).pc + 4)).near (u.thr t) := by
    obtain ⟨u, hu, hatt⟩ := State.attempt_pref hwalk hone hneed
    refine ⟨_, ?_, hu.finish h.2⟩
    have hfind : (s₁.thr t).kept.find? (fun k => k.is (s₁.thr t) (MemReq.plain (.pref n) ((s.thr t).readG base + imm.signExtend 64) 1 0 0)) = none := by
      rw [List.find?_eq_none]
      intro k hk
      rw [hkept k hk]
      exact Bool.false_ne_true
    rw [prefForm, State.memRow, hop]
    dsimp only
    rw [State.run_of_begins h, State.beginMem]
    unfold Thread.ea sext
    rw [hfind]
    exact congrArg Host.Outcome.next hatt
  exact ⟨hpref 0, hpref 1, hpref 2, hpref 3⟩

end

section
/-! PROOF. Reads and writes of system registers (04 R101, R118; 07 R205). -/

namespace Sys2Proof.Machine

variable {s s₁ : State} {t : Thr}

/-- A read of a register that no level is denied is its read. -/
theorem State.sysrd_of_granted {s : State} {t : Nat} (rd : RegNo) {i : Nat} (ho : (sysOwner i).isSome = true) (hd : (s.thr t).sysDenied i false = none) :
    s.sysrd t rd i =
      if i = 0x140 then s.finish t (s.thr t).npc (fun x => x.ack.1.writeG rd (BitVec.ofNat 64 x.ack.2))
      else s.finish t (s.thr t).npc (fun x => x.writeG rd (s.sysGet t i)) := by
  unfold State.sysrd
  dsimp only
  rw [if_neg (by simp [Option.isSome_iff_ne_none.mp ho]), hd]

/-- A write of a register that no level is denied is its write. -/
theorem State.syswr_of_granted {s : State} {t : Nat} (rs1 : RegNo) {i : Nat} (ho : (sysOwner i).isSome = true) (hd : (s.thr t).sysDenied i true = none) :
    s.syswr t rs1 i = s.sysPut t i ((s.thr t).readG rs1) := by
  unfold State.syswr
  dsimp only
  rw [if_neg (by simp [Option.isSome_iff_ne_none.mp ho]), hd]

/-- An index of no register is an illegal instruction, for a read and for a write. -/
theorem State.sysrd_of_no_owner {s : State} {t : Nat} (rd : RegNo) {i : Nat} (ho : sysOwner i = none) :
    s.sysrd t rd i = s.illegal t (sysWord rd 0 0 i) := by
  unfold State.sysrd
  exact if_pos (by rw [ho]; rfl)

theorem State.syswr_of_no_owner {s : State} {t : Nat} (rs1 : RegNo) {i : Nat} (ho : sysOwner i = none) :
    s.syswr t rs1 i = s.illegal t (sysWord 0 rs1 1 i) := by
  unfold State.syswr
  exact if_pos (by rw [ho]; rfl)

/-- An index above the thread's level is refused with the level that it needs. -/
theorem State.sysrd_of_denied {s : State} {t : Nat} (rd : RegNo) {i : Nat} {l : Level} (ho : (sysOwner i).isSome = true)
    (hd : (s.thr t).sysDenied i false = some l) : s.sysrd t rd i = s.takeExc t (Exc.priv (s.thr t).pc 0 0 i l) := by
  unfold State.sysrd
  dsimp only
  rw [if_neg (by simp [Option.isSome_iff_ne_none.mp ho]), hd]

theorem State.syswr_of_denied {s : State} {t : Nat} (rs1 : RegNo) {i : Nat} {l : Level} (ho : (sysOwner i).isSome = true)
    (hd : (s.thr t).sysDenied i true = some l) : s.syswr t rs1 i = s.takeExc t (Exc.priv (s.thr t).pc 1 1 i l) := by
  unfold State.syswr
  dsimp only
  rw [if_neg (by simp [Option.isSome_iff_ne_none.mp ho]), hd]

/-- A register of level S outside the debug and counter ranges is granted from S on. -/
theorem Thread.sysDenied_of_level {x : Thread} {i : Nat} {w : Bool} {l : Level} (ho : sysOwner i = some l) (hl : l.num ≤ x.level.num)
    (hi : i < 0x150) : x.sysDenied i w = none := by
  unfold Thread.sysDenied
  rw [if_neg (by omega), if_neg (by omega), if_neg (by omega), ho]
  exact if_neg (by omega)

/-- A register of level S outside those ranges. -/
theorem Thread.sysDenied_of_s {x : Thread} {i : Nat} {w : Bool} (hl : 1 ≤ x.level.num) (ho : sysOwner i = some .s) (hi : i < 0x150) :
    x.sysDenied i w = none := Thread.sysDenied_of_level ho hl hi

end Sys2Proof.Machine

open Sys2Proof Sys2Proof.Machine

/-- Settles O17: a granted read retires with the value, and the others stop before anything is written. -/
theorem sysregReads : Obligations.SysregReads := by
  unfold Obligations.SysregReads
  intro s s₁ t rd rs1 i h
  dsimp only
  have hack {n : Nat} (hn : n = 0x140) (hd : (s₁.thr t).sysDenied n false = none) : completes (s.run t (fun s => s.sysrd t rd n)) s₁ t
      (((s₁.thr t).ack.1.writeG rd (BitVec.ofNat 64 (s₁.thr t).ack.2)).past ((s₁.thr t).pc + 4)) := by
    subst hn
    exact State.run_completes h _ (fun x => x.ack.1.writeG rd (BitVec.ofNat 64 x.ack.2)) _ (State.sysrd_of_granted rd rfl hd)
  refine ⟨fun ho hd => ⟨fun hn => ?read, fun hn => hack hn hd⟩, fun hl => hack rfl (Thread.sysDenied_of_s hl rfl (by decide)), fun ho => ⟨?illegal, ?illegalW⟩,
    fun l ho hd => ?denied, fun l ho hd => ?deniedW⟩
  case read =>
    exact State.run_completes h _ (fun x => x.writeG rd (s₁.sysGet t i.toNat)) _ ((State.sysrd_of_granted rd ho hd).trans (if_neg hn))
  case illegal => exact ⟨_, rfl, rfl, (State.run_of_begins h _).trans (congrArg _ (State.sysrd_of_no_owner rd ho))⟩
  case illegalW => exact ⟨_, rfl, rfl, (State.run_of_begins h _).trans (congrArg _ (State.syswr_of_no_owner rs1 ho))⟩
  case denied => exact (State.run_of_begins h _).trans (congrArg _ (State.sysrd_of_denied rd ho hd))
  case deniedW => exact (State.run_of_begins h _).trans (congrArg _ (State.syswr_of_denied rs1 ho hd))

/-- Settles O19: a write of a register of the thread retires with it, and the root registers find no error pending. -/
theorem sysregWrites : Obligations.SysregWrites := by
  unfold Obligations.SysregWrites
  intro s s₁ t rs1 i h
  dsimp only
  have hputs (n : Nat) (ho : (sysOwner n).isSome = true) (hput : s₁.sysPut t n ((s₁.thr t).readG rs1) =
        s₁.finish t (s₁.thr t).npc (fun x => x.sysPut n ((s₁.thr t).readG rs1) (s₁.tileStamp t)))
      (hd : (s₁.thr t).sysDenied n true = none) : completes (s.run t (fun s => s.syswr t rs1 n)) s₁ t
        (((s₁.thr t).sysPut n ((s₁.thr t).readG rs1) (s₁.tileStamp t)).past ((s₁.thr t).pc + 4)) :=
    State.run_completes h _ (fun x => x.sysPut n ((s₁.thr t).readG rs1) (s₁.tileStamp t)) _ ((State.syswr_of_granted rs1 ho hd).trans hput)
  refine ⟨fun hi ho => hputs _ ho ?plain, hputs 0x141 rfl rfl, fun herr => ⟨hputs 0x021 rfl ?root1, hputs 0x022 rfl ?root2⟩⟩
  case plain =>
    simp only [List.mem_cons, List.not_mem_nil, or_false, not_or] at hi
    obtain ⟨h10, h12, h13, h14, h21, h22, h144⟩ := hi
    unfold State.sysPut
    dsimp only
    rw [if_neg h12, if_neg h13, if_neg h14, if_neg h144, if_neg (by omega), if_neg h10]
  case root1 | root2 =>
    have hnone : s₁.rendezvous t 3 = none := by
      unfold State.rendezvous
      dsimp only
      rw [herr]
    simp [State.sysPut, hnone]

end

section
/-! PROOF. What INT_ACK selects (04 R118). -/

namespace Sys2Proof

variable {β : Type}

variable [DecidableEq β]

/-- The keys of a table in its canonical form rise. -/
theorem Tbl.pairwise_of_wf {d : β} {t : Tbl β} (h : Tbl.wf d t = true) : t.Pairwise (fun p q => p.1 < q.1) := by
  induction t with
  | nil => exact .nil
  | cons p r ih =>
    obtain ⟨k, v⟩ := p
    obtain ⟨hab, -, hr⟩ := Tbl.wf_cons.mp h
    have hp := ih hr
    refine .cons (fun q hq => ?_) hp
    cases r with
    | nil => cases hq
    | cons p' r' =>
      have hk : k < p'.1 := by simpa [Tbl.above] using hab
      rcases List.mem_cons.mp hq with rfl | hq
      · exact hk
      · exact Nat.lt_trans hk (List.rel_of_pairwise_cons hp hq)

omit [DecidableEq β] in
/-- An entry of a table in its canonical form is what its key reads. -/
theorem Tbl.get_of_mem {d : β} {t : Tbl β} (h : t.Pairwise (fun p q => p.1 < q.1)) {p : Nat × β} (hp : p ∈ t) : Tbl.get d t p.1 = p.2 := by
  induction t with
  | nil => cases hp
  | cons q r ih =>
    obtain ⟨k, v⟩ := q
    rcases List.mem_cons.mp hp with rfl | hr
    · simp [Tbl.get]
    · have hk : k < p.1 := List.rel_of_pairwise_cons h hr
      rw [Tbl.get, if_neg (by omega)]
      exact ih h.of_cons hr

omit [DecidableEq β] in
/-- A key that reads other than the default is listed. -/
theorem Tbl.mem_of_get_ne {d : β} {t : Tbl β} {a : Nat} (h : Tbl.get d t a ≠ d) : (a, Tbl.get d t a) ∈ t := by
  induction t with
  | nil => exact absurd rfl h
  | cons p r ih =>
    obtain ⟨k, v⟩ := p
    by_cases hk : k = a
    · subst hk
      simp [Tbl.get]
    · simp only [Tbl.get, hk, if_false] at h ⊢
      exact List.mem_cons_of_mem _ (ih h)

end Sys2Proof

namespace Sys2Proof.Machine

/-- The choice of INT_ACK over one more entry of the table. -/
def bestStep (ok : IntId → Bool) (a : Option (Nat × Nat)) (p : Nat × IntId) : Option (Nat × Nat) :=
  if ok p.2 then
    match a with
    | some (q, _) => if p.2.prio.toNat < q then some (p.2.prio.toNat, p.1) else a
    | none => some (p.2.prio.toNat, p.1)
  else a

/-- The best of the entries that a condition admits: the lowest priority value, then the lower ID. -/
def IsBest (ok : IntId → Bool) (t : Tbl IntId) (o : Option (Nat × Nat)) : Prop :=
  match o with
  | none => ∀ p ∈ t, ok p.2 = false
  | some (q, n) => ∃ i, (n, i) ∈ t ∧ ok i = true ∧ q = i.prio.toNat ∧
      ∀ p ∈ t, ok p.2 = true → i.prio.toNat < p.2.prio.toNat ∨ (i.prio.toNat = p.2.prio.toNat ∧ n ≤ p.1)

/-- Over rising keys the fold finds the best entry, by induction on the entries seen. -/
theorem isBest_foldl (ok : IntId → Bool) (t : Tbl IntId) (h : t.Pairwise (fun p q => p.1 < q.1)) : IsBest ok t (t.foldl (bestStep ok) none) := by
  induction t using List.reverseRecOn with
  | nil => exact fun p hp => absurd hp List.not_mem_nil
  | append_singleton t p ih =>
    obtain ⟨ht, -, hlast⟩ := List.pairwise_append.mp h
    have hlt : ∀ q ∈ t, q.1 < p.1 := fun q hq => hlast q hq p (List.mem_singleton_self p)
    have hbest := ih ht
    rw [List.foldl_append, List.foldl_cons, List.foldl_nil]
    generalize t.foldl (bestStep ok) none = o at hbest ⊢
    unfold bestStep
    cases hp : ok p.2 with
    | false =>
      simp only [Bool.false_eq_true, if_false]
      cases o with
      | none =>
        intro q hq
        rcases List.mem_append.mp hq with hq | hq
        · exact hbest q hq
        · rw [List.mem_singleton.mp hq]; exact hp
      | some b =>
        obtain ⟨i, hi, hok, hq, hmin⟩ := hbest
        refine ⟨i, List.mem_append_left _ hi, hok, hq, fun r hr hrok => ?_⟩
        rcases List.mem_append.mp hr with hr | hr
        · exact hmin r hr hrok
        · rw [List.mem_singleton.mp hr, hp] at hrok; cases hrok
    | true =>
      simp only [if_true]
      cases o with
      | none =>
        refine ⟨p.2, List.mem_append_right _ (List.mem_singleton_self p), hp, rfl, fun r hr hrok => ?_⟩
        rcases List.mem_append.mp hr with hr | hr
        · rw [hbest r hr] at hrok; cases hrok
        · rw [List.mem_singleton.mp hr]; exact .inr ⟨rfl, Nat.le_refl _⟩
      | some b =>
        obtain ⟨q, n⟩ := b
        obtain ⟨i, hi, hok, rfl, hmin⟩ := hbest
        dsimp only
        split
        case isTrue hless =>
          refine ⟨p.2, List.mem_append_right _ (List.mem_singleton_self p), hp, rfl, fun r hr hrok => ?_⟩
          rcases List.mem_append.mp hr with hr | hr
          · have := hmin r hr hrok
            omega
          · rw [List.mem_singleton.mp hr]; exact .inr ⟨rfl, Nat.le_refl _⟩
        case isFalse hless =>
          refine ⟨i, List.mem_append_left _ hi, hok, rfl, fun r hr hrok => ?_⟩
          rcases List.mem_append.mp hr with hr | hr
          · exact hmin r hr hrok
          · rw [List.mem_singleton.mp hr]
            have hn := hlt (n, i) hi
            dsimp only at hn
            omega

/-- An INTID of a view may be acknowledged: pending, enabled, of the view's world and below both limits (04 R118). -/
def Thread.ackable (x : Thread) (sec : Bool) (i : IntId) : Bool :=
  i.pending && i.enable && i.world == sec && decide (i.prio.toNat < min (x.view sec).pmr.toNat (x.rpr sec)) && true

/-- What INT_ACK takes is the best of what it may take. -/
theorem Thread.bestInt_isBest (x : Thread) (sec : Bool) (h : Tbl.wf IntId.reset x.ints = true) :
    ∃ o, x.bestInt sec (fun _ => true) = o.map Prod.snd ∧ IsBest (x.ackable sec) x.ints o :=
  ⟨_, rfl, isBest_foldl (x.ackable sec) x.ints (Tbl.pairwise_of_wf h)⟩

theorem Thread.ackable_iff (x : Thread) (sec : Bool) (i : IntId) : x.ackable sec i = true ↔
    i.pending = true ∧ i.enable = true ∧ i.world = sec ∧ i.prio.toNat < min (x.view sec).pmr.toNat (x.rpr sec) := by
  simp [Thread.ackable, and_assoc]

/-- An INTID that may be acknowledged is listed. -/
theorem Thread.mem_ints_of_ackable {x : Thread} {sec : Bool} {n : Nat} (h : x.ackable sec (x.int n) = true) : (n, x.int n) ∈ x.ints := by
  refine Tbl.mem_of_get_ne (fun hd => ?_)
  have hp := ((x.ackable_iff sec _).mp h).1
  rw [Thread.int, hd] at hp
  cases hp

theorem Thread.int_updInt (x : Thread) (n k : Nat) (f : IntId → IntId) : (x.updInt n f).int k = if k = n then f (x.int n) else x.int k :=
  Tbl.get_set _ _ _ _ _

theorem Thread.int_updView (x : Thread) (sec : Bool) (f : IntView → IntView) (k : Nat) : (x.updView sec f).int k = x.int k := by
  cases sec <;> rfl

theorem Thread.view_updView (x : Thread) (sec : Bool) (f : IntView → IntView) : (x.updView sec f).view sec = f (x.view sec) := by
  cases sec <;> rfl

end Sys2Proof.Machine

open Sys2Proof Sys2Proof.Machine

/-- Settles O18: the table's entries rise, so the fold of INT_ACK finds the best one, and with none nothing is written. -/
theorem acknowledgeSelects : Obligations.AcknowledgeSelects := by
  unfold Obligations.AcknowledgeSelects
  intro x hwf
  dsimp only
  obtain ⟨o, ho, hbest⟩ := x.bestInt_isBest x.secView hwf
  have hq (n : Nat) := x.ackable_iff x.secView (x.int n)
  cases o with
  | none =>
    have hack : x.ack = (x, 1023) := by
      unfold Thread.ack
      dsimp only
      rw [ho]
      rfl
    refine ⟨fun ⟨k, hk⟩ => ?_, fun _ => by rw [hack]; exact ⟨rfl, rfl⟩⟩
    have hok := (hq k).mpr hk
    rw [hbest _ (Thread.mem_ints_of_ackable hok)] at hok
    cases hok
  | some b =>
    obtain ⟨q, n⟩ := b
    obtain ⟨i, hi, hok, -, hmin⟩ := hbest
    have hint : x.int n = i := Tbl.get_of_mem (Tbl.pairwise_of_wf hwf) hi
    subst hint
    have hack : x.ack = ((x.updInt n (fun i => { i with active := true, pending := false })).updView x.secView
        (fun v => { v with ackStamp := (x.int n).stamp }), n) := by
      unfold Thread.ack
      dsimp only
      rw [ho]
      rfl
    rw [hack]
    refine ⟨fun _ => ⟨(hq n).mp hok, fun k hk => ?_, ?_, fun k hk => ?_, ?_⟩, fun hnone => absurd ((hq n).mp hok) (hnone n)⟩
    · rcases hmin _ (Thread.mem_ints_of_ackable ((hq k).mpr hk)) ((hq k).mpr hk) with hlt | ⟨heq, hle⟩
      · exact .inl hlt
      · exact .inr ⟨BitVec.eq_of_toNat_eq heq, hle⟩
    · rw [Thread.int_updView, Thread.int_updInt, if_pos rfl]
    · rw [Thread.int_updView, Thread.int_updInt, if_neg hk]
    · rw [Thread.view_updView]

end

section
/-! PROOF. The writes that reach beyond their register (04 R119; 05 R136, R146; 08 R220, R226). -/

namespace Sys2Proof.Machine

/-! INT_SEND (04 R119). -/

theorem State.sendInt_threads (s : State) (t : Nat) (dst : Agent) (mode : Nat) (target : Thr) (id : Nat) (sec : Bool) :
    (s.sendInt t dst mode target id sec).threads = s.threads := by
  unfold State.sendInt
  dsimp only
  split <;> rfl

/-- INT_SEND leaves its thread as it was, or with SEND_ERR set. -/
theorem State.intSend_thr (s : State) (t : Nat) (v : Word) :
    (s.intSend t v).thr t = s.thr t ∨ (s.intSend t v).thr t = (s.thr t).updView (s.thr t).secView (fun w => { w with sendErr := true }) := by
  have hthr {u : State} (h : u.threads = s.threads) : u.thr t = s.thr t := by rw [State.thr, h, State.thr]
  have hfold (l : List Nat) (u : State) (f : Nat → Agent) (mode : Nat) (target : Thr) (id : Nat) (sec : Bool) :
      (l.foldl (fun s d => s.sendInt t (f d) mode target id sec) u).threads = u.threads := by
    induction l generalizing u with
    | nil => rfl
    | cons d l ih => exact (ih _).trans (u.sendInt_threads t _ _ _ _ _)
  unfold State.intSend
  extract_lets x sec mode pkg target id fail away
  have hfail : fail.thr t = (s.thr t).updView (s.thr t).secView (fun w => { w with sendErr := true }) := s.updThr_thr t _
  clear_value fail mode
  split
  · exact .inr hfail
  · split
    · exact .inl (hthr (s.sendInt_threads t _ _ _ _ _))
    · split
      case h_1 =>
        split
        · exact .inl (hthr (s.sendInt_threads t _ _ _ _ _))
        · exact .inr hfail
      case h_2 => exact .inl (hthr (hfold _ s Agent.die _ _ _ _))
      case h_3 =>
        split
        · exact .inl (hthr (s.sendInt_threads t _ _ _ _ _))
        · exact .inr hfail

theorem Thread.stepDue_updView (x : Thread) (sec : Bool) (f : IntView → IntView) : (x.updView sec f).stepDue = x.stepDue := by
  cases sec <;> rfl

/-- A reserved MODE sets SEND_ERR and sends nothing. -/
theorem State.intSend_reserved (s : State) (t : Nat) (v : Word) (h : fieldOf v 23 22 = 3) :
    s.intSend t v = s.updThr t (fun y => y.updView (s.thr t).secView (fun w => { w with sendErr := true })) :=
  if_pos (.inl h)

/-! Emptying (08 R226). -/

/-- The state u is s but for what an emptying of core c changes, which is neither CACHE_CTL nor the mark that it goes on. -/
structure State.Empties (c : Nat) (s u : State) : Prop where
  frame : u = { s with cores := u.cores, net := u.net, nextTid := u.nextTid }
  emptying : (u.core c).emptying = (s.core c).emptying
  cacheCtl : (u.core c).cacheCtl = (s.core c).cacheCtl

namespace State.Empties

variable {c : Nat} {s u v : State}

theorem refl (c : Nat) (s : State) : State.Empties c s s := ⟨rfl, rfl, rfl⟩

theorem trans (h : State.Empties c s u) (k : State.Empties c u v) : State.Empties c s v where
  frame := by
    have hk := k.frame
    rw [h.frame] at hk
    exact hk
  emptying := k.emptying.trans h.emptying
  cacheCtl := k.cacheCtl.trans h.cacheCtl

theorem updCore (c : Nat) (s : State) (f : Core → Core) (he : (f (s.core c)).emptying = (s.core c).emptying)
    (hc : (f (s.core c)).cacheCtl = (s.core c).cacheCtl) : State.Empties c s (s.updCore c f) :=
  ⟨rfl, by rw [State.updCore_core]; exact he, by rw [State.updCore_core]; exact hc⟩

theorem send (c : Nat) (s : State) (f : Flit) : State.Empties c s (s.send f) := ⟨rfl, rfl, rfl⟩
theorem freshTid (c : Nat) (s : State) : State.Empties c s s.freshTid := ⟨rfl, rfl, rfl⟩

theorem foldl {α : Type} (f : State → α → State) (hf : ∀ (s : State) (a : α), State.Empties c s (f s a)) (l : List α) (s : State) :
    State.Empties c s (l.foldl f s) := by
  induction l generalizing s with
  | nil => exact .refl c s
  | cons a l ih => exact (hf s a).trans (ih _)

theorem thr (h : State.Empties c s u) (k : Nat) : u.thr k = s.thr k := by rw [h.frame]; rfl
theorem awake (h : State.Empties c s u) (k : Nat) : u.awake k = s.awake k := by rw [h.frame]; rfl

end State.Empties

theorem State.mirrorLine_empties (s : State) (c line : Nat) : State.Empties c s (s.mirrorLine c line) := by
  unfold State.mirrorLine
  split
  case h_1 e _ => exact ((State.Empties.freshTid c s).trans (.updCore c _ _ rfl rfl)).trans (.send c _ _)
  case h_2 => exact .refl c s

theorem State.l2Evict_empties (s : State) (c line : Nat) : State.Empties c s (s.l2Evict c line) := by
  have hm := s.mirrorLine_empties c line
  unfold State.l2Evict
  extract_lets u
  split
  case h_1 l _ =>
    have hgo (f : Flit) (g : Core → Core) (he : (g (u.core c)).emptying = (u.core c).emptying) (hc : (g (u.core c)).cacheCtl = (u.core c).cacheCtl) :
        State.Empties c s ((u.updCore c g).send f) := (hm.trans (.updCore c _ _ he hc)).trans (.send c _ _)
    extract_lets go
    split
    case h_1 | h_2 => exact hgo _ _ rfl rfl
    case h_3 | h_4 => exact hgo _ _ rfl rfl
    case h_5 => exact hm
  case h_2 => exact hm

theorem State.galPush_empties {s u : State} {c : Nat} {e : GalEntry} (h : s.galPush c e = some u) : State.Empties c s u := by
  unfold State.galPush at h
  split at h
  · cases h; exact .refl c s
  · split at h
    · cases h
    · cases h
      exact ((State.Empties.freshTid c s).trans (.updCore c _ _ rfl rfl)).trans (.send c _ _)

/-- A pass of an emptying. -/
theorem State.emptyMore_empties (s : State) (c : Nat) (new : Word) : State.Empties c s (s.emptyMore c new) := by
  unfold State.emptyMore
  extract_lets old l2 s₁ s₂ s₃
  have h₁ : State.Empties c s s₁ := by
    unfold s₁
    split
    · exact .updCore c _ _ rfl rfl
    · exact .refl c s
  have h₂ : State.Empties c s₁ s₂ := by
    unfold s₂
    split
    · exact .updCore c _ _ rfl rfl
    · exact .refl c s₁
  have h₃ : State.Empties c s₂ s₃ := by
    unfold s₃
    split
    · exact .foldl _ (fun u line => u.l2Evict_empties c line) _ _
    · exact .refl c s₂
  refine (h₁.trans h₂).trans (h₃.trans ?_)
  split
  · refine .foldl _ (fun u e => ?_) _ _
    split
    case h_1 v hv => exact (State.galPush_empties hv).trans (.updCore c _ _ rfl rfl)
    case h_2 => exact .refl c u
  · exact .refl c s₃

end Sys2Proof.Machine
end

section
namespace Sys2Proof.Machine

variable {s s₁ : State} {t : Thr}

/-- A granted write of a system register whose body retires. -/
theorem syswr_next {rs1 : RegNo} {i : Nat} {body : State → State} {s₂ : State} {f : Thread → Thread} {want : Thread} (h : s.begins s₁ t)
    (ho : (sysOwner i).isSome = true) (hd : (s₁.thr t).sysDenied i true = none) (hb : body s₁ = s₁.syswr t rs1 i)
    (hput : s₁.sysPut t i ((s₁.thr t).readG rs1) = s₂.finish t (s₁.thr t).npc f) (hstep : (s₂.thr t).stepDue = false) (hf : f (s₂.thr t) = want) :
    completes (s.run t body) s₂ t (want.past ((s₁.thr t).pc + 4)) := by
  subst hf
  refine ⟨_, (State.run_of_begins h _).trans (congrArg _ (hb.trans ((State.syswr_of_granted rs1 ho hd).trans hput))), ?_⟩
  exact State.finish_leaves s₂ t _ f hstep

/-- UNLOCK_ALL leaves no lock (08 R220). -/
theorem Core.locked_galStatPut {c : Core} {v : Word} (h : bit v 4 = true) : (c.galStatPut v).locked = 0 := by
  unfold Core.galStatPut
  dsimp only
  rw [if_pos h]
  simp [Core.locked, List.filter_map, Function.comp_def]

theorem Core.smtPut_smtFix (k : Core) (fix : Bool) : (k.smtPut fix).smtFix = fix := by
  unfold Core.smtPut
  split
  case isTrue h => rw [h]
  case isFalse h => simpa using h

/-- A flush removes every predictor entry of its thread (05 R136). -/
theorem State.predClear_preds (s : State) (t : Nat) :
    (∀ e ∈ ((s.predClear t).core (t / 2)).preds.dirs, e.odd ≠ (t % 2 == 1)) ∧ (∀ e ∈ ((s.predClear t).core (t / 2)).preds.btb, e.odd ≠ (t % 2 == 1)) ∧
      (∀ e ∈ ((s.predClear t).core (t / 2)).preds.inds, e.odd ≠ (t % 2 == 1)) := by
  have hp : ((s.predClear t).core (t / 2)).preds = (s.core (t / 2)).preds.without (t % 2 == 1) := by
    rw [State.predClear, State.updThr_core, State.updCore_core]
  rw [hp]
  simp only [Predictors.without, List.mem_filter, bne_iff_ne]
  exact ⟨fun _ h => h.2, fun _ h => h.2, fun _ h => h.2⟩

theorem State.predClear_thr (s : State) (t : Nat) : (s.predClear t).thr t = { s.thr t with retStack := [] } := by
  rw [State.predClear, State.updThr_thr, State.updCore_thr]

end Sys2Proof.Machine

open Sys2Proof Sys2Proof.Machine

/-- Settles O21: each of these writes is its own effect followed by a retirement, and an emptying leaves the thread and the marks of its core alone. -/
theorem sysregEffects : Obligations.SysregEffects := by
  unfold Obligations.SysregEffects
  intro s s₁ t rs1
  dsimp only
  refine ⟨fun h => ⟨fun hl => ?intSend, s₁.intSend_reserved t _, fun hl hflush hsame => ⟨?predFlush, s₁.predClear_preds t⟩,
    fun hl hnew hdr => ⟨?smtFix, ?smtFixed⟩, fun hl hun => ⟨?unlockAll, ?unlocked⟩, fun hl hclr hidle => ?cacheDisable⟩,
    fun w hemp hdone hhold hawake hstep => ?cacheEmpty⟩
  case intSend =>
    refine syswr_next h rfl (Thread.sysDenied_of_s hl rfl (by decide)) rfl rfl ?_ rfl
    rcases s₁.intSend_thr t ((s₁.thr t).readG rs1) with hx | hx
    · rw [hx]; exact h.2
    · rw [hx, Thread.stepDue_updView]; exact h.2
  case predFlush =>
    refine syswr_next h (i := 0x010) (f := fun x => x.sysPut 0x010 ((s₁.thr t).readG rs1) (s₁.tileStamp t)) rfl
      (Thread.sysDenied_of_s hl rfl (by decide)) (if_pos hflush) ?_ ?_ ?_
    · simp [State.sysPut, hsame, hflush]
    · rw [State.predClear_thr]; exact h.2
    · rw [State.predClear_thr]; rfl
  case smtFix =>
    refine syswr_next h (i := 0x010) (f := fun x => x.sysPut 0x010 ((s₁.thr t).readG rs1) (s₁.tileStamp t)) rfl
      (Thread.sysDenied_of_s hl rfl (by decide)) (if_pos hnew) ?_ ?_ ?_
    · simp [State.sysPut, hnew, hdr]
    · split
      · rw [State.predClear_thr]; exact h.2
      · exact h.2
    · split
      · rw [State.predClear_thr]; rfl
      · rfl
  case smtFixed =>
    split
    · rw [State.predClear, State.updThr_core, State.updCore_core, State.updCore_core]
      exact Core.smtPut_smtFix _ _
    · rw [State.updCore_core]
      exact Core.smtPut_smtFix _ _
  case unlockAll => exact syswr_next h rfl (Thread.sysDenied_of_s hl rfl (by decide)) (if_pos hun) rfl h.2 rfl
  case unlocked => rw [State.updCore_core]; exact Core.locked_galStatPut hun
  case cacheDisable =>
    have hd : (s₁.thr t).sysDenied 0x012 true = none := Thread.sysDenied_of_level (l := .m) rfl (by rw [hl]) (by decide)
    have hput := State.syswr_of_granted rs1 (i := 0x012) rfl hd
    have hwrite : s₁.sysPut t 0x012 ((s₁.thr t).readG rs1) = s₁.cacheCtlWrite t ((s₁.thr t).readG rs1) := rfl
    generalize hnew : cacheCtlNew (s₁.core (t.val / 2)).cacheCtl ((s₁.thr t).readG rs1) = new at hclr ⊢
    have hempty := State.emptyMore_empties (s₁.updCore (t.val / 2) (fun k => { k with emptying := some (thrOf t, new) })) (t.val / 2) new
    have hcache : s₁.cacheCtlWrite t ((s₁.thr t).readG rs1) =
        ((s₁.updCore (t.val / 2) (fun k => { k with emptying := some (thrOf t, new) })).emptyMore (t.val / 2) new).updThr t
          (fun x => { x with hold := .emptying }) := by
      unfold State.cacheCtlWrite
      dsimp only
      rw [hidle, hnew]
      simp only [Bool.false_eq_true, if_false, hclr, if_true]
    have hexec : exec (.cacheDisableWrite t rs1) s = .next (s₁.cacheCtlWrite t ((s₁.thr t).readG rs1)) := by
      refine (State.run_of_begins h _).trans (congrArg _ ((if_pos ?_).trans (hput.trans hwrite)))
      rw [hnew]
      exact hclr
    refine ⟨_, hexec.trans (congrArg _ hcache), ?_, ?_, ?_, ?_⟩
    · rw [State.updThr_thr]
    · rw [State.updThr_thr, hempty.thr]; rfl
    · rw [State.updThr_core, hempty.emptying, State.updCore_core]
    · rw [State.updThr_core, hempty.cacheCtl, State.updCore_core]
  case cacheEmpty =>
    have hpass := s.emptyMore_empties (t.val / 2) w
    have hexec : exec (.cacheEmptyDone t) s =
        .next (((s.emptyMore (t.val / 2) w).updCore (t.val / 2) (fun k => { k with cacheCtl := w, emptying := none })).finish t
          ((s.emptyMore (t.val / 2) w).thr t).npc (fun x => { x with hold := .none })) := by
      show execCacheEmptyDone t s = _
      unfold execCacheEmptyDone
      dsimp only
      rw [hemp]
      dsimp only
      rw [if_pos rfl, if_pos]
      rw [hdone, hpass.thr, hhold, hpass.awake, hawake]
      rfl
    rw [hexec]
    have hthr : ((s.emptyMore (t.val / 2) w).updCore (t.val / 2) (fun k => { k with cacheCtl := w, emptying := none })).thr t = s.thr t := hpass.thr t
    rw [hpass.thr]
    exact State.finish_completes hthr hstep

end

section
/-! PROOF. A register that is kept whole in its thread reads back what was written through its fields (00 R6 to R11; 04 R101). -/

namespace Sys2Proof.Machine

/-- A bank of system registers at rising indices, each kept whole in its thread: where it stands, and that SYSRD and SYSWR reach it there and nowhere else. -/
structure RegBank where
  base : Nat
  size : Nat
  get : Thread → Nat → Word
  put : Thread → Nat → Word → Thread
  get_put : ∀ x k m w, k < size → m < size → get (put x k w) m = if m = k then w else get x m
  sysPut_eq : ∀ x k v st, k < size → x.sysPut (base + k) v st = put x k (writeFields (x.sysFields (base + k)) (get x k) v)
  sysGet_eq : ∀ (s : State) t m, m < size → s.sysGet t (base + m) = get (s.thr t) m
  sysGet_other : ∀ (s : State) t k w j, k < size → ¬ (base ≤ j ∧ j < base + size) → (s.setThr t (put (s.thr t) k w)).sysGet t j = s.sysGet t j

/-- A register of a bank reads back what was written, and every other register reads as before. -/
theorem RegBank.reads_back (b : RegBank) (s : State) (t k : Nat) (v st : Word) (hk : k < b.size) :
    let u := s.updThr t (fun x => x.sysPut (b.base + k) v st)
    u.sysGet t (b.base + k) = writeFields ((s.thr t).sysFields (b.base + k)) (s.sysGet t (b.base + k)) v ∧
      ∀ j, j ≠ b.base + k → u.sysGet t j = s.sysGet t j := by
  intro u
  have hu : u = s.setThr t (b.put (s.thr t) k (writeFields ((s.thr t).sysFields (b.base + k)) (b.get (s.thr t) k) v)) := by
    rw [← b.sysPut_eq _ _ _ st hk]
    rfl
  have hthr (x : Thread) : (s.setThr t x).thr t = x := s.updThr_thr t (fun _ => x)
  rw [hu]
  refine ⟨?_, fun j hj => ?_⟩
  · rw [b.sysGet_eq _ _ _ hk, b.sysGet_eq _ _ _ hk, hthr, b.get_put _ _ _ _ hk hk, if_pos rfl]
  · by_cases hr : b.base ≤ j ∧ j < b.base + b.size
    · obtain ⟨m, rfl⟩ := Nat.exists_eq_add_of_le hr.1
      have hm : m < b.size := by omega
      rw [b.sysGet_eq _ _ _ hm, b.sysGet_eq _ _ _ hm, hthr, b.get_put _ _ _ _ hk hm, if_neg (by omega)]
    · exact b.sysGet_other s t k _ j hk hr

theorem ExcRegs.get_put (e : ExcRegs) (k m : Nat) (w : Word) (hk : k < 8) (hm : m < 8) : (e.put k w).get m = if m = k then w else e.get m := by
  interval_cases k <;> interval_cases m <;> rfl

theorem State.setThr_thr (s : State) (t : Nat) (x : Thread) : (s.setThr t x).thr t = x := s.updThr_thr t (fun _ => x)
theorem State.setThr_core (s : State) (t : Nat) (x : Thread) (c : Nat) : (s.setThr t x).core c = s.core c := rfl
theorem State.setThr_ident (s : State) (t : Nat) (x : Thread) : (s.setThr t x).ident t = s.ident t := rfl

/-- A full field takes the written word. -/
theorem writeFields_full (old v : Word) : writeFields [sfld 63 0] old v = v := by
  apply BitVec.eq_of_toNat_eq
  simpa [writeFields, sfld, fld, Field.written, Legal.ok, setField, fieldOf] using v.isLt

/-- A register that stands alone. -/
def RegBank.single (base : Nat) (get : Thread → Word) (put : Thread → Word → Thread) (hgp : ∀ x w, get (put x w) = w)
    (hput : ∀ x v st, x.sysPut base v st = put x (writeFields (x.sysFields base) (get x) v)) (hget : ∀ (s : State) t, s.sysGet t base = get (s.thr t))
    (hother : ∀ (s : State) t w j, ¬ j = base → (s.setThr t (put (s.thr t) w)).sysGet t j = s.sysGet t j) : RegBank where
  base := base
  size := 1
  get x _ := get x
  put x _ w := put x w
  get_put x k m w hk hm := (hgp x w).trans (if_pos (by omega)).symm
  sysPut_eq x k v st hk := by
    obtain rfl : k = 0 := by omega
    exact hput x v st
  sysGet_eq s t m hm := by
    obtain rfl : m = 0 := by omega
    exact hget s t
  sysGet_other s t k w j hk hj := hother s t w j (by omega)

/-- The registers of a thread that stand alone (04 R101). -/
def singleBanks : List RegBank :=
  [RegBank.single 0x002 Thread.timeCtl (fun x w => { x with timeCtl := w }) (fun _ _ => rfl) (fun _ _ _ => rfl) (fun _ _ => rfl) (fun s t w j hj => by
      simp only [State.sysGet, State.setThr_thr, State.setThr_core, State.setThr_ident, hj, if_false]
      rfl),
    RegBank.single 0x008 Thread.fcsr (fun x w => { x with fcsr := w }) (fun _ _ => rfl) (fun _ _ _ => rfl) (fun _ _ => rfl) (fun s t w j hj => by
      simp only [State.sysGet, State.setThr_thr, State.setThr_core, State.setThr_ident, hj, if_false]
      rfl),
    RegBank.single 0x011 Thread.atomPlace (fun x w => { x with atomPlace := w }) (fun _ _ => rfl) (fun _ _ _ => rfl) (fun _ _ => rfl) (fun s t w j hj => by
      simp only [State.sysGet, State.setThr_thr, State.setThr_core, State.setThr_ident, hj, if_false]
      rfl),
    RegBank.single 0x020 Thread.mmuCtl (fun x w => { x with mmuCtl := w }) (fun _ _ => rfl) (fun _ _ _ => rfl) (fun _ _ => rfl) (fun s t w j hj => by
      simp only [State.sysGet, State.setThr_thr, State.setThr_core, State.setThr_ident, hj, if_false]
      rfl),
    RegBank.single 0x021 Thread.root1 (fun x w => { x with root1 := w }) (fun _ _ => rfl) (fun _ _ _ => rfl) (fun _ _ => rfl) (fun s t w j hj => by
      simp only [State.sysGet, State.setThr_thr, State.setThr_core, State.setThr_ident, hj, if_false]
      rfl),
    RegBank.single 0x022 Thread.root2 (fun x w => { x with root2 := w }) (fun _ _ => rfl) (fun _ _ _ => rfl) (fun _ _ => rfl) (fun s t w j hj => by
      simp only [State.sysGet, State.setThr_thr, State.setThr_core, State.setThr_ident, hj, if_false]
      rfl),
    RegBank.single 0x023 Thread.mtypeMap (fun x w => { x with mtypeMap := w }) (fun _ _ => rfl) (fun _ _ _ => rfl) (fun _ _ => rfl) (fun s t w j hj => by
      simp only [State.sysGet, State.setThr_thr, State.setThr_core, State.setThr_ident, hj, if_false]
      rfl),
    RegBank.single 0x130 Thread.delegM (fun x w => { x with delegM := w }) (fun _ _ => rfl) (fun _ _ _ => rfl) (fun _ _ => rfl) (fun s t w j hj => by
      simp only [State.sysGet, State.setThr_thr, State.setThr_core, State.setThr_ident, hj, if_false]
      rfl),
    RegBank.single 0x131 Thread.delegH (fun x w => { x with delegH := w }) (fun _ _ => rfl) (fun _ _ _ => rfl) (fun _ _ => rfl) (fun s t w j hj => by
      simp only [State.sysGet, State.setThr_thr, State.setThr_core, State.setThr_ident, hj, if_false]
      rfl),
    RegBank.single 0x132 Thread.trapCtl (fun x w => { x with trapCtl := w }) (fun _ _ => rfl) (fun _ _ _ => rfl) (fun _ _ => rfl) (fun s t w j hj => by
      simp only [State.sysGet, State.setThr_thr, State.setThr_core, State.setThr_ident, hj, if_false]
      rfl),
    RegBank.single 0x150 Thread.dbgCtl (fun x w => { x with dbgCtl := w }) (fun _ _ => rfl) (fun _ _ _ => rfl) (fun _ _ => rfl) (fun s t w j hj => by
      simp only [State.sysGet, State.setThr_thr, State.setThr_core, State.setThr_ident, hj, if_false]
      rfl),
    RegBank.single 0x160 Thread.pmcCtl (fun x w => { x with pmcCtl := w }) (fun _ _ => rfl) (fun _ _ _ => rfl) (fun _ _ => rfl) (fun s t w j hj => by
      simp only [State.sysGet, State.setThr_thr, State.setThr_core, State.setThr_ident, hj, if_false]
      rfl)]

theorem Thread.secView_updView (x : Thread) (sec : Bool) (f : IntView → IntView) : (x.updView sec f).secView = x.secView := by
  cases sec <;> rfl

theorem Thread.updView_eq (x : Thread) (sec : Bool) (f : IntView → IntView) : ∃ n q, x.updView sec f = { x with intN := n, intS := q } := by
  cases sec
  · exact ⟨f x.intN, x.intS, rfl⟩
  · exact ⟨x.intN, f x.intS, rfl⟩

/-- WAIT_DEADLINE of the thread's view (04 R127). -/
def bankWaitDeadline : RegBank :=
  .single 0x147 (fun x => (x.view x.secView).waitDeadline) (fun x w => x.updView x.secView (fun q => { q with waitDeadline := w }))
    (fun x w => by rw [x.secView_updView, x.view_updView])
    (fun x v st => by
      rw [show x.sysFields 0x147 = [sfld 63 0] from rfl, writeFields_full]
      rfl)
    (fun _ _ => rfl)
    (fun s t w j hj => by
      obtain ⟨n, q, hy⟩ := (s.thr t).updView_eq (s.thr t).secView (fun q => { q with waitDeadline := w })
      have hv := (s.thr t).view_updView (s.thr t).secView (fun q => { q with waitDeadline := w })
      simp only [State.sysGet, State.setThr_thr, State.setThr_core, State.setThr_ident, hj, if_false, Thread.secView_updView, hv]
      rw [hy]
      rfl)

/-- The exception registers of S (04 R106). -/
def bankExcS : RegBank where
  base := 0x100
  size := 8
  get x k := x.excS.get k
  put x k w := { x with excS := x.excS.put k w }
  get_put x k m w hk hm := x.excS.get_put k m w hk hm
  sysPut_eq x k v st hk := by simp (disch := omega) only [Thread.sysPut, if_neg, if_pos, Nat.add_sub_cancel_left]
  sysGet_eq s t m hm := by simp (disch := omega) only [State.sysGet, if_neg, if_pos, Nat.add_sub_cancel_left]
  sysGet_other s t k w j hk hj := by
    have hr : ¬ (0x100 ≤ j ∧ j ≤ 0x107) := by omega
    simp only [State.sysGet, State.setThr_thr, State.setThr_core, State.setThr_ident, hr, if_false]
    rfl

/-- The exception registers of H (04 R106). -/
def bankExcH : RegBank where
  base := 0x110
  size := 8
  get x k := x.excH.get k
  put x k w := { x with excH := x.excH.put k w }
  get_put x k m w hk hm := x.excH.get_put k m w hk hm
  sysPut_eq x k v st hk := by simp (disch := omega) only [Thread.sysPut, if_neg, if_pos, Nat.add_sub_cancel_left]
  sysGet_eq s t m hm := by simp (disch := omega) only [State.sysGet, if_neg, if_pos, Nat.add_sub_cancel_left]
  sysGet_other s t k w j hk hj := by
    have hr : ¬ (0x110 ≤ j ∧ j ≤ 0x117) := by omega
    simp only [State.sysGet, State.setThr_thr, State.setThr_core, State.setThr_ident, hr, if_false]
    rfl

/-- The exception registers of M (04 R106). -/
def bankExcM : RegBank where
  base := 0x120
  size := 8
  get x k := x.excM.get k
  put x k w := { x with excM := x.excM.put k w }
  get_put x k m w hk hm := x.excM.get_put k m w hk hm
  sysPut_eq x k v st hk := by simp (disch := omega) only [Thread.sysPut, if_neg, if_pos, Nat.add_sub_cancel_left]
  sysGet_eq s t m hm := by simp (disch := omega) only [State.sysGet, if_neg, if_pos, Nat.add_sub_cancel_left]
  sysGet_other s t k w j hk hj := by
    have hr : ¬ (0x120 ≤ j ∧ j ≤ 0x127) := by omega
    simp only [State.sysGet, State.setThr_thr, State.setThr_core, State.setThr_ident, hr, if_false]
    rfl

/-- DBG_BPn (04 R128). -/
def bankDbgBp : RegBank where
  base := 0x151
  size := 4
  get x k := Tbl.get 0 x.dbgBp k
  put x k w := { x with dbgBp := Tbl.set 0 x.dbgBp k w }
  get_put x k m w hk hm := Tbl.get_set 0 x.dbgBp k m w
  sysPut_eq x k v st hk := by
    have hf : x.sysFields (0x151 + k) = [sfld 63 0] := by simp (disch := omega) only [Thread.sysFields, if_neg]
    rw [hf, writeFields_full]
    simp (disch := omega) only [Thread.sysPut, if_neg, if_pos, Nat.add_sub_cancel_left]
  sysGet_eq s t m hm := by simp (disch := omega) only [State.sysGet, if_neg, if_pos, Nat.add_sub_cancel_left]
  sysGet_other s t k w j hk hj := by
    have hr : ¬ (0x151 ≤ j ∧ j ≤ 0x154) := by omega
    simp only [State.sysGet, State.setThr_thr, State.setThr_core, State.setThr_ident, hr, if_false]
    rfl

/-- DBG_WPn (04 R128). -/
def bankDbgWp : RegBank where
  base := 0x155
  size := 2
  get x k := Tbl.get 0 x.dbgWp k
  put x k w := { x with dbgWp := Tbl.set 0 x.dbgWp k w }
  get_put x k m w hk hm := Tbl.get_set 0 x.dbgWp k m w
  sysPut_eq x k v st hk := by
    have hf : x.sysFields (0x155 + k) = [sfld 63 0] := by simp (disch := omega) only [Thread.sysFields, if_neg]
    rw [hf, writeFields_full]
    simp (disch := omega) only [Thread.sysPut, if_neg, if_pos, Nat.add_sub_cancel_left]
  sysGet_eq s t m hm := by simp (disch := omega) only [State.sysGet, if_neg, if_pos, Nat.add_sub_cancel_left]
  sysGet_other s t k w j hk hj := by
    have hr : ¬ (j = 0x155 ∨ j = 0x156) := by omega
    simp only [State.sysGet, State.setThr_thr, State.setThr_core, State.setThr_ident, hr, if_false]
    rfl

/-- DBG_WPMn (04 R128). -/
def bankDbgWpm : RegBank where
  base := 0x157
  size := 2
  get x k := Tbl.get 0x300 x.dbgWpm k
  put x k w := { x with dbgWpm := Tbl.set 0x300 x.dbgWpm k w }
  get_put x k m w hk hm := Tbl.get_set 0x300 x.dbgWpm k m w
  sysPut_eq x k v st hk := by simp (disch := omega) only [Thread.sysPut, if_neg, if_pos, Nat.add_sub_cancel_left]; rfl
  sysGet_eq s t m hm := by simp (disch := omega) only [State.sysGet, if_neg, if_pos, Nat.add_sub_cancel_left]
  sysGet_other s t k w j hk hj := by
    have hr : ¬ (j = 0x157 ∨ j = 0x158) := by omega
    simp only [State.sysGet, State.setThr_thr, State.setThr_core, State.setThr_ident, hr, if_false]
    rfl

/-- PMC_SELn (19 R424). -/
def bankPmcSel : RegBank where
  base := 0x161
  size := 6
  get x k := Tbl.get 0 x.pmcSel k
  put x k w := { x with pmcSel := Tbl.set 0 x.pmcSel k w }
  get_put x k m w hk hm := Tbl.get_set 0 x.pmcSel k m w
  sysPut_eq x k v st hk := by simp (disch := omega) only [Thread.sysPut, if_neg, if_pos, Nat.add_sub_cancel_left]; rfl
  sysGet_eq s t m hm := by simp (disch := omega) only [State.sysGet, if_neg, if_pos, Nat.add_sub_cancel_left]
  sysGet_other s t k w j hk hj := by
    have hr : ¬ (0x161 ≤ j ∧ j ≤ 0x166) := by omega
    simp only [State.sysGet, State.setThr_thr, State.setThr_core, State.setThr_ident, hr, if_false]
    rfl

/-- The counters, the last two of which count cycles and instructions (19 R424). -/
def bankPmc : RegBank where
  base := 0x168
  size := 8
  get x k := Tbl.get 0 x.pmc k
  put x k w := { x with pmc := Tbl.set 0 x.pmc k w }
  get_put x k m w hk hm := Tbl.get_set 0 x.pmc k m w
  sysPut_eq x k v st hk := by interval_cases k <;> rfl
  sysGet_eq s t m hm := by interval_cases m <;> rfl
  sysGet_other s t k w j hk hj := by
    have hr : ¬ (0x168 ≤ j ∧ j ≤ 0x16D) := by omega
    have h6 : ¬ j = 0x16E := by omega
    have h7 : ¬ j = 0x16F := by omega
    simp only [State.sysGet, State.setThr_thr, State.setThr_core, State.setThr_ident, hr, h6, h7, if_false]
    rfl

/-- Every bank of registers that a write leaves to be read back. -/
def regBanks : List RegBank :=
  singleBanks ++ [bankWaitDeadline, bankExcS, bankExcH, bankExcM, bankDbgBp, bankDbgWp, bankDbgWpm, bankPmcSel, bankPmc]

/-- An index of a register of a bank. -/
theorem regBank_reads_back {i : Nat} (h : ∃ b ∈ regBanks, ∃ k, k < b.size ∧ i = b.base + k) (s : State) (t : Nat) (v st : Word) :
    let u := s.updThr t (fun x => x.sysPut i v st)
    u.sysGet t i = writeFields ((s.thr t).sysFields i) (s.sysGet t i) v ∧ ∀ j, j ≠ i → u.sysGet t j = s.sysGet t j := by
  obtain ⟨b, -, k, hk, rfl⟩ := h
  exact b.reads_back s t k v st hk

/-- The indices of the banks. -/
def bankIndices : List Nat := regBanks.flatMap (fun b => (List.range b.size).map (b.base + ·))

theorem mem_bankIndices {i : Nat} (h : i ∈ bankIndices) : ∃ b ∈ regBanks, ∃ k, k < b.size ∧ i = b.base + k := by
  obtain ⟨b, hb, hi⟩ := List.mem_flatMap.mp h
  obtain ⟨k, hk, rfl⟩ := List.mem_map.mp hi
  exact ⟨b, hb, k, List.mem_range.mp hk, rfl⟩

end Sys2Proof.Machine

open Sys2Proof Sys2Proof.Machine

/-- Settles O20: each of these registers lies in a bank, and a bank reads back what was written and moves no other register. -/
theorem sysregWriteThenRead : Obligations.SysregWriteThenRead := by
  unfold Obligations.SysregWriteThenRead
  intro s t i j v st
  dsimp only
  intro hi _
  have hmem : ∀ n ∈ [0x002, 0x008, 0x011, 0x020, 0x021, 0x022, 0x023, 0x130, 0x131, 0x132, 0x147, 0x150, 0x160] ++ (List.range 8).map (· + 0x100) ++
      (List.range 8).map (· + 0x110) ++ (List.range 8).map (· + 0x120) ++ (List.range 8).map (· + 0x151) ++ (List.range 6).map (· + 0x161) ++
      (List.range 8).map (· + 0x168), n ∈ bankIndices := by decide
  obtain ⟨hsame, hother⟩ := regBank_reads_back (mem_bankIndices (hmem i hi)) s t v st
  exact ⟨hsame, hother j⟩

end

section
/-! SUPPORT. What an event, an error record and the flits that report it change: the rings and stores of the dies, the summary, the flits sent and counters
(02 R51 to R54, R459; 19 R410 to R421). -/

namespace Sys2Proof.Machine

/-- The state u is s but for what reports leave: the dies' rings and stores, the summary, the flits sent, and the counters of threads. -/
structure State.Reports (s u : State) : Prop where
  frame : u = { s with threads := u.threads, dies := u.dies, errs := u.errs, net := u.net }
  thr : ∀ k, (s.thr k).near (u.thr k)

namespace State.Reports

variable {s u v : State}

theorem refl (s : State) : State.Reports s s := ⟨rfl, fun _ => Thread.near_refl _⟩

theorem trans (h : State.Reports s u) (k : State.Reports u v) : State.Reports s v where
  frame := by
    have hk := k.frame
    rw [h.frame] at hk
    exact hk
  thr n := Thread.near_trans (h.thr n) (k.thr n)

theorem ite {p : Prop} [Decidable p] (h : State.Reports s u) (k : State.Reports s v) : State.Reports s (if p then u else v) := by
  split
  · exact h
  · exact k

theorem foldl {α : Type} (f : State → α → State) (hf : ∀ (s : State) (a : α), State.Reports s (f s a)) (l : List α) (s : State) :
    State.Reports s (l.foldl f s) := by
  induction l generalizing s with
  | nil => exact refl s
  | cons a l ih => exact (hf s a).trans (ih _)

theorem mem (h : State.Reports s u) : u.mem = s.mem := by rw [h.frame]
theorem ctl (h : State.Reports s u) : u.ctl = s.ctl := by rw [h.frame]

end State.Reports

section
variable (s : State)

theorem State.send_reports (f : Flit) : State.Reports s (s.send f) := ⟨rfl, fun _ => Thread.near_refl _⟩
theorem State.sendAll_reports (fs : List Flit) : State.Reports s (s.sendAll fs) := .foldl _ (fun s f => s.send_reports f) fs s
theorem State.updDie_reports (d : Nat) (f : Die → Die) : State.Reports s (s.updDie d f) := ⟨rfl, fun _ => Thread.near_refl _⟩
theorem State.setErrs_reports (g : ErrGlobal) : State.Reports s { s with errs := g } := ⟨rfl, fun _ => Thread.near_refl _⟩

theorem State.pmc_reports (t code : Nat) : State.Reports s (s.pmc t code) where
  frame := rfl
  thr k := by
    by_cases hk : k = t
    · subst hk
      rw [State.pmc, State.updThr_thr]
      exact Thread.pmcEvent_near _ _ _
    · rw [State.pmc, State.updThr_thr_other _ _ _ _ hk]
      exact Thread.near_refl _

theorem State.event_reports (d : Nat) (node : BitVec 12) (cls : BitVec 4) (world : Tag) (sev : BitVec 3) (code : BitVec 16) (stamp : Word)
    (payload : BitVec 128) : State.Reports s (s.event d node cls world sev code stamp payload) := by
  unfold State.event State.putEvent
  exact .ite ((s.setErrs_reports _).trans (State.updDie_reports _ _ _)) ((s.setErrs_reports _).trans (State.updDie_reports _ _ _))

theorem State.note_reports (a : Agent) (cls : BitVec 4) (code : BitVec 16) (payload : BitVec 128) : State.Reports s (s.note a cls code payload) :=
  s.event_reports _ _ _ _ _ _ _ _

theorem State.sendNotify_reports (sec : Bool) (reg : Word) : State.Reports s (s.sendNotify sec reg) := by
  unfold State.sendNotify
  extract_lets t pkg
  refine .ite (.refl s) (.ite (.refl s) ?_)
  split
  · exact s.send_reports _
  · exact .refl s

theorem State.countCe_reports (world : Tag) : State.Reports s (s.countCe world) := by
  unfold State.countCe
  extract_lets sec reg n hit n' e s₁
  have h₁ : State.Reports s s₁ := s.setErrs_reports _
  exact .ite (.ite (h₁.trans (s₁.sendNotify_reports sec reg)) h₁) (.refl s)

theorem State.record_reports (d : Nat) (r : RecordIn) : State.Reports s (s.record d r).1 := by
  unfold State.record
  extract_lets st s₁ fin
  have h₁ : State.Reports s s₁ := s.updDie_reports d _
  have hfin : ∀ (u : State) (loc : BitVec 32), State.Reports u (fin u loc).1 := fun u loc => by
    unfold fin
    extract_lets u₁ e u₂ u₃ u₄
    have h₂ : State.Reports u u₂ := (u.event_reports _ _ _ _ _ _ _ _).trans (State.setErrs_reports _ _)
    have h₃ : State.Reports u u₃ := .ite (h₂.trans (u₂.countCe_reports _)) h₂
    have h₄ : State.Reports u u₄ := by
      unfold u₄
      split
      · exact h₃.trans (u₃.pmc_reports _ _)
      · exact h₃
    exact h₄
  clear_value fin s₁
  split
  · exact (h₁.trans (s₁.updDie_reports _ _)).trans (hfin _ _)
  · split
    · exact (h₁.trans (s₁.updDie_reports _ _)).trans (hfin _ _)
    · exact (h₁.trans (.ite (s₁.setErrs_reports _) (.refl _))).trans (hfin _ _)

theorem State.errorAt_reports (a : Agent) (code : BitVec 16) (sev : BitVec 3) (world : Tag) (pa : Option Nat) (t : Option Thr) :
    State.Reports s (s.errorAt a code sev world pa t).1 := by
  unfold State.errorAt
  exact s.record_reports _ _
theorem State.logError_reports (a : Agent) (code : BitVec 16) (sev : BitVec 3) (world : Tag) (pa : Option Nat) (t : Option Thr) :
    State.Reports s (s.logError a code sev world pa t) := by
  unfold State.logError
  exact s.errorAt_reports _ _ _ _ _ _

/-! The reads that cover posted writes (16 R369). -/

theorem State.coversFail_reports (p : Nat) (r : PortReq) (code : BitVec 16) (pa : Option Nat) : State.Reports s (s.coversFail p r code pa).1 := by
  unfold State.coversFail
  exact (s.errorAt_reports _ _ _ _ _ _).trans (State.sendAll_reports _ _)

/-- Reads that cover posted writes change threads in their counters alone. -/
theorem State.coverPosted_near (t k : Nat) : (s.thr k).near ((s.coverPosted t).thr k) := by
  unfold State.coverPosted
  generalize List.range 10 = l
  induction l generalizing s with
  | nil => exact Thread.near_refl _
  | cons p l ih =>
    rw [List.foldl_cons]
    have hfail : ∀ (f : RootPort → RootPort) (r : PortReq) (code : BitVec 16), (s.thr k).near (((s.updPort p f).coversFail p r code none).1.thr k) :=
      fun f r code => ((s.updPort p f).coversFail_reports p r code none).thr k
    refine Thread.near_trans ?_ (ih _)
    dsimp only
    split
    · exact Thread.near_refl _
    · split
      · exact hfail _ _ _
      · split
        · exact hfail _ _ _
        · split <;> exact Thread.near_refl (s.thr k)

end

end Sys2Proof.Machine
end

section
/-! PROOF. Taking exceptions, and the levels they are taken to (04 R103, R106, R107, R112, R128). -/

namespace Sys2Proof.Machine

/-- Refutes O22: an entry that its routing names U keeps its registers in those of M, which are not as before. -/
theorem not_exceptionEntry : ¬ Obligations.ExceptionEntry := by
  unfold Obligations.ExceptionEntry
  intro h
  have hm := h State.reset 0 { Exc.plain 0x04 0 with route := some .u } rfl (.inl (by decide))
  obtain ⟨-, -, -, -, -, -, -, hexc, -⟩ := hm
  have hcause : ((State.reset.takeExc 0 { Exc.plain 0x04 0 with route := some .u }).thr 0).excM.cause = 0x04 := by decide
  have hm := congrArg ExcRegs.cause (hexc .m (by decide))
  exact absurd (hcause.symm.trans hm) (by decide)

theorem Thread.real_u (x : Thread) : x.real .u = .u := rfl
theorem Thread.real_s (x : Thread) : x.real .s = .s := rfl
theorem Thread.real_m (x : Thread) : x.real .m = .m := rfl
theorem Thread.real_h (x : Thread) : x.real .h = if (!x.secure && x.hyp) = true then .h else .m := by
  cases hs : x.secure <;> cases hh : x.hyp <;> simp [Thread.real, hs, hh]
theorem Level.max_u (l : Level) : Level.max l .u = l := if_pos (Nat.zero_le _)

/-- Settles O23, by the branches of `Thread.target` with nothing raised and nothing routed. -/
theorem targetLevels : Obligations.TargetLevels := by
  unfold Obligations.TargetLevels
  intro x e hroute hraise
  simp only [Thread.target, hroute, hraise, Thread.real_u, Level.max_u]
  simp only [apply_ite x.real, Thread.real_m, Thread.real_s, Thread.real_h]
  by_cases hm : x.level = .m ∨ e.cause = 0x19 ∨ e.cause = 0x29
  · have hM := hm.imp_right (Or.imp_right (Or.inl (b := (e.cause = 0x38 ∧ bit x.dbgCtl 63 = true) ∨ bit x.delegM e.cause = false)))
    simp [hm, hM, or_assoc]
  · have hlevel : x.level ≠ .m ∧ e.cause ≠ 0x19 ∧ e.cause ≠ 0x29 := by simpa using hm
    by_cases hown : e.cause = 0x38 ∧ bit x.dbgCtl 63 = true
    · simp [hlevel, hown]
    · cases hdeleg : bit x.delegM e.cause
      · simp [hlevel]
      · by_cases hh : x.level = .h
        · simp [hlevel, hown, hh]
        · cases hhyp : !x.secure && x.hyp <;> simp_all

theorem State.run_of_start {s s₁ : State} {t : Nat} (h : s.start t = .go s₁) (body : State → State) : s.run t body = .next (body s₁) := by
  simp only [State.run, h]

theorem State.rendezvous_of_empty {s : State} {t : Nat} (kind : Nat) (h : (s.thr t).pendErrs = []) : s.rendezvous t kind = none := by
  simp only [State.rendezvous, h]

/-- A return with no step due leaves its thread at the address and level it returns to (04 R109). -/
theorem State.retxGo_leaves (s : State) (t : Nat) (h : (s.thr t).stepDue = false) :
    s.leaves (s.retxGo t) t { (s.thr t).leave.past ((s.thr t).exc (s.thr t).level).epc with suppress := true } := by
  simp only [State.retxGo, h, Bool.false_eq_true, if_false]
  refine ⟨rfl, fun k hk => s.updThr_thr_other t k _ hk, ?_⟩
  rw [State.updThr_thr]
  obtain ⟨p, c, i, hi, hnear⟩ := (s.thr t).leave.retired_near (s.tileStamp t) ((s.thr t).exc (s.thr t).level).epc
  exact ⟨p, c, i, hi, by rw [hnear]⟩

/-- Settles O24: each row performs its body once its instruction has begun. -/
theorem trapsAndReturns : Obligations.TrapsAndReturns := by
  unfold Obligations.TrapsAndReturns
  intro s s₁ t code
  dsimp only
  refine ⟨fun h => State.run_of_start h _, fun h hu hbad herrs hepc => ⟨s₁.retxGo t, ?_, ?_⟩,
    fun h hu hbad => ⟨Exc.illegal (s₁.thr t).pc (sysWord 0 0 3 0) true, rfl, rfl, rfl, ?_⟩, fun h hu => ⟨Exc.priv (s₁.thr t).pc 2 3 0 .u, rfl, rfl, ?_⟩⟩
  · refine (State.run_of_start h.1 _).trans ?_
    simp only [hu, hbad, State.rendezvous_of_empty _ herrs, hepc, if_false, Bool.false_eq_true, ne_eq, not_true_eq_false]
  · simpa only [Thread.leave, Thread.past, Bool.and_eq_true, decide_eq_true_eq] using s₁.retxGo_leaves t h.2
  · exact (State.run_of_start h _).trans (by simp only [hu, hbad, if_true, if_false])
  · exact (State.run_of_start h _).trans (by simp only [hu, if_true])

/-! Waits and events (04 R127). -/

theorem State.CoreLocal.foldl {α : Type} {t : Nat} (f : State → α → State) (hf : ∀ (s : State) (a : α), State.CoreLocal t s (f s a)) (l : List α) (s : State) :
    State.CoreLocal t s (l.foldl f s) := by
  induction l generalizing s with
  | nil => exact .refl t s
  | cons a l ih => exact (hf s a).trans (ih _)

/-- A flit that is on its way, by its operation and where it goes. -/
def State.carries (s : State) (op : Op) (dst : Agent) : Prop := ∃ f ∈ s.net, f.op = op ∧ f.dst = dst

theorem State.carries_send_self (s : State) (f : Flit) : (s.send f).carries f.op f.dst := ⟨s.injected f, by simp, rfl, rfl⟩

theorem State.carries_send {s : State} {op : Op} {dst : Agent} (f : Flit) (h : s.carries op dst) : (s.send f).carries op dst := by
  obtain ⟨g, hg, hop⟩ := h
  exact ⟨g, by simp [hg], hop⟩

/-- Of the flits sent one after another, each is on its way. -/
theorem State.carries_foldl_send {α : Type} (mk : α → Flit) (l : List α) (s : State) {op : Op} {dst : Agent}
    (h : s.carries op dst ∨ ∃ a ∈ l, (mk a).op = op ∧ (mk a).dst = dst) : (l.foldl (fun s a => s.send (mk a)) s).carries op dst := by
  induction l generalizing s with
  | nil => simpa using h
  | cons b l ih =>
    refine ih _ ?_
    obtain h | ⟨a, ha, rfl, rfl⟩ := h
    · exact .inl (s.carries_send _ h)
    · obtain rfl | ha := List.mem_cons.mp ha
      · exact .inl (s.carries_send_self _)
      · exact .inr ⟨a, ha, rfl, rfl⟩

theorem Thread.near_past {x y : Thread} (h : x.near y) : (x.past (x.pc + 4)).near (y.past y.npc) := by
  obtain ⟨p, c, i, hi, rfl⟩ := h
  exact ⟨p, c, i, hi, rfl⟩

/-- The broadcasts of a SEVT of thread t (04 R127; 11 R266). -/
def State.sevtSends (s : State) (t : Nat) : State :=
  let src : Agent := .core (coreId (t / 2))
  let s := ((List.range 16).filter s.dieAlive).foldl (fun s d => s.send { Flit.blank .sevtB src (.die d) with cls := 8 }) s
  if s.pairReach then s.send { Flit.blank .sevtB src (.link 6) with cls := 8 } else s

theorem State.sevtSends_coreLocal (s : State) (t : Nat) : State.CoreLocal t s (s.sevtSends t) :=
  have h := State.CoreLocal.foldl (t := t) (fun s d => s.send { Flit.blank .sevtB (.core (coreId (t / 2))) (.die d) with cls := 8 })
    (fun s _ => s.send_coreLocal t _) ((List.range 16).filter s.dieAlive) s
  .ite (fun _ => h.trans (State.send_coreLocal _ t _)) (fun _ => h)

theorem State.sevtSends_carries (s : State) (t : Nat) {d : Nat} (hd : d < 16) (h : s.dieAlive d = true) : (s.sevtSends t).carries .sevtB (.die d) := by
  have hc := State.carries_foldl_send (fun d => { Flit.blank .sevtB (.core (coreId (t / 2))) (.die d) with cls := 8 })
    ((List.range 16).filter s.dieAlive) s (op := .sevtB) (dst := .die d)
    (.inr ⟨d, List.mem_filter.mpr ⟨List.mem_range.mpr hd, h⟩, rfl, rfl⟩)
  unfold State.sevtSends
  dsimp only
  split
  · exact State.carries_send _ hc
  · exact hc

/-- Settles O25: each row performs its body once its instruction has begun, and a waiting thread goes on when it wakes. -/
theorem waitsEventsAndTime : Obligations.WaitsEventsAndTime := by
  unfold Obligations.WaitsEventsAndTime
  intro s s₁ t rd
  dsimp only
  refine ⟨fun h => ⟨fun htrap hflag => ?_, fun htrap hwake => ?_, fun hok => ?_, fun hok => ?_, ?_⟩, ?_⟩
  · refine State.run_completes h _ (fun x => { x with eventFlag := false }) _ ?_
    have hwake : (s₁.thr t).wakeReady (s₁.stamp (dieOfThr t)) = true := by simp [Thread.wakeReady, hflag]
    simp only [htrap, hwake, if_true, Thread.npc]
  · refine (State.run_of_begins h _).trans ?_
    simp only [htrap, hwake, if_false, Bool.false_eq_true]
  · refine State.run_completes h _ (fun x => x.writeG rd (s₁.stamp (dieOfThr t))) _ ?_
    simp only [hok, if_true, Thread.npc]
  · refine ⟨Exc.priv (s₁.thr t).pc 3 6 0 .u, rfl, rfl, rfl, (State.run_of_begins h _).trans ?_⟩
    simp only [hok, if_false, Bool.false_eq_true]
  · have hloc := s₁.sevtSends_coreLocal t
    have hstep : ((s₁.sevtSends t).thr t).stepDue = false := (Thread.stepDue_of_near hloc.thr).trans h.2
    obtain ⟨hfr, hoth, hnear⟩ := State.finish_leaves (s₁.sevtSends t) t ((s₁.sevtSends t).thr t).npc id hstep
    refine ⟨_, State.run_of_begins h _, Thread.near_trans (Thread.near_past hloc.thr) hnear, fun k hk => (hoth k hk).trans (hloc.thr_other k hk), ?_, ?_, fun d hd ha => ?_⟩
    · exact (congrArg State.mem hfr).trans hloc.mem
    · exact (congrArg State.ctl hfr).trans hloc.ctl
    · obtain ⟨f, hf, hop⟩ := s₁.sevtSends_carries t hd ha
      exact ⟨f, (congrArg State.net hfr).symm ▸ hf, hop⟩
  · intro hrun hwake hpres hhalt hst hwaking hq hhold hstep
    refine ⟨s.finish t (s.thr t).npc (fun x => { x with eventFlag := false, run := .running, hold := .none }), ?_, State.finish_leaves s t _ _ hstep⟩
    simp [exec, execWaiteWake, hrun, hwake, hpres, hhalt, hst, hwaking, hq, hhold]

/-! Fences (07 R188 to R192). -/

/-- Settles O26: each row performs its body once its instruction has begun, and the end of a FENCE.C finds no error pending. -/
theorem fences : Obligations.Fences := by
  unfold Obligations.Fences
  intro s s₁ t mask
  dsimp only
  refine ⟨fun h => ⟨fun hready herrs => ?_, fun hready => ?_, fun hstb hout hclear herrs => ?_, fun hbusy => ?_, fun hdone => ?_, fun hdone => ?_⟩, ?_⟩
  · refine State.run_completes h _ id _ ?_
    have hr : (if bit mask 4 = true then s₁.rendezvous t 1 else none) = none := by
      split
      · exact State.rendezvous_of_empty 1 (herrs ‹_›)
      · rfl
    simp only [hready, hr, if_true, Thread.npc]
  · refine (State.run_of_begins h _).trans ?_
    simp only [hready, if_false, Bool.false_eq_true]
  · refine State.run_completes h _ (fun x => { x with hold := .none }) _ ?_
    have hall : (s₁.thr t).allDone = true := by simp [Thread.allDone, hstb, hout]
    simp only [hall, hclear, Bool.and_true, if_true, State.fenceEnd, State.rendezvous_of_empty 0 herrs, Thread.npc]
  · have hall : (s₁.thr t).allDone = false := by
      obtain h | h := hbusy <;> simp [Thread.allDone, h]
    refine ⟨_, (State.run_of_begins h _).trans (by simp only [hall, Bool.false_and, if_false, Bool.false_eq_true]; rfl), ?_⟩
    have hc := (s₁.updThr t (fun x => { x with hold := .fenceC })).coverPosted_near t t
    rw [State.updThr_thr] at hc
    obtain ⟨p, c, i, -, hnear⟩ := hc
    rw [hnear]
    exact ⟨rfl, rfl⟩
  · refine State.run_completes h _ (fun x => { x with fetchBuf := none }) _ ?_
    simp only [hdone, if_true, Thread.npc]
  · refine (State.run_of_begins h _).trans ?_
    simp only [hdone, if_false, Bool.false_eq_true]
  · intro hawake hhold hstb hout hclear herrs hstep
    refine ⟨s.finish t (s.thr t).npc (fun x => { x with hold := .none }), ?_, State.finish_leaves s t _ _ hstep⟩
    simp [exec, execFenceCComplete, hawake, hhold, Thread.allDone, hstb, hout, hclear, State.fenceEnd, State.rendezvous_of_empty 0 herrs]

/-! Interrupts, machine checks and the timer (04 R113 to R120, R460). -/

/-- The timer of the view that INTID 16 names makes it pending, when it has come and is not active. -/
theorem Thread.timerSync_int {x : Thread} {stamp : Word} (hdue : x.timerDue stamp = true) (hact : (x.int 16).active = false) :
    ((x.timerSync stamp).int 16).pending = true ∧ ((x.timerSync stamp).int 16).asserted = true := by
  simp [Thread.timerSync, Thread.int_updInt, hdue, hact]

theorem State.assertSource_thr (s : State) (n k : Nat) : (s.assertSource n).thr k = s.thr k := by
  unfold State.assertSource
  split <;> rfl

theorem State.resend_thr (s : State) (hit : Nat → Nat → Bool) (k : Nat) : (s.resend hit).thr k = s.thr k := by
  unfold State.resend
  generalize List.range 32 = l
  induction l generalizing s with
  | nil => rfl
  | cons p l ih =>
    refine (ih _).trans ?_
    dsimp only
    split
    · exact s.assertSource_thr p k
    · rfl

/-- Settles O27, by the branch that each command takes. -/
theorem eventsTaken : Obligations.EventsTaken := by
  unfold Obligations.EventsTaken
  intro s t sec i n l m r
  dsimp only
  refine ⟨fun hat hcheck hnext => ?_, fun hat hcheck hscan hcont => ?_, fun hworld hen hdue hact => ?_, fun hpres hi => ?_⟩
  · simp [exec, execInterruptTake, hat, hcheck, hnext, State.takeInt]
  · simp [exec, execMachineCheckTake, hat, hcheck, hscan, hcont]
  · have hd : (s.thr t).timerDue (s.tileStamp t) = true := by simp [Thread.timerDue, hworld, hen, hdue]
    refine ⟨s.updThr t (fun x => x.timerSync (s.tileStamp t)), by simp [exec, execTimerDeadline, hworld, hd], ?_⟩
    rw [State.updThr_thr]
    obtain ⟨hp, ha⟩ := Thread.timerSync_int hd hact
    exact ⟨hp, ha, fun k hk => s.updThr_thr_other t k _ hk⟩
  · refine ⟨s.setIntWorld t i.val sec, by simp [exec, execIntWorldBitWrite, hpres], ?_⟩
    have hne : (i.val = 16) = False := by simp [hi]
    have hthr : (s.setIntWorld t i.val sec).thr t = (s.thr t).updInt i.val (fun q => { q with world := sec }) := by
      simp only [State.setIntWorld, State.resend_thr, State.updThr_thr, hne, if_false]
    rw [hthr]
    exact ⟨by simp [Thread.int_updInt], fun k hk => by simp [Thread.int_updInt, hk]⟩

end Sys2Proof.Machine
end

section
/-! PROOF. Cache maintenance by address, Galley locks and TLB pins (06 R171; 08 R219 to R222). -/

namespace Sys2Proof.Machine

/-! The errors of an access that is ready. -/

/-- The errors that the answers to an access in progress brought. -/
def Thread.opErrs (x : Thread) : Option (List (Nat × Bad)) := x.memOp.map (fun m => m.errs)

theorem Thread.opErrs_of_near {x y : Thread} (h : x.near y) : y.opErrs = x.opErrs := by
  obtain ⟨_, _, _, _, rfl⟩ := h
  rfl

theorem Thread.opErrs_noWalk (x : Thread) : x.noWalk.opErrs = x.opErrs := rfl

theorem Thread.opErrs_updMem (x : Thread) {f : MemOp → MemOp} (hf : ∀ m, (f m).errs = m.errs) : (x.updMem f).opErrs = x.opErrs := by
  simp only [Thread.opErrs, Thread.updMem, Option.map_map]
  exact congrArg (x.memOp.map ·) (funext hf)

/-- Translating the pieces of an access to the end leaves its errors alone. -/
theorem State.xlateMore_opErrs {s u : State} {t : Nat} {r : MemReq} {l : List (Word × Nat)} (h : s.xlateMore t r l = (u, .done)) :
    (u.thr t).opErrs = (s.thr t).opErrs := by
  induction l generalizing s with
  | nil => cases h; rfl
  | cons p l ih =>
    obtain ⟨va, size⟩ := p
    have htr := (s.translate_coreLocal t va r.kind.access false).thr
    unfold State.xlateMore at h
    extract_lets x acc got go at h
    have hgo : ∀ (v : State) (pa rank : Nat) (e : Option TlbEntry) (q : Option Nat), (s.thr t).near (v.thr t) →
        go (got v pa rank e q) rank = (u, .done) → (u.thr t).opErrs = (s.thr t).opErrs := by
      intro v pa rank e q hv hg
      obtain ⟨-, hg⟩ | ⟨-, hg⟩ := ite_eq_iff.mp hg
      · cases hg
      · rw [ih hg, ← Thread.opErrs_of_near hv]
        simp only [got, State.updThr_thr, Thread.opErrs_noWalk]
        exact Thread.opErrs_updMem _ fun _ => rfl
    clear_value go got
    obtain ⟨-, h⟩ | ⟨-, h⟩ := ite_eq_iff.mp h
    · exact ih h
    · split at h
      case h_1 v pa rank e hv => exact hgo v _ _ _ _ (by rw [hv] at htr; exact htr) h
      case h_2 v pa rank e q hv => exact hgo v _ _ _ _ (by rw [hv] at htr; exact htr) h
      all_goals cases h

/-- No answer has failed an access that is ready. -/
theorem State.ready.failure_eq_none {s s₁ s₂ : State} {t : Nat} {r : MemReq} {ps : List Piece} (h : s.ready s₁ s₂ t r ps) (pa : Nat) :
    (s₂.thr t).failure pa = none := by
  have herr : (s₂.thr t).opErrs = some [] := by
    obtain ⟨-, -, -, -, -, -, -, -, u, hx, -, htag⟩ := h
    rw [State.tagChecks_none htag, State.xlateMore_opErrs hx, State.opening, State.updThr_thr]
    rfl
  obtain ⟨m, hm, herrs⟩ := Option.map_eq_some_iff.mp herr
  simp [Thread.failure, Thread.failed, hm, herrs]

/-! Maintenance by address (08 R222). -/

/-- An L1 without a line does not hold it. -/
theorem l1Has_l1Less (l : List L1Line) (line : Nat) : l1Has (l1Less l line) line = false := by
  simp [l1Has, l1Less]

section
variable {s : State} {t pa : Nat} (tag : Tag) (hpa : pa < 2 ^ 56) (hstb : (s.thr t).stb = [])
include hpa hstb

/-- A CLEAN to the PoU of an address under memory changes nothing: the L1 caches hold no dirty data. -/
theorem State.cmoVa_pou_clean : s.cmoVa t 0 true pa tag = some s := by
  have h : ¬ pa ≥ 2 ^ 56 := by omega
  simp only [State.cmoVa, hstb, h, List.any_nil, Bool.not_true, Bool.and_false, Bool.false_and, Bool.or_false, Bool.false_eq_true, if_false, if_true]

/-- An INVAL to the PoU takes the line from both L1 caches. -/
theorem State.cmoVa_pou_inval {op : Fin 3} (hop : op ≠ 0) : s.cmoVa t op true pa tag =
    some (s.updCore (t / 2) (fun k => { k with l1i := l1Less k.l1i (pa / 64), l1d := l1Less k.l1d (pa / 64) })) := by
  have h : ¬ pa ≥ 2 ^ 56 := by omega
  simp only [State.cmoVa, hstb, h, hop, List.any_nil, Bool.not_true, Bool.and_false, Bool.false_and, Bool.or_false, Bool.false_eq_true, if_false, if_true]

/-- The message of a CMO to the PoC (08 R222). -/
def State.cmoFlit (s : State) (t pa : Nat) (op : Fin 3) (tag : Tag) : Flit :=
  { Flit.blank .cmoP (.core (coreId (t / 2))) (s.homeOf (dieOfCore (t / 2)) (pa / 64)) with
    thr := some (thrOf t), tid := s.nextTid + 1, line := pa / 64, world := tag, hint := op.val, opA := BitVec.ofNat 64 op.val, acc := .nc
    discard := op = 1 && s.mayDiscard t, fromM := (s.thr t).level == .m }

/-- A CMO to the PoC of a line of WB memory sends its message to the line's home and owes the answer. -/
theorem State.cmoVa_poc {op : Fin 3} (hhome : hasHome (pa / 64) = true) (hback : s.backed pa = true) (hout : (s.thr t).lineOut pa = false)
    (hask : s.lineAsked (t / 2) (pa / 64) = false) :
    s.cmoVa t op false pa tag = some ((s.freshTid.send (s.cmoFlit t pa op tag)).noteOut t .cmo (pa / 64 * 64) 1) := by
  have h : ¬ pa ≥ 2 ^ 56 := by omega
  simp only [State.cmoVa, hstb, h, hhome, hback, hout, hask, List.any_nil, Bool.or_false, Bool.and_false, Bool.false_eq_true, Bool.not_true, if_false]
  rfl

end

/-- A CMO that is ready and that nothing holds up completes. -/
theorem cmo_completes {s s₁ s₂ s₃ : State} {t : Thr} {r : MemReq} {op : Fin 3} {pou : Bool} {p : Piece} (hk : r.kind = .cmo op pou)
    (h : s.ready s₁ s₂ t r [p]) (hva : s₂.cmoVa t op pou p.pa ((s₂.thr t).tagAt p.va) = some s₃) (hstep : (s₃.thr t).stepDue = false) :
    completes (s.memRow t r) s₃ t ((s₃.thr t).past ((s₂.thr t).pc + 4)) := by
  rw [State.memRow_of_ready h (by rw [hk]; rfl)]
  have hperf : s₂.perform t r [p] = s₃.finish t (s₂.thr t).npc id := by
    unfold State.perform
    dsimp only
    rw [hk]
    dsimp only
    rw [hva]
  rw [hperf]
  exact State.finish_completes rfl hstep

/-! The Galley locks and the pinned entries (06 R171; 08 R219, R220). -/

theorem State.galRecall_of_none {s : State} {c line : Nat} (h : (s.core c).hellEntry line = none) : s.galRecall c line = s := by
  simp only [State.galRecall, h]

/-- A lock of a full, sound entry of the Galley is set (08 R219). -/
theorem State.galLockAt_locks {s : State} {t : Nat} {r : MemReq} (tag : Tag) {pa rank : Nat} {e : GalEntry} (hgw : effType rank pa = .gw)
    (hon : (s.core (t / 2)).galOff = false) (hfail : (s.thr t).failure (pa / 64 * 64) = none) (he : (s.core (t / 2)).galEntry (pa / 64) = some e)
    (hell : (s.core (t / 2)).hellEntry (pa / 64) = none) (hlock : e.lock = false) (hroom : (s.core (t / 2)).locked < 32) (hfull : e.full = true)
    (hpoison : e.poison = false) :
    s.galLockAt t r tag pa rank = (s.updCore (t / 2) (fun k => k.setGal { e with lock := true })).finish t (s.thr t).npc id := by
  have hn : ¬ (s.core (t / 2)).locked ≥ 32 := by omega
  simp [State.galLockAt, hgw, hon, hfail, State.galRecall_of_none hell, he, hlock, hn, hfull, hpoison]

theorem State.galUnlockAt_of_some {s : State} {t pa : Nat} {e : GalEntry} (he : (s.core (t / 2)).galEntry (pa / 64) = some e) :
    s.galUnlockAt t pa = (s.updCore (t / 2) (fun k => k.setGal { e with lock := false })).finish t (s.thr t).npc id := by
  simp only [State.galUnlockAt, he]

/-- A TLB.LOCK pins an entry where none is pinned (06 R171). -/
theorem State.tlbLockAt_pins {s : State} {t : Nat} (va : Word) (q : TlbEntry) (h : (s.core (t / 2)).pinned = []) :
    s.tlbLockAt t va (some q) = (s.updCore (t / 2) (fun k => { k with pinned := [q] })).finish t (s.thr t).npc id := by
  have hadd : s.updCore (t / 2) (fun k => { k with pinned := k.pinned ++ [q] }) = s.updCore (t / 2) (fun k => { k with pinned := [q] }) := by
    simp only [State.updCore, h, List.nil_append]
  simp [State.tlbLockAt, h, ← hadd]

/-- A TLB.LOCK that begins above U under translation goes as any access does (06 R171). -/
theorem tlbLock_eq_memRow {s s₁ : State} {t : Thr} {rs1 : RegNo} (hop : (s.thr t).memOp = none) (hstart : s.start t = .go s₁)
    (hlevel : (s₁.thr t).level ≠ .u) (hs1 : (s₁.thr t).tctx.s1 = true) : exec (.tlbLock t rs1) s = s.memRow t (atReg .tlbLock s t rs1) := by
  have hexec : exec (.tlbLock t rs1) s = execTlbLock t rs1 s := rfl
  simp only [hexec, execTlbLock, State.memRow, hop, State.run, hstart, hlevel, hs1, Bool.not_true, Bool.false_and, Bool.false_eq_true, if_false]

end Sys2Proof.Machine

open Sys2Proof Sys2Proof.Machine

/-- Settles O28. -/
theorem maintenanceByAddress : Obligations.MaintenanceByAddress := by
  unfold Obligations.MaintenanceByAddress
  intro s s₁ s₂ s₃ t rs1 p e
  dsimp only
  refine ⟨fun h hva hstep => cmo_completes rfl h hva hstep, fun h hva hstep => cmo_completes rfl h hva hstep,
    fun h hva hstep => cmo_completes rfl h hva hstep, fun h hva hstep => cmo_completes rfl h hva hstep,
    fun h hva hstep => cmo_completes rfl h hva hstep, fun h hva hstep => cmo_completes rfl h hva hstep, fun hpa hstb => ⟨?clean, ?inval, ?poc⟩, ?_, ?_, ?_⟩
  case clean => exact State.cmoVa_pou_clean _ hpa hstb
  case inval =>
    intro op hop
    refine ⟨_, State.cmoVa_pou_inval _ hpa hstb hop, ?_⟩
    rw [State.updCore_core]
    exact ⟨l1Has_l1Less _ _, l1Has_l1Less _ _, rfl, rfl, rfl⟩
  case poc =>
    intro op hhome hback hout hask
    refine ⟨_, _, State.cmoVa_poc _ hpa hstb hhome hback hout hask, rfl, rfl, rfl, rfl, rfl, fun hd => ?_, ?_, rfl⟩
    · simp only [State.cmoFlit, Bool.and_eq_true, decide_eq_true_eq] at hd
      exact hd.1
    · rw [State.noteOut, State.updThr_thr]
      exact ⟨_, List.mem_append_right _ (List.mem_singleton_self _), rfl, rfl⟩
  · intro h hgw hon he hell hlock hroom hfull hpoison hstep
    refine ⟨_, (State.memRow_of_ready h rfl).trans (congrArg Host.Outcome.next ?_), State.finish_leaves _ t _ id hstep⟩
    exact State.galLockAt_locks _ hgw hon (h.failure_eq_none _) he hell hlock hroom hfull hpoison
  · intro h he hstep
    refine ⟨_, (State.memRow_of_ready h rfl).trans (congrArg Host.Outcome.next ?_), State.finish_leaves _ t _ id hstep⟩
    exact State.galUnlockAt_of_some he
  · intro q h hlevel hs1 hq hpin hstep
    obtain ⟨hop, hstart, -⟩ := id h
    refine ⟨_, (tlbLock_eq_memRow hop hstart hlevel hs1).trans ((State.memRow_of_ready h rfl).trans (congrArg Host.Outcome.next ?_)),
      State.finish_leaves _ t _ id hstep⟩
    exact (congrArg (s₂.tlbLockAt t p.va) hq).trans (State.tlbLockAt_pins _ q hpin)

end

section
/-! SUPPORT. Maintenance of caches by set and way, and of TLBs: the thread that does it keeps all but its counters (08 R224; 06 R175). -/

namespace Sys2Proof.Machine

theorem State.Reports.core {s u : State} (h : State.Reports s u) (c : Nat) : u.core c = s.core c := by rw [h.frame]; rfl

theorem State.near_ite {p : Prop} [Decidable p] {x : Thread} {u v : State} {k : Nat} (h : x.near (u.thr k)) (h' : x.near (v.thr k)) :
    x.near ((if p then u else v).thr k) := by
  split
  · exact h
  · exact h'

section
variable (s : State)

theorem State.mirrorWrite_thr (line : Nat) (d : LineData) (poison : Bool) (k : Nat) : (s.mirrorWrite line d poison).thr k = s.thr k := by
  unfold State.mirrorWrite
  split <;> rfl

theorem State.wbMem_near (line : Nat) (d : LineData) (poison : Bool) (tag : Tag) (k : Nat) : (s.thr k).near ((s.wbMem line d poison tag).thr k) := by
  have hlog : ∀ a code sev pa t, (s.thr k).near ((s.logError a code sev tag pa t).thr k) := fun a code sev pa t => (s.logError_reports a code sev tag pa t).thr k
  unfold State.wbMem
  dsimp only
  refine State.near_ite (Thread.near_refl _) (State.near_ite (hlog _ _ _ _ _) (State.near_ite (Thread.near_refl _) (State.near_ite ?_ (hlog _ _ _ _ _))))
  rw [State.mirrorWrite_thr]
  exact Thread.near_refl _

/-! What leaves an L3 (09 R238). -/

theorem State.giveUp_reports (d line : Nat) (c : Option Copy) (used : Nat) : State.Reports s (s.giveUp d line c used) := by
  unfold State.giveUp
  extract_lets dirty e s₁ s₂ b
  have h₁ : State.Reports s s₁ := s.updDie_reports _ _
  have h₂ : State.Reports s s₂ := by
    unfold s₂
    split
    · exact h₁.trans (s₁.updDie_reports _ _)
    · exact h₁
  exact h₂.trans (s₂.send_reports _)

theorem State.setL3_reports (d line : Nat) (l : Option L3Line) : State.Reports s (s.setL3 d line l) := s.updDie_reports _ _
theorem State.setL3Buf_reports (d line : Nat) (l : Option L3Line) : State.Reports s (s.setL3Buf d line l) := s.updDie_reports _ _
theorem State.updFent_reports (d line : Nat) (f : FilterEntry → FilterEntry) : State.Reports s (s.updFent d line f) := by
  unfold State.updFent State.setFent
  exact s.updDie_reports _ _

theorem State.l3Drop_reports (d line : Nat) : State.Reports s (s.l3Drop d line) := by
  unfold State.l3Drop
  split
  · extract_lets s₁ s₂
    have h₁ : State.Reports s s₁ := s.setL3_reports _ _ _
    have h₂ : State.Reports s s₂ := h₁.trans (s₁.updFent_reports _ _ _)
    exact .ite (h₁.trans (s₁.giveUp_reports _ _ _ _)) (.ite ((h₂.trans (s₂.setL3Buf_reports _ _ _)).trans (State.send_reports _ _)) h₂)
  · exact s.setL3_reports _ _ _

/-! By set and way (08 R224). -/

theorem State.setwayL2_near {t : Nat} {op : Fin 3} {set way : Nat} {v : State} (h : s.setwayL2 t op set way = some v) : (s.thr t).near (v.thr t) := by
  unfold State.setwayL2 at h
  extract_lets c at h
  split at h
  · cases h; exact Thread.near_refl _
  · next line l _ =>
    extract_lets keep clean dirty at h
    have hclean : (s.thr t).near (clean.thr t) := by
      unfold clean
      split
      · exact s.wbMem_near _ _ _ _ _
      · exact s.wbMem_near _ _ _ _ _
      · exact Thread.near_refl _
    obtain ⟨-, h⟩ | ⟨-, h⟩ := ite_eq_iff.mp h
    · cases h
    · obtain ⟨-, h⟩ | ⟨-, h⟩ := ite_eq_iff.mp h
      · exact Option.some.inj h ▸ hclean
      · obtain ⟨-, h⟩ | ⟨-, h⟩ := ite_eq_iff.mp h
        · cases h; exact Thread.near_refl _
        · cases h; exact Thread.near_trans hclean (clean.l2Evict_coreLocal t line).thr

theorem State.setwayL3_near {t : Thr} {op : Fin 3} {set way : Nat} {v : State} (h : s.setwayL3 t op set way = some v) : (s.thr t).near (v.thr t) := by
  suffices h : State.Reports s v from h.thr t
  unfold State.setwayL3 at h
  extract_lets d mine at h
  split at h
  · obtain ⟨-, h⟩ | ⟨-, h⟩ := ite_eq_iff.mp h
    · cases h
    · obtain ⟨-, h⟩ | ⟨-, h⟩ := ite_eq_iff.mp h
      · obtain ⟨-, h⟩ | ⟨-, h⟩ := ite_eq_iff.mp h
        · cases h; exact .refl s
        · cases h
          exact (((s.setL3_reports _ _ _).trans (State.setL3Buf_reports _ _ _ _)).trans (State.updFent_reports _ _ _ _)).trans (State.send_reports _ _)
      · obtain ⟨-, h⟩ | ⟨-, h⟩ := ite_eq_iff.mp h
        · cases h; exact (s.setL3_reports _ _ _).trans (State.l3Drop_reports _ _ _)
        · cases h; exact s.l3Drop_reports _ _
  · cases h; exact .refl s

theorem State.setwayGal_near {t : Nat} {op : Fin 3} {hell : Bool} {way : Nat} {v : State} (h : s.setwayGal t op hell way = some v) :
    (s.thr t).near (v.thr t) := by
  unfold State.setwayGal at h
  extract_lets c k at h
  split at h
  · cases h; exact Thread.near_refl _
  · extract_lets keep blank at h
    have hpush : ∀ (f : Core → Core) (e : GalEntry), (s.galPush c e).map (fun s => s.updCore c f) = some v → (s.thr t).near (v.thr t) := by
      intro f e hp
      obtain ⟨w, hw, rfl⟩ := Option.map_eq_some_iff.mp hp
      exact (s.galPush_coreLocal t e hw).thr
    obtain ⟨-, h⟩ | ⟨-, h⟩ := ite_eq_iff.mp h
    · exact hpush _ _ h
    · obtain ⟨-, h⟩ | ⟨-, h⟩ := ite_eq_iff.mp h
      · cases h; exact Thread.near_refl _
      · exact hpush _ _ h

end

end Sys2Proof.Machine
end

section
/-! PROOF. Cache maintenance by set and way, TLBI and TLB.UNLOCK (06 R171, R175; 08 R224). -/

namespace Sys2Proof.Machine

/-- A body that makes a state and retires in it completes there, where the thread is as before but for its counters. -/
theorem State.completes_in {s s₁ u : State} {t : Thr} (h : s.begins s₁ t) (hstep : (u.thr t).stepDue = (s₁.thr t).stepDue) :
    completes (.next (u.finish t (s₁.thr t).npc id)) u t ((u.thr t).past ((s₁.thr t).pc + 4)) :=
  State.finish_completes rfl (hstep.trans h.2)

/-- What a CMO by set and way makes of the named entry of a level; none while it waits (08 R224). -/
def State.setwayAt (s : State) (t : Thr) (op : Fin 3) (level set way : Nat) : Option State :=
  match level with
  | 0 => some (if op ≠ 0 ∧ set < 128 ∧ way < 8 then s.updCore (t / 2) (fun k => { k with l1d := l1Drop 128 set way k.l1d }) else s)
  | 1 => some (if op ≠ 0 ∧ set < 256 ∧ way < 4 then s.updCore (t / 2) (fun k => { k with l1i := l1Drop 256 set way k.l1i }) else s)
  | 2 => if set < 1024 ∧ way < 16 then s.setwayL2 t op set way else some s
  | 3 => if way < 16 then s.setwayL3 t op set way else some s
  | 4 => if set = 0 then s.setwayGal t op false way else some s
  | 5 => if set = 0 then s.setwayGal t op true way else some s
  | _ => some s

theorem State.setwayAt_near {s v : State} {t : Thr} {op : Fin 3} {level set way : Nat} (h : s.setwayAt t op level set way = some v) :
    (s.thr t).near (v.thr t) := by
  have hif : ∀ {p : Prop} [Decidable p] {f : Core → Core}, some (if p then s.updCore (t / 2) f else s) = some v → (s.thr t).near (v.thr t) := by
    rintro p _ f ⟨⟩
    exact State.near_ite (Thread.near_refl _) (Thread.near_refl _)
  have hsome : ∀ {p : Prop} [Decidable p] {o : Option State}, (if p then o else some s) = some v → (o = some v → (s.thr t).near (v.thr t)) →
      (s.thr t).near (v.thr t) := by
    intro p _ o hp ho
    split at hp
    · exact ho hp
    · cases hp; exact Thread.near_refl _
  unfold State.setwayAt at h
  split at h
  · exact hif h
  · exact hif h
  · exact hsome h s.setwayL2_near
  · exact hsome h s.setwayL3_near
  · exact hsome h s.setwayGal_near
  · exact hsome h s.setwayGal_near
  · cases h; exact Thread.near_refl _

/-! Where nothing is named, nothing is done. -/

theorem State.ite_some_self {p : Prop} [Decidable p] {o : Option State} {s : State} (h : o = some s) : (if p then o else some s) = some s := by
  rw [h, ite_self]

theorem State.setwayAt_l2_none {s : State} {t : Thr} {op : Fin 3} {set way : Nat}
    (h : ((s.core (t / 2)).l2Set set).find? (fun p => p.2.way == way) = none) : s.setwayAt t op 2 set way = some s :=
  State.ite_some_self (by simp only [State.setwayL2, h])

theorem State.setwayGal_galley_none {s : State} {t : Nat} {op : Fin 3} {way : Nat} (h : ∀ e ∈ (s.core (t / 2)).galley, e.way ≠ way) :
    s.setwayGal t op false way = some s := by
  have hf : (s.core (t / 2)).galley.find? (fun e => e.way == way) = none := List.find?_eq_none.mpr fun e he => by simpa using h e he
  simp only [State.setwayGal, Bool.false_eq_true, if_false, hf]

theorem State.setwayGal_hellbox_none {s : State} {t : Nat} {op : Fin 3} {way : Nat} (h : ∀ e ∈ (s.core (t / 2)).hellbox, e.way ≠ way) :
    s.setwayGal t op true way = some s := by
  have hf : (s.core (t / 2)).hellbox.find? (fun e => e.way == way) = none := List.find?_eq_none.mpr fun e he => by simpa using h e he
  simp only [State.setwayGal, if_true, hf]

theorem State.setwayAt_gal_none {s : State} {t : Thr} {op : Fin 3} {set way : Nat} {hell : Bool} (h : s.setwayGal t op hell way = some s) :
    s.setwayAt t op (if hell then 5 else 4) set way = some s := by
  cases hell <;> exact State.ite_some_self h

theorem State.setwayAt_other {s : State} {t : Thr} {op : Fin 3} {level set way : Nat} (h : 5 < level) : s.setwayAt t op level set way = some s := by
  unfold State.setwayAt
  split
  case h_7 => rfl
  all_goals omega

section
variable {s s₁ : State} {t : Thr} {rs1 : RegNo} {op : Fin 3} (hb : s.begins s₁ t)
include hb

/-- At U, or for the L3 below M, a CMO by set and way takes 0x03 (08 R224). -/
theorem setway_denied (h : (s₁.thr t).level = .u ∨ (fieldOf ((s₁.thr t).readG rs1) 63 60 = 3 ∧ (s₁.thr t).level ≠ .m)) :
    ∃ e : Exc, e.cause = 0x03 ∧ e.epc = (s₁.thr t).pc ∧ setwayForm op t rs1 s = .next (s₁.takeExc t e) := by
  have hc : ((s₁.thr t).level = .u || (fieldOf ((s₁.thr t).readG rs1) 63 60 = 3 && (s₁.thr t).level != .m)) = true := by simpa using h
  exact ⟨Exc.priv (s₁.thr t).pc 2 0x10 (op.val * 256 + 128) .u, rfl, rfl, (State.run_of_begins hb _).trans (by simp only [hc, if_true])⟩

variable (hl : (s₁.thr t).level ≠ .u) (hl3 : fieldOf ((s₁.thr t).readG rs1) 63 60 ≠ 3 ∨ (s₁.thr t).level = .m)
include hl hl3

/-- A CMO by set and way that its level allows retires in what it makes, or waits. -/
theorem setwayForm_eq : setwayForm op t rs1 s = .next
    ((s₁.setwayAt t op (fieldOf ((s₁.thr t).readG rs1) 63 60) (fieldOf ((s₁.thr t).readG rs1) 10 0) (fieldOf ((s₁.thr t).readG rs1) 21 16)).elim s₁
      (fun u => u.finish t (s₁.thr t).npc id)) := by
  have hc : ((s₁.thr t).level = .u || (fieldOf ((s₁.thr t).readG rs1) 63 60 = 3 && (s₁.thr t).level != .m)) = false := by
    obtain h | h := hl3 <;> simp [hl, h]
  refine (State.run_of_begins hb _).trans (congrArg Host.Outcome.next ?_)
  simp only [hc, Bool.false_eq_true, if_false]
  generalize fieldOf ((s₁.thr t).readG rs1) 63 60 = level
  generalize fieldOf ((s₁.thr t).readG rs1) 10 0 = set
  generalize fieldOf ((s₁.thr t).readG rs1) 21 16 = way
  have hl1 : ∀ a b : Nat, (¬ set < a ∨ ¬ way < b ∨ op = 0) ↔ ¬ (op ≠ 0 ∧ set < a ∧ way < b) := fun a b => by tauto
  have hl2 : (¬ set < 1024 ∨ ¬ way < 16) ↔ ¬ (set < 1024 ∧ way < 16) := by tauto
  have hopt : ∀ o : Option State, (match o with | some s => s.finish t (s₁.thr t).npc id | none => s₁) =
      o.elim s₁ (fun u => u.finish t (s₁.thr t).npc id) := fun o => by cases o <;> rfl
  obtain rfl | rfl | rfl | rfl | rfl | rfl | ⟨n, rfl⟩ : level = 0 ∨ level = 1 ∨ level = 2 ∨ level = 3 ∨ level = 4 ∨ level = 5 ∨ ∃ n, level = n + 6 := by
    by_cases h : 6 ≤ level
    · exact .inr (.inr (.inr (.inr (.inr (.inr ⟨level - 6, by omega⟩)))))
    · omega
  · simp only [State.setwayAt, ge_iff_le, ← not_lt, hl1, ite_not]
    split <;> rfl
  · simp only [State.setwayAt, ge_iff_le, ← not_lt, hl1, ite_not]
    split <;> rfl
  · simp only [State.setwayAt, ge_iff_le, ← not_lt, hl2, ite_not]
    split
    · exact hopt _
    · rfl
  · simp only [State.setwayAt, ge_iff_le, ← not_lt, ite_not]
    split
    · exact hopt _
    · rfl
  · simp only [State.setwayAt, ne_eq, ite_not]
    split
    · exact hopt (s₁.setwayGal t op false way)
    · rfl
  · simp only [State.setwayAt, ne_eq, ite_not]
    split
    · exact hopt (s₁.setwayGal t op true way)
    · rfl
  · rfl

theorem setway_ends {u : State} (hu : s₁.setwayAt t op (fieldOf ((s₁.thr t).readG rs1) 63 60) (fieldOf ((s₁.thr t).readG rs1) 10 0)
    (fieldOf ((s₁.thr t).readG rs1) 21 16) = some u) : completes (setwayForm op t rs1 s) u t ((u.thr t).past ((s₁.thr t).pc + 4)) := by
  rw [setwayForm_eq hb hl hl3, hu]
  exact State.completes_in hb (Thread.stepDue_of_near (State.setwayAt_near hu))

theorem setway_waits (hu : s₁.setwayAt t op (fieldOf ((s₁.thr t).readG rs1) 63 60) (fieldOf ((s₁.thr t).readG rs1) 10 0)
    (fieldOf ((s₁.thr t).readG rs1) 21 16) = none) : setwayForm op t rs1 s = .next s₁ := by
  rw [setwayForm_eq hb hl hl3, hu]
  rfl

end

/-! TLBI (06 R175 to R177). -/

theorem Thread.stepDue_tlbi (x : Thread) (r : TlbiReq) : ((x.walkDrop r).xlDrop).stepDue = x.stepDue := by
  change (x.walkDrop r).stepDue = x.stepDue
  exact (apply_ite Thread.stepDue _ _ _).trans (ite_self _)

theorem State.tlbiCore_stepDue (s : State) (c : Nat) (r : TlbiReq) (k : Nat) : ((s.tlbiCore c r).thr k).stepDue = (s.thr k).stepDue := by
  have hupd : ∀ (u : State) (n : Nat), ((u.updThr n (fun x => (x.walkDrop r).xlDrop)).thr k).stepDue = (u.thr k).stepDue := by
    intro u n
    by_cases hk : k = n
    · subst hk
      rw [State.updThr_thr, Thread.stepDue_tlbi]
    · rw [State.updThr_thr_other _ _ _ _ hk]
  simp only [State.tlbiCore, hupd]
  rfl

theorem State.tlbiCore_core (s : State) (c : Nat) (r : TlbiReq) : (s.tlbiCore c r).core c = (s.core c).tlbi r := by
  simp only [State.tlbiCore, State.updThr_core, State.updCore_core]

/-- A broadcast of an invalidation sends flits, and its thread owes the answers (06 R177). -/
theorem State.tlbiCast_frame (s : State) (t : Nat) (r : TlbiReq) :
    ((s.tlbiCast t r).thr t).stepDue = (s.thr t).stepDue ∧ ∀ c, (s.tlbiCast t r).core c = s.core c := by
  unfold State.tlbiCast
  extract_lets c targets s₁ tid one s₂ s₃ s₄
  have hone : ∀ (u : State) (dst : Agent), State.Reports u (one u dst) := fun u dst => u.send_reports _
  have h₂ : State.Reports s₁ s₂ := .foldl _ (fun u k => hone u _) _ _
  have h₃ : State.Reports s₁ s₃ := h₂.trans (hone _ _)
  have h₄ : State.Reports s₁ s₄ := .ite (h₃.trans (hone _ _)) h₃
  clear_value s₄
  refine ⟨?_, fun c => ?_⟩
  · rw [State.noteOut, State.updThr_thr]
    change (s₄.thr t).stepDue = (s₁.thr t).stepDue
    exact Thread.stepDue_of_near (h₄.thr t)
  · exact h₄.core c

/-- After a TLBI on a core no TLB of it holds an entry that it names (06 R175). -/
theorem Core.tlbi_drops (k : Core) (r : TlbiReq) :
    (∀ e, r.hits e = true → e ∉ (k.tlbi r).itlb ∧ e ∉ (k.tlbi r).dtlb ∧ e ∉ (k.tlbi r).l2tlb) ∧ ∀ e, r.hitsPinned e = true → e ∉ (k.tlbi r).pinned := by
  refine ⟨fun e he => ⟨?_, ?_, ?_⟩, fun e he => ?_⟩ <;> simp [Core.tlbi, he]

section
variable {s s₁ : State} {t : Thr} (hb : s.begins s₁ t) (form : TlbiForm) (va rx : Thread → Word) (domain pinned : Bool)
include hb

/-- What a TLBI makes: the entries it names leave its core, and a DOMAIN one goes to the others (06 R175, R177). -/
def State.tlbiMakes (s : State) (t : Nat) (r : TlbiReq) (domain : Bool) : State :=
  if domain then (s.tlbiCore (t / 2) r).tlbiCast t r else s.tlbiCore (t / 2) r

omit hb in
theorem State.tlbiMakes_frame (s : State) (t : Nat) (r : TlbiReq) (domain : Bool) :
    ((s.tlbiMakes t r domain).thr t).stepDue = (s.thr t).stepDue ∧ (s.tlbiMakes t r domain).core (t / 2) = (s.core (t / 2)).tlbi r := by
  unfold State.tlbiMakes
  split
  · obtain ⟨hstep, hcore⟩ := (s.tlbiCore (t / 2) r).tlbiCast_frame t r
    exact ⟨hstep.trans (s.tlbiCore_stepDue _ _ _), (hcore _).trans (s.tlbiCore_core _ _)⟩
  · exact ⟨s.tlbiCore_stepDue _ _ _, s.tlbiCore_core _ _⟩

/-- A TLBI that its level allows and whose earlier stores are performed completes in what it makes. -/
theorem tlbi_completes (hlow : (if form = .vmid then 2 else 1) ≤ (s₁.thr t).level.num) (hdone : (s₁.thr t).storesDone = true) :
    let u := s₁.tlbiMakes t ((s₁.thr t).tlbiReq form (va (s₁.thr t)) (rx (s₁.thr t)) pinned) domain
    completes (tlbiForm form t va rx domain pinned s) u t ((u.thr t).past ((s₁.thr t).pc + 4)) := by
  have hn : ¬ (s₁.thr t).level.num < (if form = .vmid then 2 else 1) := Nat.not_lt.mpr hlow
  have hrun : tlbiForm form t va rx domain pinned s = .next ((s₁.tlbiMakes t ((s₁.thr t).tlbiReq form (va (s₁.thr t)) (rx (s₁.thr t)) pinned) domain).finish
      t (s₁.thr t).npc id) := (State.run_of_begins hb _).trans (by simp only [hn, hdone, Bool.not_true, Bool.false_eq_true, if_false]; rfl)
  dsimp only
  rw [hrun]
  exact State.completes_in hb (State.tlbiMakes_frame _ _ _ _).1

theorem tlbi_waits (hlow : (if form = .vmid then 2 else 1) ≤ (s₁.thr t).level.num) (hdone : (s₁.thr t).storesDone = false) :
    tlbiForm form t va rx domain pinned s = .next s₁ := by
  have hn : ¬ (s₁.thr t).level.num < (if form = .vmid then 2 else 1) := Nat.not_lt.mpr hlow
  exact (State.run_of_begins hb _).trans (by simp only [hn, hdone, Bool.not_false, if_true, if_false])

theorem tlbi_denied (hlow : (s₁.thr t).level.num < (if form = .vmid then 2 else 1)) :
    ∃ e : Exc, e.cause = 0x03 ∧ e.epc = (s₁.thr t).pc ∧ tlbiForm form t va rx domain pinned s = .next (s₁.takeExc t e)  := by
  refine ⟨_, ?_, ?_, (State.run_of_begins hb _).trans (congrArg Host.Outcome.next (if_pos hlow))⟩ <;> rfl

/-- What a TLBI does, by its level and the thread's earlier stores. -/
theorem tlbi_flush :
    let x := s₁.thr t
    let q := x.tlbiReq form (va x) (rx x) pinned
    let u := s₁.tlbiMakes t q domain
    let low := if form = .vmid then 2 else 1
    (low ≤ x.level.num → x.storesDone = true → completes (tlbiForm form t va rx domain pinned s) u t ((u.thr t).past (x.pc + 4)) ∧
      (∀ e, q.hits e = true → e ∉ (u.core (t / 2)).itlb ∧ e ∉ (u.core (t / 2)).dtlb ∧ e ∉ (u.core (t / 2)).l2tlb) ∧
      ∀ e, q.hitsPinned e = true → e ∉ (u.core (t / 2)).pinned) ∧
    (low ≤ x.level.num → x.storesDone = false → tlbiForm form t va rx domain pinned s = .next s₁) ∧
    (x.level.num < low → ∃ e : Exc, e.cause = 0x03 ∧ e.epc = x.pc ∧ tlbiForm form t va rx domain pinned s = .next (s₁.takeExc t e)) := by
  dsimp only
  refine ⟨fun hlow hdone => ⟨tlbi_completes hb _ _ _ _ _ hlow hdone, ?_⟩, tlbi_waits hb _ _ _ _ _, tlbi_denied hb _ _ _ _ _⟩
  rw [(State.tlbiMakes_frame _ _ _ _).2]
  exact Core.tlbi_drops _ _

end

end Sys2Proof.Machine

open Sys2Proof Sys2Proof.Machine

/-- Settles O29. -/
theorem maintenanceOfCaches : Obligations.MaintenanceOfCaches := by
  unfold Obligations.MaintenanceOfCaches
  intro s s₁ t rs1 rx hb
  dsimp only
  refine ⟨?clean, ?inval, ?cleanInval, fun d => ⟨?va, ?asid, ?vmid, fun l => ?all⟩, fun hu => ?_, fun hu => ?_⟩
  case clean | inval | cleanInval =>
    exact ⟨fun hl hl3 => ⟨fun h => setway_ends hb hl hl3 (by rw [h]; rfl), fun h => setway_ends hb hl hl3 (by rw [h]; rfl),
      fun h hset hway => ⟨fun hu => setway_waits hb hl hl3 (by rw [h]; exact (if_pos ⟨hset, hway⟩).trans hu),
        fun v hv => setway_ends hb hl hl3 (by rw [h]; exact (if_pos ⟨hset, hway⟩).trans hv)⟩,
      fun h hnone => setway_ends hb hl hl3 (by rw [h]; exact State.setwayAt_l2_none hnone),
      fun h hway => ⟨fun hu => setway_waits hb hl hl3 (by rw [h]; exact (if_pos hway).trans hu),
        fun v hv => setway_ends hb hl hl3 (by rw [h]; exact (if_pos hway).trans hv)⟩,
      fun h hset => ⟨fun hu => setway_waits hb hl hl3 (by rw [h]; exact (if_pos hset).trans hu),
        fun v hv => setway_ends hb hl hl3 (by rw [h]; exact (if_pos hset).trans hv)⟩,
      fun h hnone => setway_ends hb hl hl3 (by rw [h]; exact State.setwayAt_gal_none (State.setwayGal_galley_none hnone)),
      fun h hset => ⟨fun hu => setway_waits hb hl hl3 (by rw [h]; exact (if_pos hset).trans hu),
        fun v hv => setway_ends hb hl hl3 (by rw [h]; exact (if_pos hset).trans hv)⟩,
      fun h hnone => setway_ends hb hl hl3 (by rw [h]; exact State.setwayAt_gal_none (State.setwayGal_hellbox_none hnone)),
      fun h => setway_ends hb hl hl3 (State.setwayAt_other h)⟩,
      fun hlow => setway_denied hb hlow⟩
  case va => exact tlbi_flush hb .va (fun x => x.readG rs1) (fun x => x.readG rx) d false
  case asid => exact tlbi_flush hb .asid (fun _ => 0) (fun x => x.readG rx) d false
  case vmid => exact tlbi_flush hb .vmid (fun _ => 0) (fun x => x.readG rx) d false
  case all => exact tlbi_flush hb .all (fun _ => 0) (fun _ => 0) d l
  · exact ⟨Exc.priv (s₁.thr t).pc 2 0x1A 0 .u, rfl, rfl, (State.run_of_begins hb _).trans (congrArg Host.Outcome.next (if_pos hu))⟩
  · refine ⟨_, (State.run_of_begins hb _).trans (congrArg Host.Outcome.next (if_neg hu)), State.finish_leaves _ t _ id hb.2⟩

end

section
/-! SUPPORT. The fields of a word after one of them is replaced (00 R6). -/

namespace Sys2Proof

variable {n : Nat}

theorem fieldOf_testBit (w : BitVec n) (hi lo i : Nat) : (fieldOf w hi lo).testBit i = (decide (i < hi + 1 - lo) && w.getLsbD (lo + i)) := by
  simp [fieldOf, Nat.testBit_mod_two_pow, Nat.testBit_div_two_pow, BitVec.getLsbD, Nat.add_comm]

/-- A word, cut at the two ends of a field. -/
theorem setField_toNat_eq (w : BitVec n) (hi lo v : Nat) :
    w.toNat - fieldOf w hi lo * 2 ^ lo + v % 2 ^ (hi + 1 - lo) * 2 ^ lo =
      2 ^ lo * (2 ^ (hi + 1 - lo) * (w.toNat / 2 ^ lo / 2 ^ (hi + 1 - lo)) + v % 2 ^ (hi + 1 - lo)) + w.toNat % 2 ^ lo := by
  have h₁ := Nat.div_add_mod w.toNat (2 ^ lo)
  have h₂ := Nat.div_add_mod (w.toNat / 2 ^ lo) (2 ^ (hi + 1 - lo))
  have h₃ : w.toNat = 2 ^ lo * (2 ^ (hi + 1 - lo) * (w.toNat / 2 ^ lo / 2 ^ (hi + 1 - lo))) + 2 ^ lo * fieldOf w hi lo + w.toNat % 2 ^ lo := by
    rw [← Nat.mul_add, fieldOf, h₂, h₁]
  rw [Nat.mul_add, Nat.mul_comm _ (2 ^ lo), Nat.mul_comm _ (2 ^ lo)]
  omega

theorem setField_getLsbD (w : BitVec n) {hi lo : Nat} (v i : Nat) (h : hi < n) :
    (setField w hi lo v).getLsbD i = if lo ≤ i ∧ i ≤ hi then v.testBit (i - lo) else w.getLsbD i := by
  have hlt : ∀ a k : Nat, a % 2 ^ k < 2 ^ k := fun a k => Nat.mod_lt _ (Nat.two_pow_pos k)
  simp only [setField, setField_toNat_eq, BitVec.getLsbD_ofNat, Nat.testBit_two_pow_mul_add _ (hlt _ _), Nat.testBit_mod_two_pow,
    Nat.testBit_div_two_pow]
  by_cases hi1 : i < lo
  · have : ¬ (lo ≤ i ∧ i ≤ hi) := by omega
    simp only [hi1, this, if_true, if_false, decide_true, Bool.true_and, BitVec.getLsbD]
    by_cases hn : i < n
    · simp [hn]
    · simp [hn, Nat.testBit_lt_two_pow (Nat.lt_of_lt_of_le w.isLt (Nat.pow_le_pow_right (by omega) (Nat.le_of_not_lt hn)))]
  · by_cases hi2 : i ≤ hi
    · have h₁ : i - lo < hi + 1 - lo := by omega
      have h₂ : lo ≤ i ∧ i ≤ hi := by omega
      have h₃ : i < n := by omega
      simp [hi1, h₁, h₂, h₃]
    · have h₁ : ¬ i - lo < hi + 1 - lo := by omega
      have h₂ : ¬ (lo ≤ i ∧ i ≤ hi) := by omega
      have h₃ : i - lo - (hi + 1 - lo) + (hi + 1 - lo) + lo = i := by omega
      by_cases hn : i < n
      · simp [hi1, h₁, h₂, hn, h₃, BitVec.getLsbD]
      · simp [h₂, hn, BitVec.getLsbD, Nat.testBit_lt_two_pow (Nat.lt_of_lt_of_le w.isLt (Nat.pow_le_pow_right (by omega) (Nat.le_of_not_lt hn)))]

/-- A field reads as it was set. -/
theorem fieldOf_setField_same (w : BitVec n) {hi lo : Nat} (v : Nat) (h : hi < n) : fieldOf (setField w hi lo v) hi lo = v % 2 ^ (hi + 1 - lo) := by
  refine Nat.eq_of_testBit_eq fun i => ?_
  rw [fieldOf_testBit, setField_getLsbD w v _ h, Nat.testBit_mod_two_pow]
  by_cases hi1 : i < hi + 1 - lo
  · have : lo ≤ lo + i ∧ lo + i ≤ hi := by omega
    simp [hi1, this]
  · simp [hi1]

/-- A field apart from the one set reads as before. -/
theorem fieldOf_setField_other (w : BitVec n) {hi lo a b : Nat} (v : Nat) (h : hi < n) (hab : a < lo ∨ hi < b) :
    fieldOf (setField w hi lo v) a b = fieldOf w a b := by
  refine Nat.eq_of_testBit_eq fun i => ?_
  rw [fieldOf_testBit, fieldOf_testBit, setField_getLsbD w v _ h]
  by_cases hi1 : i < a + 1 - b
  · have : ¬ (lo ≤ b + i ∧ b + i ≤ hi) := by omega
    simp [this]
  · simp [hi1]

/-- A field of one bit. -/
theorem fieldOf_self (w : BitVec n) (i : Nat) : fieldOf w i i = b2n (bit w i) := by
  have h : (w.toNat.testBit i).toNat = w.toNat / 2 ^ i % 2 := Nat.toNat_testBit _ _
  have hone : i + 1 - i = 1 := by omega
  rw [fieldOf, hone, Nat.pow_one, ← h, bit, BitVec.getLsbD]
  cases w.toNat.testBit i <;> rfl

end Sys2Proof
end

section
/-! PROOF. The functions that build an enclave (14 R346, R347). -/

namespace Sys2Proof.Machine

/-! A write of coherent memory leaves every thread alone. -/

theorem State.putCoh_thr (s : State) (line : Nat) (v : LineData) (k : Nat) : (s.putCoh line v).thr k = s.thr k := rfl
theorem State.putCohWord_thr (s : State) (pa : Nat) (w : Word) (k : Nat) : (s.putCohWord pa w).thr k = s.thr k := rfl

theorem State.putCohWords_thr (s : State) (pa : Nat) (ws : List Word) (k : Nat) : (s.putCohWords pa ws).thr k = s.thr k := by
  unfold State.putCohWords
  induction ws generalizing s pa with
  | nil => rfl
  | cons w ws ih => exact ih (s.putCohWord pa w) (pa + 8)

theorem State.putCohBytes_thr (s : State) (pa : Nat) (bs : List Byte) (k : Nat) : (s.putCohBytes pa bs).thr k = s.thr k := by
  unfold State.putCohBytes
  induction bs generalizing s pa with
  | nil => rfl
  | cons b bs ih => exact ih (s.putCoh _ _) (pa + 1)

theorem State.setMeasure_thr (s : State) (ecd : Nat) (m : List Byte) (k : Nat) : (s.setMeasure ecd m).thr k = s.thr k := s.putCohBytes_thr _ _ _
theorem State.setEcdState_thr (s : State) (ecd v k : Nat) : (s.setEcdState ecd v).thr k = s.thr k := rfl

section
variable {s s₁ : State} {t : Thr} (hb : s.begins s₁ t)
include hb

/-- Below M a function of M takes 0x03. -/
theorem enclM_denied (fn : Nat) (rs1 : RegNo) (body : Nat → State → State) (hl : (s₁.thr t).level ≠ .m) :
    ∃ e : Exc, e.cause = 0x03 ∧ e.epc = (s₁.thr t).pc ∧ enclM fn t rs1 body s = .next (s₁.takeExc t e) :=
  ⟨Exc.priv (s₁.thr t).pc 2 0x20 fn .u, rfl, rfl, (State.run_of_begins hb _).trans (congrArg Host.Outcome.next (if_pos hl))⟩

/-- A function of M whose body ends with a status in a state that leaves the thread alone completes there. -/
theorem enclM_completes (fn : Nat) (rd rs1 : RegNo) (body : Nat → State → State) (hl : (s₁.thr t).level = .m) {u : State} {v : Nat}
    (hu : u.thr t = s₁.thr t) (hbody : body ((s₁.thr t).readG rs1).toNat s₁ = u.enclStatus t rd v) :
    completes (enclM fn t rs1 body s) u t (((s₁.thr t).writeG rd (BitVec.ofNat 64 v)).past ((s₁.thr t).pc + 4)) := by
  refine ⟨_, (State.run_of_begins hb _).trans (congrArg Host.Outcome.next ((if_neg (not_not_intro hl)).trans hbody)), ?_⟩
  rw [← hu]
  exact State.finish_leaves u t _ _ (by rw [hu]; exact hb.2)

omit hb in
theorem State.withEcd_of_none {s : State} {t ecd : Nat} (rd : RegNo) (body : State → State) (h : s.ecdCheck t ecd = none) :
    s.withEcd t rd ecd body = body s := by
  simp only [State.withEcd, h]

/-- The same for a function on the descriptor in rs1, which can be used. -/
theorem enclEcd_completes (fn : Nat) (rd rs1 : RegNo) (body : Nat → State → State) (hl : (s₁.thr t).level = .m)
    (hecd : s₁.ecdCheck t ((s₁.thr t).readG rs1).toNat = none) {u : State} {v : Nat}
    (hu : u.thr t = s₁.thr t) (hbody : body ((s₁.thr t).readG rs1).toNat s₁ = u.enclStatus t rd v) :
    completes (enclM fn t rs1 (fun ecd s => s.withEcd t rd ecd (body ecd)) s) u t (((s₁.thr t).writeG rd (BitVec.ofNat 64 v)).past ((s₁.thr t).pc + 4)) :=
  enclM_completes hb fn rd rs1 _ hl hu ((State.withEcd_of_none rd _ hecd).trans hbody)

end

end Sys2Proof.Machine

open Sys2Proof Sys2Proof.Machine

/-- Settles O30. -/
theorem enclaveBuilding : Obligations.EnclaveBuilding := by
  unfold Obligations.EnclaveBuilding
  intro s s₁ t rd rs1 hb
  dsimp only
  refine ⟨fun hl hecd => ⟨fun hst hfields hplaced => ?_, fun hst => ?_, fun hst hbusy hpages hout hpoison => ?_, fun hst => ?_, fun hst => ?_, fun hst => ?_⟩,
    fun hl h8 h57 hphys hpoison hecd hst hsrc hdst hdst57 hflags hsave hplaced hidx hepm hfree => ?_, fun hl i hi => ?_⟩
  · change completes (execEnclInit t rd rs1 s) _ _ _
    unfold execEnclInit
    refine enclEcd_completes hb _ rd rs1 _ hl hecd (v := 0) ?_ ?_
    · exact (State.setEcdState_thr _ _ _ _).trans ((State.putCohWord_thr _ _ _ _).trans ((State.putCohWord_thr _ _ _ _).trans
        ((State.setMeasure_thr _ _ _ _).trans (State.putCohWords_thr _ _ _ _))))
    · simp only [hst, hfields, hplaced, ne_eq, not_true_eq_false, Bool.not_true, Bool.false_eq_true, if_false]
  · change completes (execEnclSeal t rd rs1 s) _ _ _
    unfold execEnclSeal
    refine enclEcd_completes hb _ rd rs1 _ hl hecd (v := 0) ?_ ?_
    · exact (State.setEcdState_thr _ _ _ _).trans (State.setMeasure_thr _ _ _ _)
    · simp only [hst, ne_eq, not_true_eq_false, if_false]
  · change completes (execEnclDestroy t rd rs1 s) _ _ _
    unfold execEnclDestroy
    refine enclEcd_completes hb _ rd rs1 _ hl hecd (v := 0) ?_ ?_
    · exact (State.setEcdState_thr _ _ _ _).trans (State.putCohWords_thr _ _ _ _)
    · have hn : ¬ (s₁.ecdWord ((s₁.thr t).readG rs1).toNat 0x68).toNat < s₁.ecdPages ((s₁.thr t).readG rs1).toNat := Nat.not_lt.mpr hpages
      simp [hst, hbusy, hn, hout, hpoison]
  · change completes (execEnclInit t rd rs1 s) _ _ _
    unfold execEnclInit
    exact enclEcd_completes hb _ rd rs1 _ hl hecd (v := 1) rfl (if_pos hst)
  · change completes (execEnclSeal t rd rs1 s) _ _ _
    unfold execEnclSeal
    exact enclEcd_completes hb _ rd rs1 _ hl hecd (v := 1) rfl (if_pos hst)
  · change completes (execEnclDestroy t rd rs1 s) _ _ _
    unfold execEnclDestroy
    exact enclEcd_completes hb _ rd rs1 _ hl hecd (v := 1) rfl (if_pos hst)
  · have h₁ : ¬ (_ % 8 ≠ 0 ∨ _ > 2 ^ 57) := not_or.mpr ⟨not_not_intro h8, Nat.not_lt.mpr h57⟩
    change completes (execEnclAdd t rd rs1 s) _ _ _
    unfold execEnclAdd
    refine enclM_completes hb _ rd rs1 _ hl (v := 0) ?_ ((if_neg h₁).trans ((if_neg (by simp [hphys])).trans ((if_neg (by simp [hpoison])).trans
      ((State.withEcd_of_none rd _ hecd).trans ?_))))
    · exact (State.setMeasure_thr _ _ _ _).trans ((State.putCohWord_thr _ _ _ _).trans (State.putCohWords_thr _ _ _ _))
    · have hsrc' : ¬ ((s₁.cohWord (((s₁.thr t).readG rs1).toNat + 8)).toNat % 4096 ≠ 0 ∨ (s₁.cohWord (((s₁.thr t).readG rs1).toNat + 24)).toNat % 4096 ≠ 0 ∨
          (s₁.cohWord (((s₁.thr t).readG rs1).toNat + 8)).toNat ≥ 2 ^ 57 ∨ (s₁.cohWord (((s₁.thr t).readG rs1).toNat + 24)).toNat ≥ 2 ^ 57 ∨
          fieldOf (s₁.cohWord (((s₁.thr t).readG rs1).toNat + 16)) 31 4 ≠ 0) := by omega
      refine (if_neg (not_not_intro hst)).trans ((if_neg hsrc').trans ((if_neg (by simp [hplaced])).trans ((if_neg (Nat.not_le.mpr hidx)).trans
        ((if_neg (by simp [hepm])).trans ((if_neg (by simp [hfree])).trans ((if_neg (by simp [hsave])).trans ((if_neg (by simp [hsave])).trans ?_)))))))
      simp only [hsave, if_true, fieldOf_self _ 3, b2n, Nat.one_mul]
  · simp only [List.mem_cons, List.not_mem_nil, or_false] at hi
    obtain rfl | rfl | rfl | rfl := hi
    · change ∃ e : Exc, _ ∧ _ ∧ execEnclInit t rd rs1 s = _
      unfold execEnclInit
      exact enclM_denied hb _ rs1 _ hl
    · change ∃ e : Exc, _ ∧ _ ∧ execEnclAdd t rd rs1 s = _
      unfold execEnclAdd
      exact enclM_denied hb _ rs1 _ hl
    · change ∃ e : Exc, _ ∧ _ ∧ execEnclSeal t rd rs1 s = _
      unfold execEnclSeal
      exact enclM_denied hb _ rs1 _ hl
    · change ∃ e : Exc, _ ∧ _ ∧ execEnclDestroy t rd rs1 s = _
      unfold execEnclDestroy
      exact enclM_denied hb _ rs1 _ hl

end

section
/-! SUPPORT. A flit that reaches its agent (11 R272, R283, R284). -/

namespace Sys2Proof.Machine

section
variable (s : State) (k : Nat)

/-- Taking a flit off the net changes the net and the stamps that have come. -/
theorem State.taken_frame : s.taken k = { s with net := (s.taken k).net, stamped := (s.taken k).stamped } := by
  unfold State.taken
  dsimp only
  split
  · unfold State.raise
    split <;> rfl
  · rfl

@[simp] theorem State.taken_threads : (s.taken k).threads = s.threads := by rw [State.taken_frame]
@[simp] theorem State.taken_cores : (s.taken k).cores = s.cores := by rw [State.taken_frame]
@[simp] theorem State.taken_tiles : (s.taken k).tiles = s.tiles := by rw [State.taken_frame]
@[simp] theorem State.taken_dies : (s.taken k).dies = s.dies := by rw [State.taken_frame]
@[simp] theorem State.taken_ctl : (s.taken k).ctl = s.ctl := by rw [State.taken_frame]
@[simp] theorem State.taken_mem : (s.taken k).mem = s.mem := by rw [State.taken_frame]
@[simp] theorem State.taken_thr (t : Nat) : (s.taken k).thr t = s.thr t := by rw [State.taken_frame]; rfl
@[simp] theorem State.taken_core (c : Nat) : (s.taken k).core c = s.core c := by rw [State.taken_frame]; rfl
@[simp] theorem State.taken_tile (n : Nat) : (s.taken k).tile n = s.tile n := by rw [State.taken_frame]; rfl
@[simp] theorem State.taken_tileOf (c : Nat) : (s.taken k).tileOf c = s.tileOf c := by rw [State.taken_frame]; rfl
@[simp] theorem State.taken_thrPresent (t : Nat) : (s.taken k).thrPresent t = s.thrPresent t := by rw [State.taken_frame]; rfl
@[simp] theorem State.taken_quiesced (t : Nat) : (s.taken k).quiesced t = s.quiesced t := by rw [State.taken_frame]; rfl
@[simp] theorem State.taken_portSt (a : Nat) : (s.taken k).portSt a = s.portSt a := by rw [State.taken_frame]; rfl
@[simp] theorem State.taken_dieAlive (d : Nat) : (s.taken k).dieAlive d = s.dieAlive d := by rw [State.taken_frame]; rfl
@[simp] theorem State.taken_dieCores (d : Nat) : (s.taken k).dieCores d = s.dieCores d := by rw [State.taken_frame]; rfl

end

/-- A flit that lands is taken off the net and handed to its agent. -/
theorem State.receive_of_lands {s : State} {k : Nat} {op : Op} {f : Flit} (h : s.lands k op f) (body : Flit → State → Option State) :
    s.receive k op body = .next ((body f (s.taken k)).getD s) := by
  obtain ⟨harr, hport, hprox⟩ := h
  simp only [State.receive, harr, hport, Bool.false_eq_true, if_false, hprox]

end Sys2Proof.Machine
end

section
/-! PROOF. Interrupt messages at their units (04 R119, R123, R127). -/

namespace Sys2Proof.Machine

/-- A message of the INTID's world makes it pending (04 R119). -/
theorem Thread.accept_int (x : Thread) (m : IntMsg) (stamp : Word) (hlevel : m.level = false) (hvalid : intidValid m.intid.val = true) :
    ((x.accept m stamp).int m.intid.val).pending = true ∧ ∀ i, i ≠ m.intid.val → (x.accept m stamp).int i = x.int i := by
  simp only [Thread.accept, hlevel, Thread.pend, hvalid, Bool.false_and, Bool.false_eq_true, if_true, if_false, Thread.int_updInt]
  refine ⟨?_, fun i hi => if_neg hi⟩
  split
  · assumption
  · rfl

/-- Telling the tiles of a die that a batch has been refused changes the tiles alone. -/
theorem State.hush_frame (s : State) (d batch : Nat) : s.hush d batch = { s with tiles := (s.hush d batch).tiles } := by
  unfold State.hush
  split
  · rfl
  · generalize List.range 36 = l
    induction l generalizing s with
    | nil => rfl
    | cons i l ih =>
      rw [List.foldl_cons, ih]
      split <;> rfl

/-- A message to a thread that is present and awake is delivered at once (04 R123). -/
theorem State.reachInt_awake {s : State} {t : Nat} (m : IntMsg) (stamp : Word) (hpres : s.thrPresent t = true) (ht3 : (s.tile (s.tileOf (t / 2))).st ≠ .t3)
    (hport : s.portSt (tilePort (s.tileOf (t / 2))) = 0) (hq : s.quiesced t = false) (hquiet : m.quiet = false) :
    s.reachInt t m stamp false = s.deliver t m stamp false := by
  simp only [State.reachInt, hpres, ht3, hport, hq, hquiet, Bool.not_true, Bool.false_eq_true, if_false, decide_false, ne_eq, not_true_eq_false, Bool.or_false]

/-- The event flags that a SEVT_B sets at the cores of a die (04 R127). -/
def State.sevtCore (s : State) (c : Nat) : State :=
  (s.updThr (2 * c) (fun x => { x with eventFlag := true })).updThr (2 * c + 1) (fun x => { x with eventFlag := true })

theorem State.sevtCore_flag (s : State) (c k : Nat) (h : k = 2 * c ∨ k = 2 * c + 1 ∨ (s.thr k).eventFlag = true) : ((s.sevtCore c).thr k).eventFlag = true := by
  unfold State.sevtCore
  by_cases h₁ : k = 2 * c + 1
  · subst h₁
    rw [State.updThr_thr]
  · rw [State.updThr_thr_other _ _ _ _ h₁]
    by_cases h₀ : k = 2 * c
    · subst h₀
      rw [State.updThr_thr]
    · rw [State.updThr_thr_other _ _ _ _ h₀]
      simpa [h₀, h₁] using h

theorem State.foldl_sevtCore_flag (l : List Nat) (s : State) (k : Nat) (h : (∃ c ∈ l, k = 2 * c ∨ k = 2 * c + 1) ∨ (s.thr k).eventFlag = true) :
    ((l.foldl State.sevtCore s).thr k).eventFlag = true := by
  induction l generalizing s with
  | nil => simpa using h
  | cons c l ih =>
    refine ih _ ?_
    obtain ⟨a, ha, hk⟩ | h := h
    · obtain rfl | ha := List.mem_cons.mp ha
      · exact .inr (s.sevtCore_flag a k (hk.imp_right .inl))
      · exact .inl ⟨a, ha, hk⟩
    · exact .inr (s.sevtCore_flag c k (.inr (.inr h)))

/-- The body of a SEVT_B over cores that are awake. -/
theorem State.foldl_sevtB (l : List Nat) (u : State)
    (h : ∀ j ∈ l, (u.tile (u.tileOf j)).st ≠ .t3 ∧ u.portSt (tilePort (u.tileOf j)) = 0 ∧ u.quiesced (2 * j) = false) :
    l.foldl (fun s c =>
      let n := s.tileOf c
      if (s.tile n).st = .t3 || s.portSt (tilePort n) ≠ 0 then s.updTile n (fun q => { q with sevt := true, waking := true })
      else if s.quiesced (2 * c) then s.updTile n (fun q => { q with sevt := true })
      else (s.updThr (2 * c) (fun x => { x with eventFlag := true })).updThr (2 * c + 1) (fun x => { x with eventFlag := true })) u =
    l.foldl State.sevtCore u := by
  induction l generalizing u with
  | nil => rfl
  | cons j l ih =>
    obtain ⟨ht3, hport, hq⟩ := h j (List.mem_cons_self ..)
    simp only [List.foldl_cons, ht3, hport, hq, decide_false, ne_eq, not_true_eq_false, Bool.or_self, Bool.false_eq_true, if_false]
    exact ih (u.sevtCore j) fun i hi => h i (List.mem_cons_of_mem _ hi)

end Sys2Proof.Machine

open Sys2Proof Sys2Proof.Machine

/-- Settles O32. -/
theorem interruptDelivery : Obligations.InterruptDelivery := by
  unfold Obligations.InterruptDelivery
  intro s k f m c d
  dsimp only
  refine ⟨fun hl hm hd halive hpres ht3 hport hq hquiet href hlev hvalid => ?_, fun hl hd hcores => ?_⟩
  · have hexec : exec (.intDlv k) s =
        .next ((s.taken k).deliver m.target.val m ((s.taken k).stampAt (c.val / 32) ((s.taken k).node f.dst)) false).1 := by
      change execIntDlv k s = _
      unfold execIntDlv
      refine (State.receive_of_lands hl _).trans ?_
      simp only [hm, hd, State.taken_dieAlive, halive, if_true, Option.getD_some]
      rw [State.reachInt_awake m _ (by simpa using hpres) (by simpa using ht3) (by simpa using hport) (by simpa using hq) hquiet]
    generalize (s.taken k).stampAt (c.val / 32) ((s.taken k).node f.dst) = stamp at hexec
    refine ⟨fun hw => ⟨_, hexec, ?_⟩, fun z hw hz => ?_⟩
    · have hw' : (((s.taken k).thr m.target.val).int m.intid.val).world = m.secure := by rw [State.taken_thr]; exact hw
      have hdel : ((s.taken k).deliver m.target.val m stamp false).1 = (s.taken k).updThr m.target.val (fun x => x.accept m stamp) := by
        simp only [State.deliver, href, hw', Bool.false_eq_true, if_true, if_false]
      rw [hdel, State.updThr_thr, State.taken_thr]
      obtain ⟨hp, ho⟩ := (s.thr m.target.val).accept_int m stamp hlev hvalid
      exact ⟨hp, ho, fun j hj => ((s.taken k).updThr_thr_other _ _ _ hj).trans (s.taken_thr k j), rfl⟩
    · have hw' : (((s.taken k).thr m.target.val).int m.intid.val).world ≠ m.secure := by rw [State.taken_thr]; exact hw
      have hdel : ((s.taken k).deliver m.target.val m stamp false).1 = (s.taken k).refuseInt m.target.val m (dieOfThr m.target.val) false := by
        simp only [State.deliver, href, hw', Bool.false_eq_true, if_false]
      rw [hdel] at hexec
      refine ⟨_, (s.taken k).injected { Flit.blank .intDlv (.die (dieOfThr m.target.val)) (if m.away then .link 6 else .core (coreId (z.val / 2))) with
        cls := 8, msg := some { m with target := z, refusal := true, sender := none, batch := 0 } }, hexec, ?_⟩
      simp only [State.refuseInt, hz, Bool.false_eq_true, if_false]
      rw [State.hush_frame]
      exact ⟨s.taken_threads k, State.send_net _ _, rfl, rfl, _, rfl, rfl, rfl⟩
  · refine ⟨(s.dieCores d).foldl State.sevtCore (s.taken k), ?_, fun j hj => ?_⟩
    · change execSevtB k s = _
      unfold execSevtB
      refine (State.receive_of_lands hl _).trans ?_
      simp only [hd, State.taken_dieCores, Option.getD_some]
      rw [State.foldl_sevtB]
      simpa using hcores
    · exact ⟨State.foldl_sevtCore_flag _ _ _ (.inl ⟨j, hj, .inl rfl⟩), State.foldl_sevtCore_flag _ _ _ (.inl ⟨j, hj, .inr rfl⟩)⟩

end

section
/-! PROOF. The sources of the interrupt router (04 R124 to R126). -/

namespace Sys2Proof.Machine

section
variable (s : State)

/-- An assertion is kept where its source is enabled (04 R125). -/
theorem State.mem_assertSource (n i : Nat) : i ∈ (s.assertSource n).srcPend ↔ i ∈ s.srcPend ∨ (i = n ∧ sourceExists n = true ∧ bit (s.source n) 63 = true) := by
  unfold State.assertSource
  by_cases hen : sourceExists n = true ∧ bit (s.source n) 63 = true
  · by_cases hin : n ∈ s.srcPend
    · simp only [hen, hin, List.contains_eq_mem, decide_true, Bool.and_self, Bool.not_true, Bool.and_false, Bool.false_eq_true, if_false, and_true]
      exact ⟨.inl, fun h => h.elim id (fun h => h ▸ hin)⟩
    · simp [hen, hin]
  · have hc : (sourceExists n && bit (s.source n) 63 && !s.srcPend.contains n) = false := by
      rw [← Bool.and_eq_true, Bool.not_eq_true] at hen
      rw [hen, Bool.false_and]
    rw [hc]
    simp [hen]

theorem State.assertSource_net (n : Nat) : (s.assertSource n).net = s.net := by
  unfold State.assertSource
  split <;> rfl

theorem State.assertSource_gpio (n p : Nat) : (s.assertSource n).gpio p = s.gpio p := by
  unfold State.assertSource
  split <;> rfl

theorem State.assertSource_of_disabled {n : Nat} (h : bit (s.source n) 63 = false) : s.assertSource n = s := by
  simp [State.assertSource, h]

/-! Withdrawal of level sources (04 R126). -/

theorem Thread.withdraw_asserted (x : Thread) (n i : Nat) (h : i = n ∨ (x.int i).asserted = false) : ((x.withdraw n).int i).asserted = false := by
  unfold Thread.withdraw
  by_cases ha : (x.int n).asserted = true
  · rw [if_pos ha, Thread.int_updInt]
    split
    · rfl
    · next hi => exact h.resolve_left hi
  · rw [if_neg ha]
    obtain rfl | h := h
    · simpa using ha
    · exact h

theorem State.withdrawAt_asserted (t id k i : Nat) (h : (k = t ∧ i = id) ∨ ((s.thr k).int i).asserted = false) :
    (((s.withdrawAt t id).thr k).int i).asserted = false := by
  unfold State.withdrawAt
  dsimp only
  by_cases hk : k = t
  · subst hk
    rw [State.updTile_thr, State.updThr_thr]
    exact Thread.withdraw_asserted _ _ _ (h.imp_left And.right)
  · rw [State.updTile_thr, State.updThr_thr_other _ _ _ _ hk]
    exact h.resolve_left fun hh => hk hh.1

theorem State.withdrawAt_srcPend (t id : Nat) : (s.withdrawAt t id).srcPend = s.srcPend := rfl

end

/-- Of the withdrawals made one after another, each is made, and none of them sends. -/
theorem State.foldl_withdrawAt (skip : Nat × Nat → Bool) (l : List (Nat × Nat)) (s : State) :
    (l.foldl (fun s q => if skip q then s else s.withdrawAt q.1 q.2) s).srcPend = s.srcPend ∧
    ∀ q : Nat × Nat, (q ∈ l ∧ skip q = false) ∨ ((s.thr q.1).int q.2).asserted = false →
      (((l.foldl (fun s q => if skip q then s else s.withdrawAt q.1 q.2) s).thr q.1).int q.2).asserted = false := by
  induction l generalizing s with
  | nil => exact ⟨rfl, fun q h => h.resolve_left fun hh => by cases hh.1⟩
  | cons a l ih =>
    obtain ⟨hpend, hass⟩ := ih (if skip a then s else s.withdrawAt a.1 a.2)
    refine ⟨hpend.trans ?_, fun q h => hass q ?_⟩
    · split <;> rfl
    · by_cases hs : skip a = true
      · rw [if_pos hs]
        refine h.imp_left fun hq => ⟨(List.mem_cons.mp hq.1).resolve_left fun he => ?_, hq.2⟩
        rw [he, hs] at hq
        exact absurd hq.2 (by decide)
      · rw [if_neg hs]
        obtain ⟨hq, hsk⟩ | h := h
        · obtain rfl | hq := List.mem_cons.mp hq
          · exact .inr (s.withdrawAt_asserted _ _ _ _ (.inl ⟨rfl, rfl⟩))
          · exact .inl ⟨hq, hsk⟩
        · exact .inr (s.withdrawAt_asserted _ _ _ _ (.inr h))

/-! Sending (04 R125). -/

/-- The message of a source, as its entry stands. -/
def State.routerMsg (s : State) (n : Nat) : IntMsg :=
  { intid := ⟨fieldOf (s.source n) 9 0 % 1024, Nat.mod_lt _ (by decide)⟩, target := thrOf (fieldOf (s.source n) 51 42), secure := s.sourceSecure n, refusal := false,
    sender := none, level := decide (s.trig n ≥ 2), stamp := s.stamp 16 }

/-- The router once it has sent a source's assertion: where a level source's went is kept (04 R126). -/
def State.routerKept (s : State) (n : Nat) : State :=
  let s' := { s with srcPend := s.srcPend.filter (fun x => x != n) }
  let q := (n, (thrOf (fieldOf (s.source n) 51 42)).val, fieldOf (s.source n) 9 0)
  if decide (s.trig n ≥ 2) && !decide (fieldOf (s.source n) 52 52 ≠ s.pkgBit) && !s.srcSent.contains q then { s' with srcSent := s.srcSent ++ [q] } else s'

theorem State.routerKept_frame (s : State) (n : Nat) : s.routerKept n = { s with srcPend := s.srcPend.filter (fun x => x != n), srcSent := (s.routerKept n).srcSent } := by
  unfold State.routerKept
  dsimp only
  split <;> rfl

/-- A waiting assertion for a thread of the package is sent. -/
theorem routerSend_sends {s : State} {src : Fin 4096} (hin : src.val ∈ s.srcPend) (haway : fieldOf (s.source src.val) 52 52 = s.pkgBit)
    (hpres : s.thrPresent (thrOf (fieldOf (s.source src.val) 51 42)).val = true) :
    exec (.routerSend src) s = .next ((s.routerKept src.val).send { Flit.blank .intDlv .router (.core (coreId ((thrOf (fieldOf (s.source src.val) 51 42)).val / 2))) with
      cls := 8, msg := some (s.routerMsg src.val) }) := by
  have hpres' : ¬ (!(s.routerKept src.val).thrPresent (thrOf (fieldOf (s.source src.val) 51 42)).val) = true := by
    have hsame : (s.routerKept src.val).thrPresent = s.thrPresent := by rw [State.routerKept_frame]; rfl
    rw [hsame, hpres]
    decide
  change execRouterSend src s = _
  unfold execRouterSend
  refine (if_neg (by simpa using hin)).trans ?_
  exact (if_neg (not_not_intro haway)).trans (if_neg hpres')

/-! Pins (04 R126). -/

/-- A pin at which the router sees a level. -/
def State.setGpioLevel (s : State) (p : Nat) (b : Bool) : State :=
  { s with gpios := Tbl.set { sample := false, level := false } s.gpios p { s.gpio p with level := b } }

theorem State.setGpioLevel_gpio (s : State) (p : Nat) (b : Bool) : (s.setGpioLevel p b).gpio p = { s.gpio p with level := b } := by
  simp [State.gpio, State.setGpioLevel]

/-- A level that a second sample finds is seen; its source is asserted as its trigger says: a rising edge with 0, a falling one with 1. -/
theorem gpioEdge_seen {s : State} {pin : Fin 32} {b : Bool} (hb : b = (s.gpio pin.val).sample) (hl : b ≠ (s.gpio pin.val).level) :
    ∃ w : Bool, exec (.gpioEdge pin b) s = .next (if w then (s.setGpioLevel pin.val b).assertSource pin.val else s.setGpioLevel pin.val b) ∧
      (s.trig pin.val = (if b then 0 else 1) → w = true) ∧ (s.trig pin.val = (if b then 1 else 0) → w = false) := by
  have hexec : exec (.gpioEdge pin b) s = execGpioEdge pin b s := rfl
  rw [hexec]
  unfold execGpioEdge
  dsimp only
  rw [if_neg (not_not_intro hb), if_neg hl]
  have htrig : (s.setGpioLevel pin.val b).trig pin.val = s.trig pin.val := rfl
  simp only [State.setGpioLevel] at htrig ⊢
  rw [htrig]
  generalize s.trig pin.val = n
  match n with
  | 0 => exact ⟨b, rfl, by cases b <;> simp, by cases b <;> simp⟩
  | 1 => exact ⟨!b, by cases b <;> rfl, by cases b <;> simp, by cases b <;> simp⟩
  | n + 2 => exact ⟨levelHit (n + 2) b, rfl, by cases b <;> simp, by cases b <;> simp⟩

end Sys2Proof.Machine

open Sys2Proof Sys2Proof.Machine

/-- Settles O33. -/
theorem routerSources : Obligations.RouterSources := by
  unfold Obligations.RouterSources
  intro s src pin b
  dsimp only
  have hpin : sourceExists pin.val = true := by have := pin.isLt; simp [sourceExists]; omega
  refine ⟨fun hex hen => ?_, fun hen => ?_, fun hin haway hpres => ?_, fun hb => ?_, fun hb hl => ?_, fun htrig hhit => ?_⟩
  · refine ⟨s.assertSource src.val, rfl, (s.mem_assertSource _ _).mpr (.inr ⟨rfl, hex, hen⟩), fun i hi => ?_, s.assertSource_net _⟩
    rw [State.mem_assertSource]
    exact ⟨fun h => h.resolve_right fun hh => hi hh.1, .inl⟩
  · exact congrArg Host.Outcome.next (s.assertSource_of_disabled hen)
  · refine ⟨_, (s.routerKept src.val).injected { Flit.blank .intDlv .router (.core (coreId ((thrOf (fieldOf (s.source src.val) 51 42)).val / 2))) with
      cls := 8, msg := some (s.routerMsg src.val) }, s.routerMsg src.val, routerSend_sends hin haway hpres, ?_, ?_, rfl, rfl, rfl,
      Nat.mod_eq_of_lt (Nat.mod_lt _ (by decide)), rfl, ?_⟩
    · rw [State.routerKept_frame]
      simp [State.send]
    · rw [State.send_net, State.routerKept_frame]
    · rw [State.routerKept_frame]
      rfl
  · refine ⟨_, if_pos hb, ?_, rfl⟩
    simp [State.gpio]
  · obtain ⟨w, hexec, hyes, hno⟩ := gpioEdge_seen hb hl
    have hg := s.setGpioLevel_gpio pin.val b
    refine ⟨_, hexec, ?_, fun hen htrig => ?_, fun htrig => ?_⟩
    · cases w
      · exact congrArg Gpio.level hg
      · exact congrArg Gpio.level ((State.assertSource_gpio _ _ _).trans hg)
    · rw [hyes htrig]
      exact (State.mem_assertSource _ _ _).mpr (.inr ⟨rfl, hpin, hen⟩)
    · rw [hno htrig]
      rfl
  · refine ⟨s.deassert pin.val, if_pos (by simp [htrig, hhit]), ?_⟩
    unfold State.deassert
    extract_lets mine rest u
    obtain ⟨hpend, hass⟩ := State.foldl_withdrawAt (fun q => rest.any (fun r => r.2 == q)) mine u
    refine ⟨?_, fun q hq hother => hass q (.inl ⟨?_, ?_⟩)⟩
    · rw [hpend]
      simp [u]
    · exact List.mem_map.mpr ⟨(pin.val, q), List.mem_filter.mpr ⟨hq, by simp⟩, rfl⟩
    · simp only [rest, List.any_eq_false, List.mem_filter]
      rintro ⟨i, q'⟩ ⟨hi, hne⟩ he
      have he' : q' = q := by simpa using he
      subst he'
      exact hother i (by simpa using hne) hi

end

section
/-! PROOF. Store-buffer entries drain, and confirmed streams prefetch (07 R194; 08 R209, R221). -/

namespace Sys2Proof.Machine

theorem coreId_val (t : Thr) : (coreId (t.val / 2)).val = t.val / 2 := by
  have := t.isLt
  exact Nat.mod_eq_of_lt (by omega)

/-! Waking a core where no instruction waits. -/

theorem State.wake_of_none {s : State} {t : Nat} (h : (s.thr t).memOp = none) : s.wake t = s := by
  simp only [State.wake, h]

theorem State.wakeCore_of_quiet {s : State} {c : Nat} (h : s.quiet c) : s.wakeCore c = s := by
  obtain ⟨h0, h1⟩ := h
  rw [State.wakeCore, State.wake_of_none h0, State.wake_of_none h1]

/-- A core stays quiet while the instructions in progress stay as they are. -/
theorem State.quiet_of_memOp {s u : State} {c : Nat} (h : s.quiet c) (hop : ∀ k, (u.thr k).memOp = (s.thr k).memOp) : u.quiet c :=
  ⟨(hop _).trans h.1, (hop _).trans h.2⟩

theorem State.quiet_thr {s : State} {t : Nat} (h : s.quiet (t / 2)) : (s.thr t).memOp = none := by
  obtain ⟨h0, h1⟩ := h
  obtain ht | ht : t = 2 * (t / 2) ∨ t = 2 * (t / 2) + 1 := by omega
  · rw [ht]; exact h0
  · rw [ht]; exact h1

theorem State.updThr_memOp (s : State) (t : Nat) {f : Thread → Thread} (hf : ∀ x, (f x).memOp = x.memOp) (k : Nat) :
    ((s.updThr t f).thr k).memOp = (s.thr k).memOp := by
  by_cases hk : k = t
  · subst hk
    rw [State.updThr_thr, hf]
  · rw [State.updThr_thr_other _ _ _ _ hk]

theorem State.noteOut_thr (s : State) (t : Nat) (kind : OutKind) (pa due : Nat) : (s.noteOut t kind pa due).thr t = { s.thr t with
    outst := (s.thr t).outst ++ [{ tid := s.nextTid, kind := kind, pa := pa, due := due, port := none, stamp := s.stamp (dieOfThr t) }] } := by
  unfold State.noteOut
  rw [State.updThr_thr]

theorem State.noteOut_thr_other (s : State) (t : Nat) (kind : OutKind) (pa due : Nat) {k : Nat} (hk : k ≠ t) : (s.noteOut t kind pa due).thr k = s.thr k := by
  unfold State.noteOut
  exact State.updThr_thr_other _ _ _ _ hk

theorem Core.l2Line_setL2_other (c : Core) {line a : Nat} (l : Option L2Line) (h : a ≠ line) : (c.setL2 line l).l2Line a = c.l2Line a :=
  Tbl.get_set_other _ _ _ _ _ h

section
variable {s : State} {t : Thr} {n : Nat} {e : StoreEntry} (hget : (s.thr t).stb[n]? = some e) (hpres : s.thrPresent t = true)
  (ht0 : (s.tile (s.tileOf (t.val / 2))).st = .t0) (hover : s.drainOver t = false) (hmay : (s.thr t).mayDrain n e = true)
include hget hpres ht0 hover hmay

/-- An entry that may drain goes the way of its type. -/
theorem storeBufferDrain_wb (htype : e.type = .wb) : exec (.storeBufferDrain t n) s = .next (s.drainWb t n e) := by
  change execStoreBufferDrain t n s = _
  simp [execStoreBufferDrain, hget, hpres, ht0, hover, hmay, htype]

theorem storeBufferDrain_nc (htype : e.type = .nc) : exec (.storeBufferDrain t n) s = .next (s.drainTo t n e .nc .ncStore) := by
  change execStoreBufferDrain t n s = _
  simp [execStoreBufferDrain, hget, hpres, ht0, hover, hmay, htype]

end

/-- A store to a line that the L2 may write is performed there (08 R209). -/
theorem State.drainWb_writable {s : State} {t n : Nat} {e : StoreEntry} {l : L2Line} (hq : s.quiet (t / 2)) (hon : (s.core (t / 2)).l2Off = false)
    (hl : (s.core (t / 2)).l2Line (e.pa / 64) = some l) (hw : l.writable = true) (hworld : e.fromM = true ∨ l.world = e.world) (hmate : e.mate = none)
    (hmir : s.mirrored = false) :
    s.drainWb t n e = (s.updCore (t / 2) (fun k => k.setL2 (e.pa / 64) (some { l with
      st := .m, data := mergeLine l.data (placeVal e.data (e.pa % 64)) (byteMask (e.pa % 64) e.size) }))).updThr t (fun x => x.unbuffer n) := by
  have hok : (!e.fromM && decide (l.world ≠ e.world)) = false := by
    obtain h | h := hworld <;> simp [h]
  unfold State.drainWb
  simp only [hon, hl, hw, hok, hmate, if_true, if_false, Bool.false_eq_true]
  rw [State.mirrorStore_of_not_mirrored (by exact hmir)]
  exact State.wakeCore_of_quiet (State.quiet_of_memOp hq fun k => State.updThr_memOp _ t (f := fun x => x.unbuffer n) (fun _ => rfl) k)

/-- The write of a store that goes to its end point (07 R194). -/
def State.drainFlit (s : State) (t : Nat) (e : StoreEntry) (acc : AccClass) : Flit :=
  { Flit.blank .wrNc (.core (coreId (t / 2))) (s.endpoint e.pa) with
    thr := some (thrOf t), tid := s.nextTid, line := e.pa / 64, world := e.world, size := e.size, mask := byteMask (e.pa % 64) e.size
    data := placeVal e.data (e.pa % 64), acc := acc, hint := e.rank, fromM := e.fromM }

/-- The state in which a store of NC memory leaves: out of the buffer, its answer owed. -/
def State.drainedNc (s : State) (t n : Nat) (e : StoreEntry) : State := (s.freshTid.updThr t (fun x => x.unbuffer n)).noteOut t .ncStore e.pa 1

section
variable (s : State) (t n : Nat) (e : StoreEntry)

theorem State.drainedNc_thr : (s.drainedNc t n e).thr t = { (s.thr t).unbuffer n with
    outst := (s.thr t).outst ++ [{ tid := s.nextTid + 1, kind := .ncStore, pa := e.pa, due := 1, port := none, stamp := s.stamp (dieOfThr t) }] } := by
  unfold State.drainedNc
  rw [State.noteOut_thr, State.updThr_thr]
  rfl

theorem State.drainedNc_thr_other {k : Nat} (hk : k ≠ t) : (s.drainedNc t n e).thr k = s.thr k := by
  unfold State.drainedNc
  exact (State.noteOut_thr_other _ _ _ _ _ hk).trans (State.updThr_thr_other _ _ _ _ hk)

theorem State.drainedNc_net : (s.drainedNc t n e).net = s.net := by simp [State.drainedNc, State.noteOut]
theorem State.drainedNc_mem : (s.drainedNc t n e).mem = s.mem := by simp [State.drainedNc, State.noteOut]
theorem State.drainedNc_nextTid : (s.drainedNc t n e).nextTid = s.nextTid + 1 := by simp [State.drainedNc, State.noteOut, State.freshTid]

/-- A store of NC memory goes to its end point, and its thread owes the answer. -/
theorem State.drainTo_nc (hq : s.quiet (t / 2)) : s.drainTo t n e .nc .ncStore = (s.drainedNc t n e).send ((s.drainedNc t n e).drainFlit t e .nc) := by
  refine State.wake_of_none (t := t) ?_
  have hx : (((s.drainedNc t n e).send ((s.drainedNc t n e).drainFlit t e .nc)).thr t).memOp = (s.thr t).memOp := by
    rw [State.send_thr, State.drainedNc_thr]
    rfl
  exact hx.trans (State.quiet_thr hq)

end

/-! A prefetch into the Galley (08 R221). -/

/-- The counts of a prefetch into the Galley, with its transaction. -/
def State.prefetchCounts (s : State) (t : Nat) : State := (s.freshTid.pmc t 0x19).pmc t 0x39

theorem State.prefetchCounts_net (s : State) (t : Nat) : (s.prefetchCounts t).net = s.net := by simp [State.prefetchCounts, State.pmc]
theorem State.prefetchCounts_mem (s : State) (t : Nat) : (s.prefetchCounts t).mem = s.mem := by simp [State.prefetchCounts, State.pmc]

/-- The read that a stream asks for. -/
def State.prefetchFlit (s : State) (c : CoreId) (st : Stream) : Flit :=
  let next : Int := st.last + st.reach
  { Flit.blank .rdNc (.core c) (s.freshTid.endpoint next.toNat) with
    cls := 0, thr := some (thrOf (2 * c.val + b2n st.thr)), tid := s.freshTid.nextTid, line := next.toNat / 64, world := st.world, size := 64
    mask := byteMask 0 64, acc := .galRead, pf := true }

end Sys2Proof.Machine

open Sys2Proof Sys2Proof.Machine

/-- Settles O34. -/
theorem storesDrain : Obligations.StoresDrain := by
  unfold Obligations.StoresDrain
  intro s t n e l
  dsimp only
  refine ⟨?_, ?_, ?_⟩
  · rintro ⟨hget, hpres, ht0, hover, hmay, hq⟩ htype hon hl hw hworld hmate hmir
    refine ⟨_, (storeBufferDrain_wb hget hpres ht0 hover hmay htype).trans (congrArg _ (State.drainWb_writable hq hon hl hw hworld hmate hmir)),
      ?_, fun k hk => State.updThr_thr_other _ _ _ _ hk, rfl, rfl, ?_⟩
    · rw [State.updThr_thr]
      rfl
    · rw [State.updThr_core, State.updCore_core]
      exact ⟨⟨_, Core.l2Line_setL2 _ _ _, rfl, rfl, rfl⟩, fun a ha => Core.l2Line_setL2_other _ _ ha⟩
  · rintro ⟨hget, hpres, ht0, hover, hmay, hq⟩ htype
    have hx := s.drainedNc_thr t n e
    refine ⟨_, State.injected (s.drainedNc t n e) ((s.drainedNc t n e).drainFlit t e .nc), (storeBufferDrain_nc hget hpres ht0 hover hmay htype).trans (congrArg _ (State.drainTo_nc _ _ _ _ hq)),
      ?_, (State.send_mem _ _).trans (s.drainedNc_mem t n e), (State.send_net _ _).trans (by rw [State.drainedNc_net]), rfl, rfl, rfl, rfl, rfl, ?_, fun k hk => ?_⟩
    · rw [State.send_thr, hx]
      rfl
    · rw [State.send_thr, hx]
      exact ⟨_, List.mem_append_right _ (List.mem_singleton_self _), (s.drainedNc_nextTid t n e).symm, rfl⟩
    · exact s.drainedNc_thr_other _ _ _ hk
  · intro st b hst hgw hpres ht0 hcount hctl hon hnext hpage hsame hgal hhell hlock
    rw [coreId_val] at hpres
    have hbody : exec (.prefetchIssue (coreId (t.val / 2)) n) s = execPrefetchIssue (coreId (t.val / 2)) n s := rfl
    rw [hbody]
    have hlock' : ¬ ((s.core (t.val / 2)).galley.filter (fun e => e.lock)).length ≥ 48 := Nat.not_le.mpr hlock
    have hgo : execPrefetchIssue (coreId (t.val / 2)) n s = .next ((s.prefetchCounts (2 * (t.val / 2) + b2n st.thr)).send
        (s.prefetchFlit (coreId (t.val / 2)) st)) := by
      simp [execPrefetchIssue, State.prefetchCounts, State.prefetchFlit, coreId_val, hst, hgw, hpres, ht0, hcount, hctl, hon, hnext, hpage, hsame, hgal, hhell, hlock']
    refine ⟨_, State.injected (s.prefetchCounts (2 * (t.val / 2) + b2n st.thr)) (s.prefetchFlit (coreId (t.val / 2)) st), hgo, (State.send_net _ _).trans ?_, rfl, rfl, rfl, (State.send_mem _ _).trans (State.prefetchCounts_mem _ _)⟩
    rw [State.prefetchCounts_net]

end

section
/-! PROOF. Answers reach what waits for them (01 R30; 06 R161; 07 R195, R204). -/

namespace Sys2Proof.Machine

/-! An outstanding operation is answered, and errors become pending (07 R190, R204). -/

/-- The last answer of an operation that alone has its transaction ends it. -/
theorem Thread.hasOut_outDone {x : Thread} {o : OutOp} (hdue : o.due = 1) (hone : ∀ q ∈ x.outst, q.tid = o.tid → q = o) : (x.outDone o.tid).hasOut o.tid = false := by
  simp only [Thread.hasOut, Thread.outDone, List.any_eq_false, List.mem_filter, List.mem_map, beq_iff_eq]
  rintro p ⟨⟨q, hq, rfl⟩, hp⟩ htid
  split at htid
  · next h =>
    rw [hone q hq h] at hp
    simp [hdue] at hp
  · next h => exact h htid

/-- An error becomes pending beside those that are (07 R204). -/
theorem Thread.mem_pendError {x : Thread} (e : PendErr) (h : x.pendErrs.length < 4) (p : PendErr) : p ∈ (x.pendError e).pendErrs ↔ p = e ∨ p ∈ x.pendErrs := by
  simp only [Thread.pendError, h, if_true, List.mem_append, List.mem_filter, List.mem_singleton, decide_eq_true_eq]
  constructor
  · rintro ((⟨hp, -⟩ | rfl) | ⟨hp, -⟩)
    · exact .inr hp
    · exact .inl rfl
    · exact .inr hp
  · rintro (rfl | hp)
    · exact .inl (.inr rfl)
    · by_cases hle : p.stamp.toNat ≤ e.stamp.toNat
      · exact .inl (.inl ⟨hp, hle⟩)
      · exact .inr ⟨hp, by omega⟩

theorem Thread.pendError_outst (x : Thread) (e : PendErr) : (x.pendError e).outst = x.outst := by
  unfold Thread.pendError
  split <;> rfl

theorem Thread.pendError_memOp (x : Thread) (e : PendErr) : (x.pendError e).memOp = x.memOp := by
  unfold Thread.pendError
  split <;> rfl

/-! Walks (06 R161, R164). -/

theorem Thread.walk_of_near {x y : Thread} (h : x.near y) : y.walk = x.walk := by
  obtain ⟨_, _, _, _, rfl⟩ := h
  rfl

/-- The state u keeps what the walk of thread t has read, and memory. -/
def State.keepsWalk (s u : State) (t : Nat) : Prop :=
  u.mem = s.mem ∧ ∀ w, (s.thr t).walk = some w → ∃ q, (u.thr t).walk = some q ∧ q.answers = w.answers

theorem State.keepsWalk_of_coreLocal {s u : State} {t : Nat} (h : State.CoreLocal t s u) : s.keepsWalk u t :=
  ⟨h.mem, fun w hw => ⟨w, (Thread.walk_of_near h.thr).trans hw, rfl⟩⟩

theorem State.keepsWalk_trans {s u v : State} {t : Nat} (h : s.keepsWalk u t) (k : u.keepsWalk v t) : s.keepsWalk v t := by
  refine ⟨k.1.trans h.1, fun w hw => ?_⟩
  obtain ⟨q, hq, ha⟩ := h.2 w hw
  obtain ⟨q', hq', ha'⟩ := k.2 q hq
  exact ⟨q', hq', ha'.trans ha⟩

theorem State.keepsWalk_ite {p : Prop} [Decidable p] {s u v : State} {t : Nat} (h : s.keepsWalk u t) (k : s.keepsWalk v t) :
    s.keepsWalk (if p then u else v) t := by
  split
  · exact h
  · exact k

section
variable {s : State} {t : Nat} {w : Walk} (hw : (s.thr t).walk = some w)
include hw

theorem State.walkOf_same : s.walkOf t w.va w.acc = (s, w) := by
  simp [State.walkOf, hw]

/-- A walk in progress that is put back with the same answers. -/
theorem State.keepsWalk_put (q : Walk) (hq : q.answers = w.answers) : s.keepsWalk (s.updThr t (fun x => { x with walk := some q })) t := by
  refine ⟨State.updThr_mem _ _ _, fun w' hw' => ⟨q, by rw [State.updThr_thr], ?_⟩⟩
  rw [hw] at hw'
  cases hw'
  exact hq

omit hw in
theorem State.sendAtomH_coreLocal (s : State) (t pa : Nat) (acc : AccClass) (world : Tag) (op : AmoOp) (size : Nat) (a b : Word) :
    State.CoreLocal t s (s.sendAtomH t pa acc world op size a b).1 := by
  unfold State.sendAtomH
  exact (s.freshTid_coreLocal t).trans (State.send_coreLocal _ t _)

/-- A walk whose request leaves as an operand block keeps its answers. -/
theorem State.keepsWalk_sendAtomH (pa : Nat) (acc : AccClass) (world : Tag) (op : AmoOp) (size : Nat) (a b : Word) (q : State → Walk)
    (hq : ∀ u, (q u).answers = w.answers) :
    let u := (s.sendAtomH t pa acc world op size a b).1
    s.keepsWalk (u.updThr t (fun x => { x with walk := some (q u) })) t := by
  intro u
  have hu : State.CoreLocal t s u := s.sendAtomH_coreLocal _ _ _ _ _ _ _ _
  exact State.keepsWalk_trans (State.keepsWalk_of_coreLocal hu) (State.keepsWalk_put ((Thread.walk_of_near hu.thr).trans hw) _ (hq u))

theorem State.walkIssue_keepsWalk (pa : Nat) : s.keepsWalk (s.walkIssue t w.va w.acc pa) t := by
  unfold State.walkIssue
  rw [State.walkOf_same hw]
  dsimp only
  generalize hu : s.updThr t (fun x => { x with walk := some w }) = u
  have hsu : s.keepsWalk u t := hu ▸ State.keepsWalk_put hw w rfl
  have huw : (u.thr t).walk = some w := by rw [← hu, State.updThr_thr]
  split
  · exact hsu
  · split
    · refine State.keepsWalk_ite hsu ?_
      exact State.keepsWalk_trans hsu (State.keepsWalk_sendAtomH huw pa .walk _ .read 64 0 0
        (fun v => { w with tid := u.freshTid.nextTid, pa := pa, stamp := v.stamp (dieOfThr t) }) fun _ => rfl)
    · exact State.keepsWalk_trans hsu (State.keepsWalk_of_coreLocal (u.l2Request_coreLocal t _ _ _ _ _))

theorem State.walkUpdate_keepsWalk (v : WalkUpd) : s.keepsWalk (s.walkUpdate t w.va w.acc v) t := by
  unfold State.walkUpdate
  rw [State.walkOf_same hw]
  dsimp only
  split
  · exact State.keepsWalk_of_coreLocal (.refl t s)
  · exact State.keepsWalk_sendAtomH hw v.pa .walk _ .cas 8 v.old v.new
      (fun u => { w with upd := some v, tid := s.freshTid.nextTid, pa := v.pa, stamp := u.stamp (dieOfThr t) }) fun _ => rfl

/-- A walk takes the entry that was read for it, and keeps it as it goes on (06 R161). -/
theorem State.walkTake_walk (hop : (s.thr t).memOp = none) (pa : Nat) (nested : Bool) (v : Word) :
    (s.walkTake t pa nested v).mem = s.mem ∧ ∃ q, ((s.walkTake t pa nested v).thr t).walk = some q ∧ q.answers = (pa, v) :: w.answers := by
  have hkeep := s.walkKeep_coreLocal t pa nested v
  unfold State.walkTake
  dsimp only
  generalize hu : (s.walkKeep t pa nested v).updThr t (fun x => { x with walk := x.walk.map (fun w => { w with answers := (pa, v) :: w.answers }) }) = u
  have hwalk : (u.thr t).walk = some { w with answers := (pa, v) :: w.answers } := by
    rw [← hu, State.updThr_thr, Thread.walk_of_near hkeep.thr, hw]
    rfl
  have huop : (u.thr t).memOp = none := by
    obtain ⟨_, _, _, _, hx⟩ := hkeep.thr
    rw [← hu, State.updThr_thr, hx]
    exact hop
  have humem : u.mem = s.mem := by rw [← hu, State.updThr_mem, hkeep.mem]
  have hgo : ∀ r : State, u.keepsWalk r t → r.mem = s.mem ∧ ∃ q, (r.thr t).walk = some q ∧ q.answers = (pa, v) :: w.answers :=
    fun r hr => ⟨hr.1.trans humem, hr.2 _ hwalk⟩
  rw [huop, hwalk]
  dsimp only
  split
  · exact hgo _ (State.walkIssue_keepsWalk hwalk _)
  · exact hgo _ (State.walkUpdate_keepsWalk hwalk _)
  · exact hgo _ (State.keepsWalk_of_coreLocal (.refl t u))

end

end Sys2Proof.Machine

open Sys2Proof Sys2Proof.Machine

/-- Settles O35. -/
theorem answersReachTheirThread : Obligations.AnswersReachTheirThread := by
  unfold Obligations.AnswersReachTheirThread
  intro s k f c t code
  dsimp only
  refine ⟨?_, ?_, ?_, ?_⟩
  · rintro ⟨hk, hflow, hdst, hthr⟩ herr hacc hop hnot hout hprom hq
    change execDeviceResponse k s = _
    have hgo : execDeviceResponse k s = .next (((s.taken k).updThr t (fun x => x.outDone f.tid)).wakeCore c.val) := by
      simp [execDeviceResponse, hk, hflow, hdst, hthr, herr, hacc, hop, hnot, hout, hprom]
    rw [hgo, State.wakeCore_of_quiet (State.quiet_of_memOp hq fun j => ?_)]
    rw [State.updThr_memOp _ _ (f := fun x => x.outDone f.tid) (fun _ => rfl), State.taken_thr]
  · rintro ⟨hk, hflow, hdst, hthr⟩ herr hacc hwalk hrun hint m pa hm honce hwant htid hne
    have hwaits : m.waits f.tid = true := by simp [MemOp.waits, hwant, htid, hne]
    have hop : (s.thr t).opIs f.tid = true := by simp [Thread.opIs, Thread.opFor, hm, hwaits]
    have hnowalk : (s.thr t).walkIs f.tid = false := by simp [Thread.walkIs, hwalk]
    generalize hbad : Bad.error code (f.opA.setWidth 32) (f.refusal == some true) = bad
    have hgo : exec (.errorResponse k) s = .next (((s.taken k).updThr t (fun x => x.opDo f.tid (fun m => m.refused bad))).wake t) := by
      change execErrorResponse k s = _
      simp [execErrorResponse, State.errsOf, hk, hflow, hdst, hthr, herr, hacc, hop, hnowalk, hbad]
    rw [hgo]
    generalize hv : (s.taken k).updThr t (fun x => x.opDo f.tid (fun m => m.refused bad)) = v
    have hvt : v.thr t = (s.thr t).opDo f.tid (fun m => m.refused bad) := by rw [← hv, State.updThr_thr, State.taken_thr]
    have hvm : (v.thr t).memOp = some (m.refused bad) := by simp [hvt, Thread.opDo, hm, hwaits]
    have hvrun : (v.thr t).run = .running := by rw [hvt]; exact hrun
    have hvint : (v.thr t).nextInt false = none := by rw [hvt]; exact hint
    have honce' : (m.refused bad).once = true := honce
    have herrs : (m.refused bad).errs = (pa, bad) :: m.errs := by simp [MemOp.refused, hwant]
    simp only [State.wake, hvm, hvrun, beq_self_eq_true, if_true, State.goOn, honce', State.onceGoes, herrs, State.raises, hvint]
  · rintro ⟨hk, hflow, hdst, hthr⟩ herr hacc hwalk hop hkept hfetch hroom o ho htid hdue hone hq
    have hnot : s.errsOf c f = false := by
      simp [State.errsOf, hacc, hthr, Thread.opIs, Thread.opFor, hop, hkept, Thread.walkIs, hwalk, Thread.fetchIs, hfetch]
    have hout : (s.thr t).hasOut f.tid = true := by
      simp only [Thread.hasOut, List.any_eq_true, beq_iff_eq]
      exact ⟨o, ho, htid⟩
    have hfind : (s.thr t).outst.find? (fun q => q.tid == f.tid) = some o := by
      cases hf : (s.thr t).outst.find? (fun q => q.tid == f.tid) with
      | none => exact absurd (List.find?_eq_none.mp hf o ho) (by simp [htid])
      | some q => rw [hone q (List.mem_of_find?_eq_some hf) (by simpa using List.find?_some hf)]
    generalize hstamp : (s.taken k).recordStamp (dieOfCore c) (f.opA.setWidth 32) = stamp
    let e : PendErr := { pa := BitVec.ofNat 57 o.pa, code := code, stamp := stamp }
    have hgo : exec (.pendingErrorArrive k) s = .next (((s.taken k).updThr t (fun x => (x.outDone f.tid).pendError e)).wakeCore c) := by
      change execPendingErrorArrive k s = _
      simp [execPendingErrorArrive, hk, hflow, hdst, hnot, herr, State.pendAt, hacc, hthr, hout, hfind, hstamp, e]
    have hquiet : (s.taken k).quiet c := by simpa [State.quiet] using hq
    rw [State.wakeCore_of_quiet (State.quiet_of_memOp hquiet fun j =>
      State.updThr_memOp _ _ (f := fun x => (x.outDone f.tid).pendError e) (fun x => Thread.pendError_memOp (x.outDone f.tid) e) j)] at hgo
    refine ⟨_, hgo, ?_⟩
    rw [State.updThr_thr, State.taken_thr]
    have hmem := fun p => Thread.mem_pendError (x := (s.thr t).outDone f.tid) e hroom p
    refine ⟨⟨e, (hmem e).mpr (.inl rfl), rfl, rfl⟩, fun p hp => (hmem p).mpr (.inr hp), ?_⟩
    rw [Thread.hasOut, Thread.pendError_outst, ← htid]
    exact Thread.hasOut_outDone hdue fun q hqm hqt => hone q hqm (hqt.trans htid)
  · intro w pa nested st2 lvl l hw hneeds hl hread hworld hpoison hop
    have hgo : exec (.walkReadResponse t) s = .next (s.walkTake t pa nested (lineVal l.data (pa % 64) 8)) := by
      change execWalkReadResponse t s = _
      simp [execWalkReadResponse, hw, hneeds, hl, hread, hworld, hpoison]
    obtain ⟨hmem, q, hq, ha⟩ := State.walkTake_walk hw hop pa nested (lineVal l.data (pa % 64) 8)
    exact ⟨_, q, hgo, hq, by rw [ha]; exact List.mem_cons_self .., hmem⟩

end

section
/-! SUPPORT. What the home slices of a package read, and what a request that they accept at once leaves (09 R229 to R231, R247 to R249). -/

namespace Sys2Proof.Machine

/-! Tables of which a row is put. -/

theorem Tbl.length_filterMap_put {β γ : Type} (g : Nat × β → Option γ) (t : Tbl β) (a : Nat) (x : β) :
    ((Tbl.put t a x).filterMap g).length ≤ (t.filterMap g).length + 1 := by
  have hone : ∀ (p : Nat × β) (l : List (Nat × β)), ((p :: l).filterMap g).length ≤ (l.filterMap g).length + 1 ∧
      (l.filterMap g).length ≤ ((p :: l).filterMap g).length := fun p l => by
    rw [List.filterMap_cons]
    split <;> simp
  induction t with
  | nil => exact (hone _ _).1
  | cons p r ih =>
    obtain ⟨k, v⟩ := p
    by_cases hk : k = a
    · rw [Tbl.put, if_pos hk]
      exact (hone _ _).1.trans (Nat.add_le_add_right (hone _ _).2 1)
    · by_cases h2 : a < k
      · rw [Tbl.put, if_neg hk, if_pos h2]
        exact (hone _ _).1
      · rw [Tbl.put, if_neg hk, if_neg h2, List.filterMap_cons, List.filterMap_cons]
        split
        · exact ih
        · simpa using ih

/-- A write adds one row at most. -/
theorem Tbl.length_filterMap_set {β γ : Type} [DecidableEq β] (g : Nat × β → Option γ) (d : β) (t : Tbl β) (a : Nat) (x : β) :
    ((Tbl.set d t a x).filterMap g).length ≤ (t.filterMap g).length + 1 := by
  unfold Tbl.set
  split
  · exact (((List.filter_sublist ..).filterMap g).length_le).trans (Nat.le_succ _)
  · exact Tbl.length_filterMap_put g t a x

/-! What an address names, by the registers it is decoded with (01 R28; 13 R327). -/

section
variable {s u : State}

theorem State.pairMode_congr (hsyl : u.sylPair = s.sylPair) : u.pairMode = s.pairMode := by rw [State.pairMode, hsyl, State.pairMode]
theorem State.pairLost_congr (hsyl : u.sylPair = s.sylPair) : u.pairLost = s.pairLost := by rw [State.pairLost, hsyl, State.pairLost]
theorem State.paired_congr (hsyl : u.sylPair = s.sylPair) : u.paired = s.paired := by rw [State.paired, State.pairMode_congr hsyl, State.paired]
theorem State.pkgBit_congr (hsyl : u.sylPair = s.sylPair) (hpkg : u.pairPkg = s.pairPkg) : u.pkgBit = s.pkgBit := by
  unfold State.pkgBit
  rw [State.paired_congr hsyl, hpkg]
theorem State.ownShare_congr (hsyl : u.sylPair = s.sylPair) (hpkg : u.pairPkg = s.pairPkg) : u.ownShare = s.ownShare := by
  funext hi lo off
  unfold State.ownShare
  rw [State.paired_congr hsyl, State.pkgBit_congr hsyl hpkg, hsyl]
theorem State.region_congr (hsyl : u.sylPair = s.sylPair) (hpkg : u.pairPkg = s.pairPkg) (pa : Nat) : u.region pa = s.region pa := by
  unfold State.region
  rw [State.pkgBit_congr hsyl hpkg, State.ownShare_congr hsyl hpkg, State.paired_congr hsyl, State.pairLost_congr hsyl, State.pairMode_congr hsyl]
theorem State.trained_congr (hchans : u.chans = s.chans) : u.trained = s.trained := by
  simp only [State.trained, State.chan, hchans]
theorem State.place_congr (hchans : u.chans = s.chans) (off : Nat) : u.place off = s.place off := by
  unfold State.place
  rw [State.trained_congr hchans]
theorem State.dramBacked_congr (hsyl : u.sylPair = s.sylPair) (hchans : u.chans = s.chans) (off : Nat) : u.dramBacked off = s.dramBacked off := by
  unfold State.dramBacked State.chanCap State.chan
  rw [State.trained_congr hchans, hchans, State.pairMode_congr hsyl]
theorem State.cxlWindow_congr (hsyl : u.sylPair = s.sylPair) (hpkg : u.pairPkg = s.pairPkg) (off : Nat) : u.cxlWindow off = s.cxlWindow off := by
  unfold State.cxlWindow
  rw [State.pkgBit_congr hsyl hpkg, State.paired_congr hsyl, hsyl]
theorem State.mmioClaim_congr (hports : u.rootPorts = s.rootPorts) (pa : Nat) : u.mmioClaim pa = s.mmioClaim pa := by
  simp only [State.mmioClaim, hports]

theorem State.endpoint_congr (hsyl : u.sylPair = s.sylPair) (hpkg : u.pairPkg = s.pairPkg) (hchans : u.chans = s.chans) (hports : u.rootPorts = s.rootPorts)
    (pa : Nat) : u.endpoint pa = s.endpoint pa := by
  unfold State.endpoint
  rw [State.region_congr hsyl hpkg, State.mmioClaim_congr hports]
  cases s.region pa
  case dram off =>
    dsimp only
    rw [State.dramBacked_congr hsyl hchans, State.place_congr hchans]
  case cxl off =>
    dsimp only
    rw [State.cxlWindow_congr hsyl hpkg]
  all_goals rfl

theorem State.ctlPut_sylPair (s : State) {a : Nat} (w : Word) (h : a ≠ pairAddr) : (s.ctlPut a w).sylPair = s.sylPair := by
  simp only [State.sylPair, State.ctlPut, Tbl.get_set_other _ _ _ _ _ h.symm]

end

/-- The queue's register of a slice is not the pair's. -/
theorem qstatAddr_ne_pairAddr {n : Nat} (_ : n < 576) : qstatAddr n ≠ pairAddr := by
  simp only [qstatAddr, pairAddr, caddr]
  omega

section
variable (s : State) (k n line : Nat)

theorem State.taken_homeReady (h : s.homeReady n line) : (s.taken k).homeReady n line := by
  rw [State.taken_frame]
  exact h
theorem State.taken_txns : (s.taken k).txns = s.txns := by rw [State.taken_frame]
theorem State.taken_slices : (s.taken k).slices = s.slices := by rw [State.taken_frame]
theorem State.taken_dirEnt : (s.taken k).dirEnt line = s.dirEnt line := by rw [State.taken_frame]; rfl
theorem State.taken_dirLines : (s.taken k).dirLines n line = s.dirLines n line := by rw [State.taken_frame]; rfl
theorem State.taken_atom : (s.taken k).atom line = s.atom line := by rw [State.taken_frame]; rfl
theorem State.taken_endpoint (pa : Nat) : (s.taken k).endpoint pa = s.endpoint pa := by rw [State.taken_frame]; rfl
theorem State.taken_mirrored : (s.taken k).mirrored = s.mirrored := by rw [State.taken_frame]; rfl
theorem State.taken_copyWorld : (s.taken k).copyWorld line = s.copyWorld line := by rw [State.taken_frame]; rfl
theorem State.taken_held (scope : Nat) : (s.taken k).held scope n = s.held scope n := by rw [State.taken_frame]; rfl
theorem State.taken_memReady (tag : Tag) (rd wr : Bool) (h : s.memReady line tag rd wr) : (s.taken k).memReady line tag rd wr := by
  rw [State.taken_frame]
  exact h
theorem State.taken_chan : (s.taken k).chan n = s.chan n := by rw [State.taken_frame]; rfl
theorem State.taken_lineBusy : (s.taken k).lineBusy n line = s.lineBusy n line := by rw [State.taken_frame]; rfl
theorem State.taken_bankBusy : (s.taken k).bankBusy n line = s.bankBusy n line := by rw [State.taken_frame]; rfl

end

/-! A slice that accepts a request at once. -/

/-- The state u is s but for the registers of slice n and its queue statistics; what addresses and lines name is as before. -/
structure State.Filed (n : Nat) (s u : State) : Prop where
  frame : u = { s with ctl := u.ctl, slices := u.slices }
  sylPair : u.sylPair = s.sylPair
  homeOf : ∀ line, u.homeOf (n / 36) line = s.homeOf (n / 36) line

theorem bucketOf_lt (line : Nat) : bucketOf line < 2 ^ 13 :=
  Nat.xor_lt_two_pow (Nat.xor_lt_two_pow (Nat.xor_lt_two_pow (by omega) (by omega)) (by omega)) (by omega)

/-- The queue's register of a slice is no entry of its die's home map. -/
theorem qstatAddr_ne_homeMap {n b : Nat} (_ : n < 576) (_ : b < 2 ^ 13) : caddr (n / 36) 0xC8 b ≠ qstatAddr n := by
  simp only [qstatAddr, caddr]
  omega

/-- A register that is written leaves what another reads, the pair's registers apart. -/
theorem State.ctlGet_ctlPut_other (s : State) {a b : Nat} (w : Word) (hab : b ≠ a) (hpair : a ≠ pairAddr) : (s.ctlPut a w).ctlGet b = s.ctlGet b := by
  have hget : Tbl.get none (s.ctlPut a w).ctl b = Tbl.get none s.ctl b := Tbl.get_set_other none s.ctl a b (some w) hab
  rw [State.ctlGet, hget, State.paired_congr (s.ctlPut_sylPair w hpair)]
  rfl

theorem State.queued_nil {s : State} (h : s.txns = []) (n : Nat) : s.queued n = [] := by rw [State.queued, h]; rfl

theorem State.ctlCount_filed (s : State) {n : Nat} (hn : n < 576) (hi lo : Nat) : State.Filed n s (s.ctlCount (qstatAddr n) hi lo) where
  frame := rfl
  sylPair := State.ctlPut_sylPair _ _ (qstatAddr_ne_pairAddr hn)
  homeOf line := by
    have hmap : (s.ctlCount (qstatAddr n) hi lo).homeMap (n / 36) (bucketOf line) = s.homeMap (n / 36) (bucketOf line) := by
      rw [State.homeMap, if_pos (by omega), State.homeMap, if_pos (by omega)]
      exact s.ctlGet_ctlPut_other _ (qstatAddr_ne_homeMap hn (bucketOf_lt line)) (qstatAddr_ne_pairAddr hn)
    have hpkg : (s.ctlCount (qstatAddr n) hi lo).pkgBit = s.pkgBit := State.pkgBit_congr (State.ctlPut_sylPair _ _ (qstatAddr_ne_pairAddr hn)) rfl
    unfold State.homeOf
    rw [hmap, hpkg]

theorem State.updSlice_filed (s : State) (n m : Nat) (g : Slice → Slice) : State.Filed n s (s.updSlice m g) := ⟨rfl, rfl, fun _ => rfl⟩

theorem State.Filed.trans {s u v : State} {n : Nat} (h : State.Filed n s u) (k : State.Filed n u v) : State.Filed n s v where
  frame := by
    have hk := k.frame
    rw [h.frame] at hk
    exact hk
  sylPair := k.sylPair.trans h.sylPair
  homeOf line := (k.homeOf line).trans (h.homeOf line)

/-- A slice that is ready for the line of a request accepts it, into a reserved entry that it has offered or into another. -/
theorem State.homeRequest_ready {s : State} {n : Nat} {f : Flit} (hn : n < 576) (h : s.homeReady n f.line) :
    ∃ u b, s.homeRequest n f = u.homeAccept n { f with promoted := b } ∧ State.Filed n s u := by
  obtain ⟨hhome, hhas, hback, hmoves, hheld, htxns⟩ := h
  unfold State.homeRequest
  extract_lets d w q inRes me offered reserve
  have hq : q = [] := State.queued_nil htxns n
  have hlen : q.length - inRes < 92 := by simp [hq]
  have hw : bit w 22 = false := hmoves
  have hd : s.homeOf d f.line = sliceAgent n := hhome
  simp only [hhas, hback, hw, hheld, hd, hlen, Bool.not_true, Bool.and_false, Bool.or_self, Bool.false_eq_true, if_false, if_true, ne_eq, not_true_eq_false]
  clear_value offered
  cases offered
  · exact ⟨s, false, rfl, rfl, rfl, fun _ => rfl⟩
  · exact ⟨_, true, rfl, (s.updSlice_filed n n _).trans (State.ctlCount_filed _ hn 47 32)⟩

section
variable {s u : State} {n : Nat} (h : State.Filed n s u)
include h

theorem State.Filed.txns : u.txns = s.txns := by rw [h.frame]
theorem State.Filed.mem : u.mem = s.mem := by rw [h.frame]
theorem State.Filed.net : u.net = s.net := by rw [h.frame]
theorem State.Filed.threads : u.threads = s.threads := by rw [h.frame]
theorem State.Filed.atom (line : Nat) : u.atom line = s.atom line := by rw [h.frame]; rfl
theorem State.Filed.dirEnt (line : Nat) : u.dirEnt line = s.dirEnt line := by rw [h.frame]; rfl
theorem State.Filed.copyWorld (line : Nat) : u.copyWorld line = s.copyWorld line := by rw [h.frame]; rfl
theorem State.Filed.endpoint (pa : Nat) : u.endpoint pa = s.endpoint pa :=
  State.endpoint_congr h.sylPair (by rw [h.frame]) (by rw [h.frame]) (by rw [h.frame]) pa
theorem State.Filed.mirrored : u.mirrored = s.mirrored := by
  rw [State.mirrored, State.pairMode_congr h.sylPair, State.pairLost_congr h.sylPair, State.mirrored]

theorem State.Filed.dirLines (line : Nat) : u.dirLines n line = s.dirLines n line := by
  unfold State.dirLines
  simp only [h.homeOf]
  rw [h.frame]

end

/-- A request for a line without a transaction is served where it is accepted. -/
theorem State.homeAccept_served {s : State} {n : Nat} {f : Flit} (h : s.txns = []) : s.homeAccept n f = (s.homeServe n f).qsync n := by
  have htxn : s.txn f.line = none := by rw [State.txn, h]; rfl
  simp only [State.homeAccept, htxn]

section
variable (s : State) (n line : Nat)

@[simp] theorem State.qsync_net : (s.qsync n).net = s.net := rfl
@[simp] theorem State.qsync_mem : (s.qsync n).mem = s.mem := rfl
@[simp] theorem State.qsync_threads : (s.qsync n).threads = s.threads := rfl
@[simp] theorem State.qsync_txn : (s.qsync n).txn line = s.txn line := rfl
@[simp] theorem State.qsync_dirEnt : (s.qsync n).dirEnt line = s.dirEnt line := rfl
@[simp] theorem State.qsync_atom : (s.qsync n).atom line = s.atom line := rfl

@[simp] theorem State.setTxn_net (x : Option Txn) : (s.setTxn line x).net = s.net := rfl
@[simp] theorem State.setTxn_mem (x : Option Txn) : (s.setTxn line x).mem = s.mem := rfl
@[simp] theorem State.setTxn_threads (x : Option Txn) : (s.setTxn line x).threads = s.threads := rfl
@[simp] theorem State.setTxn_dirEnt (x : Option Txn) (a : Nat) : (s.setTxn line x).dirEnt a = s.dirEnt a := rfl
@[simp] theorem State.setTxn_atom (x : Option Txn) (a : Nat) : (s.setTxn line x).atom a = s.atom a := rfl
@[simp] theorem State.setDir_net (e : Option DirEntry) : (s.setDir line e).net = s.net := rfl
@[simp] theorem State.setDir_mem (e : Option DirEntry) : (s.setDir line e).mem = s.mem := rfl
@[simp] theorem State.setDir_threads (e : Option DirEntry) : (s.setDir line e).threads = s.threads := rfl
@[simp] theorem State.setDir_txn (e : Option DirEntry) (a : Nat) : (s.setDir line e).txn a = s.txn a := rfl
@[simp] theorem State.send_txn (f : Flit) (a : Nat) : (s.send f).txn a = s.txn a := rfl
@[simp] theorem State.send_dirEnt (f : Flit) (a : Nat) : (s.send f).dirEnt a = s.dirEnt a := rfl
@[simp] theorem State.send_atom (f : Flit) (a : Nat) : (s.send f).atom a = s.atom a := rfl
@[simp] theorem State.send_threads (f : Flit) : (s.send f).threads = s.threads := rfl

@[simp] theorem State.setTxn_txn (x : Option Txn) : (s.setTxn line x).txn line = x := Tbl.get_set_same _ _ _ _
@[simp] theorem State.setDir_dirEnt (e : Option DirEntry) : (s.setDir line e).dirEnt line = e := Tbl.get_set_same _ _ _ _
@[simp] theorem State.setAtom_atom (a : Option AtomLine) : (s.setAtom line a).atom line = a := Tbl.get_set_same _ _ _ _

end

/-- A message for a home slice goes to the slice of its number. -/
theorem sliceNum_div_mod (n : Nat) : sliceNum (n / 36) (n % 36) = n := Nat.div_add_mod n 36

/-- A flit that lands has the opcode of its row. -/
theorem State.lands_op {s : State} {k : Nat} {op : Op} {f : Flit} (h : s.lands k op f) : f.op = op := by
  have h := h.1
  unfold State.arrival at h
  split at h
  · obtain ⟨hc, h⟩ | ⟨-, h⟩ := ite_eq_iff.mp h
    · obtain rfl := Option.some.inj h
      exact of_decide_eq_true (Bool.and_eq_true_iff.mp hc).1
    · exact absurd h (by simp)
  · exact absurd h (by simp)

end Sys2Proof.Machine
end

section
/-! PROOF. Requests at their filter, their home and memory (09 R238, R239, R243). -/

namespace Sys2Proof.Machine

theorem State.relay_die (s : State) (f : Flit) (d : Nat) : (s.relay f).die d = s.die d := rfl

theorem State.taken_homeOf (s : State) (k d line : Nat) : (s.taken k).homeOf d line = s.homeOf d line := by rw [State.taken_frame]; rfl
theorem State.taken_fent (s : State) (k d line : Nat) : (s.taken k).fent d line = s.fent d line := by rw [State.taken_frame]; rfl
theorem State.taken_ftxn (s : State) (k d line : Nat) : (s.taken k).ftxn d line = s.ftxn d line := by rw [State.taken_frame]; rfl
theorem State.taken_l3Buf (s : State) (k d line : Nat) : (s.taken k).l3Buf d line = s.l3Buf d line := by rw [State.taken_frame]; rfl
theorem State.taken_filterLines (s : State) (k d set : Nat) : (s.taken k).filterLines d set = s.filterLines d set := by rw [State.taken_frame]; rfl

/-! At a filter. -/

theorem State.filterRoom_of_room {s : State} {d line : Nat} (h : (s.filterLines d (filterSet line)).length < 16) : s.filterRoom d line = s :=
  if_pos (lt_of_le_of_lt (List.length_filter_le _ _) h)

/-- The die that has taken a fresh entry for a line and forwarded its request. -/
def State.forwarded (s : State) (d : Nat) (f : Flit) : State :=
  (s.setFent d f.line (some (FilterEntry.fresh (s.stamp d).toNat))).filterForward d f

section
variable {s : State} {d : Nat} {f : Flit}

theorem State.forwarded_filter : ((s.forwarded d f).die d).filter = Tbl.set none (s.die d).filter f.line (some (FilterEntry.fresh (s.stamp d).toNat)) := by
  simp [State.forwarded, State.filterForward, State.setFtxn, State.setFent, State.relay_die]
theorem State.forwarded_ftxn : ((s.forwarded d f).ftxn d f.line).isSome := by
  simp [State.forwarded, State.filterForward, State.setFtxn, State.ftxn, State.relay_die]
theorem State.forwarded_fent : ((s.forwarded d f).fent d f.line).isSome := by
  rw [State.fent, State.forwarded_filter, Tbl.get_set_same]
  rfl

theorem State.forwarded_net (s : State) (d : Nat) (f : Flit) : ∃ g, (s.forwarded d f).net = s.net ++ [g] ∧ g.op = f.op ∧ g.src = .filter d ∧
    g.dst = s.homeOf d f.line ∧ g.req = f.req ∧ g.line = f.line := by
  unfold State.forwarded State.filterForward State.relay
  exact ⟨_, rfl, rfl, rfl, rfl, rfl, rfl⟩
theorem State.forwarded_mem (s : State) (d : Nat) (f : Flit) : (s.forwarded d f).mem = s.mem := rfl
theorem State.forwarded_threads (s : State) (d : Nat) (f : Flit) : (s.forwarded d f).threads = s.threads := rfl

/-- A line that its die does not have takes an entry, and its request goes on to the line's home (09 R238). -/
theorem State.filterServe_absent (c : Nat) (hent : s.fent d f.line = none) (htxn : s.ftxn d f.line = none) (hbuf : s.l3Buf d f.line = none)
    (hroom : (s.filterLines d (filterSet f.line)).length < 15) : s.filterServe d c f = some (s.forwarded d f) := by
  have hlines : ((s.forwarded d f).filterLines d (filterSet f.line)).length < 16 := by
    unfold State.filterLines at hroom ⊢
    rw [State.forwarded_filter]
    exact lt_of_le_of_lt (Tbl.length_filterMap_set ..) (by omega)
  have hfull : ¬ (s.filterLines d (filterSet f.line)).length ≥ 16 := by omega
  simp only [State.filterServe, hent, htxn, hbuf, hfull, Option.isSome_none, Bool.or_self, Bool.false_eq_true, if_false]
  exact congrArg some (State.filterRoom_of_room hlines)

/-- The die serves a request that forwards it. -/
theorem filter_forwards {k : Nat} {op : Op} {i : Instr} (hexec : exec i s = s.receive k op (fun f s => s.askTake f)) (hop : op ≠ .wbD ∧ op ≠ .evictC)
    (hl : s.lands k op f) (hd : f.dst = .filter d) (hent : s.fent d f.line = none) (htxn : s.ftxn d f.line = none) (hbuf : s.l3Buf d f.line = none)
    (hroom : (s.filterLines d (filterSet f.line)).length < 15) :
    ∃ u g, exec i s = .next u ∧ u.net = (s.taken k).net ++ [g] ∧ g.op = op ∧ g.src = .filter d ∧ g.dst = s.homeOf d f.line ∧ g.req = f.req ∧ g.line = f.line ∧
      (u.ftxn d f.line).isSome ∧ (u.fent d f.line).isSome ∧ u.mem = s.mem ∧ u.threads = s.threads := by
  have hfop := State.lands_op hl
  have hask : (s.taken k).askTake f = some ((s.taken k).forwarded d f) := by
    unfold State.askTake
    rw [hd]
    dsimp only
    rw [if_neg (by rw [hfop]; tauto)]
    exact State.filterServe_absent _ (by rw [State.taken_fent, hent]) (by rw [State.taken_ftxn, htxn]) (by rw [State.taken_l3Buf, hbuf])
      (by rw [State.taken_filterLines]; exact hroom)
  obtain ⟨g, hg, hgop, hsrc, hdst, hreq, hline⟩ := (s.taken k).forwarded_net d f
  refine ⟨(s.taken k).forwarded d f, g, ?_, hg, hgop.trans hfop, hsrc, hdst.trans (State.taken_homeOf s k d f.line), hreq, hline, State.forwarded_ftxn,
    State.forwarded_fent, (State.forwarded_mem _ d f).trans (s.taken_mem k), (State.forwarded_threads _ d f).trans (s.taken_threads k)⟩
  rw [hexec, State.receive_of_lands hl, hask]
  rfl

end

/-! At home. -/

theorem State.dirRoom_of_room {s : State} {n line : Nat} (h : (s.dirLines n line).length < 16) : s.dirRoom n line = s :=
  if_pos (lt_of_le_of_lt (List.length_filter_le _ _) h)

theorem State.dirLines_setDir (s : State) (n line a : Nat) (e : Option DirEntry) : ((s.setDir a e).dirLines n line).length ≤ (s.dirLines n line).length + 1 := by
  unfold State.dirLines
  exact Tbl.length_filterMap_set ..

/-- The slice that has made a requester the sole holder of an uncached line, its transaction open, and asks memory (09 R243). -/
def State.soleRead (s : State) (n : Nat) (f : Flit) : State :=
  let stamp := s.stamp (n / 36)
  ((s.setDir f.line (some (DirEntry.sole (ownerOf f.req f.far) stamp.toNat))).setTxn f.line (some { Txn.opened f n true stamp with
    flit := { f with ackCnt := 0 }, snoop := f.op, tried := 0, due := 0 })).homeRead n f 0

theorem State.soleRead_net (s : State) (n : Nat) (f : Flit) : ∃ g, (s.soleRead n f).net = s.net ++ [g] ∧ g.dst = s.endpoint (f.line * 64) ∧ g.src = sliceAgent n ∧
    g.req = f.req ∧ g.line = f.line := by
  unfold State.soleRead State.homeRead
  exact ⟨_, rfl, rfl, rfl, rfl, rfl⟩

theorem DirEntry.sole_owner (o used : Nat) : (DirEntry.sole o used).owner = o := rfl

/-- A read or an ownership request. -/
def Op.owns (op : Op) : Prop := op = .rdS ∨ op = .rdU ∨ op = .upg

section
variable {s : State} {n : Nat} {f : Flit}

theorem State.homeServe_uncached (hop : f.op.owns) (hatom : s.atom f.line = none) (hent : s.dirEnt f.line = none)
    (hroom : (s.dirLines n f.line).length < 15) : s.homeServe n f = s.soleRead n f := by
  have hfull : s.dirFull n f.line = false := by simp [State.dirFull]; omega
  have hsole : ∀ e : DirEntry, (s.setDir f.line (some e)).dirRoom n f.line = s.setDir f.line (some e) := fun e =>
    State.dirRoom_of_room (lt_of_le_of_lt (State.dirLines_setDir s n f.line f.line (some e)) (Nat.succ_lt_succ hroom))
  obtain hop | hop | hop := hop <;> simp only [State.homeServe, hop, hfull, hatom, hent, hsole, Bool.false_eq_true, if_false, State.soleRead]

end

/-- A message to a slice reaches it. -/
theorem State.askTake_home {s : State} {n : Nat} {f : Flit} (hd : f.dst = sliceAgent n) : s.askTake f = s.homeTake n f := by
  unfold State.askTake
  rw [hd]
  exact congrArg (fun m => s.homeTake m f) (sliceNum_div_mod n)

/-- A request that comes in its turn is put to the slice (09 R247). -/
theorem State.homeTake_request {s : State} {n : Nat} {f : Flit} (hop : f.op.owns ∨ f.op = .cmoP ∨ f.op = .atomH) (hord : s.inOrder f = true) (hpf : f.op.owns → f.pf = false) :
    s.homeTake n f = some (s.homeRequest n f) := by
  obtain (hop | hop | hop) | hop | hop := hop
  · have hpf := hpf (.inl hop)
    simp [State.homeTake, hop, hord, hpf]
  all_goals simp [State.homeTake, hop, hord]

section
variable {s : State} {k n : Nat} {op : Op} {f : Flit} {i : Instr}

theorem home_reads (hexec : exec i s = s.receive k op (fun f s => s.askTake f)) (hop : op.owns) (hl : s.lands k op f) (hd : f.dst = sliceAgent n) (hn : n < 576)
    (hready : s.homeReady n f.line) (hord : (s.taken k).inOrder f = true) (hatom : s.atom f.line = none) (hent : s.dirEnt f.line = none)
    (hroom : (s.dirLines n f.line).length < 15) (hpf : f.pf = false) :
    ∃ u g e, exec i s = .next u ∧ u.net = (s.taken k).net ++ [g] ∧ g.dst = s.endpoint (f.line * 64) ∧ g.src = sliceAgent n ∧ g.req = f.req ∧ g.line = f.line ∧
      (u.txn f.line).isSome ∧ u.dirEnt f.line = some e ∧ e.owner = ownerOf f.req f.far ∧ u.mem = s.mem ∧ u.threads = s.threads := by
  have hfop : f.op.owns := by rw [State.lands_op hl]; exact hop
  obtain ⟨u, b, hu, hfiled⟩ := State.homeRequest_ready hn (State.taken_homeReady s k n f.line hready)
  have htxns : u.txns = [] := by rw [hfiled.txns, State.taken_txns]; exact hready.2.2.2.2.2
  have hlines : u.dirLines n f.line = s.dirLines n f.line := (hfiled.dirLines f.line).trans (State.taken_dirLines s k n f.line)
  have hserve : u.homeServe n { f with promoted := b } = u.soleRead n { f with promoted := b } :=
    State.homeServe_uncached hfop (by rw [hfiled.atom, State.taken_atom, hatom]) (by rw [hfiled.dirEnt, State.taken_dirEnt, hent]) (by rw [hlines]; exact hroom)
  obtain ⟨g, hg, hdst, hsrc, hreq, hline⟩ := State.soleRead_net u n { f with promoted := b }
  refine ⟨(u.soleRead n { f with promoted := b }).qsync n, g, DirEntry.sole (ownerOf f.req f.far) (u.stamp (n / 36)).toNat, ?_, ?_, ?_, hsrc, hreq, hline, ?_⟩
  · rw [hexec, State.receive_of_lands hl, State.askTake_home hd, State.homeTake_request (.inl hfop) hord fun _ => hpf, hu, State.homeAccept_served htxns, hserve]
    rfl
  · rw [State.qsync_net, hg, hfiled.net]
  · rw [hdst, hfiled.endpoint, State.taken_endpoint]
  · refine ⟨?_, ?_, DirEntry.sole_owner _ _, ?_, ?_⟩
    · simp [State.soleRead, State.homeRead]
    · simp [State.soleRead, State.homeRead]
    · simp [State.soleRead, State.homeRead, hfiled.mem]
    · simp [State.soleRead, State.homeRead, hfiled.threads]

end

/-! Maintenance of an uncached line. -/

/-- The slice that has acknowledged maintenance of a line that nothing holds, no transaction left (09 R243). -/
def State.cmoUncached (s : State) (n : Nat) (f : Flit) : State :=
  ((s.setTxn f.line (some { Txn.opened f n true (s.stamp (n / 36)) with compDue := false })).send (f.answer (sliceAgent n) .ack)).setTxn f.line none

theorem State.cmoUncached_net (s : State) (n : Nat) (f : Flit) : ∃ g, (s.cmoUncached n f).net = s.net ++ [g] ∧ g.op = .ack ∧ g.dst = f.req := by
  unfold State.cmoUncached
  exact ⟨_, rfl, rfl, rfl⟩
theorem State.cmoUncached_mem (s : State) (n : Nat) (f : Flit) : (s.cmoUncached n f).mem = s.mem := by simp [State.cmoUncached]

theorem State.homeServe_cmoUncached {s : State} {n : Nat} {f : Flit} (hop : f.op = .cmoP) (hreq : f.req ≠ sliceAgent n) (hatom : s.atom f.line = none)
    (hent : s.dirEnt f.line = none) : s.homeServe n f = s.cmoUncached n f := by
  have hcmo : (s.setTxn f.line (some { Txn.opened f n true (s.stamp (n / 36)) with compDue := false })).cmoHome n f =
      (s.setTxn f.line (some { Txn.opened f n true (s.stamp (n / 36)) with compDue := false })).send (f.answer (sliceAgent n) .ack) := by
    simp only [State.cmoHome, State.cmoEnd, State.setTxn_atom, State.setTxn_dirEnt, hatom, hent, hreq, if_false, ite_self, State.homeReply, State.setTxn_txn,
      Txn.opened, List.isEmpty_nil, if_true]
  simp only [State.homeServe, hop]
  rw [hcmo]
  simp only [State.homeShut, State.send_txn, State.setTxn_txn]
  rfl

section
variable {s : State} {k n : Nat} {f : Flit}

theorem cmoP_uncached (hl : s.lands k .cmoP f) (hd : f.dst = sliceAgent n) (hn : n < 576) (hready : s.homeReady n f.line) (hord : (s.taken k).inOrder f = true)
    (hreq : f.req ≠ sliceAgent n) (hatom : s.atom f.line = none) (hent : s.dirEnt f.line = none) :
    ∃ u g, exec (.cmoP k) s = .next u ∧ u.net = (s.taken k).net ++ [g] ∧ g.op = .ack ∧ g.dst = f.req ∧ u.mem = s.mem := by
  have hfop := State.lands_op hl
  obtain ⟨u, b, hu, hfiled⟩ := State.homeRequest_ready hn (State.taken_homeReady s k n f.line hready)
  have htxns : u.txns = [] := by rw [hfiled.txns, State.taken_txns]; exact hready.2.2.2.2.2
  have hserve : u.homeServe n { f with promoted := b } = u.cmoUncached n { f with promoted := b } :=
    State.homeServe_cmoUncached hfop hreq (by rw [hfiled.atom, State.taken_atom, hatom]) (by rw [hfiled.dirEnt, State.taken_dirEnt, hent])
  obtain ⟨g, hg, hop, hdst⟩ := u.cmoUncached_net n { f with promoted := b }
  refine ⟨(u.cmoUncached n { f with promoted := b }).qsync n, g, ?_, by rw [State.qsync_net, hg, hfiled.net], hop, hdst, ?_⟩
  on_goal 2 => rw [State.qsync_mem, State.cmoUncached_mem, hfiled.mem, State.taken_mem]
  change execCmoP k s = _
  rw [execCmoP, State.receive_of_lands hl, State.askTake_home hd,
    State.homeTake_request (.inr (.inl hfop)) hord fun h => absurd h (by rw [hfop]; simp [Op.owns]), hu, State.homeAccept_served htxns, hserve]
  rfl

/-! At a memory controller. -/

/-- A request that is no write of a whole line waits at its controller until the line is read (09 R239). -/
theorem mem_queues {op : Op} {i : Instr} {ch : Nat} (hexec : exec i s = s.receive k op (fun f s => s.askTake f)) (hop : op ≠ .wrNc ∧ op ≠ .wbD) (hl : s.lands k op f)
    (hd : f.dst = .mem ch) (hheld : s.held 3 ch = false) (hmem : s.memReady f.line f.world op.needs.1 op.needs.2) :
    exec i s = .next ((s.taken k).updChan ch (fun c => { c with reads := c.reads ++ [{ flit := f, again := 0 }] })) := by
  have hfop := State.lands_op hl
  obtain ⟨⟨o, hregion, hback⟩, hguard, -⟩ := State.taken_memReady s k f.line f.world _ _ hmem
  have hbacked : (s.taken k).backed (f.line * 64) = true := by rw [State.backed, hregion]; exact hback
  rw [hexec, State.receive_of_lands hl]
  unfold State.askTake
  rw [hd]
  simp [State.memTake, hregion, State.taken_held, hheld, hbacked, hfop, hguard, hop]

end

end Sys2Proof.Machine

open Sys2Proof Sys2Proof.Machine

/-- Settles O36. -/
theorem requestsReachTheirHome : Obligations.RequestsReachTheirHome := by
  unfold Obligations.RequestsReachTheirHome
  intro s k d n ch f
  dsimp only
  refine ⟨filter_forwards rfl (by decide), filter_forwards rfl (by decide), filter_forwards rfl (by decide), home_reads rfl (.inl rfl),
    home_reads rfl (.inr (.inl rfl)), home_reads rfl (.inr (.inr rfl)), mem_queues rfl (by decide), mem_queues rfl (by decide), mem_queues rfl (by decide),
    mem_queues rfl (by decide), cmoP_uncached⟩

end

section
/-! PROOF. Writes, write-backs, evictions and atomics at home and in memory (09 R239, R242 to R244, R251). -/

namespace Sys2Proof.Machine

/-! At a memory controller. -/

section
variable {s : State} {k ch : Nat} {op : Op} {f : Flit} {i : Instr}

theorem State.afterMirror_unmirrored {s : State} (line : Nat) (f : Flit) (h : s.mirrored = false) : s.afterMirror line f = s.send f := by
  unfold State.afterMirror
  dsimp only
  split
  · rw [h, Bool.false_and, Bool.false_and]
    rfl
  · rfl

theorem State.mirrorWrite_unmirrored {s : State} (line : Nat) (d : LineData) (poison : Bool) (h : s.mirrored = false) : s.mirrorWrite line d poison = s := by
  unfold State.mirrorWrite
  rw [h]

/-- A controller writes a whole line, where nothing blocks it, and acknowledges the write. -/
theorem mem_writes (hexec : exec i s = s.receive k op (fun f s => s.askTake f)) (hop : (op = .wrNc ∧ f.mask = BitVec.allOnes 64) ∨ op = .wbD) (hl : s.lands k op f)
    (hd : f.dst = .mem ch) (hheld : s.held 3 ch = false) (hmem : s.memReady f.line f.world false true) (hline : s.lineBusy ch f.line = false)
    (hbank : s.bankBusy ch f.line = false) (hreads : ∀ r ∈ (s.chan ch).reads, r.flit.line = f.line → r.writes = false) :
    ∃ u, exec i s = .next u ∧ u.mem = ((s.taken k).putLine f.line f.data f.poison).mem ∧
      (∃ g, u.net = (s.taken k).net ++ [g] ∧ g.op = .ack ∧ g.dst = f.req ∧ g.tid = f.tid) ∧ u.threads = s.threads := by
  have hfop := State.lands_op hl
  obtain ⟨⟨o, hregion, hback⟩, hguard, hmir⟩ := State.taken_memReady s k f.line f.world _ _ hmem
  have hbacked : (s.taken k).backed (f.line * 64) = true := by rw [State.backed, hregion]; exact hback
  have hneeds : op.needs = (false, true) := by obtain ⟨rfl, -⟩ | rfl := hop <;> rfl
  have hwhole : ((f.op == .wrNc && f.mask == BitVec.allOnes 64) || f.op == .wbD) = true := by
    obtain ⟨rfl, hmask⟩ | rfl := hop
    · rw [hfop, hmask]; decide
    · rw [hfop, Bool.or_eq_true]; exact .inr (by decide)
  have hreads' : (((s.taken k).chan ch).reads.any fun r => r.flit.line == f.line && r.writes) = false := by
    rw [State.taken_chan]
    refine List.any_eq_false.mpr fun r hr => ?_
    by_cases hrl : r.flit.line = f.line
    · simp [hreads r hr hrl]
    · simp [hrl]
  have hput : ((s.taken k).putLine f.line f.data f.poison).mirrored = false := hmir
  have hask : (s.taken k).askTake f = some (((s.taken k).putLine f.line f.data f.poison).send (f.answer (.mem ch) .ack)) := by
    unfold State.askTake
    rw [hd]
    simp only [State.memTake, hregion, State.taken_held, hheld, hbacked, hfop, hneeds, hguard, State.taken_lineBusy, State.taken_bankBusy, hline, hbank, hreads',
      Bool.false_eq_true, if_false, Bool.not_true, Bool.not_false, Bool.and_false, Bool.or_self]
    rw [hfop] at hwhole
    rw [if_pos hwhole, State.mirrorWrite_unmirrored _ _ _ hput, State.afterMirror_unmirrored _ _ hput]
  refine ⟨((s.taken k).putLine f.line f.data f.poison).send (f.answer (.mem ch) .ack), ?_, State.send_mem _ _, ⟨_, State.send_net _ _, rfl, rfl, rfl⟩, s.taken_threads k⟩
  rw [hexec, State.receive_of_lands hl, hask]
  rfl

end

/-! Write-backs and evictions at home. -/

/-- A die that gives its copy up is listed no longer (09 R244). -/
theorem State.dirLeave_lists (s : State) (line d : Nat) (hd : d < 16) : ∀ e, (s.dirLeave line d).dirEnt line = some e → e.lists d = false := by
  intro e he
  have hd16 : d ≠ 16 := by omega
  have hwith : ∀ e : DirEntry, (e.with_ d false).lists d = false := fun e => by
    have h0 : (setField e.presence d d (b2n false)).getLsbD d = false := by
      rw [setField_getLsbD _ _ _ hd, if_pos ⟨le_rfl, le_rfl⟩]
      simp [b2n]
    simpa [DirEntry.with_, DirEntry.lists, hd16, bit] using h0
  unfold State.dirLeave at he
  split at he
  case h_1 hnone => rw [hnone] at he; exact absurd he (by simp)
  case h_2 e₀ _ =>
    have hmin : ownerPlace d = d := Nat.min_eq_left (by omega)
    simp only [hd, decide_true, Bool.true_or, if_true, hmin] at he
    split at he
    · rw [State.setDir_dirEnt] at he; exact absurd he (by simp)
    · rw [State.setDir_dirEnt] at he
      obtain rfl := Option.some.inj he
      split
      · exact hwith e₀
      · exact hwith e₀

theorem State.dirLeave_frame (s : State) (line o : Nat) : s.dirLeave line o = { s with dir := (s.dirLeave line o).dir } := by
  unfold State.dirLeave
  split
  · rfl
  · extract_lets e'
    clear_value e'
    split <;> rfl

/-- Where every transaction is served, none waits for room. -/
theorem State.roomAgain_of_served {s : State} {n : Nat} (h : ∀ p ∈ s.txns, ∀ x, p.2 = some x → x.served = true) : s.roomAgain n = s := by
  unfold State.roomAgain
  extract_lets stuck sorted
  have hstuck : stuck = [] := by
    refine List.filterMap_eq_nil_iff.mpr fun p hp => ?_
    split
    · rename_i x hx
      simp [h p hp x hx]
    · rfl
  have hsorted : sorted = [] := by
    unfold sorted
    rw [hstuck]
    rfl
  rw [hsorted]
  rfl

/-- A transaction that home opens to write a line that it holds none for. -/
def State.writeTxn (s : State) (n : Nat) (f : Flit) : Txn :=
  { Txn.opened f n true (s.stamp (n / 36)) with compDue := false, writes := [(s.nextTid + 1, s.stamp (n / 36))] }

section
variable {s : State} {n d : Nat} {f : Flit}

/-- The write of a line that home sends its controller. -/
def State.writeFlit (s : State) (n : Nat) (f : Flit) : Flit :=
  { Flit.blank .wbD (sliceAgent n) (s.endpoint (f.line * 64)) with
    cls := 2, tid := s.nextTid + 1, line := f.line, world := f.world, data := f.data, poison := f.poison, mask := BitVec.allOnes 64 }
/-- Home's acknowledgement of a write-back (09 R244). -/
def Flit.wbAck (f : Flit) (n : Nat) : Flit :=
  { Flit.blank .ack (sliceAgent n) f.src with cls := 4, was := .wbD, tid := f.tid, line := f.line, superseded := false }

/-- The slice that has sent a write-back on to memory, and holds its acknowledgement back until memory has written it (09 R243). -/
def State.wroteBack (s : State) (n d : Nat) (f : Flit) : State :=
  let v := ((s.freshTid.setTxn f.line (some (s.writeTxn n (s.writeFlit n f)))).send (s.writeFlit n f)).dirLeave f.line d
  v.setTxn f.line (some { s.writeTxn n (s.writeFlit n f) with answers := [f.wbAck n] })

theorem State.homeTakesWb_dirty (htxns : s.txns = []) (hop : f.op = .wbD) (hsrc : f.src = .filter d) (hsup : f.superseded = false) (hkeep : f.keep = false) :
    s.homeTakesWb n f = s.wroteBack n d f := by
  have htxn : s.freshTid.txn f.line = none := by simp [State.txn, State.freshTid, htxns]
  have hwrite : s.homeWrite n f.line f.data f.poison f.world =
      (s.freshTid.setTxn f.line (some (s.writeTxn n (s.writeFlit n f)))).send (s.writeFlit n f) := by
    simp only [State.homeWrite, htxn]
    rfl
  have hown : ownerOf f.src f.far = d := by rw [hsrc]; rfl
  simp only [State.homeTakesWb, State.homeApply, hop, hsup, hkeep, hown, hwrite, Bool.not_false, Bool.not_true, Bool.false_eq_true, if_false, Bool.true_and, beq_self_eq_true,
    if_true]
  rw [State.homeReply]
  have hv : ∀ v : State, (v.dirLeave f.line d).txn f.line = v.txn f.line := fun v => by rw [State.dirLeave_frame]; rfl
  rw [hv, State.send_txn, State.setTxn_txn]
  rfl

theorem State.wroteBack_net (s : State) (n d : Nat) (f : Flit) : ∃ g, (s.wroteBack n d f).net = s.net ++ [g] ∧ g.op = .wbD ∧ g.dst = s.endpoint (f.line * 64) ∧
    g.data = f.data ∧ g.poison = f.poison ∧ g.tid = s.nextTid + 1 := by
  unfold State.wroteBack
  rw [State.dirLeave_frame]
  exact ⟨_, rfl, rfl, rfl, rfl, rfl, rfl⟩
theorem State.wroteBack_mem (s : State) (n d : Nat) (f : Flit) : (s.wroteBack n d f).mem = s.mem := by
  unfold State.wroteBack
  rw [State.dirLeave_frame]
  rfl
theorem State.wroteBack_threads (s : State) (n d : Nat) (f : Flit) : (s.wroteBack n d f).threads = s.threads := by
  unfold State.wroteBack
  rw [State.dirLeave_frame]
  rfl
theorem State.wroteBack_txns (s : State) (n d : Nat) (f : Flit) (h : s.txns = []) :
    (s.wroteBack n d f).txns = [(f.line, some { s.writeTxn n (s.writeFlit n f) with answers := [f.wbAck n] })] := by
  have htxns : (s.wroteBack n d f).txns = Tbl.set none (Tbl.set none s.txns f.line (some (s.writeTxn n (s.writeFlit n f)))) f.line
      (some { s.writeTxn n (s.writeFlit n f) with answers := [f.wbAck n] }) := by
    unfold State.wroteBack
    rw [State.dirLeave_frame]
    rfl
  rw [htxns, h]
  simp [Tbl.set, Tbl.put]

/-- The slice that has acknowledged a clean line's eviction (09 R244). -/
def State.evicted (s : State) (n d : Nat) (f : Flit) : State := (s.dirLeave f.line d).send (f.wbAck n)

theorem State.homeTakesWb_clean (htxns : s.txns = []) (hop : f.op = .evictC) (hsrc : f.src = .filter d) (hsup : f.superseded = false) (hkeep : f.keep = false) :
    s.homeTakesWb n f = s.evicted n d f := by
  have hown : ownerOf f.src f.far = d := by rw [hsrc]; rfl
  have htxn : (s.dirLeave f.line d).txn f.line = none := by
    rw [State.dirLeave_frame]
    simp [State.txn, htxns]
  have hwb : (Op.evictC == Op.wbD) = false := by decide
  simp only [State.homeTakesWb, State.homeApply, hop, hsup, hkeep, hown, hwb, Bool.not_false, Bool.not_true, Bool.false_eq_true, if_false, Bool.and_false, State.homeReply, htxn]
  rfl

theorem State.evicted_net (s : State) (n d : Nat) (f : Flit) : ∃ g, (s.evicted n d f).net = s.net ++ [g] ∧ g.op = .ack ∧ g.dst = f.src ∧ g.tid = f.tid := by
  unfold State.evicted
  rw [State.dirLeave_frame]
  exact ⟨_, rfl, rfl, rfl, rfl⟩
theorem State.evicted_mem (s : State) (n d : Nat) (f : Flit) : (s.evicted n d f).mem = s.mem := by
  unfold State.evicted
  rw [State.dirLeave_frame]
  rfl
theorem State.evicted_threads (s : State) (n d : Nat) (f : Flit) : (s.evicted n d f).threads = s.threads := by
  unfold State.evicted
  rw [State.dirLeave_frame]
  rfl
theorem State.evicted_txns (s : State) (n d : Nat) (f : Flit) : (s.evicted n d f).txns = s.txns := by
  unfold State.evicted
  rw [State.dirLeave_frame]
  rfl

/-- A write-back that comes in its turn, no transaction open, is applied by its home. -/
theorem State.askTake_wb {u : State} (hd : f.dst = sliceAgent n) (hop : f.op = .wbD ∨ f.op = .evictC) (htxns : s.txns = []) (hord : s.inOrder f = true)
    (hu : s.homeTakesWb n f = u) (hserved : ∀ p ∈ u.txns, ∀ x, p.2 = some x → x.served = true) : s.askTake f = some (u.qsync n) := by
  have htxn : s.txn f.line = none := by simp [State.txn, htxns]
  have hqueue : s.wbQueued n = 0 := by rw [State.wbQueued, htxns]; rfl
  have hwb : s.homeWb n f = u.qsync n := by
    simp only [State.homeWb, htxn, hu]
    rw [State.roomAgain_of_served hserved]
  rw [State.askTake_home hd]
  obtain hop | hop := hop <;> simp [State.homeTake, hop, hord, hqueue, hwb]

theorem home_writesBack {k : Nat} (hl : s.lands k .wbD f) (hd : f.dst = sliceAgent n) (hsrc : f.src = .filter d) (hd16 : d < 16) (htxns : s.txns = [])
    (hord : (s.taken k).inOrder f = true) (hsup : f.superseded = false) (hkeep : f.keep = false) :
    ∃ u g y, exec (.wbD k) s = .next u ∧ u.net = (s.taken k).net ++ [g] ∧ g.op = .wbD ∧ g.dst = s.endpoint (f.line * 64) ∧ g.data = f.data ∧ g.poison = f.poison ∧
      u.txn f.line = some y ∧ y.writes.map Prod.fst = [g.tid] ∧ (∃ b ∈ y.answers, b.op = .ack ∧ b.dst = .filter d ∧ b.tid = f.tid) ∧
      (∀ e, u.dirEnt f.line = some e → e.lists d = false) ∧ u.mem = s.mem ∧ u.threads = s.threads := by
  have hfop := State.lands_op hl
  have htxns' : (s.taken k).txns = [] := (s.taken_txns k).trans htxns
  have hu := State.homeTakesWb_dirty (n := n) htxns' hfop hsrc hsup hkeep
  obtain ⟨g, hnet, hgop, hdst, hdata, hpoison, htid⟩ := (s.taken k).wroteBack_net n d f
  have htx := (s.taken k).wroteBack_txns n d f htxns'
  have hserved : ∀ p ∈ ((s.taken k).wroteBack n d f).txns, ∀ x, p.2 = some x → x.served = true := fun p hp x hx => by
    rw [htx] at hp
    obtain rfl := List.mem_singleton.mp hp
    obtain rfl := Option.some.inj hx
    rfl
  refine ⟨((s.taken k).wroteBack n d f).qsync n, g, { (s.taken k).writeTxn n ((s.taken k).writeFlit n f) with answers := [f.wbAck n] }, ?_, hnet, hgop,
    hdst.trans (s.taken_endpoint k _), hdata, hpoison, ?_, ?_, ⟨f.wbAck n, List.mem_singleton.mpr rfl, rfl, hsrc, rfl⟩, ?_, ?_, ?_⟩
  · change execWbD k s = _
    rw [execWbD, State.receive_of_lands hl, State.askTake_wb hd (.inl hfop) htxns' hord hu hserved]
    rfl
  · rw [State.qsync_txn, State.txn, htx]
    simp [Tbl.get]
  · rw [htid]
    rfl
  · rw [State.qsync_dirEnt]
    exact State.dirLeave_lists _ f.line d hd16
  · rw [State.qsync_mem, State.wroteBack_mem, State.taken_mem]
  · rw [State.qsync_threads, State.wroteBack_threads, State.taken_threads]

theorem home_evicts {k : Nat} (hl : s.lands k .evictC f) (hd : f.dst = sliceAgent n) (hsrc : f.src = .filter d) (hd16 : d < 16) (htxns : s.txns = [])
    (hord : (s.taken k).inOrder f = true) (hsup : f.superseded = false) (hkeep : f.keep = false) :
    ∃ u, exec (.evictC k) s = .next u ∧ u.mem = s.mem ∧ (∃ g, u.net = (s.taken k).net ++ [g] ∧ g.op = .ack ∧ g.dst = .filter d ∧ g.tid = f.tid) ∧
      (∀ e, u.dirEnt f.line = some e → e.lists d = false) ∧ u.threads = s.threads := by
  have hfop := State.lands_op hl
  have htxns' : (s.taken k).txns = [] := (s.taken_txns k).trans htxns
  have hu := State.homeTakesWb_clean (n := n) htxns' hfop hsrc hsup hkeep
  obtain ⟨g, hnet, hgop, hdst, htid⟩ := (s.taken k).evicted_net n d f
  have hserved : ∀ p ∈ ((s.taken k).evicted n d f).txns, ∀ x, p.2 = some x → x.served = true := fun p hp => by
    rw [State.evicted_txns, htxns'] at hp
    exact absurd hp (List.not_mem_nil)
  refine ⟨((s.taken k).evicted n d f).qsync n, ?_, ?_, ⟨g, hnet, hgop, hdst.trans hsrc, htid⟩, ?_, ?_⟩
  · change execEvictC k s = _
    rw [execEvictC, State.receive_of_lands hl, State.askTake_wb hd (.inr hfop) htxns' hord hu hserved]
    rfl
  · rw [State.qsync_mem, State.evicted_mem, State.taken_mem]
  · rw [State.qsync_dirEnt]
    exact State.dirLeave_lists _ f.line d hd16
  · rw [State.qsync_threads, State.evicted_threads, State.taken_threads]

end

/-! The controller's acknowledgement at home. -/

/-- Offers of reserved entries change the slices alone. -/
theorem State.offer_frame (s : State) (n : Nat) : s.offer n = { s with slices := (s.offer n).slices } := by
  unfold State.offer
  generalize List.range (s.spare n) = l
  induction l generalizing s with
  | nil => rfl
  | cons i l ih =>
    rw [List.foldl_cons, ih]
    split <;> rfl

section
variable {s : State} {k n : Nat} {f b : Flit} {x : Txn} {st : Word}

/-- The last write of a transaction that waits for nothing else closes it, and its answer goes out (09 R243). -/
theorem State.homeAck_last (hcomp : f.comp = false) (hmem : f.ofMemory = true) (htxns : s.txns = [(f.line, some x)]) (hop : x.flit.op = .wbD) (hserved : x.served = true)
    (hdue : x.compDue = false) (hnone : x.due = 0) (hwrites : x.writes = [(f.tid, st)]) (hans : x.answers = [b]) (hheld : x.held = []) (hwait : x.waiting = []) :
    s.homeAck n f = ((((s.setTxn f.line (some { x with writes := [], answers := [] })).send b).setTxn f.line none).qsync n).offer n := by
  have htxn : s.txn f.line = some x := by simp [State.txn, htxns, Tbl.get]
  have hempty : ∀ y, (((s.setTxn f.line y).send b).setTxn f.line none).txns = [] := fun y => by
    by_cases hy : y = none <;> simp [State.setTxn, State.send, htxns, Tbl.set, Tbl.put, hy]
  have hwritten : s.homeAck n f = s.homeWritten n f.line f.tid x := by
    simp [State.homeAck, htxn, hcomp, hmem, hwrites]
  rw [hwritten]
  simp only [State.homeWritten, hwrites, hans, hop, hserved, List.filter_cons, bne_self_eq_false, Bool.false_eq_true, if_false, if_true, List.filter_nil, List.isEmpty_nil,
    Bool.not_true, State.sendAll, List.foldl_cons, List.foldl_nil]
  simp only [State.homeClose, State.send_txn, State.setTxn_txn, Txn.idle, hdue, hnone, hheld, hwait, List.isEmpty_nil, Bool.not_true, Bool.not_false, Bool.and_self,
    beq_self_eq_true, Bool.false_eq_true, if_false, List.foldl_nil, State.homeDrain]
  rw [State.roomAgain_of_served]
  intro p hp
  rw [hempty] at hp
  exact absurd hp List.not_mem_nil

theorem home_acknowledges (hl : s.lands k .ack f) (hd : f.dst = sliceAgent n) (hacc : f.acc ≠ .dma) (hcomp : f.comp = false) (hmem : f.ofMemory = true)
    (htxns : s.txns = [(f.line, some x)]) (hop : x.flit.op = .wbD) (hserved : x.served = true) (hdue : x.compDue = false) (hnone : x.due = 0)
    (hwrites : x.writes = [(f.tid, st)]) (hans : x.answers = [b]) (hheld : x.held = []) (hwait : x.waiting = []) :
    ∃ u g, exec (.ack k) s = .next u ∧ u.net = (s.taken k).net ++ [g] ∧ g.op = b.op ∧ g.dst = b.dst ∧ g.tid = b.tid ∧ u.txn f.line = none ∧ u.mem = s.mem := by
  have hask : (s.taken k).ackTake f = some ((s.taken k).homeAck n f) := by
    have hacc' : (f.acc == AccClass.dma) = false := by simpa using hacc
    unfold State.ackTake
    rw [hd]
    simp only [sliceAgent, hacc', Bool.false_eq_true, if_false, sliceNum_div_mod]
  refine ⟨(((((s.taken k).setTxn f.line (some { x with writes := [], answers := [] })).send b).setTxn f.line none).qsync n).offer n,
    ((s.taken k).setTxn f.line (some { x with writes := [], answers := [] })).injected b, ?_, ?_, rfl, rfl, rfl, ?_, ?_⟩
  · change execAck k s = _
    rw [execAck, State.receive_of_lands hl, hask,
      State.homeAck_last hcomp hmem ((s.taken_txns k).trans htxns) hop hserved hdue hnone hwrites hans hheld hwait]
    rfl
  · rw [State.offer_frame]
    simp
  · rw [State.offer_frame]
    exact State.setTxn_txn _ f.line none
  · rw [State.offer_frame]
    simp

end

/-! Atomics at home. -/

section
variable {s : State} {k n : Nat} {f : Flit} {a : AtomLine} {v : Word}

/-- The buffered line that an atomic has changed. -/
def State.atomLine (s : State) (n : Nat) (f : Flit) (a : AtomLine) (v : Word) : AtomLine :=
  { a with used := (s.stamp (n / 36)).toNat, data := mergeLine a.data (placeVal v (maskOff f.mask)) (byteMask (maskOff f.mask) f.size) }
/-- The answer to an atomic at home: the old value (09 R251). -/
def Flit.atomAnswer (f : Flit) (n : Nat) (a : AtomLine) : Flit :=
  { f.answer (sliceAgent n) .dataS with
    world := a.world, poison := a.poison, data := placeVal (extend true f.size (lineVal a.data (maskOff f.mask) f.size)) 0 }

/-- An atomic on a buffered line changes it and answers the old value (09 R251). -/
theorem State.atomOn_changes (hpoison : a.poison = false) (hmir : s.mirrored = false) (hread : f.func ≠ .read) (hwrite : f.func ≠ .write)
    (hnew : amoNew f.func f.size (lineVal a.data (maskOff f.mask) f.size) f.opA f.opB = some v) :
    s.atomOn n f a = (s.setAtom f.line (some (s.atomLine n f a v))).homeReply f.line (f.atomAnswer n a) := by
  have hmir' : ∀ l, (s.setAtom f.line l).mirrored = false := fun _ => hmir
  have hw : (f.func == AmoOp.write) = false := by simpa using hwrite
  unfold State.atomOn
  extract_lets a' off old b s₁ s₂
  have hb : b = s.atomLine n f a v := by
    unfold b
    rw [if_neg (by simpa using hwrite), if_neg (by simp [a', hpoison])]
    split
    · exact absurd ‹_› hread
    · exact absurd ‹_› hwrite
    · have hold : old = lineVal a.data (maskOff f.mask) f.size := if_neg hread
      rw [hold, hnew]
      rfl
  have hs₂ : s₂ = s.setAtom f.line (some (s.atomLine n f a v)) := by
    unfold s₂ s₁
    rw [hmir', hb]
    rfl
  have hold : old = lineVal a.data (maskOff f.mask) f.size := if_neg hread
  rw [hs₂, hold, if_neg hread]
  rfl

/-- The slice that has performed an atomic on a buffered line, no transaction left. -/
def State.atomDone (s : State) (n : Nat) (f : Flit) (a : AtomLine) (v : Word) : State :=
  let x := { Txn.opened f n true (s.stamp (n / 36)) with compDue := false }
  ((((s.setTxn f.line (some x)).setAtom f.line (some (s.atomLine n f a v))).send (f.atomAnswer n a)).setTxn f.line none)

theorem State.homeServe_atomBuffered (hop : f.op = .atomH) (hatom : s.atom f.line = some a) (hworld : ∀ w, s.copyWorld f.line = some w → w = f.world ∨ f.fromM = true)
    (hpoison : a.poison = false) (hmir : s.mirrored = false) (hread : f.func ≠ .read) (hwrite : f.func ≠ .write)
    (hnew : amoNew f.func f.size (lineVal a.data (maskOff f.mask) f.size) f.opA f.opB = some v) : s.homeServe n f = s.atomDone n f a v := by
  have hon := State.atomOn_changes (s := s.setTxn f.line (some { Txn.opened f n true (s.stamp (n / 36)) with compDue := false })) (n := n) hpoison hmir hread hwrite hnew
  have hbad : (match s.copyWorld f.line with | some w => w != f.world && !f.fromM | none => false) = false := by
    split
    · rename_i w hw
      obtain h | h := hworld w hw <;> simp [h]
    · rfl
  have hhome : s.atomHome n f = some (s.atomDone n f a v) := by
    unfold State.atomHome
    extract_lets line pa x₀ x bad
    have hbad' : bad = false := hbad
    rw [if_neg (by rw [hbad']; decide), hatom]
    refine congrArg some ?_
    rw [hon]
    have htxn : ((s.setTxn f.line (some x)).setAtom f.line (some (s.atomLine n f a v))).txn f.line = some x := State.setTxn_txn s f.line (some x)
    have hreply : ((s.setTxn f.line (some x)).setAtom f.line (some (s.atomLine n f a v))).homeReply f.line (f.atomAnswer n a) =
        ((s.setTxn f.line (some x)).setAtom f.line (some (s.atomLine n f a v))).send (f.atomAnswer n a) := by
      rw [State.homeReply, htxn]
      rfl
    have hshut : (((s.setTxn f.line (some x)).setAtom f.line (some (s.atomLine n f a v))).send (f.atomAnswer n a)).homeShut f.line = s.atomDone n f a v := by
      rw [State.homeShut, State.send_txn, htxn]
      rfl
    exact (congrArg (State.homeShut · f.line) hreply).trans hshut
  simp only [State.homeServe, hop]
  rw [hhome]
  rfl

theorem State.atomDone_net (s : State) (n : Nat) (f : Flit) (a : AtomLine) (v : Word) : ∃ g, (s.atomDone n f a v).net = s.net ++ [g] ∧ g.op = .dataS ∧ g.dst = f.req ∧
    g.data = placeVal (extend true f.size (lineVal a.data (maskOff f.mask) f.size)) 0 := by
  unfold State.atomDone
  exact ⟨_, rfl, rfl, rfl, rfl⟩
theorem State.atomDone_mem (s : State) (n : Nat) (f : Flit) (a : AtomLine) (v : Word) : (s.atomDone n f a v).mem = s.mem := rfl
theorem State.atomDone_atom (s : State) (n : Nat) (f : Flit) (a : AtomLine) (v : Word) : (s.atomDone n f a v).atom f.line = some (s.atomLine n f a v) := by
  unfold State.atomDone
  rw [State.setTxn_atom, State.send_atom, State.setAtom_atom]

theorem home_atomic (hl : s.lands k .atomH f) (hd : f.dst = sliceAgent n) (hn : n < 576) (hready : s.homeReady n f.line) (hord : (s.taken k).inOrder f = true)
    (hatom : s.atom f.line = some a) (hpoison : a.poison = false) (hmir : s.mirrored = false)
    (hworld : ∀ w, s.copyWorld f.line = some w → w = f.world ∨ f.fromM = true) (hread : f.func ≠ .read) (hwrite : f.func ≠ .write)
    (hnew : amoNew f.func f.size (lineVal a.data (maskOff f.mask) f.size) f.opA f.opB = some v) :
    ∃ u g b, exec (.atomH k) s = .next u ∧ u.net = (s.taken k).net ++ [g] ∧ g.op = .dataS ∧ g.dst = f.req ∧
      g.data = placeVal (extend true f.size (lineVal a.data (maskOff f.mask) f.size)) 0 ∧ u.atom f.line = some b ∧ b.world = a.world ∧
      b.data = mergeLine a.data (placeVal v (maskOff f.mask)) (byteMask (maskOff f.mask) f.size) ∧ u.mem = s.mem := by
  have hfop := State.lands_op hl
  obtain ⟨u, p, hu, hfiled⟩ := State.homeRequest_ready hn (State.taken_homeReady s k n f.line hready)
  have htxns : u.txns = [] := by rw [hfiled.txns, State.taken_txns]; exact hready.2.2.2.2.2
  have hserve : u.homeServe n { f with promoted := p } = u.atomDone n { f with promoted := p } a v :=
    State.homeServe_atomBuffered hfop (by rw [hfiled.atom, State.taken_atom, hatom])
      (fun w hw => hworld w (by rw [hfiled.copyWorld, State.taken_copyWorld] at hw; exact hw)) hpoison (by rw [hfiled.mirrored, State.taken_mirrored, hmir]) hread hwrite hnew
  obtain ⟨g, hnet, hop, hdst, hdata⟩ := u.atomDone_net n { f with promoted := p } a v
  refine ⟨(u.atomDone n { f with promoted := p } a v).qsync n, g, u.atomLine n { f with promoted := p } a v, ?_, ?_, hop, hdst, hdata, u.atomDone_atom n _ a v, rfl, rfl, ?_⟩
  · change execAtomH k s = _
    rw [execAtomH, State.receive_of_lands hl, State.askTake_home hd,
      State.homeTake_request (.inr (.inr hfop)) hord fun h => absurd h (by rw [hfop]; simp [Op.owns]), hu, State.homeAccept_served htxns, hserve]
    rfl
  · rw [State.qsync_net, hnet, hfiled.net]
  · rw [State.qsync_mem, State.atomDone_mem, hfiled.mem, State.taken_mem]

end

end Sys2Proof.Machine

open Sys2Proof Sys2Proof.Machine

/-- Settles O37. -/
theorem writesReachMemory : Obligations.WritesReachMemory := by
  unfold Obligations.WritesReachMemory
  intro s k n d ch f b a v x st
  dsimp only
  refine ⟨fun hl hd hheld hmem hmask => mem_writes rfl (.inl ⟨rfl, hmask⟩) hl hd hheld hmem, mem_writes rfl (.inr rfl), ?_, fun hl hd _ => home_acknowledges hl hd, ?_, ?_⟩
  · rintro hl ⟨hd, -, hsrc, hd16, htxns, hord, hsup, hkeep⟩
    exact home_writesBack hl hd hsrc hd16 htxns hord hsup hkeep
  · rintro hl ⟨hd, -, hsrc, hd16, htxns, hord, hsup, hkeep⟩
    exact home_evicts hl hd hsrc hd16 htxns hord hsup hkeep
  · intro hl hd hn hready hord hatom hpoison hmir hworld hread hwrite hmask
    rw [← show maskOff f.mask = _ from if_neg hmask]
    exact home_atomic hl hd hn hready hord hatom hpoison hmir hworld hread hwrite

end

section
/-! SUPPORT. What reports leave of the net, and the fields of a register that is written. -/

namespace Sys2Proof.Machine

/-- The flits of s stand first in the net of u. -/
def State.Extends (s u : State) : Prop := s.net <+: u.net

namespace State.Extends

variable {s u v : State}

theorem refl (s : State) : State.Extends s s := List.prefix_refl _
theorem trans (h : State.Extends s u) (k : State.Extends u v) : State.Extends s v := List.IsPrefix.trans h k
theorem of_net (h : u.net = s.net) : State.Extends s u := by rw [State.Extends, h]
theorem ite {p : Prop} [Decidable p] (h : State.Extends s u) (k : State.Extends s v) : State.Extends s (if p then u else v) := by
  split
  · exact h
  · exact k
theorem mem (h : State.Extends s u) {f : Flit} (hf : f ∈ s.net) : f ∈ u.net := List.IsPrefix.mem hf h

end State.Extends

section
variable (s : State)

theorem State.send_extends (f : Flit) : State.Extends s (s.send f) := List.prefix_append _ _

theorem State.updDie_extends (d : Nat) (f : Die → Die) : State.Extends s (s.updDie d f) := .of_net rfl
theorem State.setErrs_extends (g : ErrGlobal) : State.Extends s { s with errs := g } := .of_net rfl

theorem State.foldl_extends {α : Type} (f : State → α → State) (hf : ∀ (s : State) (a : α), State.Extends s (f s a)) (l : List α) (s : State) :
    State.Extends s (l.foldl f s) := by
  induction l generalizing s with
  | nil => exact .refl s
  | cons a l ih => exact (hf s a).trans (ih _)

theorem State.event_net (d : Nat) (node : BitVec 12) (cls : BitVec 4) (world : Tag) (sev : BitVec 3) (code : BitVec 16) (stamp : Word)
    (payload : BitVec 128) : (s.event d node cls world sev code stamp payload).net = s.net := by
  unfold State.event State.putEvent
  exact (apply_ite State.net _ _ _).trans (ite_self _)

theorem State.event_threads (d : Nat) (node : BitVec 12) (cls : BitVec 4) (world : Tag) (sev : BitVec 3) (code : BitVec 16) (stamp : Word)
    (payload : BitVec 128) : (s.event d node cls world sev code stamp payload).threads = s.threads := by
  unfold State.event State.putEvent
  exact (apply_ite State.threads _ _ _).trans (ite_self _)

theorem State.sendNotify_extends (sec : Bool) (reg : Word) : State.Extends s (s.sendNotify sec reg) := by
  unfold State.sendNotify
  extract_lets t pkg
  refine .ite (.refl s) (.ite (.refl s) ?_)
  split
  · exact s.send_extends _
  · exact .refl s

theorem State.countCe_extends (world : Tag) : State.Extends s (s.countCe world) := by
  unfold State.countCe
  extract_lets sec reg n hit n' e s₁
  have h₁ : State.Extends s s₁ := .of_net rfl
  exact .ite (.ite (h₁.trans (s₁.sendNotify_extends sec reg)) h₁) (.refl s)

theorem State.record_extends (d : Nat) (r : RecordIn) : State.Extends s (s.record d r).1 := by
  unfold State.record
  extract_lets st s₁ fin
  have h₁ : State.Extends s s₁ := .of_net rfl
  have hfin : ∀ (u : State) (loc : BitVec 32), State.Extends u (fin u loc).1 := fun u loc => by
    unfold fin
    extract_lets u₁ e u₂ u₃ u₄
    have h₂ : State.Extends u u₂ := .of_net (u.event_net _ _ _ _ _ _ _ _)
    have h₃ : State.Extends u u₃ := .ite (h₂.trans (u₂.countCe_extends _)) h₂
    have h₄ : State.Extends u u₄ := by
      unfold u₄
      split
      · exact h₃.trans (.of_net rfl)
      · exact h₃
    exact h₄
  clear_value fin
  split
  · exact (h₁.trans (s₁.updDie_extends _ _)).trans (hfin _ _)
  · split
    · exact (h₁.trans (s₁.updDie_extends _ _)).trans (hfin _ _)
    · exact (h₁.trans (.ite (s₁.setErrs_extends _) (.refl _))).trans (hfin _ _)

theorem State.routerError_extends (n : BitVec 12) (code : BitVec 16) (sev : BitVec 3) (f : Flit) (pa : Option Nat) :
    State.Extends s (s.routerError n code sev f pa) := by
  unfold State.routerError
  exact s.record_extends _ _
theorem State.routerError_mem (n : BitVec 12) (code : BitVec 16) (sev : BitVec 3) (f : Flit) (pa : Option Nat) : (s.routerError n code sev f pa).mem = s.mem := by
  unfold State.routerError
  exact (s.record_reports _ _).mem

/-! Registers of control space. -/

theorem State.ctlGet_ctlPut (a : Nat) (w : Word) : (s.ctlPut a w).ctlGet a = w := by
  have hget : Tbl.get none (s.ctlPut a w).ctl a = some w := Tbl.get_set_same none s.ctl a (some w)
  rw [State.ctlGet, hget]
  rfl
theorem State.ctlGet_ctlField (a hi lo v : Nat) : (s.ctlField a hi lo v).ctlGet a = setField (s.ctlGet a) hi lo v := s.ctlGet_ctlPut a _

end

end Sys2Proof.Machine
end

section
/-! PROOF. Messages of the fabric, forwarding, replay, regulators and ports (02 R43; 06 R177; 11 R262 to R275, R283; 19 R415). -/

namespace Sys2Proof.Machine

section
variable {s : State} {k : Nat} {f : Flit}

/-! Messages. -/

theorem State.tlbiCore_memOp (c : Nat) (r : TlbiReq) (n : Nat) (h : (s.thr n).memOp = none) : ((s.tlbiCore c r).thr n).memOp = none := by
  have hone : ∀ x : Thread, x.memOp = none → ((x.walkDrop r).xlDrop).memOp = none := fun x hx => by
    have hw : (x.walkDrop r).memOp = none := (apply_ite Thread.memOp _ _ _).trans (by rw [ite_self, hx])
    simp [Thread.xlDrop, Thread.updMem, hw]
  have hupd : ∀ (u : State) (m : Nat), (u.thr n).memOp = none → ((u.updThr m (fun x => (x.walkDrop r).xlDrop)).thr n).memOp = none := fun u m hu => by
    by_cases hm : n = m
    · subst hm
      rw [State.updThr_thr]
      exact hone _ hu
    · rw [State.updThr_thr_other _ _ _ _ hm]
      exact hu
  exact hupd _ _ (hupd _ _ h)

theorem State.tlbiAt_running {c : Nat} {r : TlbiReq} (h : (s.tile (s.tileOf c)).st = .t0 ∨ (s.tile (s.tileOf c)).st = .t1) (hq : s.quiet c) :
    s.tlbiAt c r = s.tlbiCore c r := by
  have hwake : (s.tlbiCore c r).wakeCore c = s.tlbiCore c r :=
    State.wakeCore_of_quiet ⟨State.tlbiCore_memOp c r _ hq.1, State.tlbiCore_memOp c r _ hq.2⟩
  obtain h | h := h <;> simp only [State.tlbiAt, h, hwake]

theorem tlbiB_removes {q : TlbiReq} {c : CoreId} (hl : s.lands k .tlbiB f) (hq : f.tlbi = some q) (hd : f.dst = .core c)
    (hst : (s.tile (s.tileOf c.val)).st = .t0 ∨ (s.tile (s.tileOf c.val)).st = .t1) (hquiet : s.quiet c.val) :
    ∃ u g, exec (.tlbiB k) s = .next u ∧ u.net = (s.taken k).net ++ [g] ∧ g.op = .ack ∧ g.dst = f.src ∧ g.tid = f.tid ∧
      ∀ e, q.hits e = true → e ∉ (u.core c.val).itlb ∧ e ∉ (u.core c.val).dtlb ∧ e ∉ (u.core c.val).l2tlb := by
  let v := (if (s.taken k).portSt (tilePort ((s.taken k).tileOf c.val)) = 0 || f.inside then s.taken k
    else (s.taken k).ctlCount (tilePort ((s.taken k).tileOf c.val)) 63 48)
  have hv : v = { s.taken k with ctl := v.ctl } := by
    unfold v
    split <;> rfl
  have hat : v.tlbiAt c.val q = v.tlbiCore c.val q := by
    have htile : v.tile (v.tileOf c.val) = s.tile (s.tileOf c.val) := by
      rw [hv, ← State.taken_tile s k, ← State.taken_tileOf s k]
      rfl
    have hthr : ∀ n, v.thr n = s.thr n := fun n => by
      rw [hv, ← State.taken_thr s k]
      rfl
    exact State.tlbiAt_running (by rw [htile]; exact hst) ⟨by rw [hthr]; exact hquiet.1, by rw [hthr]; exact hquiet.2⟩
  refine ⟨(v.tlbiCore c.val q).send { Flit.blank .ack f.dst f.src with cls := 4, tid := f.tid, thr := f.thr },
    (v.tlbiCore c.val q).injected { Flit.blank .ack f.dst f.src with cls := 4, tid := f.tid, thr := f.thr }, ?_, ?_, rfl, rfl, rfl, ?_⟩
  · change execTlbiB k s = _
    rw [execTlbiB, State.receive_of_lands hl]
    simp only [hq, hd]
    rw [← hat, ← hd]
    rfl
  · rw [State.send_net]
    have hnet : (v.tlbiCore c.val q).net = (s.taken k).net := by
      change v.net = _
      rw [hv]
    rw [hnet]
  · intro e he
    have hcore : ((v.tlbiCore c.val q).send { Flit.blank .ack f.dst f.src with cls := 4, tid := f.tid, thr := f.thr }).core c.val = (v.core c.val).tlbi q :=
      State.tlbiCore_core v c.val q
    rw [hcore]
    exact (Core.tlbi_drops _ q).1 e he

theorem contain_adds {m : ContainMsg} {d : Nat} {t : Thr} (hl : s.lands k .contain f) (hm : f.containRec = some m) (hd : f.dst = .die d) (ht : f.containThr = some t)
    (hscope : m.scope = 0) (hpres : s.thrPresent t = true) (hport : s.portSt (tilePort (s.tileOf (t.val / 2))) = 0) (hlen : (s.thr t).contains.length < 4) :
    exec (.contain k) s = .next ((s.taken k).updThr t (fun x => { x with contains := x.contains ++ [m] })) := by
  change execContain k s = _
  rw [execContain, State.receive_of_lands hl]
  simp only [hm, hd, ht, hscope, Option.map_some, Option.getD_some]
  simp [containThreads, State.contained, hpres, hport, hlen]

theorem heart_kept (hl : s.lands k .heart f) : exec (.heart k) s = .next ((s.taken k).updDie f.dst.dieNum (fun x => { x with ringHeart := f.opA })) := by
  change execHeart k s = _
  rw [execHeart, State.receive_of_lands hl]
  rfl

/-- The time of a die that a count of the master has reached. -/
def State.timeOwed (s : State) (f : Flit) : Int := ((s.stamp f.dst.dieNum).toNat : Int) - ((f.opA + f.opB).toNat : Int)

theorem merSync_syncs (hl : s.lands k .merSync f) (hstage : 5 < s.mc.stage.toNat) :
    exec (.merSync k) s = .next ((s.taken k).updDie f.dst.dieNum (fun x => { x with time := { x.time with owed := (s.taken k).timeOwed f, synced := true } })) := by
  have hmc : (s.taken k).mc.stage.toNat > 5 := by rw [State.taken_frame]; exact hstage
  change execMerSync k s = _
  rw [execMerSync, State.receive_of_lands hl]
  simp only [hmc, decide_true, Bool.or_true, Option.getD_some]
  rfl

/-! Flits between routers. -/

theorem flitForward_crosses (hk : s.net[k]? = some f) (hheld : s.heldBack f = false) (hdrop : s.dropped f = false) (hgoal : f.hop ≠ s.goal f)
    (hgrant : s.granted f.hop (s.nextNode f.hop (s.goal f)) = some k) (hlast : (s.outPort f.hop (s.nextNode f.hop (s.goal f))).last ≤ s.cycle)
    (hoff : (s.die (fieldOf (s.nextNode f.hop (s.goal f)) 10 6)).ephCtl = 0) : exec (.flitForward k) s = .next (s.cross k f) := by
  have htrace : (s.cross k f).trace (s.nextNode f.hop (s.goal f)) f = s.cross k f := by
    have hdie : (s.cross k f).die (fieldOf (s.nextNode f.hop (s.goal f)) 10 6) = s.die (fieldOf (s.nextNode f.hop (s.goal f)) 10 6) := rfl
    unfold State.trace
    extract_lets d c
    have hc : bit c 62 = false := by
      have : c = 0 := (congrArg Die.ephCtl hdie).trans hoff
      rw [this]
      rfl
    rw [hc, Bool.and_false, Bool.false_and]
    rfl
  change execFlitForward k s = _
  have hnot : ¬ (f.hop = s.goal f ∨ s.granted f.hop (s.nextNode f.hop (s.goal f)) ≠ some k ∨ s.cycle < (s.outPort f.hop (s.nextNode f.hop (s.goal f))).last) := by
    rintro (h | h | h)
    · exact hgoal h
    · exact h hgrant
    · omega
  simp only [execFlitForward, hk, hheld, hdrop, Bool.false_eq_true, if_false, if_neg hnot, htrace]

/-- The flit that has crossed the link before it. -/
def State.crossed (s : State) (f : Flit) : Flit :=
  { f with hop := s.nextNode f.hop (s.goal f), inPort := some f.hop, dateline := s.nextDateline f, inside := s.accepts f (s.nextNode f.hop (s.goal f)), came := s.cycle, fails := 0 }

theorem State.cross_net (s : State) (k : Nat) (f : Flit) : (s.cross k f).net = listDrop s.net k ++ [s.crossed f] := rfl
theorem State.cross_threads (s : State) (k : Nat) (f : Flit) : (s.cross k f).threads = s.threads := rfl
theorem State.cross_mem (s : State) (k : Nat) (f : Flit) : (s.cross k f).mem = s.mem := rfl

section
variable {n : BitVec 12} {flips : BitVec 864} (hk : s.net[k]? = some f) (hin : f.inPort = some n) (hinside : f.inside = false) (hbad : s.badBytes f flips ≠ [])
  (hsent : f ∈ (s.outPort n f.hop).sent)
include hk hin hinside hbad hsent

/-- A receiver that finds a flit's parity broken (11 R269). -/
theorem replayRequest_eq : exec (.replayRequest k flips) s =
    if f.fails < 2 then .next ((s.replay k f).routerError f.hop 0x0401 1 f none)
    else if (s.badBytes f flips).all (fun j => decide (24 ≤ j ∧ j < 88)) then
      .next (({ s with net := listSet s.net k { f with poison := true, fails := 0 } }).routerError f.hop 0x0403 2 f (some (f.line * 64)))
    else .next (({ s with net := listDrop s.net k }).routerError f.hop 0x0402 3 f (some (f.line * 64))) := by
  have hkept : ((s.outPort n f.hop).sent.any fun g => g.tid == f.tid && g.src == f.src && g.dst == f.dst && g.op == f.op && g.stamp == f.stamp) = true :=
    List.any_eq_true.mpr ⟨f, hsent, by simp⟩
  have hne : (s.badBytes f flips).isEmpty = false := by simpa using hbad
  change execReplayRequest k flips s = _
  simp only [execReplayRequest, hk, hin, hinside, hne, hkept, Bool.not_true, Bool.or_self, Bool.false_eq_true, if_false]

end

/-! Regulators and ports. -/

theorem regulatorRelease_leaves {a : Nat} (hk : s.net[k]? = some f) (hgate : f.gate = some a) (hfirst : ∀ g ∈ s.net.take k, g.gate ≠ some a)
    (hon : bit (s.ctlGet a) 63 = true) (htok : fieldOf (s.ctlGet a) 43 32 ≠ 0) (hrate : fieldOf (s.ctlGet a) 11 0 ≠ 0) :
    exec (.regulatorRelease k) s =
      .next ({ s.ctlField a 43 32 (fieldOf (s.ctlGet a) 43 32 - 1) with net := listDrop s.net k }.send { f with gate := none }) := by
  have hany : ((s.net.take k).any fun g => g.gate == some a) = false :=
    List.any_eq_false.mpr fun g hg => by simpa using hfirst g hg
  have hleave : s.regLeave a = some (s.ctlField a 43 32 (fieldOf (s.ctlGet a) 43 32 - 1)) := by
    simp [State.regLeave, hon, htok, hrate]
  change execRegulatorRelease k s = _
  simp only [execRegulatorRelease, hk, hgate, hany, hleave, Bool.false_eq_true, if_false]
  rfl

theorem portClosed_closes {port : PortId} (hst : s.portSt (portAddr port) = 1) (hask : ∀ i, portBlock (portAddr port) = some i → i ∉ s.power.hubAsk)
    (hnone : ∀ g ∈ s.net, g.inside = true → s.portOf g ≠ some (portAddr port)) : exec (.portClosed port) s = .next (s.setPortSt (portAddr port) 2) := by
  have hblock : (match portBlock (portAddr port) with | some i => s.hubClose i | none => s) = s := by
    split
    · rename_i i hi
      have : s.power.hubAsk.contains i = false := by simpa using hask i hi
      unfold State.hubClose
      rw [this, Bool.false_and]
      rfl
    · rfl
  have hany : (s.net.any fun f => f.inside && s.portOf f == some (portAddr port)) = false :=
    List.any_eq_false.mpr fun g hg => by
      by_cases hi : g.inside = true
      · simp [hi, hnone g hg hi]
      · simp [hi]
  change execPortClosed port s = _
  unfold execPortClosed
  extract_lets a s'
  have hs' : s' = s := hblock
  rw [hs', if_pos (by simp [a, hst, hany])]

theorem portOpened_opens {port : PortId} (hst : s.portSt (portAddr port) = 3) (hready : s.domainReady (portAddr port) = true) :
    exec (.portOpened port) s = .next ((s.setPortSt (portAddr port) 0).ctlField (portAddr port) 47 40 0) := by
  change execPortOpened port s = _
  simp [execPortOpened, hst, hready]

end

end Sys2Proof.Machine

open Sys2Proof Sys2Proof.Machine

/-- Settles O40. -/
theorem fabricMoves : Obligations.FabricMoves := by
  unfold Obligations.FabricMoves
  intro s k d a f c q m t port flips n
  dsimp only
  refine ⟨tlbiB_removes, fun hl hm hd ht hscope hpres hport hlen => ?_, fun hl => ?_, fun hl hstage => ?_, fun hk hheld hdrop hgoal hgrant hlast hoff => ?_,
    fun hk hin hinside hbad hsent => ?_, fun hk hgate hfirst hon htok hrate => ?_, fun hst hask hnone => ?_, fun hst hready => ?_⟩
  · refine ⟨_, contain_adds hl hm hd ht hscope hpres hport hlen, ?_, fun j hj => ?_⟩
    · rw [State.updThr_thr, State.taken_thr]
    · rw [State.updThr_thr_other _ _ _ _ hj, State.taken_thr]
  · refine ⟨_, heart_kept hl, ?_, s.taken_threads k⟩
    rw [State.updDie_die]
  · refine ⟨_, merSync_syncs hl hstage, ?_, s.taken_threads k⟩
    rw [State.updDie_die]
  · exact ⟨_, s.crossed f, flitForward_crosses hk hheld hdrop hgoal hgrant hlast hoff, s.cross_net k f, rfl, rfl, rfl, s.cross_threads k f, s.cross_mem k f⟩
  · have hexec := replayRequest_eq hk hin hinside hbad hsent
    refine ⟨fun hfails => ?_, fun hfails => ?_⟩
    · rw [if_pos hfails] at hexec
      exact ⟨_, hexec, State.routerError_extends _ _ _ _ _ _, State.routerError_mem _ _ _ _ _ _⟩
    · rw [if_neg (by omega)] at hexec
      split at hexec
      · rw [if_pos ‹_›]
        have hnet := State.routerError_extends { s with net := listSet s.net k { f with poison := true, fails := 0 } } f.hop 0x0403 2 f (some (f.line * 64))
        exact ⟨_, hexec, State.routerError_mem _ _ _ _ _ _, hnet⟩
      · rw [if_neg ‹_›]
        have hnet := State.routerError_extends { s with net := listDrop s.net k } f.hop 0x0402 3 f (some (f.line * 64))
        exact ⟨_, hexec, State.routerError_mem _ _ _ _ _ _, hnet⟩
  · refine ⟨_, _, regulatorRelease_leaves hk hgate hfirst hon htok hrate, State.send_net _ _, rfl, rfl, rfl, rfl, rfl, rfl, ?_⟩
    have hctl : ({ s.ctlField a 43 32 (fieldOf (s.ctlGet a) 43 32 - 1) with net := listDrop s.net k }.send { f with gate := none }).ctlGet a =
        setField (s.ctlGet a) 43 32 (fieldOf (s.ctlGet a) 43 32 - 1) := s.ctlGet_ctlField a 43 32 _
    rw [hctl, fieldOf_setField_same _ _ (by omega)]
    have hlt : fieldOf (s.ctlGet a) 43 32 < 2 ^ 12 := Nat.mod_lt _ (by decide)
    exact Nat.mod_eq_of_lt (by omega)
  · refine ⟨_, portClosed_closes hst hask hnone, ?_, rfl⟩
    rw [State.portSt, State.setPortSt, State.ctlGet_ctlField, fieldOf_setField_same _ _ (by omega)]
    rfl
  · refine ⟨_, portOpened_opens hst hready, ?_, ?_, rfl⟩
    · rw [State.portSt, State.ctlGet_ctlField, fieldOf_setField_other _ _ (by omega) (by omega), State.setPortSt, State.ctlGet_ctlField,
        fieldOf_setField_same _ _ (by omega)]
      rfl
    · rw [State.ctlGet_ctlField, fieldOf_setField_same _ _ (by omega)]
      rfl

end

section
/-! PROOF. The limits of time (11 R280), against a counter that overflows as the record is written (19 R425). -/

namespace Sys2Proof.Machine

/-- An access performed once that waits for its answer since stamp 0. -/
def lateOp : MemOp :=
  { req := ⟨.loadG true, 0x3000, 8, 3, 0, 0, false, false⟩, tid := 7, want := some 0x3000, got := [], once := true, fresh := false, stamp := 0, xl := [], errs := [] }
/-- A thread at M whose INTID 17 is enabled and not pending, with a counter of the event 0x3A, a record of the thread, that is about to overflow and tells so. -/
def overflowThread : Thread :=
  { Thread.reset with
    run := .running, memOp := some lateOp, excM := ExcRegs.reset 0xE01, intS := { IntView.reset with pmr := 0xFF }
    ints := [(17, { IntId.reset with prio := 0, enable := true, world := true })], pmcSel := [(0, 0xE20000000000003A)], pmc := [(0, 0xFFFFFFFFFFFF)] }
/-- The access of that thread has reached its limit. -/
def overflowState : State := { State.reset with threads := [(0, overflowThread)], now := 2 ^ 50 }
/-- The cause that thread 0 has taken to M. -/
def causeTaken (o : Host.Outcome State Fault Refusal) : Word :=
  match o with
  | .next u => (u.thr 0).excM.cause
  | _ => 0

/-- The record of the access counts, the counter overflows, and INTID 17 is taken in place of the access's own cause. -/
theorem overflowState_takes_interrupt : causeTaken (exec (.transactionTimeout (.thread 0) 0) overflowState) = 0x43 := by decide +kernel

/-- What the statement would have the access end with. -/
def overflowClaim : State :=
  let r := overflowState.timedOut 0 0x3000
  let bad := Bad.error codeTrnTimeout r.2 false
  let v := r.1.updThr 0 (fun x => x.updMem (fun m => m.refused bad))
  v.takeExc 0 (bad.exc (v.thr 0) (lateOp.refused bad) 0x3000)

theorem overflowClaim_cause : causeTaken (.next overflowClaim) = 0x28 := by decide +kernel

end Sys2Proof.Machine

open Sys2Proof Sys2Proof.Machine

/-- Refutes O41: the record of a late access may make INTID 17 pending, and the interrupt is taken in place of the access's cause. -/
theorem not_timeAndLimits : ¬ Obligations.TimeAndLimits := by
  unfold Obligations.TimeAndLimits
  intro h
  obtain ⟨-, -, -, -, -, -, hlate, -⟩ := h overflowState 0 0 0 0 lateOp 0x3000 (Txn.opened (Flit.blank .rdS .meridian .meridian) 0 true 0)
  have hexec : exec (.transactionTimeout (.thread 0) 0) overflowState = .next overflowClaim :=
    hlate rfl rfl (by decide) (by decide) (by decide) rfl rfl (by decide)
  have hcause := congrArg causeTaken hexec
  rw [overflowState_takes_interrupt, overflowClaim_cause] at hcause
  exact absurd hcause (by decide)

end

section
/-! SUPPORT. A line whose beats come as they were stored (12 R288, R289, R291). -/

namespace Sys2Proof.Machine

theorem foldl_xor_lt {α : Type} (g : α → Nat) (n : Nat) (hg : ∀ a, g a < 2 ^ n) (l : List α) (a : Nat) (ha : a < 2 ^ n) :
    l.foldl (fun x y => x ^^^ g y) a < 2 ^ n := by
  induction l generalizing a with
  | nil => exact ha
  | cons b l ih => exact ih _ (Nat.xor_lt_two_pow ha (hg b))

theorem xOf_lt (w : Nat) : xOf w < 16 := by
  refine foldl_xor_lt (n := 4) _ (fun dev => ?_) _ _ (by decide)
  have hn : devNibble w dev < 16 := Nat.mod_lt _ (by decide)
  split
  · exact hn
  · have hb : ∀ b : Bool, b2n b ≤ 1 := by decide
    have := hb (parity 4 (devNibble w dev))
    have : devNibble w dev % 8 < 8 := Nat.mod_lt _ (by decide)
    simp only [turn]
    omega

theorem pOf_lt (w : Nat) : pOf w < 16 := by
  have hb : ∀ b : Bool, b2n b ≤ 1 := by decide
  have h0 := hb (!parity 8 (w / 2 ^ (8 * 0)))
  have h1 := hb (!parity 8 (w / 2 ^ (8 * 1)))
  have h2 := hb (!parity 8 (w / 2 ^ (8 * 2)))
  have h3 := hb (!parity 8 (w / 2 ^ (8 * 3)))
  have hp : pOf w = 0 + b2n (!parity 8 (w / 2 ^ (8 * 0))) * 2 ^ 0 + b2n (!parity 8 (w / 2 ^ (8 * 1))) * 2 ^ 1 + b2n (!parity 8 (w / 2 ^ (8 * 2))) * 2 ^ 2 +
    b2n (!parity 8 (w / 2 ^ (8 * 3))) * 2 ^ 3 := rfl
  omega

/-- A beat without flipped bits shows no flag and no mismatch, where the line has no poison marker. -/
theorem readBeat_clean (d : LineData) (b : Nat) : readBeat d false [] b = { w := d.toNat / 2 ^ (32 * b) % 2 ^ 32, f := 0, s := 0 } := by
  have hflip : (([] : List (BitVec 40)).getD b 0).toNat = 0 := rfl
  generalize hw : d.toNat / 2 ^ (32 * b) % 2 ^ 32 = w
  have hlt : w < 2 ^ 32 := hw ▸ Nat.mod_lt _ (by decide)
  have hr : storedBeat d false b = w + pOf w * 2 ^ 32 + xOf w * 2 ^ 36 := by simp only [storedBeat, hw, Bool.false_eq_true, if_false]
  have hp := pOf_lt w
  have hx := xOf_lt w
  have h1 : (w + pOf w * 2 ^ 32 + xOf w * 2 ^ 36) % 2 ^ 32 = w := by omega
  have h2 : (w + pOf w * 2 ^ 32 + xOf w * 2 ^ 36) / 2 ^ 32 % 16 = pOf w := by omega
  have h3 : (w + pOf w * 2 ^ 32 + xOf w * 2 ^ 36) / 2 ^ 36 % 16 = xOf w := by omega
  simp only [readBeat, hflip, Nat.xor_zero, hr, h1, h2, h3, Nat.xor_self]

theorem readBeats_clean (d : LineData) : readBeats d false [] = (List.range 16).map (fun b => { w := d.toNat / 2 ^ (32 * b) % 2 ^ 32, f := 0, s := 0 }) :=
  List.map_congr_left fun b _ => readBeat_clean d b

/-- A number is made of its low digits. -/
theorem foldr_digits (D n k : Nat) :
    (((List.range' k n).map (fun b => D / 2 ^ (32 * b) % 2 ^ 32)).foldr (fun w a => w + a * 2 ^ 32) 0) = D / 2 ^ (32 * k) % 2 ^ (32 * n) := by
  induction n generalizing k with
  | zero => simp [Nat.mod_one]
  | succ n ih =>
    have hdiv : D / 2 ^ (32 * (k + 1)) = D / 2 ^ (32 * k) / 2 ^ 32 := by
      rw [Nat.div_div_eq_div_mul, ← Nat.pow_add]
      rfl
    have hpow : 2 ^ (32 * (n + 1)) = 2 ^ 32 * 2 ^ (32 * n) := by rw [← Nat.pow_add]; congr 1; omega
    rw [List.range'_succ, List.map_cons, List.foldr_cons, ih, hdiv, hpow, Nat.mod_mul]
    omega

theorem beatsLine_clean (d : LineData) : beatsLine (readBeats d false []) = d := by
  have hlist : (readBeats d false []).map Beat.w = (List.range' 0 16).map (fun b => d.toNat / 2 ^ (32 * b) % 2 ^ 32) := by
    rw [readBeats_clean, List.map_map, ← List.range_eq_range']
    rfl
  unfold beatsLine
  rw [hlist, foldr_digits]
  refine BitVec.eq_of_toNat_eq ?_
  rw [BitVec.toNat_ofNat, Nat.mul_zero, Nat.pow_zero, Nat.div_one]
  exact (Nat.mod_mod ..).trans (Nat.mod_eq_of_lt d.isLt)

theorem readBeats_clean_f (d : LineData) : ∀ b ∈ readBeats d false [], b.f = 0 := by
  rw [readBeats_clean]
  intro b hb
  obtain ⟨i, -, rfl⟩ := List.mem_map.mp hb
  rfl
theorem readBeats_clean_s (d : LineData) : ∀ b ∈ readBeats d false [], b.s = 0 := by
  rw [readBeats_clean]
  intro b hb
  obtain ⟨i, -, rfl⟩ := List.mem_map.mp hb
  rfl

/-- A clean read of a rank in use decodes as it is stored (12 R291 row 4). -/
theorem decodeLine_clean (d : LineData) (dev : Nat) : decodeLine 0 dev (readBeats d false []) = { row := 4, data := d, device := 0, good := true } := by
  have hf : ((readBeats d false []).all fun b => b.f == 0) = true := List.all_eq_true.mpr fun b hb => by simp [readBeats_clean_f d b hb]
  have hs : ((readBeats d false []).all fun b => b.s == 0) = true := List.all_eq_true.mpr fun b hb => by simp [readBeats_clean_s d b hb]
  have hff : ((readBeats d false []).all fun b => b.f == 15) = false := by
    rw [readBeats_clean]
    rfl
  simp [decodeLine, hf, hs, hff, beatsLine_clean]

theorem dirtyRead_clean (d : LineData) : dirtyRead (readBeats d false []) = false :=
  List.any_eq_false.mpr fun b hb => by simp [readBeats_clean_f d b hb, readBeats_clean_s d b hb]

end Sys2Proof.Machine
end

section
/-! PROOF. Reads, repair, probes, scrub and fill (12 R291, R294, R295, R298 to R300). -/

namespace Sys2Proof.Machine

section
variable {s : State} {ch : Fin 24}

/-- A change of a channel that leaves what it was trained as leaves what lines name. -/
theorem State.guardCrypt_updChan (s : State) (c : Nat) (g : Channel → Channel)
    (hg : (g (s.chan c)).trained = (s.chan c).trained ∧ (g (s.chan c)).fillErr = (s.chan c).fillErr) (enc : Bool) (line : Nat) (d : LineData) :
    (s.updChan c g).guardCrypt enc line d = s.guardCrypt enc line d := by
  have htrained : (s.updChan c g).trained = s.trained := by
    unfold State.trained
    refine List.filter_congr fun i _ => ?_
    by_cases hi : i = c
    · subst hi
      rw [State.updChan_chan, hg.1, hg.2]
    · rw [State.updChan_chan_other _ _ _ _ hi]
  have hplace : (s.updChan c g).chanOf = s.chanOf := by
    funext pa
    unfold State.chanOf State.place
    rw [htrained]
  unfold State.guardCrypt
  rw [hplace]
  rfl

theorem State.send_chan (s : State) (f : Flit) (c : Nat) : (s.send f).chan c = s.chan c := rfl

/-- The answer to a plain read of memory. -/
def State.readAnswer (s : State) (ch : Nat) (f : Flit) (data : LineData) : Flit :=
  { f.answer (.mem ch) .dataS with
    world := s.lineTag (f.line * 64) f.world, data := s.guardCrypt false f.line data, poison := false, ackCnt := f.ackCnt, func := .read }

theorem State.deliverRead_plain (s : State) (c : Nat) (f : Flit) (data : LineData) (hreq : f.req ≠ .mem c) (hop : f.op = .rdNc) :
    s.deliverRead c f data false = s.send (s.readAnswer c f data) := by
  simp only [State.deliverRead, if_neg hreq, hop, decide_true, Bool.true_or, if_true]
  rfl

theorem dramReadReturn_clean {f : Flit} (hreads : (s.chan ch).reads = [{ flit := f, again := 0 }]) (hrep : (s.chan ch).repair = none)
    (hself : (s.chan ch).selfRefresh = false) (hst : fieldOf (s.ctlGet (s.rankReg ch f.line)) 63 62 = 0) (hpoison : s.memPoison f.line = false) (hop : f.op = .rdNc)
    (hreq : f.req ≠ .mem ch) :
    exec (.dramReadReturn ch 0 []) s = .next ((s.updChan ch (fun c => { c with reads := listDrop c.reads 0 })).send
      ((s.updChan ch (fun c => { c with reads := listDrop c.reads 0 })).readAnswer ch f (s.memRaw f.line))) := by
  have hact : s.actRead ch 0 { flit := f, again := 0 } { row := 4, data := s.memRaw f.line, device := 0, good := true } =
      (s.updChan ch (fun c => { c with reads := listDrop c.reads 0 })).send
        ((s.updChan ch (fun c => { c with reads := listDrop c.reads 0 })).readAnswer ch f (s.memRaw f.line)) :=
    (State.deliverRead_plain _ ch f _ hreq hop)
  change execDramReadReturn ch 0 [] s = _
  simp only [execDramReadReturn, hreads, List.getElem?_cons_zero, List.take_zero, List.any_nil, hrep, State.bankBusy, hself, hst, hpoison, decodeLine_clean, hact,
    Bool.or_self, Decoded.needsSlot]
  rfl

theorem dramVerifyReturn_clean {r : Repair} (hrep : (s.chan ch).repair = some r) (hphase : r.phase = 0) (hpoison : s.memPoison r.line = false) :
    exec (.dramVerifyReturn ch []) s = .next (s.updChan ch (fun x => { x with repair := none })) := by
  change execDramVerifyReturn ch [] s = _
  simp [execDramVerifyReturn, hrep, hphase, hpoison, dirtyRead_clean]

theorem spprDone_repaired {r : Repair} (hrep : (s.chan ch).repair = some r) (hphase : r.phase = 1) :
    exec (.spprDone ch []) s = .next ((s.almanacAdd 0 ch r.line r.device).updChan ch (fun x => { x with
      sppr := (s.bankKey ch r.line r.device, r.line) :: x.sppr, repair := some { r with phase := 0, repaired := true } })) := by
  change execSpprDone ch [] s = _
  simp [execSpprDone, hrep, hphase, State.repairReads]

/-- Sixteen clean lines judge neither X nor P. -/
theorem probeDone_clean {r : Repair} (hrep : (s.chan ch).repair = some r) (hphase : r.phase = 3)
    (hpoison : ∀ i, i < 16 → s.memPoison ((s.probeLines ch r.line).getD i 0) = false) :
    exec (.probeDone ch []) s = .next (s.updChan ch (fun x => { x with repair := none })) := by
  change execProbeDone ch [] s = _
  unfold execProbeDone
  extract_lets c noF noS s'
  rw [hrep]
  refine (if_neg (by simp [hphase])).trans ?_
  extract_lets lines beats xBad pBad n w held f t
  have hbeats : beats = (List.range 16).map fun i => readBeats (s.memRaw ((s.probeLines ch r.line).getD i 0)) false [] :=
    List.map_congr_left fun i hi => by
      have hp : s.memPoison (lines.getD i 0) = false := hpoison i (List.mem_range.mp hi)
      exact congrArg (fun p => readBeats (s.memRaw (lines.getD i 0)) p []) hp
  have hall : ∀ l ∈ beats, (l.all fun b => b.f == 0) = true ∧ (l.all fun b => b.s == 0) = true := fun l hl => by
    rw [hbeats] at hl
    obtain ⟨i, -, rfl⟩ := List.mem_map.mp hl
    exact ⟨List.all_eq_true.mpr fun b hb => by simp [readBeats_clean_f _ b hb], List.all_eq_true.mpr fun b hb => by simp [readBeats_clean_s _ b hb]⟩
  have hx : xBad = false := decide_eq_false (by
    rw [List.filter_eq_nil_iff.mpr fun l hl => by simp [noF, noS, hall l hl]]
    decide)
  have hp : pBad = false := decide_eq_false (by
    rw [List.filter_eq_nil_iff.mpr fun l hl => by simp [noF, noS, hall l hl]]
    decide)
  have hheld : held = false := by simp [held, hphase]
  rw [hx, hp]
  simp only [Bool.false_eq_true, if_false]
  unfold t
  rw [hheld]
  rfl

theorem scrubRead_next (htr : s.trained.contains ch.val = true) (hfill : (s.chan ch).filled = true) (hself : (s.chan ch).selfRefresh = false) (hheld : s.held 3 ch = false)
    (hon : bit (s.rasCtl ch) 63 = true) (hbusy : s.lineBusy ch (s.chanLine ch (s.chan ch).scrubAt) = false) :
    exec (.scrubRead ch (s.chan ch).scrubAt) s = .next (s.updChan ch (fun x => { x with
      reads := x.reads ++ [{ flit := { Flit.blank .rdNc (.mem ch) (.mem ch) with line := s.chanLine ch (s.chan ch).scrubAt, world := 0xFFF }, again := 0 }]
      scrubAt := (x.scrubAt + 64) % s.chanCap })) := by
  change execScrubRead ch (s.chan ch).scrubAt s = _
  have hmem : ch.val ∈ s.trained := by simpa using htr
  simp [execScrubRead, hmem, hfill, hself, hheld, hon, hbusy]

/-! Fill. -/

theorem State.fillEnd_frame (s : State) : s.fillEnd = { s with mem := s.fillEnd.mem, poisoned := s.fillEnd.poisoned } := by
  unfold State.fillEnd
  split <;> rfl
theorem State.fillEnd_chan (s : State) (c : Nat) : s.fillEnd.chan c = s.chan c := by
  rw [State.fillEnd_frame]
  rfl
theorem State.fillEnd_ctlGet (s : State) (a : Nat) : s.fillEnd.ctlGet a = s.ctlGet a := by
  rw [State.fillEnd_frame]
  rfl

theorem fillDone_marks (htr : (s.chan ch).trained = true) (hfill : (s.chan ch).filled = false) (herr : (s.chan ch).fillErr = false) (hstage : s.mc.stage = 7) :
    exec (.fillDone ch) s =
      .next (((s.updChan ch (fun x => { x with filled := true })).ctlField (fillReg ch) 63 63 1).ctlField (fillReg ch) 6 0 100).fillEnd := by
  change execFillDone ch s = _
  simp [execFillDone, htr, hfill, herr, hstage]

/-- The state whose BOOT_REASON names the excluded channel. -/
def State.excludes (s : State) (ch : Nat) : State :=
  let e := Tbl.get BootEntry.empty s.mc.reasons s.mc.entry
  { s with mc := { s.mc with reasons := Tbl.set BootEntry.empty s.mc.reasons s.mc.entry { e with detail := e.detail ||| BitVec.ofNat 32 (2 ^ ch) } } }

theorem State.excludes_chan (s : State) (ch c : Nat) : (s.excludes ch).chan c = s.chan c := rfl
theorem State.excludes_ctlGet (s : State) (ch a : Nat) : (s.excludes ch).ctlGet a = s.ctlGet a := rfl

theorem ddrAlert_excludes (htr : (s.chan ch).trained = true) (hfill : (s.chan ch).filled = false) (herr : (s.chan ch).fillErr = false) (hstage : s.mc.stage = 7) :
    exec (.ddrAlertDuringFill ch) s = .next (((s.updChan ch (fun x => { x with fillErr := true })).ctlField (fillReg ch) 62 62 1).excludes ch).fillEnd := by
  change execDdrAlertDuringFill ch s = _
  simp [execDdrAlertDuringFill, htr, hfill, herr, hstage, State.excludes]

end

end Sys2Proof.Machine

open Sys2Proof Sys2Proof.Machine

/-- Settles O42. -/
theorem controllersReadAndRepair : Obligations.ControllersReadAndRepair := by
  unfold Obligations.ControllersReadAndRepair
  intro s ch f r
  dsimp only
  refine ⟨fun hreads hrep hself hst hpoison hop hreq => ?_, dramVerifyReturn_clean, fun hrep hphase => ?_, probeDone_clean, fun htr hfill hself hheld hon hbusy => ?_,
    fun htr hfill herr hstage => ?_, fun htr hfill herr hstage => ?_⟩
  · refine ⟨_, _, dramReadReturn_clean hreads hrep hself hst hpoison hop hreq, ?_, State.send_net _ _, rfl, rfl, ?_, rfl, rfl⟩
    · rw [State.send_chan, State.updChan_chan, hreads]
      rfl
    · exact s.guardCrypt_updChan ch (fun c => { c with reads := listDrop c.reads 0 }) ⟨rfl, rfl⟩ false f.line (s.memRaw f.line)
  · refine ⟨_, spprDone_repaired hrep hphase, ?_, ?_, rfl⟩
    · rw [State.updChan_chan]
    · exact ⟨_, List.mem_append_right _ (List.mem_singleton.mpr rfl), rfl, rfl⟩
  · refine ⟨_, { flit := { Flit.blank .rdNc (.mem ch) (.mem ch) with line := s.chanLine ch (s.chan ch).scrubAt, world := 0xFFF }, again := 0 },
      scrubRead_next htr hfill hself hheld hon hbusy, ?_, rfl, ?_, rfl⟩
    · rw [State.updChan_chan]
    · rw [State.updChan_chan]
  · refine ⟨_, fillDone_marks htr hfill herr hstage, ?_, ?_⟩
    · rw [State.fillEnd_chan, State.ctlField_chan, State.ctlField_chan, State.updChan_chan]
    · rw [State.fillEnd_ctlGet, State.ctlGet_ctlField, State.ctlGet_ctlField, bit, setField_getLsbD _ _ _ (by omega), if_neg (by omega),
        setField_getLsbD _ _ _ (by omega), if_pos (by omega)]
      rfl
  · refine ⟨_, ddrAlert_excludes htr hfill herr hstage, ?_, ?_⟩
    · rw [State.fillEnd_chan, State.excludes_chan, State.ctlField_chan, State.updChan_chan]
    · rw [State.fillEnd_ctlGet, State.excludes_ctlGet, State.ctlGet_ctlField, bit, setField_getLsbD _ _ _ (by omega), if_pos (by omega)]
      rfl

end

section
/-! PROOF. The registers of a guard, and the worlds of pins (12 R303, R306, R307; 14 R340, R341). -/

namespace Sys2Proof.Machine

section
variable {s : State} {ch : Nat}

theorem guardReg_ne_pairAddr (_ : ch < 24) {reg : Nat} (_ : reg < 0x1000) : guardReg ch reg ≠ pairAddr := by
  simp only [guardReg, pairAddr, caddr]
  omega
theorem guardReg_inj {ch a b : Nat} (h : a ≠ b) : guardReg ch a ≠ guardReg ch b := by
  simp only [guardReg, caddr]
  omega

/-- A register of a guard that is written leaves its other registers. -/
theorem State.ctlGet_guard_other (s : State) (hch : ch < 24) {a b : Nat} (w : Word) (ha : a < 0x1000) (hab : b ≠ a) :
    (s.ctlPut (guardReg ch a) w).ctlGet (guardReg ch b) = s.ctlGet (guardReg ch b) :=
  s.ctlGet_ctlPut_other w (guardReg_inj hab) (guardReg_ne_pairAddr hch ha)

/-- A word of a staged entry becomes active (12 R307). -/
def State.commitWord (s : State) (ch n i : Nat) : State :=
  let a := s.ctlGet (guardReg ch (0x100 + 2 * n + i))
  if s.ctlGet (guardReg ch (2 * n + i)) = a then s else s.ctlPut (guardReg ch (2 * n + i)) a
/-- A staged entry becomes active, unless the active one is locked (12 R303, R307). -/
def State.commitEntry (s : State) (ch n : Nat) : State :=
  if s.guardLocked ch n then s else (s.commitWord ch n 0).commitWord ch n 1

theorem State.commitWord_ctlGet (s : State) (hch : ch < 24) {n i : Nat} (hn : n < 128) (hi : i < 2) (r : Nat) :
    (s.commitWord ch n i).ctlGet (guardReg ch r) = if r = 2 * n + i then s.ctlGet (guardReg ch (0x100 + 2 * n + i)) else s.ctlGet (guardReg ch r) := by
  unfold State.commitWord
  dsimp only
  by_cases hr : r = 2 * n + i
  · subst hr
    rw [if_pos rfl]
    split
    · assumption
    · exact s.ctlGet_ctlPut _ _
  · rw [if_neg hr]
    split
    · rfl
    · exact s.ctlGet_guard_other hch _ (by omega) hr

theorem State.commitEntry_ctlGet (s : State) (hch : ch < 24) {n : Nat} (hn : n < 128) (r : Nat) :
    (s.commitEntry ch n).ctlGet (guardReg ch r) =
      if s.guardLocked ch n = false ∧ r / 2 = n then s.ctlGet (guardReg ch (0x100 + r)) else s.ctlGet (guardReg ch r) := by
  unfold State.commitEntry
  cases hl : s.guardLocked ch n
  · simp only [Bool.false_eq_true, if_false, true_and]
    rw [State.commitWord_ctlGet _ hch hn (by omega), State.commitWord_ctlGet _ hch hn (by omega), State.commitWord_ctlGet _ hch hn (by omega)]
    by_cases h1 : r = 2 * n + 1
    · rw [if_pos h1, if_neg (by omega), if_pos (by omega), h1]
      rfl
    · rw [if_neg h1]
      by_cases h0 : r = 2 * n + 0
      · rw [if_pos h0, if_pos (by omega), h0]
        rfl
      · rw [if_neg h0, if_neg (by omega)]
  · simp

/-- The entries committed in turn (12 R307). -/
theorem State.foldl_commitEntry (s : State) (hch : ch < 24) (m : Nat) (hm : m ≤ 128) :
    (∀ r, r < 0x100 → ((List.range m).foldl (fun u n => u.commitEntry ch n) s).ctlGet (guardReg ch r) =
      if s.guardLocked ch (r / 2) = false ∧ r / 2 < m then s.ctlGet (guardReg ch (0x100 + r)) else s.ctlGet (guardReg ch r)) ∧
    ∀ r, 0x100 ≤ r → ((List.range m).foldl (fun u n => u.commitEntry ch n) s).ctlGet (guardReg ch r) = s.ctlGet (guardReg ch r) := by
  induction m with
  | zero => exact ⟨fun r _ => by simp, fun r _ => rfl⟩
  | succ m ih =>
    obtain ⟨hlow, hhigh⟩ := ih (by omega)
    rw [List.range_succ, List.foldl_append, List.foldl_cons, List.foldl_nil]
    have hlock : ((List.range m).foldl (fun u n => u.commitEntry ch n) s).guardLocked ch m = s.guardLocked ch m := by
      unfold State.guardLocked
      rw [hlow (2 * m) (by omega), if_neg (by omega)]
    refine ⟨fun r hr => ?_, fun r hr => ?_⟩
    · rw [State.commitEntry_ctlGet _ hch (by omega), hlock, hhigh (0x100 + r) (by omega), hlow r hr]
      by_cases hrm : r / 2 = m
      · rw [hrm]
        cases s.guardLocked ch m <;> simp
      · have hlt : r / 2 < m + 1 ↔ r / 2 < m := by omega
        simp [hrm, hlt]
    · rw [State.commitEntry_ctlGet _ hch (by omega), if_neg (by omega)]
      exact hhigh r hr

/-- A commit of the staged version (12 R307). -/
theorem State.guardCommit_eq {v : Nat} (hst : fieldOf (s.ctlGet (guardReg ch 0x201)) 31 0 = v) (hver : fieldOf (s.ctlGet (guardReg ch 0x200)) 63 32 < v) :
    s.guardCommit ch v = ((List.range 128).foldl (fun u n => u.commitEntry ch n) s).ctlField (guardReg ch 0x200) 63 32 v := by
  unfold State.guardCommit
  dsimp only
  rw [if_pos (by simp [hst, hver])]
  rfl

end

/-- Pins whose world changes become inputs, and their waiting assertions are dropped (14 R341). -/
theorem State.gpioWorldPut_pins (s : State) (v : BitVec 32) {p : Nat} (hp : p < 32) :
    bit ((s.gpioWorldPut v).ctlGet gpioWorldReg) p = bit v p ∧
      bit (s.gpioWorldPut v).gpioOe p = (bit s.gpioOe p && !(bit v p != bit (s.ctlGet gpioWorldReg) p)) ∧
      (bit v p ≠ bit (s.ctlGet gpioWorldReg) p → p ∉ (s.gpioWorldPut v).srcPend) := by
  have hget : (s.gpioWorldPut v).ctlGet gpioWorldReg = v.setWidth 64 := State.ctlGet_ctlPut _ gpioWorldReg _
  have hbit : bit ((s.gpioWorldPut v).ctlGet gpioWorldReg) p = bit v p := by
    rw [hget]
    simp only [bit, BitVec.getLsbD_setWidth, show p < 64 by omega, decide_true, Bool.true_and]
  have hoe : (s.gpioWorldPut v).gpioOe = s.gpioOe &&& ~~~ (v ^^^ BitVec.ofNat 32 (s.ctlGet gpioWorldReg).toNat) := rfl
  refine ⟨hbit, ?_, fun hne hmem => ?_⟩
  · have hold : (BitVec.ofNat 32 (s.ctlGet gpioWorldReg).toNat).getLsbD p = (s.ctlGet gpioWorldReg).getLsbD p := by
      rw [BitVec.getLsbD_ofNat, BitVec.getLsbD]
      simp only [hp, decide_true, Bool.true_and]
    rw [hoe]
    simp only [bit, BitVec.getLsbD_and, BitVec.getLsbD_not, BitVec.getLsbD_xor, hold, hp, decide_true, Bool.true_and]
  · have hsec : (s.sourceSecure p == (s.gpioWorldPut v).sourceSecure p) = true := (List.mem_filter.mp hmem).2
    have hs : ∀ u : State, u.sourceSecure p = bit (u.ctlGet gpioWorldReg) p := fun u => if_pos hp
    rw [hs, hs, hbit, beq_iff_eq] at hsec
    exact hne hsec.symm

end Sys2Proof.Machine

open Sys2Proof Sys2Proof.Machine

/-- Settles O43. -/
theorem guardsAndPins : Obligations.GuardsAndPins := by
  unfold Obligations.GuardsAndPins
  intro s g v slot w val n i p
  dsimp only
  have hcommit : exec (.grdCommitWrite g v) s = .next (if s.regOff (guardReg g 0x202) then s else s.guardCommit g v.toNat) := rfl
  have hkey : exec (.grdKeyWrite g slot w val) s = .next (if s.regOff (guardReg g 0x1000) then s else s.guardKeyPut g slot w val) := rfl
  refine ⟨fun hon hst hver hn hi => ?_, fun h => ?_, fun hon huse => ?_, fun hoff => ?_, fun hon huse => ?_, fun hp => ?_⟩
  · have hfold := s.foldl_commitEntry g.isLt 128 le_rfl
    rw [hcommit, hon, if_neg Bool.false_ne_true, State.guardCommit_eq hst hver]
    refine ⟨_, rfl, ?_, ?_⟩
    · rw [State.ctlGet_ctlField, fieldOf_setField_same _ _ (by omega)]
      exact Nat.mod_eq_of_lt v.isLt
    · have hdiv : (2 * n + i) / 2 = n := by omega
      have hsum : 0x100 + (2 * n + i) = 0x100 + 2 * n + i := by omega
      rw [State.ctlField, State.ctlGet_guard_other _ g.isLt _ (by omega) (by omega), hfold.1 _ (by omega), hdiv, hsum]
      cases s.guardLocked g n <;> simp [hn]
  · rw [hcommit]
    refine congrArg Host.Outcome.next ?_
    by_cases hon : s.regOff (guardReg g 0x202) = true
    · rw [if_pos hon]
    · rw [if_neg hon]
      refine if_neg fun hc => ?_
      obtain ⟨hst, hver⟩ := Bool.and_eq_true_iff.mp hc
      have hst := of_decide_eq_true hst
      have hver := of_decide_eq_true hver
      obtain h | h | h := h
      · exact h (Bool.eq_false_iff.mpr hon)
      · exact h hst
      · omega
  · rw [hkey, hon]
    simp [State.guardKeyPut, huse]
  · rw [hkey, if_pos (by simpa using hoff)]
  · refine ⟨s.ctlField (guardReg g 0x200) 3 3 1, ?_, rfl, ?_⟩
    · rw [hkey, hon]
      simp [State.guardKeyPut, huse]
    · rw [State.ctlGet_ctlField, bit, setField_getLsbD _ _ _ (by omega), if_pos (by omega)]
      rfl
  · obtain ⟨hbit, hoe, hpend⟩ := s.gpioWorldPut_pins v hp
    refine ⟨s.gpioWorldPut v, rfl, hbit, fun hne => ⟨?_, hpend hne⟩, fun heq => ?_⟩
    · rw [hoe]
      simp [hne]
    · rw [hoe]
      simp [heq]

end

section
/-! PROOF. The system links: bring-up, loss, frames and time (02 R45, R46; 13). -/

namespace Sys2Proof.Machine

section
variable (s : State)

/-! States of a port. -/

theorem State.event_links (d : Nat) (node : BitVec 12) (cls : BitVec 4) (world : Tag) (sev : BitVec 3) (code : BitVec 16) (stamp : Word)
    (payload : BitVec 128) : (s.event d node cls world sev code stamp payload).links = s.links := by
  rw [(s.event_reports d node cls world sev code stamp payload).frame]
theorem State.noteFree_links (a : Agent) (cls : BitVec 4) : (s.noteFree a cls).links = s.links := State.event_links _ _ _ _ _ _ _ _ _
theorem State.noteFree_threads (a : Agent) (cls : BitVec 4) : (s.noteFree a cls).threads = s.threads := State.event_threads _ _ _ _ _ _ _ _ _
theorem State.assertSource_links (n : Nat) : (s.assertSource n).links = s.links := by
  unfold State.assertSource
  split <;> rfl
theorem State.assertSource_threads (n : Nat) : (s.assertSource n).threads = s.threads := by
  unfold State.assertSource
  split <;> rfl
theorem State.logError_links (a : Agent) (code : BitVec 16) (sev : BitVec 3) (world : Tag) (pa : Option Nat) (t : Option Thr) :
    (s.logError a code sev world pa t).links = s.links := by
  rw [(s.logError_reports a code sev world pa t).frame]
theorem State.raise_links (d : Nat) (n : BitVec 12) (w : Word) : (s.raise d n w).links = s.links := by
  unfold State.raise
  split <;> rfl

theorem State.raise_pkgId (d : Nat) (n : BitVec 12) (w : Word) : (s.raise d n w).pkgId = s.pkgId := by
  unfold State.raise
  split <;> rfl

/-- The port is of the links alone. -/
theorem State.link_congr {s u : State} (h : u.links = s.links) (p : Nat) : u.link p = s.link p := by
  unfold State.link
  rw [h]

/-- A port that changes state keeps the rest of itself (13 R312). -/
theorem State.linkState_link (p : Nat) (st : LinkState) : (s.linkState p st).link p = { s.link p with st := st } := by
  unfold State.linkState
  split
  · next h => rw [← h]
  · rw [State.link_congr (State.assertSource_links _ _), State.link_congr (State.noteFree_links _ _ _), State.updLink_link]
theorem State.linkState_threads (p : Nat) (st : LinkState) : (s.linkState p st).threads = s.threads := by
  unfold State.linkState
  split
  · rfl
  · rw [State.assertSource_threads, State.noteFree_threads]
    rfl

theorem State.tryTrain_of {p : Nat} (hst : (s.link p).st = .down) (hen : bit (s.sylCtl p) 63 = true) (hpr : (s.link p).present = true)
    (hmin : s.minimalRun = false) : s.tryTrain p = s.linkState p .training := by
  unfold State.tryTrain
  rw [if_pos (by simp [hst, hen, hpr, hmin])]

/-- A port that refuses its partner stands REFUSED with the code (13 R314). -/
theorem State.refuseLink_link (p code : Nat) : ((s.refuseLink p code).link p).st = .refused ∧ ((s.refuseLink p code).link p).refuse = BitVec.ofNat 4 code := by
  unfold State.refuseLink
  dsimp only
  rw [State.linkState_link, State.updLink_link]
  exact ⟨rfl, rfl⟩

/-- A lost port with nothing that waits on it, in a package without a pair (13 R315). -/
theorem State.linkLoss_plain {p : Nat} (hpair : (s.linkState p .lost).paired = false) (hw : (s.link p).waits = []) :
    s.linkLoss p = (s.linkState p .lost).updLink p (fun l => { l with waits := [] }) := by
  unfold State.linkLoss
  dsimp only
  rw [if_neg (by simp [hpair]), State.linkState_link]
  simp [hw]

theorem State.linkState_ctl (p : Nat) (st : LinkState) : (s.linkState p st).ctl = s.ctl := by
  unfold State.linkState State.assertSource
  split
  · rfl
  · split <;> exact (State.event_reports _ _ _ _ _ _ _ _ _).ctl

theorem State.linkState_paired (p : Nat) (st : LinkState) : (s.linkState p st).paired = s.paired :=
  State.paired_congr (by rw [State.sylPair, State.linkState_ctl, State.sylPair])

/-! Frames and time. -/

/-- A frame for another package whose hops have run out is recorded, and goes nowhere (13 R318). -/
theorem State.forwardFrame_links (p : Nat) {fr : FrameIn} (h : fr.hopsLeft = 0) : (s.forwardFrame p fr).links = s.links := by
  unfold State.forwardFrame
  rw [if_pos h]
  exact State.logError_links _ _ _ _ _ _ _

/-- What an exchange at UP does with the neighbour's stamp (02 R43 to R46). -/
theorem execLinkTimeExchange_up (port : Fin 8) {said : TimeSaid} {u : State} (hst : (s.link port.val).st = .up)
    (hu : s.updLink port.val (fun l => { l with exchanges := l.exchanges + 1, claim := some said.claim }) = u) :
    execLinkTimeExchange port said s =
      if u.timeRoot = u.pkgId.toNat || u.timePort ≠ some port.val then .next u
      else if !u.rootSeen && decide ((said.stamp.toNat : Int) - (u.now.toNat : Int) > 4000) then
        .next ({ { u with rootSeen := true }.drawn with now := said.stamp, slew := 0 }.note .meridian 7 (BitVec.ofNat 16 (Config.freeValue u.free))
          (BitVec.ofNat 128 (u.now.toNat + said.stamp.toNat * 2 ^ 64)))
      else .next { { u with rootSeen := true } with slew := -((said.stamp.toNat : Int) - (u.now.toNat : Int)) } := by
  subst hu
  unfold execLinkTimeExchange
  exact if_neg (by simp [hst])

end

end Sys2Proof.Machine

open Sys2Proof Sys2Proof.Machine

/-- Settles O44. -/
theorem linksComeUp : Obligations.LinksComeUp := by
  unfold Obligations.LinksComeUp
  intro s port lanes h a
  dsimp only
  have hen : exec (.sylEnWrite port true) s = .next ((s.ctlField (caddr 16 (0xC0 + port.val) 0) 63 63 1).tryTrain port.val) := rfl
  have hdis : exec (.sylEnWrite port false) s =
      .next (((s.ctlField (caddr 16 (0xC0 + port.val) 0) 63 63 0).updLink port.val (fun l => { l with lanes := 0, refuse := 0, hello := none })).linkState port.val .down) := rfl
  refine ⟨fun hst hpr hmin => ?_, ?_, fun hst hctl hmin => ?_, fun hst h4 hpop => ?_, fun hst => ?_, fun hst hh hlate href => ?_, fun hst hh hlate href => ?_, fun hst hlate => ?_⟩
  · refine ⟨_, hen, ?_⟩
    have hbit : bit ((s.ctlField (caddr 16 (0xC0 + port.val) 0) 63 63 1).sylCtl port.val) 63 = true := by
      unfold State.sylCtl
      rw [State.ctlGet_ctlField, bit, setField_getLsbD _ _ _ (by omega)]
      rfl
    rw [State.tryTrain_of _ (by exact hst) hbit (by exact hpr) (by exact hmin), State.linkState_link, State.linkState_threads]
    exact ⟨rfl, rfl⟩
  · refine ⟨_, hdis, ?_⟩
    rw [State.linkState_link, State.linkState_threads]
    exact ⟨rfl, rfl⟩
  · refine ⟨_, rfl, ?_⟩
    rw [State.tryTrain_of (s.updLink port.val (fun l => { l with present := true })) (by rw [State.updLink_link]; exact hst) hctl (by rw [State.updLink_link]) hmin,
      State.linkState_link, State.updLink_link]
    exact ⟨rfl, rfl⟩
  · refine ⟨_, if_neg (by simp [hst]; omega), ?_⟩
    rw [State.linkState_link, State.updLink_link]
    exact ⟨rfl, rfl, rfl⟩
  · exact if_pos hst
  · change ∃ u, execAuth port a s = .next u ∧ _
    unfold execAuth
    simp only [hst, hh, hlate, href, Bool.false_eq_true, if_false]
    refine ⟨_, rfl, ?_⟩
    rw [State.linkState_link]
    split
    · rw [State.ctlField_link, State.updLink_link]
      exact ⟨rfl, rfl, rfl⟩
    · rw [State.updLink_link]
      exact ⟨rfl, rfl, rfl⟩
  · change ∃ u, execAuth port a s = .next u ∧ _
    unfold execAuth
    simp only [hst, hh, hlate, Bool.false_eq_true, if_false]
    exact ⟨_, rfl, s.refuseLink_link _ _⟩
  · refine ⟨_, if_pos (by simp [hst, hlate]), s.refuseLink_link _ _⟩

/-- Settles O45. -/
theorem linksCarry : Obligations.LinksCarry := by
  unfold Obligations.LinksCarry
  intro s port seq fr st claim c n e
  dsimp only
  refine ⟨fun hst hlate hpair hw => ?_, fun hst hany hne => ?_, fun hst hat => ?_, fun hst henc hfr => ?_, fun hst hk hcrc htag => ?_, fun hst hk hout hcrc => ?_,
    fun hst hk hout hcrc htag hseq hdst hhops => ?_, fun hf hroot hfar => ?_, fun hf hroot => ?_, fun hst hnf => ?_, fun hm => ?_, fun hscan => ?_⟩
  · refine ⟨_, if_pos (by simp [hst, hlate]), ?_⟩
    rw [State.linkLoss_plain _ ((State.linkState_paired _ _ _).trans hpair) hw, State.updLink_link, State.linkState_link]
    exact ⟨rfl, State.linkState_threads _ _ _⟩
  · let s₂ := (s.updLink port.val (fun l => { l with nakSeq := seq, nakRun := 1, replays := min (l.replays + 1) 65535 })).logError (.link port.val) 0x0701 1 0xFFF none none
    have hnak : exec (.nak port seq) s = .next s₂ := by
      change execNak port seq s = _
      simp [execNak, hst, hany, hne, s₂]
    have hlink : s₂.link port.val = { s.link port.val with nakSeq := seq, nakRun := 1, replays := min ((s.link port.val).replays + 1) 65535 } := by
      rw [State.link_congr (State.logError_links _ _ _ _ _ _ _), State.updLink_link]
    exact ⟨s₂, hnak, by rw [hlink]; exact ⟨hst, rfl, rfl, rfl⟩⟩
  · exact if_pos (by simp [hst, hat])
  · exact if_pos (by simpa [hst, henc] using hfr)
  · change execFrameReceive port fr s = _
    simp [execFrameReceive, hst, hk, hcrc, htag]
  · change execFrameReceive port fr s = _
    simp [execFrameReceive, hst, hk, hout, hcrc]
  · let s₂ := (s.updLink port.val (fun l => { l with rxSeq := l.rxSeq + 1, nakOut := none })).raise 16 (s.node (.link port.val)) fr.stamp
    have hrec : exec (.frameReceive port fr) s = .next (s₂.forwardFrame port.val fr) := by
      change execFrameReceive port fr s = _
      simp [execFrameReceive, hst, hk, hout, hcrc, htag, hseq, s₂]
      exact fun h => absurd (h.trans (State.raise_pkgId _ _ _ _)) hdst
    have hlink : ∀ q, (s₂.forwardFrame port.val fr).link q = (s.updLink port.val (fun l => { l with rxSeq := l.rxSeq + 1, nakOut := none })).link q := fun q =>
      State.link_congr ((State.forwardFrame_links _ _ hhops).trans (State.raise_links _ _ _ _)) q
    refine ⟨_, hrec, ?_, ?_, fun q => ?_⟩
    · rw [hlink, State.updLink_link]
    · rw [hlink, State.updLink_link]
    · rw [hlink]
      by_cases hq : q = port.val
      · rw [hq, State.updLink_link]
      · rw [State.updLink_link_other _ _ _ _ hq]
  · obtain ⟨hst, hr, hp⟩ := hf
    generalize hu : s.updLink port.val _ = u at hr hp
    obtain ⟨hnow, hrs, hpkg⟩ : u.now = s.now ∧ u.rootSeen = s.rootSeen ∧ u.pkgId = s.pkgId := hu ▸ ⟨rfl, rfl, rfl⟩
    have hlink : (u.link port.val).exchanges = (s.link port.val).exchanges + 1 := by
      rw [← hu, State.updLink_link]
    have hex : exec (.linkTimeExchange port ⟨st, claim⟩) s = _ := execLinkTimeExchange_up s port hst hu
    rw [if_neg (by simp [hpkg, hr, hp]), if_pos (by simp [hnow, hrs, hroot]; omega)] at hex
    refine ⟨_, hex, ?_, ?_, ?_, hlink ▸ congrArg LinkPort.exchanges (State.link_congr (State.event_links _ _ _ _ _ _ _ _ _) _)⟩ <;>
      rw [State.note, (State.event_reports _ _ _ _ _ _ _ _ _).frame]
    rfl
  · obtain ⟨hst, hr, hp⟩ := hf
    generalize hu : s.updLink port.val _ = u at hr hp ⊢
    obtain ⟨hnow, hrs, hpkg⟩ : u.now = s.now ∧ u.rootSeen = s.rootSeen ∧ u.pkgId = s.pkgId := hu ▸ ⟨rfl, rfl, rfl⟩
    have hseen : { u with rootSeen := true } = u := by rw [← hrs.trans hroot]
    have hex : exec (.linkTimeExchange port ⟨st, claim⟩) s = _ := execLinkTimeExchange_up s port hst hu
    rw [if_neg (by simp [hpkg, hr, hp]), if_neg (by simp [hrs, hroot]), hseen, hnow, neg_sub] at hex
    exact hex
  · have hex : exec (.linkTimeExchange port ⟨st, claim⟩) s = _ := execLinkTimeExchange_up s port hst rfl
    rw [hex]
    refine if_pos ?_
    rw [Bool.or_eq_true, decide_eq_true_eq, decide_eq_true_eq, or_iff_not_imp_left]
    exact fun hr hp => hnf ⟨hst, hr, hp⟩
  · change execMirrorFlush c n s = _
    simp only [execMirrorFlush, hm]
  · exact ⟨_, if_neg (by simp [hscan]), rfl⟩
end

section
/-! PROOF. Commands of the Data Movers' channels, slots and instances (14 R340; 15 R355, R357, R358, R362, R363). -/

namespace Sys2Proof.Machine

/-! Channels and slots. -/

section
variable (s : State)

/-- A field of a register that the software writes takes the written bits. -/
theorem slotFields_write (old val : Word) :
    let w := writeFields [fld 63 63 .rw 0, fld 8 0 .rw 0] old val
    bit w 63 = bit val 63 ∧ fieldOf w 8 0 = fieldOf val 8 0 := by
  have hw : writeFields [fld 63 63 .rw 0, fld 8 0 .rw 0] old val = setField (setField 0 63 63 (fieldOf val 63 63)) 8 0 (fieldOf val 8 0) := rfl
  dsimp only
  rw [hw]
  constructor
  · rw [bit, setField_getLsbD _ _ _ (by omega), setField_getLsbD _ _ _ (by omega), if_neg (by omega), if_pos (by omega), fieldOf_testBit]
    rfl
  · rw [fieldOf_setField_same _ _ (by omega)]
    exact Nat.mod_eq_of_lt (Nat.mod_lt _ (Nat.two_pow_pos _))

/-- A write of a slot that binds an unbound `Inst` to a free slot (15 R355). -/
theorem State.slotPut_binds {e slot i : Nat} {val : Word} (hv : bit val 63 = true) (hi : fieldOf val 8 0 = i) (hfree : s.slotInst e slot = none)
    (hun : (s.inst i).st = .unbound) :
    s.slotPut e slot val = some ((s.ctlPut (slotAddr e slot) (writeFields [fld 63 63 .rw 0, fld 8 0 .rw 0] (s.ctlGet (slotAddr e slot)) val)).updInst i
      (fun _ => { Inst.reset with st := .frozen, engine := e, slot := slot })) := by
  obtain ⟨hb, hn⟩ := slotFields_write (s.ctlGet (slotAddr e slot)) val
  unfold State.slotPut
  simp [hb, hn, hv, hi, hfree, hun]

/-- A channel without bound instances takes a world (14 R340). -/
theorem State.chWorldPut_free {e ch : Nat} (world : Tag) (h : ∀ k, k < 4 → s.slotInst e (4 * ch + k) = none) :
    s.chWorldPut e ch world = some (s.worldsMoved (s.ctlPut (caddr 16 (0xC8 + e) (0x40 + ch)) (world.setWidth 64))) := by
  unfold State.chWorldPut
  refine if_neg ?_
  rw [List.any_eq_true]
  rintro ⟨k, hk, hbusy⟩
  rw [h k (List.mem_range.mp hk)] at hbusy
  exact Bool.false_ne_true hbusy

/-! Instances. -/

theorem State.updInst_eq {i : Nat} {f : Inst → Inst} {y : Inst} (h : f (s.inst i) = y) : s.updInst i f = s.updInst i (fun _ => y) := by
  simp only [State.updInst, h]

/-- A command on an `Inst` that the view may see. -/
theorem State.instCommand_open {sec : Bool} {i cmd : Nat} {y : Inst} (ho : s.instOpen i sec = true) (h : (s.inst i).command cmd = y) :
    s.instCommand sec i cmd = s.updInst i (fun _ => y) := by
  rw [State.instCommand, if_pos ho]
  exact s.updInst_eq h
theorem State.instCommand_closed {sec : Bool} {i : Nat} (cmd : Nat) (ho : s.instOpen i sec = false) : s.instCommand sec i cmd = s := by
  rw [State.instCommand, ho]
  rfl

/-- An interrupt that a target register names leaves every `Inst` and memory (15 R357). -/
theorem State.sendTarget_reports (e : Nat) (reg : Word) (sec : Bool) : State.Reports s (s.sendTarget e reg sec) := by
  unfold State.sendTarget
  extract_lets t away msg drop
  have hdrop : State.Reports s drop := s.logError_reports _ _ _ _ _ _
  exact .ite (.refl s) (.ite (.ite hdrop (s.send_reports _)) (.ite hdrop (s.send_reports _)))

theorem State.Reports.inst {s u : State} (h : State.Reports s u) (k : Nat) : u.inst k = s.inst k := by
  unfold State.inst
  rw [h.frame]

theorem State.doorbell_frame (i : Nat) (toGuest : Bool) (mask : BitVec 8) :
    (s.doorbell i toGuest mask).mem = s.mem ∧ (∀ k, k ≠ i → (s.doorbell i toGuest mask).inst k = s.inst k) ∧
      (s.doorbell i toGuest mask).inst i = (if toGuest then { s.inst i with h2gPend := (s.inst i).h2gPend ||| mask } else { s.inst i with g2hPend := (s.inst i).g2hPend ||| mask }) := by
  unfold State.doorbell
  extract_lets x s₁
  have h := s₁.sendTarget_reports x.engine (if toGuest then x.intGmbx else x.intHmbx) (s₁.instWorld i == 0xFFF)
  refine ⟨h.mem, fun k hk => ?_, ?_⟩
  · rw [h.inst, State.updInst_inst_other _ _ _ _ hk]
  · rw [h.inst, State.updInst_inst]

end

/-! What a command does in each state (15 R357, R363). -/

section
variable {x : Inst}

theorem Inst.freeze_refused (h : x.st ≠ .running) : x.command 1 = { x with cmdErr := true } := by
  rcases x with ⟨_ | _ | _ | _ | _⟩
  case running => exact absurd rfl h
  all_goals rfl
theorem Inst.frozen_refused (h : x.st ≠ .frozen) : x.command 2 = { x with cmdErr := true } ∧ x.command 3 = { x with cmdErr := true } ∧ x.command 4 = { x with cmdErr := true } := by
  rcases x with ⟨_ | _ | _ | _ | _⟩
  case frozen => exact absurd rfl h
  all_goals exact ⟨rfl, rfl, rfl⟩
theorem Inst.reset_refused (hr : x.st ≠ .running) (hf : x.st ≠ .frozen) : x.command 5 = { x with cmdErr := true } := by
  rcases x with ⟨_ | _ | _ | _ | _⟩
  case running => exact absurd rfl hr
  case frozen => exact absurd rfl hf
  all_goals rfl

end

end Sys2Proof.Machine

open Sys2Proof Sys2Proof.Machine

/-- Settles O50. -/
theorem instanceCommands : Obligations.InstanceCommands := by
  unfold Obligations.InstanceCommands
  intro s sec inst e ch slot world tail mask
  dsimp only
  refine ⟨fun hon hfree => ?_, fun hon hfree hun => ?_, fun ho => ?_, fun ho c hc => ?_⟩
  · have hex : exec (.dmvChWorldWrite e ch world) s = .next (s.worldsMoved (s.ctlPut (caddr 16 (0xC8 + e.val) (0x40 + ch.val)) (world.setWidth 64))) := by
      change execDmvChWorldWrite e ch world s = _
      simp [execDmvChWorldWrite, hon, s.chWorldPut_free world hfree]
    refine ⟨_, hex, ?_, rfl, rfl⟩
    have hget : (s.worldsMoved (s.ctlPut (caddr 16 (0xC8 + e.val) (0x40 + ch.val)) (world.setWidth 64))).ctlGet (caddr 16 (0xC8 + e.val) (0x40 + ch.val)) = world.setWidth 64 :=
      State.ctlGet_ctlPut _ _ _
    rw [State.chanWorld, hget]
    refine BitVec.eq_of_toNat_eq ?_
    simpa [fieldOf] using world.isLt
  · have hv : bit (BitVec.ofNat 64 (2 ^ 63 + inst.val)) 63 = true := by
      rw [bit, BitVec.getLsbD_ofNat, Nat.testBit_two_pow_add_eq, Nat.testBit_lt_two_pow (by omega)]
      rfl
    have hi : fieldOf (BitVec.ofNat 64 (2 ^ 63 + inst.val)) 8 0 = inst.val := by
      rw [fieldOf, BitVec.toNat_ofNat]
      omega
    have hput := State.slotPut_binds s hv hi hfree hun
    obtain ⟨hb, hn⟩ := slotFields_write (s.ctlGet (slotAddr e.val slot.val)) (BitVec.ofNat 64 (2 ^ 63 + inst.val))
    generalize hu : State.updInst _ inst.val _ = u at hput
    have hex : exec (.dmvSlotWrite e slot (BitVec.ofNat 64 (2 ^ 63 + inst.val))) s = .next u := by
      change execDmvSlotWrite e slot _ s = _
      rw [execDmvSlotWrite, hon, hput]
      rfl
    refine ⟨u, hex, ?_, ?_, fun k hk => ?_⟩
    · have hget : u.ctlGet (slotAddr e.val slot.val) = writeFields [fld 63 63 .rw 0, fld 8 0 .rw 0] (s.ctlGet (slotAddr e.val slot.val)) (BitVec.ofNat 64 (2 ^ 63 + inst.val)) := by
        rw [← hu]
        exact State.ctlGet_ctlPut s _ _
      rw [State.slotInst, hget, hb, hn, hv, hi]
      rfl
    · rw [← hu, State.updInst_inst]
    · rw [← hu, State.updInst_inst_other _ _ _ _ hk]
      rfl
  · refine ⟨fun h => ?_, fun h => ?_, fun h => ?_, fun h => ?_, fun h => ?_, fun h => ?_, fun h => ?_, fun h => ?_, fun h => ?_, fun hr hf => ?_, ?_, ?_, ?_⟩
    · exact congrArg Host.Outcome.next (s.instCommand_open ho (by simp only [Inst.command, h]))
    · exact congrArg Host.Outcome.next (s.instCommand_open ho (Inst.freeze_refused h))
    · exact congrArg Host.Outcome.next (s.instCommand_open ho (by simp only [Inst.command, h]))
    · exact congrArg Host.Outcome.next (s.instCommand_open ho (Inst.frozen_refused h).1)
    · exact congrArg Host.Outcome.next (s.instCommand_open ho (by simp only [Inst.command, h]))
    · exact congrArg Host.Outcome.next (s.instCommand_open ho (Inst.frozen_refused h).2.1)
    · exact congrArg Host.Outcome.next (s.instCommand_open ho (by simp only [Inst.command, h]))
    · exact congrArg Host.Outcome.next (s.instCommand_open ho (Inst.frozen_refused h).2.2)
    · exact congrArg Host.Outcome.next (s.instCommand_open ho (by obtain h | h := h <;> simp only [Inst.command, h]))
    · exact congrArg Host.Outcome.next (s.instCommand_open ho (Inst.reset_refused hr hf))
    · change execDbTailWrite sec inst tail s = _
      rw [execDbTailWrite, if_pos ho]
      exact congrArg Host.Outcome.next (s.updInst_eq rfl)
    · obtain ⟨hmem, hother, hself⟩ := s.doorbell_frame inst.val true mask
      exact ⟨_, congrArg Host.Outcome.next (if_pos ho), hself, hmem, hother⟩
    · obtain ⟨hmem, hother, hself⟩ := s.doorbell_frame inst.val false mask
      exact ⟨_, congrArg Host.Outcome.next (if_pos ho), hself, hmem, hother⟩
  · have hcmd (cmd : Nat) : Host.Outcome.next (s.instCommand sec inst.val cmd) = (.next s : Host.Outcome State Fault Refusal) :=
      congrArg Host.Outcome.next (s.instCommand_closed cmd ho)
    have hif (u : State) : Host.Outcome.next (if s.instOpen inst.val sec then u else s) = (.next s : Host.Outcome State Fault Refusal) := by
      rw [ho]
      rfl
    simp only [List.mem_cons, List.not_mem_nil, or_false] at hc
    rcases hc with rfl | rfl | rfl | rfl | rfl | rfl | rfl | rfl
    · exact hcmd 1
    · exact hcmd 2
    · exact hcmd 3
    · exact hcmd 4
    · exact hcmd 5
    · exact hif _
    · exact hif _
    · exact hif _
end

section
/-! PROOF. The segments of instances and the ends of their commands (15 R360, R363 to R365). -/

namespace Sys2Proof.Machine

section
variable {s : State}

/-! What a turn does with an `Inst` on which nothing waits. -/

/-- The bytes that have moved count as done (15 R360). -/
theorem State.turnOf_counts {i : Nat} (hw : (s.inst i).waits = false) (he : (s.inst i).ioErr = 0) (hd : (s.inst i).doing = .none) (hf : (s.inst i).flight ≠ 0)
    (hlt : (s.inst i).done + (s.inst i).flight < descLen (s.inst i).desc) :
    s.turnOf i = some (s.updInst i (fun x => { x with done := x.done + x.flight, flight := 0 })) := by
  have hserve : s.serveInst i = .go (s.updInst i (fun x => { x with done := x.done + x.flight, flight := 0 })) := by
    unfold State.serveInst
    simp [hw, he, hd, hf, Nat.not_le.mpr hlt]
  simp only [State.turnOf, hserve, State.updInst_inst, bne_self_eq_false, Bool.and_false, Bool.false_and, Bool.false_eq_true, if_false]

/-- The next segment is carried out, and its answers are waited for (15 R360). -/
theorem State.turnOf_segment {i : Nat} {t : State} (hst : (s.inst i).st = .running) (hw : (s.inst i).waits = false) (he : (s.inst i).ioErr = 0) (hd : (s.inst i).doing = .none)
    (hf : (s.inst i).flight = 0) (hs : (s.inst i).started = true) (hlt : (s.inst i).done < descLen (s.inst i).desc) (hseg : s.segment i = .go t) (ht : (t.inst i).waits = true) :
    s.turnOf i = some t := by
  have hserve : s.serveInst i = .go t := by
    unfold State.serveInst
    simp [hst, hw, he, hd, hf, hs, Nat.not_le.mpr hlt, hseg]
  simp only [State.turnOf, hserve, ht, Bool.not_true, Bool.false_and, Bool.false_eq_true, if_false]

/-- The first slot of a channel in turn can move. -/
theorem execDmvSegment_first {e : Fin 4} {ch : Fin 16} {i : Nat} {t : State} (hkey : Tbl.get 0 s.served (16 * e.val + ch.val) = 0)
    (hslot : s.slotInst e.val (4 * ch.val) = some i) (hst : (s.inst i).st = .running) (ht : s.turnOf i = some t) :
    execDmvSegment e ch s = .next { t with served := Tbl.set 0 t.served (16 * e.val + ch.val) 1 } := by
  unfold execDmvSegment
  simp [hkey, hslot, hst, ht, List.range_succ_eq_map]

/-! Reads of an engine leave memory. -/

section
variable (s : State)

theorem State.regulate_mem (a : Nat) (f : Flit) : (s.regulate a f).mem = s.mem := by
  unfold State.regulate State.regLeave
  extract_lets g w
  by_cases hb : s.regBusy a = true
  · rw [if_pos hb]
    rfl
  · rw [if_neg hb]
    by_cases hw : (!bit w 63) = true
    · rw [if_pos hw]
      rfl
    · rw [if_neg hw]
      split
      · next h =>
        obtain ⟨-, h⟩ | ⟨-, h⟩ := ite_eq_iff.mp h
        · cases h
        · cases h
          rfl
      · rfl
theorem State.ioCheck_mem (line : Nat) (tag : Tag) (rd wr : Bool) (a : Agent) : (s.ioCheck line tag rd wr a).1.mem = s.mem := by
  have hlog (a : Agent) (code : BitVec 16) (sev : BitVec 3) : (s.logError a code sev tag (some (line * 64)) none).mem = s.mem := (s.logError_reports _ _ _ _ _ _).mem
  unfold State.ioCheck
  dsimp only
  split
  · exact hlog _ _ _
  · split
    · split
      · rfl
      · exact hlog _ _ _
    · split
      · exact hlog _ _ _
      · split
        · exact hlog _ _ _
        · split
          · exact hlog _ _ _
          · rfl
theorem State.gatherLine_mem (i line : Nat) : (s.gatherLine i line).1.mem = s.mem := by
  have hask (w : Bool) : (s.moverAsk i line w).mem = s.mem := State.regulate_mem _ _ _
  unfold State.gatherLine
  dsimp only
  split
  · rfl
  · exact (s.logError_reports _ _ _ _ _ _).mem
  · have hcheck := s.ioCheck_mem line (s.instWorld i) true false (.mover (s.inst i).engine)
    split
    · rfl
    · split
      · next h => rwa [h] at hcheck
      · next h => rwa [h] at hcheck
  · split
    · rfl
    · split
      · rfl
      · exact hask _
theorem State.gather_mem (i : Nat) (ls : List Nat) : (s.gather i ls).1.mem = s.mem := by
  have hfold (p : State × Gather) : (ls.foldl (fun (p : State × Gather) l => ((p.1.gatherLine i l).1, p.2.and (p.1.gatherLine i l).2)) p).1.mem = p.1.mem := by
    induction ls generalizing p with
    | nil => rfl
    | cons l ls ih => exact (ih _).trans (p.1.gatherLine_mem i l)
  exact hfold (s, .ok)

end

/-- The `Inst` that a record describes is FROZEN (15 R365). -/
theorem State.recordInst_frozen {i : Nat} {b : List Byte} {y : Inst} (h : s.recordInst i b = some y) : y.st = .frozen := by
  unfold State.recordInst at h
  obtain ⟨-, h⟩ | ⟨-, h⟩ := ite_eq_iff.mp h
  · cases h
    rfl
  · cases h

/-- RESET leaves DB_HEAD at DB_TAIL (15 R363). -/
theorem Inst.advance_outstanding (x : Inst) : (x.advance x.outstanding).head = x.tail := by
  change x.head + BitVec.ofNat 16 (x.tail - x.head).toNat = x.tail
  rw [BitVec.ofNat_toNat, BitVec.setWidth_eq, BitVec.add_comm, BitVec.sub_add_cancel]

end

end Sys2Proof.Machine

open Sys2Proof Sys2Proof.Machine

/-- Settles O51. -/
theorem instanceProgress : Obligations.InstanceProgress := by
  unfold Obligations.InstanceProgress
  intro s t inst e ch y
  dsimp only
  refine ⟨fun hkey hslot hst ⟨hd, hw, he⟩ hf hlt => ?_, fun hkey hslot hst ⟨hd, hw, he⟩ hf hs hlt hseg ht => ?_, fun hst ⟨hd, hw, he⟩ hs hr => ?_, fun hst ⟨hd, hw, he⟩ hs hr => ?_,
    fun hst hd he hw hm => ?_, fun hst hd he hw hg hclean hrec => ?_⟩
  · have hturn := State.turnOf_counts hw he hd hf hlt
    generalize hu : s.updInst inst.val _ = u at hturn
    refine ⟨_, execDmvSegment_first hkey hslot hst hturn, ?_, Tbl.get_set_same 0 u.served _ 1, ?_⟩
    · exact (congrArg (fun v : State => v.inst inst.val) hu.symm).trans (s.updInst_inst inst.val _)
    · change u.mem = s.mem
      rw [← hu]
      rfl
  · exact execDmvSegment_first hkey hslot hst (State.turnOf_segment hst hw he hd hf hs hlt hseg ht)
  · let t := s.updInst inst.val (fun x => { x with done := x.done + x.flight, flight := 0, ioGot := [], ioErr := 0 })
    have hex : exec (.instFreezeDone inst) s = .next (t.updInst inst.val (fun x => { x with st := .frozen })) := by
      change execInstFreezeDone inst s = _
      simp [execInstFreezeDone, hst, hd, hw, hs, hr, t]
    refine ⟨_, hex, ?_, rfl⟩
    rw [State.updInst_inst, State.updInst_inst, ← he]
  · let t := s.updInst inst.val (fun x => { x with done := x.done + x.flight, flight := 0, ioGot := [], ioErr := 0 })
    have hex : exec (.instFreezeDone inst) s = .next (t.updInst inst.val Inst.resetEnd) := by
      change execInstFreezeDone inst s = _
      simp [execInstFreezeDone, hst, hd, hw, hs, hr, t]
    refine ⟨_, hex, ?_⟩
    rw [State.updInst_inst, State.updInst_inst]
    exact ⟨rfl, rfl, Inst.advance_outstanding _, rfl, rfl, rfl, rfl⟩
  · change execInstSaveDone inst s = _
    simp [execInstSaveDone, hst, hd, he, hw, hm]
  · have hmem := s.gather_mem inst.val (s.inst inst.val).recordLines
    have hex : exec (.instRestoreDone inst) s = .next ((s.gather inst.val (s.inst inst.val).recordLines).1.updInst inst.val (fun _ => y)) := by
      change execInstRestoreDone inst s = _
      unfold execInstRestoreDone
      simp only [hst, hd, he, hw, ne_eq, not_true_eq_false, decide_false, Bool.or_self, Bool.false_eq_true, if_false]
      generalize s.gather inst.val (s.inst inst.val).recordLines = g at hg hclean hrec
      obtain ⟨t, q⟩ := g
      obtain rfl : q = .ok := hg
      have hpoison : ((s.inst inst.val).recordLines.map (t.gathered inst.val)).any (fun q => q.2) = false := by
        rw [List.any_map, List.any_eq_false]
        exact fun l hl => Bool.eq_false_iff.mp (hclean l hl)
      have hrec : t.recordInst inst.val (((s.inst inst.val).recordLines.map (t.gathered inst.val)).flatMap (fun q => lineBytes q.1)) = some y := by
        rw [List.flatMap_map]
        exact hrec
      simp only [hpoison, Bool.false_eq_true, if_false, hrec]
    exact ⟨_, hex, State.updInst_inst _ _ _, State.recordInst_frozen hrec, hmem⟩
end

section
/-! PROOF. Inbound requests of root ports, messages, ATS and page requests (16 R373 to R377). -/

namespace Sys2Proof.Machine

section
variable {s : State} {line : Nat} {tag : Tag}

/-! Accesses of I/O agents to a line that no cache holds (15 R359; 16 R375). -/

theorem maskBits_allOnes : maskBits (BitVec.allOnes 64) = BitVec.allOnes 512 := by decide +kernel
/-- A full mask replaces the line. -/
theorem mergeLine_full (old new : LineData) : mergeLine old new (BitVec.allOnes 64) = new := by
  rw [mergeLine, maskBits_allOnes, BitVec.not_allOnes, BitVec.and_zero, BitVec.zero_or, BitVec.and_allOnes]

/-- Nothing but memory has the line, and its memory reads without fault. -/
structure State.Alone (s : State) (line : Nat) : Prop where
  waits : s.ioWaits line = false
  dir : s.dirEnt line = none
  atom : s.atom line = none
  copy : s.copyWorld line = none
  poison : s.memPoison line = false
  rank : s.rankFailed line = false

theorem State.memReady.backed {rd wr : Bool} (h : s.memReady line tag rd wr) : s.backed (line * 64) = true := by
  obtain ⟨⟨o, hregion, hback⟩, -, -⟩ := h
  rw [State.backed, hregion]
  exact hback
theorem State.lineTag_normal (pa : Nat) (h : tag ≠ 0xFFF) : s.lineTag pa tag = tag := if_pos h

/-- The checks pass where the guard admits the access and a read keeps its tag. -/
theorem State.Alone.ioCheck (ha : s.Alone line) {rd wr : Bool} (hm : s.memReady line tag rd wr) (a : Agent) (ht : rd = true → tag ≠ 0xFFF) :
    s.ioCheck line tag rd wr a = (s, none) := by
  have hguard : s.guardOk (line * 64) tag rd wr = true := hm.2.1
  have htag : (rd && s.lineTag (line * 64) tag != tag) = false := by
    cases rd
    · rfl
    · rw [s.lineTag_normal _ (ht rfl)]
      exact bne_self_eq_false tag
  unfold State.ioCheck
  simp only [hm.backed, ha.copy, hguard, htag, ha.rank, Bool.and_false, Bool.not_true, Bool.false_eq_true, if_false]

/-- A write reaches the line under its mask. -/
theorem State.Alone.ioPut (ha : s.Alone line) (hm : s.memReady line tag false true) (ht : tag ≠ 0xFFF) (data : LineData) (mask : BitVec 64) :
    s.ioPut line tag data mask false = s.putLine line (mergeLine (s.memLine line) data mask) false := by
  obtain ⟨o, hregion, hback⟩ := hm.1
  have hown : s.ioOwn line tag = (s, s.memLine line, false, tag) := by
    have htake : s.takeAll line = (s, none) := by rw [State.takeAll, ha.dir]
    simp only [State.ioOwn, ha.atom, htake, ha.poison, ha.rank, Bool.or_self, s.lineTag_normal _ ht]
  have hblocked : s.lineBlocked line = false := (Bool.or_eq_false_iff.mp ha.waits).2
  have hput (d : LineData) : s.wbMem line d false tag = s.putLine line d false := by
    unfold State.wbMem
    simp only [hregion, hm.backed, hblocked, hm.2.1, Bool.not_true, Bool.false_eq_true, if_false, if_true]
    exact State.mirrorWrite_unmirrored _ _ _ hm.2.2
  unfold State.ioPut
  simp only [hown, hput, Bool.false_eq_true, if_false, Bool.or_self]
  by_cases hmask : mask = BitVec.allOnes 64
  · rw [if_pos hmask, hmask, mergeLine_full]
  · rw [if_neg hmask]

/-! Streams (16 R373, R374). -/

theorem State.streamEntry_cached {n : BitVec 16} {ws : List Word} (h : s.iommu.streams.find? (fun q => q.1 == n) = some (n, ws)) :
    s.streamEntry n = (s, some ws) := by
  unfold State.streamEntry
  rw [h]
/-- A stream without translation reaches the address it names. -/
theorem State.ioXlate_bare {n : BitVec 16} {ws : List Word} (h : s.iommu.streams.find? (fun q => q.1 == n) = some (n, ws)) (h1 : bit (ws.getD 0 0) 62 = false)
    (h2 : bit (ws.getD 0 0) 61 = false) (acc : Access) {iova : Word} (hlt : iova.toNat < 2 ^ 57) : s.ioXlate n acc iova = (s, .inl iova.toNat) := by
  unfold State.ioXlate
  simp only [State.streamEntry_cached h, streamCtx, h1, h2, Bool.not_false, Bool.and_self, if_true, hlt]

/-- A plain access of a live sub-port to memory here, that its stream's regulator lets go (16 R374, R375). -/
theorem State.inbound_here {port : Fin 10} {sub : Fin 4} {r : InboundReq} {ws : List Word}
    (hlive : s.isContained port.val sub.val = false ∧ (s.sub port.val sub.val).up = true ∧ s.outsideWaits = false ∧ s.writesAway (.port port.val) sub.val = false)
    (hkind : r.kind = .read ∨ r.kind = .write) (htr : r.translated = false) (hent : s.iommu.streams.find? (fun q => q.1 == r.stream) = some (r.stream, ws))
    (h1 : bit (ws.getD 0 0) 62 = false) (h2 : bit (ws.getD 0 0) 61 = false) (hlt : r.iova.toNat < 2 ^ 57) (hmsi : msiPage r.iova.toNat = none)
    (hregion : ∃ o, s.region r.iova.toNat = .dram o) (hwaits : s.ioWaits (r.iova.toNat / 64) = false)
    (hfree : bit (s.ctlGet (s.streamReg port.val r.stream)) 63 = false) (hbusy : s.regBusy (s.streamReg port.val r.stream) = false) :
    s.inbound port sub r false = .next (s.inboundAt (.port port.val) sub.val (s.streamWorld r.stream.toNat) r r.iova.toNat) := by
  obtain ⟨hcont, hup, hout, haway⟩ := hlive
  obtain ⟨o, hregion⟩ := hregion
  have hleave : s.regLeave (s.streamReg port.val r.stream) = some s := if_pos (by rw [hfree]; rfl)
  unfold State.inbound
  obtain hk | hk := hkind <;>
    simp only [hcont, hup, hout, haway, hk, htr, hmsi, hregion, hwaits, hbusy, hleave, State.ioXlate_bare hent h1 h2 _ hlt, Bool.not_true, Bool.or_self, Bool.and_false,
      Bool.false_eq_true, if_false]

/-- What an access to a line here does (16 R375). -/
theorem State.inboundAt_here {p k : Nat} {r : InboundReq} {pa : Nat} (hlocal : s.ioLocal (pa / 64) = true)
    (hcheck : s.ioCheck (pa / 64) tag (r.kind != .write) (r.kind == .write) (.port p) = (s, none)) :
    s.inboundAt (.port p) k tag r pa =
      if r.kind = .write then s.ioPut (pa / 64) tag (r.data <<< (8 * (pa % 64))) (byteMask (pa % 64) r.size.val) false else s := by
  unfold State.inboundAt
  simp only [hlocal, hcheck, Bool.not_true, Bool.false_and, Bool.false_eq_true, if_false]

/-- A message of the world of its stream asserts its source (16 R377). -/
theorem State.msi_asserts {sec : Bool} {stream : BitVec 16} {data : Nat} (hw : s.streamWorld stream.toNat = if sec then 0xFFF else 0) (hn : 128 ≤ data % 4096)
    (hs : s.sourceSecure (data % 4096) = sec) : s.msi sec stream data = s.assertSource (data % 4096) := by
  unfold State.msi
  refine if_neg ?_
  rw [hw, hs]
  cases sec <;> simp [hn]

/-- The last completion of a broadcast acknowledges it (16 R376). -/
theorem State.atsDone_last {stream : BitVec 16} {f : Flit} {stamp : Word} (hats : s.iommu.atsWaits = [(stream, f.tid, stamp)]) (htlbi : s.iommu.tlbiWaits = [(f, 1)]) :
    ∃ g, s.atsDone stream = { s with iommu := { s.iommu with atsWaits := [], tlbiWaits := [] } }.send g ∧ g.op = .ack ∧ g.dst = f.src ∧ g.tid = f.tid := by
  refine ⟨{ Flit.blank .ack .iommu f.src with cls := 4, tid := f.tid, thr := f.thr }, ?_, rfl, rfl, rfl⟩
  unfold State.atsDone
  simp [hats, htlbi, listDrop]

/-- Where the next page request is kept (16 R376). -/
def State.prqPlace (s : State) : Nat := fieldOf s.iommu.prqBase 56 12 * 4096 + 16 * (s.iommu.prqTail % s.prqSize)
/-- The line of the ring with a page request in its place. -/
def State.prqLine (s : State) (w0 w1 : Word) : LineData :=
  mergeLine (s.memLine (s.prqPlace / 64)) (BitVec.ofNat 512 ((w0.toNat + w1.toNat * 2 ^ 64) * 2 ^ (8 * (s.prqPlace % 64)))) (byteMask (s.prqPlace % 64) 16)

/-- A page request takes the next entry of a ring that has room (16 R376). -/
theorem execPriPageRequest_takes {stream : BitVec 16} (w0 w1 : Word) {ws : List Word}
    (hent : s.iommu.streams.find? (fun q => q.1 == stream) = some (stream, ws)) (hpri : bit (ws.getD 0 0) 59 = true)
    (hroom : (s.iommu.prqTail + 65536 - s.iommu.prqHead) % 65536 < s.prqSize) (ha : s.Alone (s.prqPlace / 64)) (hm : s.memReady (s.prqPlace / 64) 0 false true) :
    ∃ u, execPriPageRequest stream w0 w1 s = .next u ∧ u.iommu.prqTail = (s.iommu.prqTail + 1) % 65536 ∧ u.mem = (s.putLine (s.prqPlace / 64) (s.prqLine w0 w1) false).mem := by
  let t : State := { s.putLine (s.prqPlace / 64) (s.prqLine w0 w1) false with iommu := { s.iommu with prqTail := (s.iommu.prqTail + 1) % 65536 } }
  have hex : execPriPageRequest stream w0 w1 s = .next (if s.iommu.prqTail == s.iommu.prqHead then t.assertSource s.iommu.prqSrc else t) := by
    unfold execPriPageRequest
    rw [State.streamEntry_cached hent]
    have hcheck : s.ioCheck _ 0 false true .iommu = _ := ha.ioCheck hm .iommu (fun h => absurd h (by decide))
    have hwaits := ha.waits
    have hput := ha.ioPut hm (by decide) (BitVec.ofNat 512 ((w0.toNat + w1.toNat * 2 ^ 64) * 2 ^ (8 * (s.prqPlace % 64)))) (byteMask (s.prqPlace % 64) 16)
    unfold State.prqPlace at hcheck hwaits hput
    simp only [hpri, hwaits, hcheck, hput, Bool.not_true, Bool.false_or, ge_iff_le, Nat.not_le.mpr hroom, decide_false, Bool.false_eq_true, if_false]
    rfl
  refine ⟨_, hex, ?_⟩
  split
  · have hassert : (t.assertSource s.iommu.prqSrc).iommu = t.iommu ∧ (t.assertSource s.iommu.prqSrc).mem = t.mem := by
      unfold State.assertSource
      split <;> exact ⟨rfl, rfl⟩
    rw [hassert.1, hassert.2]
    exact ⟨rfl, rfl⟩
  · exact ⟨rfl, rfl⟩

end

end Sys2Proof.Machine

open Sys2Proof Sys2Proof.Machine

/-- Settles O53. -/
theorem inboundRequests : Obligations.InboundRequests := by
  unfold Obligations.InboundRequests
  intro s port sub r stream ws sec data f at_ w0 w1
  dsimp only
  refine ⟨fun hlive hent hbare hclear hfree hstream htr hk hm ht => ?_, fun hlive hent hbare hclear hfree hstream htr hk hm ht => ?_, fun hlive hw hn hs => ?_, fun ⟨hats, htlbi⟩ => ?_,
    fun ⟨hats, htlbi⟩ hlim => ?_, fun hent hpri => ?_, fun hent hpri hroom halone hm => ?_, rfl⟩
  · obtain ⟨h1, h2, hlt, hmsi⟩ := hbare
    obtain ⟨hregion, ⟨hw, hd, ha, hc, hp, hr⟩, hlocal⟩ := hclear
    subst hstream
    have halone : s.Alone (r.iova.toNat / 64) := ⟨hw, hd, ha, hc, hp, hr⟩
    have hat := State.inboundAt_here (tag := s.streamWorld r.stream.toNat) (k := sub.val) (r := r) hlocal
      (by rw [hk]; exact halone.ioCheck hm (.port port.val) (fun h => absurd h (by decide)))
    rw [if_pos hk, halone.ioPut hm ht] at hat
    refine ⟨_, (State.inbound_here hlive (.inr hk) htr hent h1 h2 hlt hmsi hregion hw hfree.1 hfree.2).trans (congrArg Host.Outcome.next hat), rfl, rfl⟩
  · obtain ⟨h1, h2, hlt, hmsi⟩ := hbare
    obtain ⟨hregion, ⟨hw, hd, ha, hc, hp, hr⟩, hlocal⟩ := hclear
    subst hstream
    have halone : s.Alone (r.iova.toNat / 64) := ⟨hw, hd, ha, hc, hp, hr⟩
    have hat := State.inboundAt_here (tag := s.streamWorld r.stream.toNat) (k := sub.val) (r := r) hlocal
      (by rw [hk]; exact halone.ioCheck hm (.port port.val) (fun _ => ht))
    rw [if_neg (by rw [hk]; decide)] at hat
    exact (State.inbound_here hlive (.inl hk) htr hent h1 h2 hlt hmsi hregion hw hfree.1 hfree.2).trans (congrArg Host.Outcome.next hat)
  · obtain ⟨hcont, hup, hout, haway⟩ := hlive
    have hex : exec (.msiWrite port sub stream sec data) s = .next (s.assertSource (data.toNat % 4096)) := by
      change execMsiWrite port sub stream sec data s = _
      unfold execMsiWrite
      rw [hcont, hup, hout, haway, s.msi_asserts hw hn hs]
      rfl
    refine ⟨_, hex, fun he hb => (s.mem_assertSource _ _).mpr (.inr ⟨rfl, he, hb⟩), ?_⟩
    unfold State.assertSource
    split <;> rfl
  · obtain ⟨g, hdone, hop, hdst, htid⟩ := State.atsDone_last hats htlbi
    exact ⟨_, _, congrArg Host.Outcome.next hdone, rfl, State.send_net _ _, hop, hdst, htid, rfl⟩
  · let lost := if s.iommu.atsLost.contains stream then s.iommu.atsLost else stream :: s.iommu.atsLost
    obtain ⟨g, hdone, hop, hdst, htid⟩ := State.atsDone_last (s := { s with iommu := { s.iommu with atsLost := lost } }) hats htlbi
    have hlost : stream ∈ lost := by
      by_cases h : stream ∈ s.iommu.atsLost <;> simp [lost, h]
    have hex : exec (.atsTimeout stream) s = .next ({ s with iommu := { s.iommu with atsLost := lost } }.atsDone stream) := by
      change execAtsTimeout stream s = _
      unfold execAtsTimeout
      simp only [hats, List.find?_cons, beq_self_eq_true]
      exact if_neg (Nat.not_lt.mpr hlim)
    exact ⟨_, _, hex.trans (congrArg Host.Outcome.next hdone), hlost, rfl, rfl, State.send_net _ _, hop, hdst, htid, rfl⟩
  · change execPriPageRequest stream w0 w1 s = _
    unfold execPriPageRequest
    rw [State.streamEntry_cached hent]
    simp only [hpri, Bool.not_false, Bool.true_or, if_true]
  · obtain ⟨hw, hd, ha, hc, hp, hr⟩ := halone
    exact execPriPageRequest_takes w0 w1 hent hpri hroom ⟨hw, hd, ha, hc, hp, hr⟩ hm
end

section
/-! PROOF. The steps of a forme (20 R431, R434, R436, R441). -/

namespace Sys2Proof.Machine

section
variable {s : State} {e op : Nat} {w : Word}

/-! Engines. -/

theorem State.updFrm_frm (s : State) (e : Nat) (f : FrmEngine → FrmEngine) : (s.updFrm e f).frm e = f (s.frm e) := congrArg Die.frm (s.updDie_die e _)
theorem State.updFrm_die_other (s : State) (e : Nat) (f : FrmEngine → FrmEngine) {d : Nat} (h : d ≠ e) : (s.updFrm e f).die d = s.die d := s.updDie_die_other e d _ h

theorem State.updFrm_ring (s : State) (e : Nat) (f : FrmEngine → FrmEngine) (d : Nat) : ((s.updFrm e f).die d).ring = (s.die d).ring := by
  by_cases h : d = e
  · subst h
    rw [State.updFrm, State.updDie_die]
  · rw [s.updFrm_die_other e f h]

/-- The state u is s but for the engine of die e, which stands as y. -/
structure State.Engine (s : State) (e : Nat) (y : FrmEngine) (u : State) : Prop where
  frm : u.frm e = y
  die : ∀ d, d ≠ e → u.die d = s.die d
  threads : u.threads = s.threads
  mem : u.mem = s.mem
  ctl : u.ctl = s.ctl

theorem State.updFrm_engine (s : State) (e : Nat) (f : FrmEngine → FrmEngine) : s.Engine e (f (s.frm e)) (s.updFrm e f) :=
  ⟨s.updFrm_frm e f, fun _ h => s.updFrm_die_other e f h, rfl, rfl, rfl⟩
theorem State.Engine.trans {y z : FrmEngine} {u v : State} (h : s.Engine e y u) (k : u.Engine e z v) : s.Engine e z v :=
  ⟨k.frm, fun d hd => (k.die d hd).trans (h.die d hd), k.threads.trans h.threads, k.mem.trans h.mem, k.ctl.trans h.ctl⟩
theorem State.formeGo_engine (s : State) (e pc : Nat) : s.Engine e { s.frm e with pc := pc, polling := none, quiescing := false, calling := none } (s.formeGo e pc) :=
  s.updFrm_engine e (fun x => { x with pc := pc, polling := none, quiescing := false, calling := none })
theorem State.formeStep_engine (s : State) (e n : Nat) :
    s.Engine e { s.frm e with pc := (s.frm e).pc + n, polling := none, quiescing := false, calling := none } (s.formeStep e n) := s.formeGo_engine e _

/-- An engine that stands at a word runs a forme or its rollback. -/
theorem State.wordOf_busy (h : s.wordOf e op = some w) : (s.frm e).st ≠ .idle := by
  intro hidle
  unfold State.wordOf State.frmAwake at h
  dsimp only at h
  split at h
  · obtain ⟨hawake, -⟩ | ⟨-, h⟩ := ite_eq_iff.mp h
    · rw [hidle] at hawake
      simp at hawake
    · cases h
  · cases h
/-- The word an engine stands at is of the opcode asked for. -/
theorem State.wordOf_op (h : s.wordOf e op = some w) : fieldOf w 63 58 = op := by
  unfold State.wordOf at h
  dsimp only at h
  split at h
  · obtain ⟨hop, h⟩ | ⟨-, h⟩ := ite_eq_iff.mp h
    · cases h
      simp only [Bool.and_eq_true, beq_iff_eq] at hop
      exact hop.2
    · cases h
  · cases h

/-! Events of an engine (02 R51 to R54; 20 R436). -/

theorem State.event_frm (s : State) (d : Nat) (node : BitVec 12) (cls : BitVec 4) (world : Tag) (sev : BitVec 3) (code : BitVec 16) (stamp : Word)
    (payload : BitVec 128) (e : Nat) : (s.event d node cls world sev code stamp payload).frm e = s.frm e := by
  have hupd (u : State) (f : Die → Die) (hf : ∀ x, (f x).frm = x.frm) : (u.updDie d f).frm e = u.frm e := by
    unfold State.frm
    by_cases he : e = d
    · rw [he, State.updDie_die, hf]
    · rw [State.updDie_die_other _ _ _ _ he]
  unfold State.event State.putEvent
  dsimp only
  split
  · exact hupd _ _ fun _ => rfl
  · exact hupd _ _ fun _ => rfl

/-- An event of a later cycle is the last of its ring (02 R53). -/
theorem Die.ringTake_last (x : Die) {cap cyc : Nat} (hcap : 0 < cap) (h : x.ringCycle < cyc) (q : Event) : (x.ringTake cap cyc q).ring.getLast? = some q := by
  have hring : (x.ringTake cap cyc q).ring = if x.ring.length < cap then x.ring ++ [q] else (x.ring ++ [q]).drop 1 := by
    unfold Die.ringTake
    simp [h, cycleInsert]
  rw [hring]
  split
  · simp
  · next hlen =>
    cases hr : x.ring with
    | nil => rw [hr] at hlen; exact absurd hcap hlen
    | cons a r => simp

/-- An event of a later cycle stands last in the ring of its die, unless that is frozen. -/
theorem State.event_last (s : State) {d : Nat} {node : BitVec 12} {cls : BitVec 4} {world : Tag} {sev : BitVec 3} {code : BitVec 16} {stamp : Word}
    {payload : BitVec 128} (hfrozen : bit (s.die d).ephCtl 63 = false) (h : (s.die d).ringCycle < s.cycle) :
    ((s.event d node cls world sev code stamp payload).die d).ring.getLast? = some (s.newEvent d node cls world sev code stamp payload) := by
  have hcap : 0 < ringCap d := by
    unfold ringCap
    split <;> omega
  unfold State.event State.putEvent
  dsimp only
  rw [hfrozen, if_neg Bool.false_ne_true, State.updDie_die]
  exact Die.ringTake_last (s.die d) hcap h _

end

end Sys2Proof.Machine

open Sys2Proof Sys2Proof.Machine

/-- Settles O54. -/
theorem formeSteps : Obligations.FormeSteps := by
  unfold Obligations.FormeSteps
  intro s engine w v mask p
  dsimp only
  have goes {c : Instr} {y : FrmEngine} {u : State} (hex : exec c s = .next u) (h : s.Engine engine.val y u) :
      ∃ u, exec c s = .next u ∧ u.frm engine.val = y ∧ (∀ d, d ≠ engine.val → u.die d = s.die d) ∧ u.threads = s.threads ∧ u.mem = s.mem ∧ u.ctl = s.ctl :=
    ⟨u, hex, h.frm, h.die, h.threads, h.mem, h.ctl⟩
  refine ⟨fun hat => ?_, fun hat hh hw ho hp => ?_, fun hat hh hw hp => ?_, fun hat hh hlen hw ho hmay => ?_, fun hat hr => ?_, fun old hat hh hr hm hv hp => ?_,
    fun now hat hr hm hv => ⟨fun heq => ?_, fun hne hpoll => ?_⟩, fun hat => ?_, fun hat ht => ?_, fun hat hz => ?_, fun hat hz ht => ?_, fun hat hid hcls hcall => ?_, fun k hat hk hcls hcall hdone => ?_⟩
  · refine goes (u := s.formeStep engine.val 1) ?_ (s.formeStep_engine _ _)
    change execFormeNop engine s = _
    simp only [execFormeNop, hat]
  · obtain ⟨t, ht⟩ := Option.isSome_iff_exists.mp hp
    have hops : formeOperands w = 1 := by simp [formeOperands, State.wordOf_op hat, hw]
    change execFormeWrite engine s = _
    simp only [execFormeWrite, hat, hw, hh, ho, hops, State.formeWrite, ht, Bool.false_eq_true, if_false, Option.bind_some, Option.map_some, State.orFail, Option.getD_some]
  · obtain ⟨t, ht⟩ := Option.isSome_iff_exists.mp hp
    have hops : formeOperands w = 0 := by simp [formeOperands, State.wordOf_op hat, hw]
    change execFormeWrite engine s = _
    simp only [execFormeWrite, hat, hw, hh, hops, State.formeWrite, ht, Bool.false_eq_true, if_false, if_true, Option.bind_some, Option.map_some, State.orFail, Option.getD_some]
  · have hops : formeOperands w = 1 := by simp [formeOperands, State.wordOf_op hat, hw]
    let t := s.updFrm engine.val (fun x => { x with buffer := x.buffer ++ [(fieldOf w 39 0, v)] })
    have ht : s.Engine engine.val _ t := s.updFrm_engine _ _
    have hstep := ht.trans (t.formeStep_engine engine.val 2)
    rw [ht.frm] at hstep
    refine goes (u := t.formeStep engine.val 2) ?_ hstep
    change execFormeWrite engine s = _
    simp only [execFormeWrite, hat, hw, hh, ho, hops, State.formeWrite, hlen, hmay, Bool.false_eq_true, if_false, if_true, Option.bind_some, Option.map_some, State.orFail, decide_true, Bool.and_self]
    rfl
  · let t := s.updFrm engine.val (fun x => { x with acc := Tbl.set 0 x.acc (fieldOf w 56 54) v })
    have ht : s.Engine engine.val _ t := s.updFrm_engine _ _
    have hstep := ht.trans (t.formeStep_engine engine.val 1)
    rw [ht.frm] at hstep
    refine goes (u := t.formeStep engine.val 1) ?_ hstep
    change execFormeRead engine s = _
    simp only [execFormeRead, hat, hr, Option.map_some, State.orFail]
    rfl
  · obtain ⟨t, ht⟩ := Option.isSome_iff_exists.mp hp
    change execFormeRmw engine s = _
    simp only [execFormeRmw, hat, hr, hm, hv, hh, State.formeWrite, ht, Bool.false_eq_true, if_false, Option.map_some, State.orFail, Option.getD_some]
  · refine goes (u := s.formeStep engine.val 3) ?_ (s.formeStep_engine _ _)
    change execFormePoll engine s = _
    simp only [execFormePoll, hat, hr, hm, hv, heq, if_true]
  · change execFormePoll engine s = _
    simp only [execFormePoll, hat, hr, hm, hv, hne, hpoll, if_false, Option.isSome_none, Bool.false_eq_true]
  · let t := s.drawn.note (.forme engine.val) 3 (BitVec.ofNat 16 (fieldOf w 51 40)) (BitVec.ofNat 128 (Config.freeValue s.free))
    have hex : exec (.formeStamp engine) s = .next (t.formeStep engine.val 1) := by
      change execFormeStamp engine s = _
      simp only [execFormeStamp, hat]
      rfl
    have hstep := t.formeStep_engine engine.val 1
    have hfrm : t.frm engine.val = s.frm engine.val := State.event_frm _ _ _ _ _ _ _ _ _ _
    refine ⟨_, hex, ?_, hstep.threads.trans (State.event_threads _ _ _ _ _ _ _ _ _), hstep.mem.trans (State.event_reports _ _ _ _ _ _ _ _ _).mem, fun hfrozen hcyc => ?_⟩
    · rw [hstep.frm, hfrm]
    · have hring : ((t.formeStep engine.val 1).die engine.val).ring = (t.die engine.val).ring := t.updFrm_ring engine.val _ engine.val
      rw [hring]
      exact ⟨_, State.event_last s.drawn hfrozen hcyc, rfl, rfl, rfl, rfl⟩
  · refine goes (u := s.formeGo engine.val p) ?_ (s.formeGo_engine _ _)
    change execFormeJump engine s = _
    simp only [execFormeJump, hat, ht, Option.map_some, State.orFail]
  · refine goes (u := s.formeStep engine.val 1) ?_ (s.formeStep_engine _ _)
    change execFormeBrnz engine s = _
    simp only [execFormeBrnz, hat, hz, if_true]
  · refine goes (u := s.formeGo engine.val p) ?_ (s.formeGo_engine _ _)
    change execFormeBrnz engine s = _
    simp only [execFormeBrnz, hat, hz, ht, if_false, Option.map_some, State.orFail]
  · refine goes (u := s.formeStep engine.val 1) ?_ (s.formeStep_engine _ _)
    change execFormeCall engine s = _
    simp only [execFormeCall, hat, hid, libClass, hcls, State.libCall, State.wordOf_busy hat, decide_true, Bool.not_true, Bool.false_eq_true, if_false]
  · change execFormeCall engine s = _
    simp only [execFormeCall, hat, hk, hcls, hcall, Option.isNone_none, hdone, decide_true, Bool.not_true, Bool.false_eq_true, if_false]
end

section
/-! PROOF. Requests of the Monitor, and firmware of the MC (18 R404, R405, R407; 19 R418; 20 R443; 21 R448, R449, R453, R454). -/

namespace Sys2Proof.Machine

/-! Answers of the MC (21 R448). -/

/-- A table filled from a list at rising places. -/
theorem Tbl.get_foldl_zip (l : List Word) (a n : Nat) (t : Tbl Word) (k : Nat) :
    Tbl.get 0 (((List.range' a n).zip l).foldl (fun (r : Tbl Word) p => Tbl.set 0 r p.1 p.2) t) k =
      if a ≤ k ∧ k < a + n ∧ k - a < l.length then l.getD (k - a) 0 else Tbl.get 0 t k := by
  induction l generalizing a n t with
  | nil => simp
  | cons w l ih =>
    cases n with
    | zero =>
      rw [if_neg (by omega)]
      rfl
    | succ n =>
      rw [List.range'_succ, List.zip_cons_cons, List.foldl_cons, ih]
      by_cases hk : k = a
      · subst hk
        rw [if_neg (by omega), if_pos (by simp), Tbl.get_set_same]
        simp
      · rw [Tbl.get_set_other _ _ _ _ _ hk]
        by_cases h : a ≤ k
        · obtain ⟨j, rfl⟩ : ∃ j, k = a + 1 + j := ⟨k - a - 1, by omega⟩
          have hj : a + 1 + j - (a + 1) = j := by omega
          have hj' : a + 1 + j - a = j + 1 := by omega
          rw [hj, hj', List.getD_cons_succ, List.length_cons]
          refine if_congr ?_ rfl rfl
          omega
        · rw [if_neg (by omega), if_neg (by omega)]

section
variable (s : State)

/-- The words of an answer, the first naming its request and status. -/
theorem State.mcAnswer_rsp (w : Word) {status : Nat} (hst : status < 256) (payload : List Word) :
    fieldOf (Tbl.get 0 (s.mcAnswer w status payload).mc.rsp 0) 39 32 = status ∧ fieldOf (Tbl.get 0 (s.mcAnswer w status payload).mc.rsp 0) 31 0 = fieldOf w 31 0 ∧
      ∀ k, k < payload.length → k < 31 → Tbl.get 0 (s.mcAnswer w status payload).mc.rsp (k + 1) = payload.getD k 0 := by
  have hrsp (k : Nat) : Tbl.get 0 (s.mcAnswer w status payload).mc.rsp k = _ := (congrArg (Tbl.get 0 · k) (by unfold State.mcAnswer; rw [List.range_eq_range']; rfl)).trans
    (Tbl.get_foldl_zip (BitVec.ofNat 64 (fieldOf w 63 48 * 2 ^ 48 + payload.length * 2 ^ 40 + status * 2 ^ 32 + fieldOf w 31 0) :: payload) 0 32 [] k)
  have hlow : fieldOf w 31 0 < 2 ^ 32 := Nat.mod_lt _ (Nat.two_pow_pos _)
  refine ⟨?_, ?_, fun k hk hk' => ?_⟩
  · rw [hrsp, if_pos (by simp), Nat.sub_self, List.getD_cons_zero, fieldOf, BitVec.toNat_ofNat]
    omega
  · rw [hrsp, if_pos (by simp), Nat.sub_self, List.getD_cons_zero]
    generalize fieldOf w 31 0 = low at hlow
    rw [fieldOf, BitVec.toNat_ofNat]
    omega
  · rw [hrsp, if_pos (by simp; omega)]
    rfl

/-- An answer leaves the rest of the MC, and the threads. -/
theorem State.mcAnswer_frame (w : Word) (status : Nat) (payload : List Word) :
    (s.mcAnswer w status payload).mc = { s.mc with rsp := (s.mcAnswer w status payload).mc.rsp, rspPend := true } ∧ (s.mcAnswer w status payload).threads = s.threads := ⟨rfl, rfl⟩

/-- The MC has answered request r of state s in state u, which is s but for the answer. -/
structure State.Replies (s : State) (r : List Word) (status : Nat) (payload : List Word) (u : State) : Prop where
  inHand : u.mc.inHand = none
  pend : u.mc.rspPend = true
  status : fieldOf (Tbl.get 0 u.mc.rsp 0) 39 32 = status
  tag : fieldOf (Tbl.get 0 u.mc.rsp 0) 31 0 = fieldOf (r.getD 0 0) 31 0
  payload : ∀ k, k < payload.length → k < 31 → Tbl.get 0 u.mc.rsp (k + 1) = payload.getD k 0
  threads : u.threads = s.threads
  mem : u.mem = s.mem
  frisket : u.frisket = s.frisket
  power : u.power = s.power
  tries : u.mc.tries = s.mc.tries
  resetting : u.mc.resetting = s.mc.resetting
  rank : u.resetRank = s.resetRank
  paired : u.paired = s.paired
  pending : u.pending = s.pending
  part : u.part = s.part

theorem State.mcReply_replies (r : List Word) {status : Nat} (hst : status < 256) (payload : List Word) : ∃ u, s.mcReply r status payload = u ∧ s.Replies r status payload u := by
  obtain ⟨h0, h1, hk⟩ := State.mcAnswer_rsp { s with mc := { s.mc with inHand := none } } (r.getD 0 0) hst payload
  refine ⟨_, rfl, ?_⟩
  unfold State.mcReply
  exact ⟨rfl, rfl, h0, h1, hk, rfl, rfl, rfl, rfl, rfl, rfl, rfl, rfl, rfl, rfl⟩

/-! Records that name no thread. -/

theorem State.countCe_threads (world : Tag) : (s.countCe world).threads = s.threads := by
  have hnotify (u : State) (sec : Bool) (reg : Word) : (u.sendNotify sec reg).threads = u.threads := by
    unfold State.sendNotify
    dsimp only
    split
    · rfl
    · split
      · rfl
      · split <;> rfl
  unfold State.countCe
  extract_lets sec reg n hit n' e s₁
  have h₁ : s₁.threads = s.threads := rfl
  clear_value sec reg hit s₁
  split
  · split
    · exact (hnotify _ _ _).trans h₁
    · exact h₁
  · rfl

theorem State.record_threads (d : Nat) {r : RecordIn} (h : r.thread = none) : (s.record d r).1.threads = s.threads := by
  unfold State.record
  extract_lets st s₁ fin
  have h₁ : s₁.threads = s.threads := rfl
  have hfin : ∀ (u : State) (loc : BitVec 32), (fin u loc).1.threads = u.threads := fun u loc => by
    unfold fin
    extract_lets u₁ e u₂ u₃ u₄
    have h₂ : u₂.threads = u.threads := u.event_threads _ _ _ _ _ _ _ _
    have h₃ : u₃.threads = u.threads := by
      unfold u₃
      split
      · exact (u₂.countCe_threads _).trans h₂
      · exact h₂
    unfold u₄
    rw [h]
    exact h₃
  clear_value fin
  split
  · exact (hfin _ _).trans h₁
  · split
    · exact (hfin _ _).trans h₁
    · exact (hfin _ _).trans ((apply_ite State.threads _ _ _).trans (ite_self _))

theorem State.logError_threads (a : Agent) (code : BitVec 16) (sev : BitVec 3) (world : Tag) (pa : Option Nat) : (s.logError a code sev world pa none).threads = s.threads :=
  s.record_threads _ rfl

/-! Sessions and resets (18 R396 to R401; 21 R454). -/

/-- The state u has the part, the waiting commands, the MC, the Frisket and the keys of s. -/
structure State.Steady (s u : State) : Prop where
  part : u.part = s.part
  pending : u.pending = s.pending
  mc : u.mc = s.mc
  frisket : u.frisket = s.frisket
  keys : u.keys = s.keys

theorem State.Steady.refl : State.Steady s s := ⟨rfl, rfl, rfl, rfl, rfl⟩
theorem State.Steady.trans {s u v : State} (h : State.Steady s u) (k : State.Steady u v) : State.Steady s v :=
  ⟨k.part.trans h.part, k.pending.trans h.pending, k.mc.trans h.mc, k.frisket.trans h.frisket, k.keys.trans h.keys⟩
theorem State.Steady.foldl {α : Type} (f : State → α → State) (hf : ∀ (s : State) (a : α), State.Steady s (f s a)) (l : List α) (s : State) : State.Steady s (l.foldl f s) := by
  induction l generalizing s with
  | nil => exact .refl s
  | cons a l ih => exact (hf s a).trans (ih _)
theorem State.CoreLocal.steady {s u : State} {t : Nat} (h : State.CoreLocal t s u) : State.Steady s u := by
  rw [h.frame]
  exact ⟨rfl, rfl, rfl, rfl, rfl⟩
theorem State.Reports.steady {s u : State} (h : State.Reports s u) : State.Steady s u := by
  rw [h.frame]
  exact ⟨rfl, rfl, rfl, rfl, rfl⟩

theorem State.emptyL2_steady (c : Nat) : State.Steady s (s.emptyL2 c) := by
  have hc : 2 * c / 2 = c := Nat.mul_div_cancel_left c (by omega)
  refine .foldl _ (fun u line => ?_) _ s
  have h := u.l2Evict_coreLocal (2 * c) line
  rw [hc] at h
  exact h.steady
theorem State.emptyGal_steady (c : Nat) : State.Steady s (s.emptyGal c) := by
  have hc : 2 * c / 2 = c := Nat.mul_div_cancel_left c (by omega)
  refine .foldl _ (fun u e => ?_) _ s
  split
  · next v hv =>
    have h := State.galPush_coreLocal u (2 * c) e (hc.symm ▸ hv)
    exact h.steady.trans ⟨rfl, rfl, rfl, rfl, rfl⟩
  · exact .refl u

theorem State.sessionEvent_steady : State.Steady s s.sessionEvent := by
  unfold State.sessionEvent State.putEvent
  dsimp only
  split <;> exact ⟨rfl, rfl, rfl, rfl, rfl⟩

/-- A closed session leaves the part, the waiting commands, the MC and the keys. -/
theorem State.closeSession_frame : s.closeSession.part = s.part ∧ s.closeSession.pending = s.pending ∧ s.closeSession.mc = s.mc ∧ s.closeSession.frisket = { s.frisket with session := 0 } := by
  unfold State.closeSession
  split
  · next h => exact ⟨rfl, rfl, rfl, by rw [← h]⟩
  · have h := State.sessionEvent_steady { s with frisket := { s.frisket with session := 0 }, threads := mapTbl Thread.reset s.threads Thread.resumed }
    exact ⟨h.part, h.pending, h.mc, h.frisket⟩

@[simp] theorem State.setTries_pending (hi lo v : Nat) : (s.setTries hi lo v).pending = s.pending := rfl
@[simp] theorem State.setTries_part (hi lo v : Nat) : (s.setTries hi lo v).part = s.part := rfl
@[simp] theorem State.setTries_threads (hi lo v : Nat) : (s.setTries hi lo v).threads = s.threads := rfl
theorem State.setTries_minimal : bit (s.setTries 6 6 0).mc.tries 6 = false := by
  change bit (setField s.mc.tries 6 6 0) 6 = false
  rw [bit, setField_getLsbD _ _ _ (by omega)]
  rfl

/-- An attempt that begins stands in its stage. -/
theorem State.startAttempt_frame (kind trigger stage : BitVec 4) (up : Bool) :
    (s.startAttempt kind trigger stage up).mc.stage = stage ∧ (s.startAttempt kind trigger stage up).mc.resetting = true ∧ (s.startAttempt kind trigger stage up).pending = s.pending ∧
      (s.startAttempt kind trigger stage up).part = s.part ∧ (s.startAttempt kind trigger stage up).threads = s.threads := by
  unfold State.startAttempt
  extract_lets u n e m
  have hu : u.pending = s.pending ∧ u.part = s.part ∧ u.threads = s.threads := by
    unfold u
    split
    · simp only [State.setTries_pending, State.setTries_part, State.setTries_threads, and_self]
    · exact ⟨rfl, rfl, rfl⟩
  clear_value u
  exact ⟨rfl, rfl, hu⟩

/-- A cold reset begins stage 0x1 with every thread at its reset state (18 R399, R400). -/
theorem State.coldReset_frame (kind trigger : BitVec 4) (up : Bool) :
    (s.coldReset kind trigger up).mc.stage = 1 ∧ (s.coldReset kind trigger up).mc.resetting = true ∧ (s.coldReset kind trigger up).pending = s.pending ∧
      (s.coldReset kind trigger up).part = s.part ∧ (s.coldReset kind trigger up).threads = [] := by
  obtain ⟨hpart, hpend, -, -⟩ := s.closeSession_frame
  obtain ⟨hstage, hres, hpend', hpart', hthr⟩ := s.closeSession.wipe.startAttempt_frame kind trigger 1 up
  unfold State.coldReset State.swdBoot
  dsimp only
  exact ⟨hstage, hres, hpend'.trans hpend, hpart'.trans hpart, hthr⟩

/-- A cold reset that nothing outranks (18 R397). -/
theorem State.askCold_of {trigger : BitVec 4} (hh : s.mc.haltedBit = false) (hr : s.resetRank < 5) : s.askCold trigger = s.coldReset 1 trigger false := by
  unfold State.askCold
  rw [if_neg (by simp [hh]), if_neg (by omega)]

/-- A warm reset of a package on its own that nothing outranks begins stage 0xA (18 R397, R401). -/
theorem State.warmReset_frame (trigger : BitVec 4) (hh : s.mc.haltedBit = false) (ht : s.power.thermtrip = false) (hr : s.resetRank < 4) (hp : s.paired = false) :
    (s.warmReset trigger).mc.stage = 10 ∧ (s.warmReset trigger).mc.resetting = true ∧ (s.warmReset trigger).pending = s.pending ∧ (s.warmReset trigger).part = s.part := by
  obtain ⟨hpart, hpend, -, -⟩ := s.closeSession_frame
  obtain ⟨hstage, hres, hpend', hpart', -⟩ := s.closeSession.startAttempt_frame 3 trigger 10 false
  have hwarm : s.warmReset trigger = s.warmStart 3 trigger := by
    unfold State.warmReset
    rw [if_neg (by simp [hh, ht]), if_neg (by omega), if_neg (by simp [hp])]
  rw [hwarm]
  unfold State.warmStart
  extract_lets u mc v
  have h : State.Steady v _ := .foldl _ (fun u c => (u.emptyL2_steady c).trans ((u.emptyL2 c).emptyGal_steady c)) (v.cores.map Prod.fst) v
  rw [h.mc, h.pending, h.part]
  unfold v mc u State.swdBoot
  dsimp only
  exact ⟨hstage, hres, hpend'.trans hpend, hpart'.trans hpart⟩

end

end Sys2Proof.Machine

open Sys2Proof Sys2Proof.Machine

/-- Settles O56. -/
theorem mailboxRequests : Obligations.MailboxRequests := by
  unfold Obligations.MailboxRequests
  intro s r v i c stamp tai ns age
  dsimp only
  have answers {u v : State} {st : Nat} {l : List Word} (h : u.Replies r st l v) (hthr : u.threads = s.threads) : v.mc.inHand = none ∧ v.mc.rspPend = true ∧
      fieldOf (Tbl.get 0 v.mc.rsp 0) 39 32 = st ∧ fieldOf (Tbl.get 0 v.mc.rsp 0) 31 0 = fieldOf (r.getD 0 0) 31 0 ∧
      (∀ k, k < l.length → k < 31 → Tbl.get 0 v.mc.rsp (k + 1) = l.getD k 0) ∧ v.threads = s.threads :=
    ⟨h.inHand, h.pend, h.status, h.tag, h.payload, h.threads.trans hthr⟩
  refine ⟨fun h hres hst => ?_, fun h hst => ?_, fun h hbuf => ?_, fun h hbuf => ?_, fun h hb hh hrank => ?_, fun h hb hh ht hrank hp => ?_, fun h hr => ?_, fun h hr => ?_, fun h => ?_,
    fun h => ?_, fun h ht => ?_, fun h hsub => ?_, fun h hsub hl => ?_, fun h hsub hl => ?_, fun h hsub => ?_, fun hs ht hp => ?_, fun hs => ?_, fun hb hr hq => ?_, fun hs => ?_, ?_⟩
  · have hok : s.bootOk.threads = s.threads ∧ s.bootOk.mc.resetting = false ∧ fieldOf s.bootOk.mc.tries 2 0 = 0 := by
      unfold State.bootOk
      rw [if_neg (by simp [hres, hst])]
      refine ⟨(State.setTries_threads _ 2 0 0).trans rfl, rfl, fieldOf_setField_same _ _ (by omega)⟩
    obtain ⟨u, hu, hrep⟩ := s.bootOk.mcReply_replies r (by omega : 0 < 256) []
    refine ⟨u, ?_, answers hrep hok.1, hrep.resetting.trans hok.2.1, hrep.tries ▸ hok.2.2⟩
    change execMbxBootOk s = _
    simp [execMbxBootOk, h, hres, hst, okStatus, hu]
  · have hok : s.bootOk = s := if_pos (by rw [decide_eq_true hst, Bool.or_true])
    obtain ⟨u, hu, hrep⟩ := s.mcReply_replies r (by omega : 2 < 256) []
    refine ⟨u, ?_, answers hrep rfl, hrep.tries⟩
    change execMbxBootOk s = _
    simp only [execMbxBootOk, h, hok, beq_false_of_ne hst, Bool.and_false, okStatus, Bool.false_eq_true, if_false, hu]
  · obtain ⟨u, hu, hrep⟩ := (s.drawn.putCohBytes (r.getD 1 0).toNat ((Config.certChain s.free).take 16384)).mcReply_replies r (by omega : 0 < 256)
      [BitVec.ofNat 64 ((Config.certChain s.free).take 16384).length]
    refine ⟨u, ((Config.certChain s.free).take 16384).length, ?_, hrep.inHand, hrep.status, hrep.payload 0 (by simp) (by omega), List.length_take_le _ _⟩
    change execMbxGetChain s = _
    simp only [execMbxGetChain, h, hbuf, if_true, hu]
  · obtain ⟨u, hu, hrep⟩ := s.mcReply_replies r (by omega : 3 < 256) []
    refine ⟨u, ?_, answers hrep rfl, hrep.mem⟩
    change execMbxGetChain s = _
    simp only [execMbxGetChain, h, hbuf, Bool.false_eq_true, if_false, hu]
  · obtain ⟨u, hu, hrep⟩ := s.mcReply_replies r (by omega : 0 < 256) []
    obtain ⟨h1, h2, h3, h4, h5⟩ := u.coldReset_frame 1 3 false
    refine ⟨u.coldReset 1 3 false, ?_, ⟨h1, h2, h3.trans hrep.pending, h4.trans hrep.part⟩, h5⟩
    change execMbxResetCold s = _
    simp only [execMbxResetCold, h, hb, Bool.false_eq_true, if_false, hu]
    rw [State.askCold_of _ (by rw [Mc.haltedBit, hrep.tries]; exact hh) (by rw [hrep.rank]; exact hrank)]
  · obtain ⟨u, hu, hrep⟩ := s.mcReply_replies r (by omega : 0 < 256) []
    obtain ⟨h1, h2, h3, h4⟩ := u.warmReset_frame 3 (by rw [Mc.haltedBit, hrep.tries]; exact hh) (by rw [hrep.power]; exact ht) (by rw [hrep.rank]; exact hrank) (hrep.paired.trans hp)
    refine ⟨u.warmReset 3, ?_, h1, h2, h3.trans hrep.pending, h4.trans hrep.part⟩
    change execMbxResetWarm s = _
    simp only [execMbxResetWarm, h, hb, if_true, hu]
  · have hask : s.askP5 true = ({ s with power := { s.power with p5Asked := true } }, true) := by simp [State.askP5, hr]
    obtain ⟨u, hu, hrep⟩ := State.mcReply_replies { s with power := { s.power with p5Asked := true } } r (by omega : 0 < 256) []
    refine ⟨u, ?_, answers hrep rfl, congrArg Power.p5Asked hrep.power⟩
    change execMbxP5Enter s = _
    simp only [execMbxP5Enter, h, hask, okStatus, if_true, hu]
  · have hask : s.askP5 true = (s, false) := by simp [State.askP5, hr]
    obtain ⟨u, hu, hrep⟩ := s.mcReply_replies r (by omega : 2 < 256) []
    refine ⟨u, ?_, answers hrep rfl, hrep.power⟩
    change execMbxP5Enter s = _
    simp only [execMbxP5Enter, h, hask, okStatus, Bool.false_eq_true, if_false, hu]
  · obtain ⟨u, hu, hrep⟩ := (s.setTries 6 6 0).mcReply_replies r (by omega : 0 < 256) []
    refine ⟨u, ?_, answers hrep rfl, ?_⟩
    · change execMbxClearMinimal s = _
      simp only [execMbxClearMinimal, h, hu]
    · rw [hrep.tries]
      exact s.setTries_minimal
  · obtain ⟨u, hu, hrep⟩ := s.mcReply_replies r (by omega : 0 < 256) [s.bootReason (2 * ((r.getD 1 0).toNat % 16)), s.bootReason (2 * ((r.getD 1 0).toNat % 16) + 1)]
    refine ⟨u, ?_, answers hrep rfl, hrep.mem⟩
    change execMbxBootReason s = _
    simp only [execMbxBootReason, h, hu]
  · have hwords : s.telemetryWords = v.setWidth 64 :: i.setWidth 64 :: c.setWidth 64 :: (List.range 17).map (fun k => Config.sensor (s.free + k)) := by
      simp [State.telemetryWords, ht]
    obtain ⟨u, hu, hrep⟩ := State.mcReply_replies { s with free := s.free + 20 } r (by omega : 0 < 256) s.telemetryWords
    have hrep' : State.Replies { s with free := s.free + 20 } r 0 [v.setWidth 64, i.setWidth 64, c.setWidth 64] u := { hrep with
      payload := fun k hk hk' => by
        rw [hwords] at hrep
        simp only [List.length_cons, List.length_nil] at hk
        rw [hrep.payload k (by simp; omega) hk']
        interval_cases k <;> rfl }
    refine ⟨u, ?_, answers hrep' rfl, hrep.mem⟩
    change execMbxTelemetry s = _
    simp only [execMbxTelemetry, h, hu]
  · obtain ⟨u, hu, hrep⟩ := s.mcReply_replies r (by omega : 0 < 256) s.frisket.words
    refine ⟨u, ?_, answers hrep rfl, hrep.frisket⟩
    change execMbxFrisketRead s = _
    simp only [execMbxFrisketRead, h, hsub, beq_self_eq_true, if_true, hu]
  · have hto : s.toField = ({ s with frisket := { s.frisket with life := .field } }, true) := by simp [State.toField, hl]
    obtain ⟨u, hu, hrep⟩ := State.mcReply_replies { s with frisket := { s.frisket with life := .field } } r (by omega : 0 < 256) []
    refine ⟨u, ?_, answers hrep rfl, hrep.frisket⟩
    change execMbxFrisketEnterField s = _
    simp only [execMbxFrisketEnterField, h, hsub, hto, okStatus, beq_self_eq_true, if_true, hu]
  · have hto : s.toField = (s, false) := by simp [State.toField, hl]
    obtain ⟨u, hu, hrep⟩ := s.mcReply_replies r (by omega : 2 < 256) []
    refine ⟨u, ?_, answers hrep rfl, hrep.frisket⟩
    change execMbxFrisketEnterField s = _
    simp only [execMbxFrisketEnterField, h, hsub, hto, okStatus, beq_self_eq_true, if_true, Bool.false_eq_true, if_false, hu]
  · obtain ⟨-, -, -, hfr⟩ := s.closeSession_frame
    obtain ⟨u, hu, hrep⟩ := s.closeSession.mcReply_replies r (by omega : 0 < 256) []
    refine ⟨u, ?_, hrep.frisket.trans hfr, hrep.inHand, hrep.status⟩
    change execMbxFrisketClose s = _
    simp only [execMbxFrisketClose, h, hsub, beq_self_eq_true, if_true, hu]
  · have hex : exec .timePair s = .next ({ s with mc := { s.mc with tod := none } }.mcAnswer 0x0002000000000000 0 [stamp, tai, ns, age]) := by
      change execTimePair s = _
      simp only [execTimePair, hs, ht, hp, Bool.not_false, Bool.and_self, if_true]
    obtain ⟨-, -, hk⟩ := State.mcAnswer_rsp { s with mc := { s.mc with tod := none } } 0x0002000000000000 (by omega : 0 < 256) [stamp, tai, ns, age]
    obtain ⟨hmc, hthr⟩ := State.mcAnswer_frame { s with mc := { s.mc with tod := none } } 0x0002000000000000 0 [stamp, tai, ns, age]
    generalize State.mcAnswer _ _ _ _ = u at hex hk hmc hthr
    exact ⟨u, hex, by rw [hmc], by rw [hmc], hk 0 (by simp) (by omega), hk 1 (by simp) (by omega), hk 2 (by simp) (by omega), hk 3 (by simp) (by omega), hthr⟩
  · have hlog := s.logError_reports .mc 0x0D02 3 0xFFF none none
    have hex : exec .mcFwFault s = .next (s.logError .mc 0x0D02 3 0xFFF none none).mcRestart := by
      change execMcFwFault s = _
      simp only [execMcFwFault, hs, Bool.not_true, Bool.false_eq_true, if_false]
      rfl
    have hmc := hlog.steady.mc
    have hthr := s.logError_threads .mc 0x0D02 3 0xFFF none
    have hmem := hlog.mem
    clear hlog
    generalize s.logError .mc 0x0D02 3 0xFFF none none = u at hex hmc hthr hmem
    exact ⟨_, hex, rfl, rfl, congrArg Mc.inHand hmc, hthr, hmem⟩
  · have hex : exec .mcRestartDone s = .next ({ s with mc := { s.mc with restarting := false, restartReq := none } }.mcAnswer (r.getD 0 0) 4 []) := by
      change execMcRestartDone s = _
      simp only [execMcRestartDone, hb, hr, hq, Bool.and_self, if_true]
    obtain ⟨h0, -, -⟩ := State.mcAnswer_rsp { s with mc := { s.mc with restarting := false, restartReq := none } } (r.getD 0 0) (by omega : 4 < 256) []
    obtain ⟨hmc, hthr⟩ := State.mcAnswer_frame { s with mc := { s.mc with restarting := false, restartReq := none } } (r.getD 0 0) 4 []
    generalize State.mcAnswer _ _ _ _ = u at hex h0 hmc hthr
    exact ⟨u, hex, by rw [hmc], h0, by rw [hmc], hthr⟩
  · have hex : exec (.mcFwUpdate true) s = .next ({ s with mc := { s.mc with imageB := !s.mc.imageB } }.mcRestart) := by
      change execMcFwUpdate true s = _
      simp only [execMcFwUpdate, hs, Bool.and_self, if_true]
    exact ⟨_, hex, rfl, rfl, rfl, rfl⟩
  · change execMcFwUpdate false s = _
    simp only [execMcFwUpdate, Bool.and_false, Bool.false_eq_true, if_false]
end

section
/-! PROOF. Commands of the BMC, the Frisket and the test access (18 R405, R406; 19 R420; 21 R446, R450 to R458). -/

namespace Sys2Proof.Machine

section
variable (s : State)

/-! The BMC (21 R450). -/

/-- A command of the BMC, while the MC serves. -/
theorem State.bmc_serves {s t u v : State} (h : s.mcServes = true) (hu : t = u) : (Host.Outcome.next (if s.mcServes then t else v) : Host.Outcome State Fault Refusal) = .next u := by
  rw [if_pos h, hu]

/-- A record is freed under its generation (19 R420). -/
theorem State.freeRecord_gen {d slot : Nat} {gen : BitVec 16} (hv : (s.slot d slot).valid = true) (hg : (s.slot d slot).gen = gen) :
    s.freeRecord d slot (BitVec.ofNat 64 (2 ^ 63 + gen.toNat * 2 ^ 32)) = s.setSlot d slot (Record.free gen) := by
  have hlt := gen.isLt
  have hbit : bit (BitVec.ofNat 64 (2 ^ 63 + gen.toNat * 2 ^ 32)) 63 = true := by
    rw [bit, BitVec.getLsbD_ofNat, Nat.testBit_two_pow_add_eq, Nat.testBit_lt_two_pow (by omega)]
    rfl
  have hfield : fieldOf (BitVec.ofNat 64 (2 ^ 63 + gen.toNat * 2 ^ 32)) 47 32 = gen.toNat := by
    rw [fieldOf, BitVec.toNat_ofNat]
    omega
  unfold State.freeRecord
  simp only [hbit, hv, hfield, hg, beq_self_eq_true, Bool.and_self, if_true]

theorem State.setSlot_slot (d i : Nat) (r : Record) : (s.setSlot d i r).slot d i = r := by
  rw [State.setSlot, State.slot, State.updDie_die, Tbl.get_set_same]
  rfl

/-- No thread of a closed session is stopped by it (21 R454). -/
theorem Thread.resumed_run (x : Thread) : x.resumed.run ≠ .debug := by
  unfold Thread.resumed
  split
  · exact fun h => nomatch h
  · next h => exact fun hr => h (by rw [hr]; rfl)

/-- What every value of a mapped table has. -/
theorem get_mapTbl {β : Type} [DecidableEq β] (P : β → Prop) (d : β) (t : Tbl β) (f : β → β) (hd : P d) (hf : ∀ x, P (f x)) (k : Nat) : P (Tbl.get d (mapTbl d t f) k) := by
  have hfold : ∀ r : Tbl β, (∀ k, P (Tbl.get d r k)) → ∀ k, P (Tbl.get d (t.foldl (fun r p => Tbl.set d r p.1 (f p.2)) r) k) := by
    induction t with
    | nil => exact fun r hr => hr
    | cons p t ih =>
      refine fun r hr => ih _ fun k => ?_
      by_cases hk : k = p.1
      · rw [hk, Tbl.get_set_same]
        exact hf _
      · rw [Tbl.get_set_other _ _ _ _ _ hk]
        exact hr k
  exact hfold [] (fun _ => hd) k

theorem State.closeSession_run (h : s.frisket.session ≠ 0) (j : Nat) : (s.closeSession.thr j).run ≠ .debug := by
  have hthr : s.closeSession.threads = mapTbl Thread.reset s.threads Thread.resumed := by
    unfold State.closeSession
    rw [if_neg h]
    unfold State.sessionEvent State.putEvent
    dsimp only
    split <;> rfl
  rw [State.thr, hthr]
  exact get_mapTbl (fun x : Thread => x.run ≠ .debug) _ _ _ (by decide) Thread.resumed_run j

/-- A cold reset leaves BOOT_TRIES while fewer attempts than LIMIT have failed (18 R405). -/
theorem State.coldReset_tries (kind trigger : BitVec 4) (up : Bool) (h : s.mc.count < s.mc.limit) : (s.coldReset kind trigger up).mc.tries = s.mc.tries := by
  obtain ⟨-, -, hmc, -⟩ := s.closeSession_frame
  have hwipe : s.closeSession.wipe.mc.tries = s.mc.tries := by
    rw [← hmc]
    rfl
  have hlow : decide (s.closeSession.wipe.mc.count ≥ s.closeSession.wipe.mc.limit) = false := by
    rw [Mc.count, Mc.limit, hwipe]
    exact decide_eq_false (Nat.not_le.mpr h)
  unfold State.coldReset State.swdBoot State.startAttempt
  simp only [hlow, Bool.and_false, Bool.false_eq_true, if_false]
  exact hwipe

/-- The reset that clears HALTED begins stage 0x1 in neither HALTED nor minimal mode (18 R406). -/
theorem State.clearHalted_frame (hl : 0 < s.mc.limit) :
    let u := (((s.setTries 7 7 0).setTries 6 6 0).setTries 2 0 0).coldReset 1 2 false
    (u.mc.stage = 1 ∧ u.mc.resetting = true ∧ u.pending = s.pending ∧ u.part = s.part) ∧ u.mc.haltedBit = false ∧ u.mc.minimal = false ∧ u.threads = [] := by
  intro u
  obtain ⟨h1, h2, h3, h4, h5⟩ := State.coldReset_frame (((s.setTries 7 7 0).setTries 6 6 0).setTries 2 0 0) 1 2 false
  have htries : (((s.setTries 7 7 0).setTries 6 6 0).setTries 2 0 0).mc.tries = setField (setField (setField s.mc.tries 7 7 0) 6 6 0) 2 0 0 := rfl
  have hcount : fieldOf (setField (setField (setField s.mc.tries 7 7 0) 6 6 0) 2 0 0) 2 0 = 0 := fieldOf_setField_same _ 0 (by omega)
  have hlimit : fieldOf (setField (setField (setField s.mc.tries 7 7 0) 6 6 0) 2 0 0) 5 3 = s.mc.limit := by
    rw [fieldOf_setField_other _ _ (by omega) (by omega), fieldOf_setField_other _ _ (by omega) (by omega), fieldOf_setField_other _ _ (by omega) (by omega)]
    rfl
  have hkeep := State.coldReset_tries (((s.setTries 7 7 0).setTries 6 6 0).setTries 2 0 0) 1 2 false (by rw [Mc.count, Mc.limit, htries, hcount, hlimit]; exact hl)
  have hclear (i : Nat) (hi : i = 6 ∨ i = 7) : bit u.mc.tries i = false := by
    rw [hkeep, htries, bit, setField_getLsbD _ _ _ (by omega), if_neg (by omega), setField_getLsbD _ _ _ (by omega)]
    obtain rfl | rfl := hi
    · rfl
    · rw [if_neg (by omega), setField_getLsbD _ _ _ (by omega)]
      rfl
  simp only [State.setTries_pending, State.setTries_part] at h3 h4
  exact ⟨⟨h1, h2, h3, h4⟩, hclear 7 (.inr rfl), hclear 6 (.inl rfl), h5⟩

/-! The Frisket (21 R455, R458). -/

/-- A failed proof counts, and the eighth locks. -/
theorem State.frkFail_eq : s.frkFail = { s with frisket :=
    (let g : Frisket := { s.frisket with fails := min 8 (s.frisket.fails + 1), savedFails := min 8 (s.frisket.fails + 1) }
     if s.frisket.fails + 1 < 8 then g else { g with locked := true, lockUntil := s.stamp 16 + BitVec.ofNat 64 (msTicks 86400000) }) } := by
  unfold State.frkFail
  dsimp only
  by_cases h : s.frisket.fails + 1 < 8
  · rw [if_pos h, if_neg (by omega)]
  · rw [if_neg h, if_pos (by omega)]

variable {nonce : BitVec 256} {st : Word} {rest : List (BitVec 2 × BitVec 256 × Word)} {level : BitVec 2}

/-- A proof that fails leaves its challenge and counts. -/
theorem State.frkProof_fails (ho : s.frkOpen = true) (hl : s.frkLive = (level, nonce, st) :: rest) {n : BitVec 2} {ok : Bool} (h : (ok && level == n) = false) (opens : State → State) :
    s.frkProof n ok opens = State.frkFail { s with frisket := { s.frisket with challenges := rest } } := by
  unfold State.frkProof
  simp only [ho, hl, h, Bool.not_true, Bool.false_eq_true, if_false]
/-- A proof in its level clears FAILS and opens. -/
theorem State.frkProof_opens (ho : s.frkOpen = true) (hl : s.frkLive = (level, nonce, st) :: rest) (opens : State → State) :
    s.frkProof level true opens = opens { s with frisket := { s.frisket with challenges := rest, fails := 0, savedFails := 0 } } := by
  unfold State.frkProof
  simp only [ho, hl, beq_self_eq_true, Bool.and_self, Bool.not_true, Bool.false_eq_true, if_false, if_true]

theorem State.openSession_frisket (n : BitVec 2) : (s.openSession n).frisket = { s.frisket with session := n } ∧ (s.openSession n).keys = s.keys := by
  have h := State.sessionEvent_steady { s with frisket := { s.frisket with session := n } }
  exact ⟨h.frisket, h.keys⟩

theorem State.noteFree_steady (a : Agent) (cls : BitVec 4) : State.Steady s (s.noteFree a cls) := by
  unfold State.noteFree
  extract_lets code pay
  have h := State.note_reports { s with free := s.free + 2 } a cls code pay
  exact ⟨h.steady.part, h.steady.pending, h.steady.mc, h.steady.frisket, h.steady.keys⟩
theorem State.linkState_steady (p : Nat) (x : LinkState) : State.Steady s (s.linkState p x) := by
  unfold State.linkState State.assertSource
  have hnote : State.Steady s ((s.updLink p (fun l => { l with st := x })).noteFree (.link p) 5) :=
    State.Steady.trans (u := s.updLink p (fun l => { l with st := x })) ⟨rfl, rfl, rfl, rfl, rfl⟩ (State.noteFree_steady _ _ _)
  split
  · exact .refl s
  · split
    · exact hnote.trans ⟨rfl, rfl, rfl, rfl, rfl⟩
    · exact hnote
theorem State.linksDown_steady : State.Steady s s.linksDown := by
  unfold State.linksDown
  have hupd (u : State) (p : Nat) (f : LinkPort → LinkPort) : State.Steady u (u.updLink p f) := ⟨rfl, rfl, rfl, rfl, rfl⟩
  exact (hupd s 8 _).trans (.foldl _ (fun u p => (hupd u p _).trans (State.linkState_steady _ p .down)) _ _)

/-- The erasure takes the keys and revokes every slot (21 R456). -/
theorem State.eraseSecure_frame : s.eraseSecure.keys = [] ∧ s.eraseSecure.frisket = { s.frisket with slots := s.frisket.slots.map (fun q => (q.1, true)) } := by
  unfold State.eraseSecure
  extract_lets secret u v w x
  have hu : u.keys = [] ∧ u.frisket = s.frisket := ⟨rfl, rfl⟩
  have hv : State.Steady u v := State.Steady.foldl (fun u l => u.putCoh l 0) (fun u l => ⟨rfl, rfl, rfl, rfl, rfl⟩) _ u
  have hw : w.keys = v.keys ∧ w.frisket = v.frisket := ⟨rfl, rfl⟩
  have hx : State.Steady w x := w.linksDown_steady
  have hlast (x : State) (h : x.keys = []) (k : x.frisket = s.frisket) :
      ({ x with frisket := { x.frisket with slots := x.frisket.slots.map (fun q => (q.1, true)) } } : State).keys = [] ∧
        ({ x with frisket := { x.frisket with slots := x.frisket.slots.map (fun q => (q.1, true)) } } : State).frisket = { s.frisket with slots := s.frisket.slots.map (fun q => (q.1, true)) } := by
    rw [← k]
    exact ⟨h, rfl⟩
  exact hlast x (hx.keys.trans (hw.1.trans (hv.keys.trans hu.1))) (hx.frisket.trans (hw.2.trans (hv.frisket.trans hu.2)))

end

/-! The test access (21 R457). -/

theorem State.onReached_of {s : State} {t : Nat} (hp : s.thrPresent t = true) (hr : s.sessionReaches t = true) {f : Thread → Thread} {y : Thread} (h : f (s.thr t) = y) :
    s.onReached t f = s.updThr t (fun _ => y) := by
  unfold State.onReached
  rw [hp, hr, ← h]
  rfl
theorem State.onReached_closed {s : State} {t : Nat} (h : s.frisket.session = 0) (f : Thread → Thread) : s.onReached t f = s := by
  have hr : s.sessionReaches t = false := by simp [State.sessionReaches, h]
  unfold State.onReached
  rw [hr, Bool.and_false]
  rfl

end Sys2Proof.Machine

open Sys2Proof Sys2Proof.Machine

/-- Settles O57. -/
theorem bmcFrisketAndTest : Obligations.BmcFrisketAndTest := by
  unfold Obligations.BmcFrisketAndTest
  intro s n die slot gen tai ns age st key nonce level rest b k t idx val w addr
  dsimp only
  refine ⟨fun hs => ⟨?_, ?_, ?_, ?_, ?_, fun hv hg => ?_, ?_, fun hh hr => ?_, fun hh ht hr hp => ?_, fun hr hb => ?_, fun hp => ?_, fun hh hl => ?_, ?_, fun hl hn => ?_, ?_, fun hk hn => ?_,
    fun hk hl => ?_, ?_⟩, fun ho => ⟨fun hl => ?_, fun hl => ?_, fun hl => ?_⟩, fun hl ht => ?_, ?_, fun hp hr => ⟨fun hrun hi => ?_, fun hrun => ?_, fun hrun => ?_, fun hlo hhi => ?_⟩, fun h op => ?_, fun h hr => ?_⟩
  · exact State.bmc_serves hs rfl
  · exact State.bmc_serves hs rfl
  · exact State.bmc_serves hs rfl
  · exact ⟨_, State.bmc_serves hs rfl, rfl⟩
  · exact ⟨_, State.bmc_serves hs rfl, rfl⟩
  · refine ⟨_, State.bmc_serves hs ((s.freeRecord_gen hv hg)), ?_, ?_, rfl⟩
    · rw [State.setSlot_slot]
      rfl
    · rw [State.setSlot_slot]
      rfl
  · exact State.bmc_serves hs rfl
  · obtain ⟨h1, h2, h3, h4, h5⟩ := s.coldReset_frame 1 2 false
    exact ⟨_, State.bmc_serves hs ((s.askCold_of hh hr)), ⟨h1, h2, h3, h4⟩, h5⟩
  · exact ⟨_, State.bmc_serves hs rfl, s.warmReset_frame 2 hh ht hr hp⟩
  · refine State.bmc_serves hs ?_
    simp [State.askP5, hr, hb]
  · exact State.bmc_serves hs ((if_pos (by rw [hp]; rfl)))
  · exact ⟨_, State.bmc_serves hs (if_pos hh), s.clearHalted_frame hl⟩
  · exact ⟨_, State.bmc_serves hs rfl, s.setTries_minimal, s.setTries_threads 6 6 0⟩
  · refine State.bmc_serves hs ((if_pos ?_))
    obtain hl | hl := hl <;> simp [hl, hn]
  · exact State.bmc_serves hs ((if_neg (by simp)))
  · refine ⟨{ s with frisket := { s.frisket with slots := s.frisket.slots.zipIdx.map (fun p => if p.2 = k then (p.1.1, true) else p.1) } }, ?_, fun j => ?_⟩
    · refine State.bmc_serves hs ?_
      have hlast : decide (s.frisket.slots.length = 4) = false := decide_eq_false (by omega)
      simp only [hk, hlast, Bool.false_and, Bool.not_false, Bool.and_self, if_true]
    · simp only [List.getElem?_map, List.getElem?_zipIdx, Option.map_map]
      rw [Nat.zero_add]
      rfl
  · refine State.bmc_serves hs ?_
    simp [hk, State.toField, hl]
  · exact ⟨_, State.bmc_serves hs rfl, s.closeSession_frame.2.2.2, fun h j => s.closeSession_run h j⟩
  · refine ⟨_, if_pos ?_, rfl, rfl⟩
    obtain rfl | rfl := hl <;> rw [ho] <;> rfl
  · have hfail {o : State → State} : s.frkProof 1 false o = _ := (s.frkProof_fails ho hl rfl o).trans (State.frkFail_eq _)
    have hopen : ∃ u, s.frkProof 1 true (fun u => u.openSession 1) = u ∧ u.frisket.session = 1 ∧ u.frisket.fails = 0 ∧ u.frisket.challenges = rest := by
      refine ⟨_, s.frkProof_opens ho hl _, ?_⟩
      rw [(State.openSession_frisket _ 1).1]
      exact ⟨rfl, rfl, rfl⟩
    refine ⟨fun _ => ?_, congrArg Host.Outcome.next hfail, congrArg Host.Outcome.next hfail, fun hk _ => ?_⟩
    · obtain ⟨u, hu, h⟩ := hopen
      exact ⟨u, congrArg Host.Outcome.next hu, h⟩
    · obtain ⟨u, hu, h⟩ := hopen
      refine ⟨u, ?_, h⟩
      change execFrisketOwnerProof true s = _
      rw [execFrisketOwnerProof, hk]
      exact congrArg Host.Outcome.next hu
  · have hfail {o : State → State} : s.frkProof 2 false o = _ := (s.frkProof_fails ho hl rfl o).trans (State.frkFail_eq _)
    have hopen : ∃ u, s.frkProof 2 true (fun u => u.eraseSecure.returned.openSession 2) = u ∧ u.frisket.session = 2 ∧ u.frisket.fails = 0 ∧ u.frisket.challenges = rest ∧
        u.frisket.life = .returned ∧ u.keys = [] ∧ ∀ q ∈ u.frisket.slots, q.2 = true := by
      refine ⟨_, s.frkProof_opens ho hl _, ?_⟩
      obtain ⟨hf, hk⟩ := State.openSession_frisket (State.returned (State.eraseSecure { s with frisket := { s.frisket with challenges := rest, fails := 0, savedFails := 0 } })) 2
      obtain ⟨hek, hef⟩ := State.eraseSecure_frame { s with frisket := { s.frisket with challenges := rest, fails := 0, savedFails := 0 } }
      rw [hf, hk]
      unfold State.returned
      dsimp only
      rw [hek, hef]
      exact ⟨rfl, rfl, rfl, rfl, rfl, fun q hq => by obtain ⟨a, -, rfl⟩ := List.mem_map.mp hq; rfl⟩
    have hex (hk : s.frisket.ownerSlot = some k) : exec (.frisketVendorProof true true) s = .next (s.frkProof 2 true (fun u => u.eraseSecure.returned.openSession 2)) := by
      change execFrisketVendorProof true true s = _
      rw [execFrisketVendorProof, hk]
      rfl
    obtain ⟨u, hu, hses, hfails, hch, hlife, hkeys, hslots⟩ := hopen
    rw [hu] at hex
    exact ⟨congrArg Host.Outcome.next hfail, congrArg Host.Outcome.next hfail, fun hk => ⟨fun _ => ⟨u, hex hk, hses, hfails, hch⟩, u, hex hk, hlife, hkeys, hslots⟩⟩
  · exact if_pos (by rw [hl, decide_eq_true ht]; rfl)
  · simp only [List.forall_mem_cons]
    exact ⟨rfl, rfl, rfl, by simp⟩
  · refine congrArg Host.Outcome.next (State.onReached_of hp hr ?_)
    unfold Thread.debugStop
    obtain hrun | hrun := hrun <;> simp [hrun, hi]
  · refine congrArg Host.Outcome.next (State.onReached_of hp hr ?_)
    simp [Thread.debugGo, hrun]
  · refine congrArg Host.Outcome.next (State.onReached_of hp hr ?_)
    simp [Thread.debugGo, hrun]
  · exact (if_pos (decide_eq_true ⟨hlo, hhi⟩)).trans (congrArg Host.Outcome.next (State.onReached_of hp hr rfl))
  · cases op with
    | bypass => rfl
    | idcode => rfl
    | boundaryScan => rfl
    | stopThread t => exact congrArg Host.Outcome.next (State.onReached_closed h _)
    | stepThread t => exact congrArg Host.Outcome.next (State.onReached_closed h _)
    | resumeThread t => exact congrArg Host.Outcome.next (State.onReached_closed h _)
    | writeDebugReg t idx val =>
      change (if decide (0x150 ≤ idx.toNat ∧ idx.toNat ≤ 0x158) = true then _ else _) = _
      rw [State.onReached_closed h, ite_self]
    | readMemory addr => exact if_pos h
  · change execTestAccessInstruction (.readMemory addr) s = _
    simp only [execTestAccessInstruction, h, hr, if_false]
    rfl
end

section
/-! PROOF. Every step answers a next state and keeps memory canonical (00 R2, R3): one lemma for each operation of the model, in the order of the model, up to
`exec` and `step`. -/

namespace Sys2Proof.Machine

/-- The memory of the state is in its canonical form, and its part and stepping are p and q. -/
structure State.Kept (p : BitVec 8) (q : BitVec 4) (s : State) : Prop where
  mem : memWf s.mem = true
  part : s.part = p
  stepping : s.stepping = q
/-- An outcome is a next state of this kind. -/
def Goes (p : BitVec 8) (q : BitVec 4) (o : Host.Outcome State Fault Refusal) : Prop := ∃ u : State, o = .next u ∧ u.Kept p q

section
-- One proof after another: hundreds of short proofs elaborated at once need more threads than the check grants.
set_option Elab.async false
variable {p : BitVec 8} {q : BitVec 4} {s : State}

/-! How such states combine. -/

theorem Goes.next (h : s.Kept p q) : Goes p q (.next s) := ⟨s, rfl, h⟩
theorem State.Kept.foldl {α : Type} {f : State → α → State} (hf : ∀ (s : State) (a : α), s.Kept p q → (f s a).Kept p q) {l : List α} {s : State}
    (h : s.Kept p q) :
    (l.foldl f s).Kept p q := by
  induction l generalizing s with
  | nil => exact h
  | cons a l ih => exact ih (hf s a h)

theorem State.Reports.kept {u : State} (hr : State.Reports s u) (h : s.Kept p q) : u.Kept p q := by
  rw [hr.frame]
  exact ⟨h.mem, h.part, h.stepping⟩

theorem State.CoreLocal.kept {u : State} {n : Nat} (hr : State.CoreLocal n s u) (h : s.Kept p q) : u.Kept p q := by
  rw [hr.frame]
  exact ⟨h.mem, h.part, h.stepping⟩

theorem State.Kept.ite {u v : State} {c : Prop} [Decidable c] (h₁ : u.Kept p q) (h₂ : v.Kept p q) : (if c then u else v).Kept p q := by
  split <;> assumption

theorem State.Kept.ite_fst {α : Type} {u v : State × α} {c : Prop} [Decidable c] (h₁ : u.1.Kept p q) (h₂ : v.1.Kept p q) : (if c then u else v).1.Kept p q := by
  split <;> assumption

theorem State.Kept.getD {o : Option State} (ho : ∀ u : State, o = some u → u.Kept p q) (h : s.Kept p q) : (o.getD s).Kept p q := by
  cases o with
  | none => exact h
  | some u => exact ho u rfl

theorem State.Kept.map {o : Option State} {f : State → State} (hf : ∀ u : State, u.Kept p q → (f u).Kept p q) (ho : ∀ u : State, o = some u → u.Kept p q)
    {u : State} (hu : o.map f = some u) : u.Kept p q := by
  obtain ⟨v, hv, rfl⟩ := Option.map_eq_some_iff.mp hu
  exact hf v (ho v hv)

theorem Goes.ite {c : Prop} [Decidable c] {a b : Host.Outcome State Fault Refusal} (ha : Goes p q a) (hb : Goes p q b) : Goes p q (if c then a else b) := by
  split <;> assumption

theorem State.Kept.of_pair {α : Type} {x : State × α} {u : State} {a : α} (h : x.1.Kept p q) (hx : x = (u, a)) : u.Kept p q := by
  subst hx
  exact h

theorem State.Kept.foldlPair {α β : Type} {f : State × β → α → State × β} (hf : ∀ (x : State × β) (a : α), x.1.Kept p q → (f x a).1.Kept p q) {l : List α}
    {x : State × β} (h : x.1.Kept p q) : (l.foldl f x).1.Kept p q := by
  induction l generalizing x with
  | nil => exact h
  | cons a l ih => exact ih (hf x a h)

theorem State.Kept.of_eq {u : State} (h : s.Kept p q) (hm : u.mem = s.mem) (hp : u.part = s.part) (hq : u.stepping = s.stepping) : u.Kept p q :=
  ⟨hm ▸ h.mem, hp ▸ h.part, hq ▸ h.stepping⟩

/-! The state with one of its records replaced, and states that may not be there. -/

theorem State.Kept.withPair (x : PairState) (h : s.Kept p q) : ({ s with pair := x } : State).Kept p q := h.of_eq rfl rfl rfl
theorem State.Kept.withPower (x : Power) (h : s.Kept p q) : ({ s with power := x } : State).Kept p q := h.of_eq rfl rfl rfl
theorem State.Kept.withMc (x : Mc) (h : s.Kept p q) : ({ s with mc := x } : State).Kept p q := h.of_eq rfl rfl rfl
theorem State.Kept.withErrs (x : ErrGlobal) (h : s.Kept p q) : ({ s with errs := x } : State).Kept p q := h.of_eq rfl rfl rfl
theorem State.Kept.withFrisket (x : Frisket) (h : s.Kept p q) : ({ s with frisket := x } : State).Kept p q := h.of_eq rfl rfl rfl
/-- A state that may not be there is of this kind. -/
def KeptOpt (p : BitVec 8) (q : BitVec 4) (o : Option State) : Prop := ∀ u : State, o = some u → u.Kept p q

theorem KeptOpt.none : KeptOpt p q none := fun _ hu => nomatch hu
theorem KeptOpt.some (h : s.Kept p q) : KeptOpt p q (some s) := fun _ hu => Option.some.inj hu ▸ h
theorem KeptOpt.ite {c : Prop} [Decidable c] {a b : Option State} (ha : KeptOpt p q a) (hb : KeptOpt p q b) : KeptOpt p q (if c then a else b) := by
  split <;> assumption

theorem KeptOpt.map {α : Type} {o : Option α} {f : α → State} (hf : ∀ a : α, (f a).Kept p q) : KeptOpt p q (o.map f) := by
  intro u hu
  obtain ⟨a, -, rfl⟩ := Option.map_eq_some_iff.mp hu
  exact hf a

/-! The operations of the state. -/

theorem State.setThr_kept (t : Nat) (x : Thread) (h : s.Kept p q) : (s.setThr t x).Kept p q := h.of_eq rfl rfl rfl
theorem State.updThr_kept (t : Nat) (f : Thread → Thread) (h : s.Kept p q) : (s.updThr t f).Kept p q := State.setThr_kept _ _ h
theorem State.setCore_kept (c : Nat) (x : Core) (h : s.Kept p q) : (s.setCore c x).Kept p q := h.of_eq rfl rfl rfl
theorem State.updCore_kept (c : Nat) (f : Core → Core) (h : s.Kept p q) : (s.updCore c f).Kept p q := State.setCore_kept _ _ h
theorem State.updTile_kept (n : Nat) (f : Tile → Tile) (h : s.Kept p q) : (s.updTile n f).Kept p q := h.of_eq rfl rfl rfl
theorem State.updDie_kept (d : Nat) (f : Die → Die) (h : s.Kept p q) : (s.updDie d f).Kept p q := h.of_eq rfl rfl rfl
theorem State.updChan_kept (ch : Nat) (f : Channel → Channel) (h : s.Kept p q) : (s.updChan ch f).Kept p q := h.of_eq rfl rfl rfl
theorem State.updPort_kept (p₀ : Nat) (f : RootPort → RootPort) (h : s.Kept p q) : (s.updPort p₀ f).Kept p q := h.of_eq rfl rfl rfl
theorem State.updLink_kept (p₀ : Nat) (f : LinkPort → LinkPort) (h : s.Kept p q) : (s.updLink p₀ f).Kept p q := h.of_eq rfl rfl rfl
theorem State.updInst_kept (i : Nat) (f : Inst → Inst) (h : s.Kept p q) : (s.updInst i f).Kept p q := h.of_eq rfl rfl rfl
theorem State.updSlice_kept (n : Nat) (f : Slice → Slice) (h : s.Kept p q) : (s.updSlice n f).Kept p q := h.of_eq rfl rfl rfl
theorem State.drawn_kept (h : s.Kept p q) : (s.drawn).Kept p q := h.of_eq rfl rfl rfl
theorem State.raise_kept (d : Nat) (n : BitVec 12) (stamp : Word) (h : s.Kept p q) : (s.raise d n stamp).Kept p q := .ite (h.of_eq rfl rfl rfl) h
theorem State.ctlPut_kept (a : Nat) (w : Word) (h : s.Kept p q) : (s.ctlPut a w).Kept p q := h.of_eq rfl rfl rfl
theorem State.ctlField_kept (a hi lo v : Nat) (h : s.Kept p q) : (s.ctlField a hi lo v).Kept p q := State.ctlPut_kept _ _ h
theorem State.ctlCount_kept (a hi lo : Nat) (h : s.Kept p q) : (s.ctlCount a hi lo).Kept p q := State.ctlField_kept _ _ _ _ h
theorem State.setPortSt_kept (a v : Nat) (h : s.Kept p q) : (s.setPortSt a v).Kept p q := State.ctlField_kept _ _ _ _ h
theorem State.zeroDram_kept (h : s.Kept p q) : (s.zeroDram).Kept p q := ⟨s.zeroDram_wf h.mem, h.part, h.stepping⟩
theorem State.putRaw_kept (line : Nat) (raw : LineData) (poison : Bool) (h : s.Kept p q) : (s.putRaw line raw poison).Kept p q :=
  ⟨memPutBytes_wf _ _ _ h.mem, h.part, h.stepping⟩

theorem State.putLine_kept (line : Nat) (d : LineData) (poison : Bool) (h : s.Kept p q) : (s.putLine line d poison).Kept p q :=
  State.putRaw_kept _ _ _ h
theorem State.send_kept (f : Flit) (h : s.Kept p q) : (s.send f).Kept p q := h.of_eq rfl rfl rfl
theorem State.relay_kept (f : Flit) (h : s.Kept p q) : (s.relay f).Kept p q := h.of_eq rfl rfl rfl
theorem State.sendAll_kept (fs : List Flit) (h : s.Kept p q) : (s.sendAll fs).Kept p q := by
  unfold State.sendAll
  grind [State.Kept.foldl, State.send_kept]

theorem State.freshTid_kept (h : s.Kept p q) : (s.freshTid).Kept p q := h.of_eq rfl rfl rfl
theorem State.taken_kept (k : Nat) (h : s.Kept p q) : (s.taken k).Kept p q := by
  unfold State.taken
  grind [State.Kept, State.raise_kept]

theorem State.mirrorWrite_kept (line : Nat) (d : LineData) (poison : Bool) (h : s.Kept p q) : (s.mirrorWrite line d poison).Kept p q := by
  unfold State.mirrorWrite
  grind [State.freshTid_kept, State.send_kept, State.updChan_kept]

theorem State.afterMirror_kept (line : Nat) (f : Flit) (h : s.Kept p q) : (s.afterMirror line f).Kept p q := by
  unfold State.afterMirror
  grind [State.send_kept, State.updChan_kept]

theorem State.pmc_kept (t code : Nat) (h : s.Kept p q) : (s.pmc t code).Kept p q := State.updThr_kept _ _ h
theorem State.putEvent_kept (d : Nat) (e : Event) (h : s.Kept p q) : (s.putEvent d e).Kept p q := by
  unfold State.putEvent
  grind [State.Kept, State.updDie_kept]

theorem State.event_kept (d : Nat) (node : BitVec 12) (cls : BitVec 4) (world : Tag) (sev : BitVec 3) (code : BitVec 16) (stamp : Word)
    (payload : BitVec 128) (h : s.Kept p q) : (s.event d node cls world sev code stamp payload).Kept p q :=
  State.putEvent_kept _ _ h
theorem State.note_kept (a : Agent) (cls : BitVec 4) (code : BitVec 16) (payload : BitVec 128) (h : s.Kept p q) : (s.note a cls code payload).Kept p q :=
  State.event_kept _ _ _ _ _ _ _ _ h
theorem State.setSlot_kept (d i : Nat) (r : Record) (h : s.Kept p q) : (s.setSlot d i r).Kept p q := State.updDie_kept _ _ h
theorem State.record_kept (d : Nat) (r : RecordIn) (h : s.Kept p q) : (s.record d r).1.Kept p q := (s.record_reports d r).kept h
theorem State.errorAt_kept (a : Agent) (code : BitVec 16) (sev : BitVec 3) (world : Tag) (pa : Option Nat) (t : Option Thr) (h : s.Kept p q) :
    (s.errorAt a code sev world pa t).1.Kept p q :=
  State.record_kept _ _ h
theorem State.logError_kept (a : Agent) (code : BitVec 16) (sev : BitVec 3) (world : Tag) (pa : Option Nat) (t : Option Thr) (h : s.Kept p q) :
    (s.logError a code sev world pa t).Kept p q :=
  State.errorAt_kept _ _ _ _ _ _ h

/-! The clocks. -/

theorem State.regsTick_kept (from_ upTo : Nat) (h : s.Kept p q) : (s.regsTick from_ upTo).Kept p q := by
  unfold State.regsTick
  grind [State.Kept, State.Kept.foldl]

theorem State.slewTick_kept (h : s.Kept p q) : (s.slewTick).1.Kept p q := by
  unfold State.slewTick
  grind [State.Kept]

theorem State.ppsTick_kept (h : s.Kept p q) : (s.ppsTick).1.Kept p q := by
  unfold State.ppsTick
  grind [State.Kept]

theorem State.diesShift_kept (by_ : Int) (h : s.Kept p q) : (s.diesShift by_).Kept p q := by
  unfold State.diesShift
  grind [State.Kept.foldl, State.updDie_kept]

theorem State.tick_kept (h : s.Kept p q) : (s.tick).Kept p q := by
  unfold State.tick
  extract_lets a b step u v now
  have hu : u.Kept p q := State.diesShift_kept _ (State.ppsTick_kept (State.slewTick_kept h))
  have hv : v.Kept p q := hu.of_eq rfl rfl rfl
  exact (State.regsTick_kept _ _ hv).of_eq rfl rfl rfl

/-! Entry to memory and coherent lines. -/

theorem State.putCoh_kept (line : Nat) (v : LineData) (h : s.Kept p q) : (s.putCoh line v).Kept p q :=
  State.Kept.of_eq (State.putLine_kept line v (s.memPoison line) h) rfl rfl rfl

theorem State.putCohWord_kept (pa : Nat) (w : Word) (h : s.Kept p q) : (s.putCohWord pa w).Kept p q := State.putCoh_kept _ _ h
theorem State.putCohWords_kept (pa : Nat) (ws : List Word) (h : s.Kept p q) : (s.putCohWords pa ws).Kept p q :=
  State.Kept.foldlPair (fun _ _ hx => State.putCohWord_kept _ _ hx) h

theorem State.putCohBytes_kept (pa : Nat) (bs : List Byte) (h : s.Kept p q) : (s.putCohBytes pa bs).Kept p q :=
  State.Kept.foldlPair (fun _ _ hx => State.putCoh_kept _ _ hx) h

theorem State.predClear_kept (t : Nat) (h : s.Kept p q) : (s.predClear t).Kept p q := by
  unfold State.predClear
  grind [State.updCore_kept, State.updThr_kept]

theorem State.enclExit_kept (t : Nat) (e : EnclCtx) (pc : Word) (cause : Nat) (h : s.Kept p q) : (s.enclExit t e pc cause).Kept p q := by
  unfold State.enclExit
  grind [State.predClear_kept, State.putCohWord_kept, State.putCohWords_kept, State.updThr_kept]

theorem State.takeExc_kept (t : Nat) (e : Exc) (h : s.Kept p q) : (s.takeExc t e).Kept p q := by
  unfold State.takeExc
  grind [State.enclExit_kept, State.pmc_kept, State.setThr_kept, State.updThr_kept]

/-! Translation. -/

theorem State.translate_kept (t : Nat) (va : Word) (acc : Access) (vec : Bool) (h : s.Kept p q) : (s.translate t va acc vec).1.Kept p q :=
  (s.translate_coreLocal t va acc vec).kept h

/-! The caches of a core. -/

theorem State.mirrorSend_kept (c : Nat) (e : MirrorEntry) (h : s.Kept p q) : (s.mirrorSend c e).Kept p q := by
  unfold State.mirrorSend
  grind [State.freshTid_kept, State.send_kept, State.updCore_kept]

theorem State.mirrorLine_kept (c line : Nat) (h : s.Kept p q) : (s.mirrorLine c line).Kept p q := by
  unfold State.mirrorLine
  grind [State.mirrorSend_kept]

theorem State.mirrorStore_kept (c t line : Nat) (world : Tag) (data : LineData) (mask : BitVec 64) (h : s.Kept p q) :
    (s.mirrorStore c t line world data mask).Kept p q := by
  unfold State.mirrorStore
  grind [State.mirrorSend_kept, State.updCore_kept]

theorem State.l2Evict_kept (c line : Nat) (h : s.Kept p q) : (s.l2Evict c line).Kept p q := by
  unfold State.l2Evict
  grind [State.mirrorLine_kept, State.send_kept, State.updCore_kept]

theorem State.l2Place_kept (c t line : Nat) (mk : Nat → L2Line) (h : s.Kept p q) : ∀ {u}, s.l2Place c t line mk = some u → u.Kept p q := by
  unfold State.l2Place
  grind [State.drawn_kept, State.l2Evict_kept, State.updCore_kept]

theorem State.l2Send_kept (c t line : Nat) (op : Op) (world : Tag) (fromM pf : Bool) (h : s.Kept p q) : (s.l2Send c t line op world fromM pf).Kept p q := by
  unfold State.l2Send
  grind [State.freshTid_kept, State.send_kept]

theorem State.l2Request_kept (c t line : Nat) (excl : Bool) (world : Tag) (fromM pf : Bool) (h : s.Kept p q) :
    (s.l2Request c t line excl world fromM pf).Kept p q := by
  unfold State.l2Request
  grind [State.l2Place_kept, State.l2Send_kept, State.pmc_kept, State.updCore_kept]

theorem State.galPush_kept (c : Nat) (e : GalEntry) (h : s.Kept p q) : ∀ {u}, s.galPush c e = some u → u.Kept p q := by
  unfold State.galPush
  grind [State.freshTid_kept, State.send_kept, State.updCore_kept]

theorem State.galAlloc_kept (c : Nat) (e : GalEntry) (h : s.Kept p q) : ∀ {u}, s.galAlloc c e = some u → u.Kept p q := by
  intro u hu
  refine (s.galAlloc_coreLocal (2 * c) e ?_).kept h
  rwa [Nat.mul_div_cancel_left c (by decide)]

theorem State.galRecall_kept (c line : Nat) (h : s.Kept p q) : (s.galRecall c line).Kept p q := by
  have hr := (s.galRecall_coreLocal (2 * c) line).kept h
  rwa [Nat.mul_div_cancel_left c (by decide)] at hr

theorem State.galFlush_kept (c line : Nat) (h : s.Kept p q) : ∀ {u}, s.galFlush c line = some u → u.Kept p q := by
  intro u hu
  unfold State.galFlush at hu
  dsimp only at hu
  split at hu
  · obtain ⟨w, hw, rfl⟩ := Option.map_eq_some_iff.mp hu
    exact State.updCore_kept _ _ (State.galPush_kept _ _ (State.galRecall_kept _ _ h) hw)
  · cases hu
    exact State.galRecall_kept _ _ h

theorem State.train_kept (t pa : Nat) (gw : Bool) (va : Word) (world : Tag) (h : s.Kept p q) : (s.train t pa gw va world).Kept p q :=
  (State.updCore_kept _ _ h).of_eq rfl rfl rfl

/-! Beginning and ending an instruction. -/

theorem State.walkOf_kept (t : Nat) (va : Word) (acc : Access) (h : s.Kept p q) : (s.walkOf t va acc).1.Kept p q := by
  unfold State.walkOf
  grind [State.pmc_kept, State.updThr_kept]

theorem State.walkKeep_kept (t pa : Nat) (nested : Bool) (v : Word) (h : s.Kept p q) : (s.walkKeep t pa nested v).Kept p q := by
  unfold State.walkKeep
  grind [State.drawn_kept, State.updCore_kept]

theorem State.sendAtomH_kept (t pa : Nat) (acc : AccClass) (world : Tag) (op : AmoOp) (size : Nat) (a b : Word) (h : s.Kept p q) :
    (s.sendAtomH t pa acc world op size a b).1.Kept p q := by
  unfold State.sendAtomH
  grind [State.freshTid_kept, State.send_kept]

theorem State.walkIssue_kept (t : Nat) (va : Word) (acc : Access) (pa : Nat) (h : s.Kept p q) : (s.walkIssue t va acc pa).Kept p q := by
  unfold State.walkIssue
  grind [State.l2Request_kept, State.sendAtomH_kept, State.updThr_kept, State.walkOf_kept]

theorem State.walkUpdate_kept (t : Nat) (va : Word) (acc : Access) (u₀ : WalkUpd) (h : s.Kept p q) : (s.walkUpdate t va acc u₀).Kept p q := by
  unfold State.walkUpdate
  grind [State.sendAtomH_kept, State.updThr_kept, State.walkOf_kept]

theorem State.xlate_kept (t : Nat) (va : Word) (acc : Access) (vec : Bool) (h : s.Kept p q) : (s.xlate t va acc vec).1.Kept p q := by
  unfold State.xlate
  grind [State.translate_kept, State.updThr_kept, State.walkIssue_kept, State.walkUpdate_kept]

theorem State.mismatch_kept (t : Nat) (a : Agent) (tag : Tag) (va : Word) (pa : Nat) (acc : Access) (vec : Bool) (h : s.Kept p q) :
    (s.mismatch t a tag va pa acc vec).1.Kept p q := by
  unfold State.mismatch
  grind [State.logError_kept]

theorem State.refused_kept (t : Nat) (tag : Tag) (va : Word) (pa : Nat) (acc : Access) (vec : Bool) (h : s.Kept p q) :
    (s.refused t tag va pa acc vec).1.Kept p q := by
  unfold State.refused
  grind [State.logError_kept]

theorem State.noTarget_kept (t : Nat) (a : Agent) (tag : Tag) (va : Word) (pa : Nat) (acc : Access) (vec : Bool) (h : s.Kept p q) :
    (s.noTarget t a tag va pa acc vec).1.Kept p q := by
  unfold State.noTarget
  grind [State.errorAt_kept]

theorem State.takeInt_kept (t : Nat) (q₀ : Nat × Level) (h : s.Kept p q) : (s.takeInt t q₀).Kept p q := by
  unfold State.takeInt
  grind [State.takeExc_kept, State.updThr_kept]

theorem State.raises_kept (t : Nat) (e : Exc) (h : s.Kept p q) : (s.raises t e).Kept p q := by
  unfold State.raises
  grind [State.takeExc_kept, State.takeInt_kept]

theorem State.fetchWaits_kept (t pa tid : Nat) (tag : Tag) (h : s.Kept p q) : (s.fetchWaits t pa tid tag).Kept p q := State.updThr_kept _ _ h
theorem State.fetchBuffer_kept (t pa : Nat) (tag : Tag) (nc : Bool) (h : s.Kept p q) : (s.fetchBuffer t pa tag nc).1.Kept p q := by
  unfold State.fetchBuffer
  grind [State.fetchWaits_kept, State.freshTid_kept, State.send_kept, State.sendAtomH_kept, State.updThr_kept]

theorem State.fetchCache_kept (t pa : Nat) (tag : Tag) (vec : Bool) (h : s.Kept p q) : (s.fetchCache t pa tag vec).1.Kept p q := by
  unfold State.fetchCache
  grind [State.drawn_kept, State.fetchWaits_kept, State.l2Request_kept, State.mismatch_kept, State.pmc_kept, State.updCore_kept, State.updThr_kept]

theorem State.fetchLine_kept (t pa : Nat) (tag : Tag) (vec nc : Bool) (h : s.Kept p q) : (s.fetchLine t pa tag vec nc).1.Kept p q := by
  unfold State.fetchLine
  grind [State.fetchBuffer_kept, State.fetchCache_kept]

theorem State.fetch_kept (t : Nat) (h : s.Kept p q) : (s.fetch t).1.Kept p q := by
  unfold State.fetch
  grind [State.fetchLine_kept, State.xlate_kept]

theorem State.fetchFault_kept (t : Nat) (e : Exc) (h : s.Kept p q) : (s.fetchFault t e).Kept p q := by
  unfold State.fetchFault
  grind [State.logError_kept, State.takeExc_kept, State.takeInt_kept, State.updThr_kept]

theorem State.retire_kept (t : Nat) (pc : Word) (step : Bool) (h : s.Kept p q) : (s.retire t pc step).Kept p q := by
  unfold State.retire
  grind [State.takeExc_kept, State.updThr_kept]

theorem State.finish_kept (t : Nat) (pc : Word) (f : Thread → Thread) (h : s.Kept p q) : (s.finish t pc f).Kept p q := by
  unfold State.finish
  grind [State.takeExc_kept, State.updThr_kept]

theorem State.start_kept {t : Nat} {u : State} (h : s.Kept p q) : (s.start t = .stop u → u.Kept p q) ∧ (s.start t = .go u → u.Kept p q) := by
  unfold State.start
  grind [State.takeInt_kept, State.takeExc_kept, State.fetch_kept, State.fetchFault_kept, State.updThr_kept]

theorem State.run_goes (t : Nat) {body : State → State} (hb : ∀ u : State, u.Kept p q → (body u).Kept p q) (h : s.Kept p q) : Goes p q (s.run t body) := by
  unfold State.run
  split
  next => exact .next h
  next u hu => exact .next (State.start_kept h |>.1 hu)
  next u hu => exact .next (hb u (State.start_kept h |>.2 hu))

theorem State.illegal_kept (t : Nat) (w : BitVec 32) (h : s.Kept p q) : (s.illegal t w).Kept p q := State.takeExc_kept _ _ h
theorem State.coversFail_kept (p₀ : Nat) (r : PortReq) (code : BitVec 16) (pa : Option Nat) (h : s.Kept p q) : (s.coversFail p₀ r code pa).1.Kept p q := by
  unfold State.coversFail
  grind [State.errorAt_kept, State.sendAll_kept]

theorem State.coverPosted_kept (t : Nat) (h : s.Kept p q) : (s.coverPosted t).Kept p q := by
  unfold State.coverPosted
  grind [State.Kept.foldl, State.coversFail_kept, State.updPort_kept]

theorem State.coverOwed_kept (p₀ : Nat) (h : s.Kept p q) : (s.coverOwed p₀).Kept p q := by
  unfold State.coverOwed
  grind [State.Kept.foldl, State.coverPosted_kept, State.updPort_kept]

/-! Integer instructions. -/

theorem alu2_goes (f : Word → Word → Word) (t : Thr) (rd rs1 rs2 : RegNo) (h : s.Kept p q) : Goes p q (alu2 f t rd rs1 rs2 s) := by
  unfold alu2
  grind [State.finish_kept, State.run_goes]

theorem alu1_goes (f : Word → Word) (t : Thr) (rd rs1 : RegNo) (h : s.Kept p q) : Goes p q (alu1 f t rd rs1 s) := by
  unfold alu1
  grind [State.finish_kept, State.run_goes]

theorem alu0_goes (f : Word → Word) (t : Thr) (rd : RegNo) (h : s.Kept p q) : Goes p q (alu0 f t rd s) := by
  unfold alu0
  grind [State.finish_kept, State.run_goes]

theorem shiftW_goes (sel : Nat) (f : Word → Word) (t : Thr) (rd rs1 : RegNo) (amt : BitVec 6) (h : s.Kept p q) : Goes p q (shiftW sel f t rd rs1 amt s) := by
  unfold shiftW
  grind [State.illegal_kept, State.run_goes, alu1_goes]

/-! Accesses to memory. -/

theorem State.wants_kept (t pa : Nat) (once : Bool) (h : s.Kept p q) : (s.wants t pa once).Kept p q := State.updThr_kept _ _ h
theorem State.wantsLine_kept (t pa : Nat) (h : s.Kept p q) : (s.wantsLine t pa).Kept p q := State.updThr_kept _ _ h
theorem State.sendRead_kept (t pa size : Nat) (acc : AccClass) (tag : Tag) (once : Bool) (h : s.Kept p q) : (s.sendRead t pa size acc tag once).Kept p q := by
  unfold State.sendRead
  grind [State.freshTid_kept, State.pmc_kept, State.send_kept, State.wants_kept]

theorem State.sendAtomic_kept (t pa : Nat) (home : Bool) (acc : AccClass) (tag : Tag) (op : AmoOp) (size : Nat) (a b : Word) (h : s.Kept p q) :
    (s.sendAtomic t pa home acc tag op size a b).Kept p q := by
  unfold State.sendAtomic
  grind [State.freshTid_kept, State.pmc_kept, State.send_kept, State.wants_kept]

theorem State.precheck_kept (t pa : Nat) (tag : Tag) (va : Word) (acc : Access) (h : s.Kept p q) : (s.precheck t pa tag va acc).1.Kept p q := by
  unfold State.precheck
  grind [State.mismatch_kept]

theorem State.hitCheck_kept (t : Nat) (l : L2Line) (tag : Tag) (va : Word) (pa : Nat) (acc : Access) (consume : Bool) (h : s.Kept p q) :
    (s.hitCheck t l tag va pa acc consume).1.Kept p q := by
  unfold State.hitCheck
  grind [State.mismatch_kept]

theorem State.askRead_kept (t pa size : Nat) (acc : AccClass) (tag : Tag) (once : Bool) (h : s.Kept p q) : (s.askRead t pa size acc tag once).1.Kept p q := by
  unfold State.askRead
  grind [State.sendRead_kept]

theorem State.loadWb_kept (t : Nat) (tag : Tag) (va : Word) (pa size : Nat) (h : s.Kept p q) : (s.loadWb t tag va pa size).1.Kept p q := by
  unfold State.loadWb
  extract_lets x c k line fresh s₁ s₂ s₃
  have h₂ : s₂.Kept p q := by grind [State.pmc_kept]
  have h₃ : s₃.Kept p q := by grind [State.train_kept]
  clear_value s₃
  split
  · exact h
  · exact h
  · grind [State.hitCheck_kept, State.updCore_kept, State.drawn_kept, State.sendAtomic_kept, State.l2Request_kept, State.wantsLine_kept]

theorem State.loadGw_kept (t : Nat) (tag : Tag) (va : Word) (pa size : Nat) (h : s.Kept p q) : (s.loadGw t tag va pa size).1.Kept p q := by
  unfold State.loadGw
  grind [State.galRecall_kept, State.mismatch_kept, State.pmc_kept, State.sendRead_kept, State.updCore_kept]

theorem State.bypass_kept (t pa : Nat) (h : s.Kept p q) : ∀ {u}, s.bypass t pa = some u → u.Kept p q := by
  unfold State.bypass
  grind [State.galFlush_kept]

theorem State.loadPiece_kept (t : Nat) (p₀ : Piece) (h : s.Kept p q) : (s.loadPiece t p₀).1.Kept p q := by
  unfold State.loadPiece
  grind [State.Kept.getD, State.askRead_kept, State.bypass_kept, State.coverPosted_kept, State.galFlush_kept, State.loadGw_kept, State.loadWb_kept]

theorem State.amoNear_kept (t : Nat) (r : MemReq) (op : AmoOp) (tag : Tag) (pa : Nat) (h : s.Kept p q) : (s.amoNear t r op tag pa).1.Kept p q := by
  unfold State.amoNear
  grind [State.hitCheck_kept, State.l2Request_kept, State.mirrorStore_kept, State.updCore_kept, State.wantsLine_kept]

theorem State.askAtomic_kept (t : Nat) (r : MemReq) (op : AmoOp) (home : Bool) (acc : AccClass) (tag : Tag) (pa : Nat) (h : s.Kept p q) :
    (s.askAtomic t r op home acc tag pa).1.Kept p q := by
  unfold State.askAtomic
  grind [State.sendAtomic_kept]

theorem State.amoPiece_kept (t : Nat) (r : MemReq) (op : AmoOp) (p₀ : Piece) (h : s.Kept p q) : (s.amoPiece t r op p₀).1.Kept p q := by
  unfold State.amoPiece
  grind [State.Kept.getD, State.amoNear_kept, State.askAtomic_kept, State.bypass_kept, State.coverPosted_kept, State.galFlush_kept]

theorem State.galCheck_kept (t pa : Nat) (tag : Tag) (va : Word) (acc : Access) (h : s.Kept p q) : (s.galCheck t pa tag va acc).1.Kept p q := by
  unfold State.galCheck
  grind [State.mismatch_kept]

theorem State.tagCheck_kept (t : Nat) (acc : Access) (p₀ : Piece) (h : s.Kept p q) : (s.tagCheck t acc p₀).1.Kept p q := by
  unfold State.tagCheck
  grind [State.galCheck_kept, State.hitCheck_kept, State.precheck_kept]

theorem State.tagChecks_kept (t : Nat) (r : MemReq) (ps : List Piece) (h : s.Kept p q) : (s.tagChecks t r ps).1.Kept p q := by
  induction ps generalizing s with
  | nil => exact h
  | cons a ps ih =>
    unfold State.tagChecks
    grind [State.tagCheck_kept, State.galCheck_kept]

theorem State.strictStore_kept (t : Nat) (r : MemReq) (p₀ : Piece) (h : s.Kept p q) : (s.strictStore t r p₀).1.Kept p q := by
  unfold State.strictStore
  grind [State.coverPosted_kept, State.freshTid_kept, State.pmc_kept, State.send_kept, State.wants_kept]

theorem State.noteOut_kept (t : Nat) (kind : OutKind) (pa due : Nat) (h : s.Kept p q) : (s.noteOut t kind pa due).Kept p q := State.updThr_kept _ _ h
theorem State.cmoVa_kept (t : Nat) (op : Fin 3) (pou : Bool) (pa : Nat) (tag : Tag) (h : s.Kept p q) :
    ∀ {u}, s.cmoVa t op pou pa tag = some u → u.Kept p q := by
  unfold State.cmoVa
  extract_lets c line x v clean o₁ o₂
  have hv : v.Kept p q := State.galRecall_kept _ _ h
  clear_value v
  have hclean (w : State) (hw : w.Kept p q) : ∀ u, clean w = some u → u.Kept p q := by
    grind [State.Kept.map, State.galPush_kept, State.updCore_kept]
  clear_value clean
  have h₁ : ∀ u, o₁ = some u → u.Kept p q := by grind
  clear_value o₁
  have h₂ : ∀ u, o₂ = some u → u.Kept p q := by grind [State.Kept.map, State.updCore_kept]
  clear_value o₂
  grind [State.Kept.map, State.updThr_kept, State.updCore_kept, State.freshTid_kept, State.send_kept, State.noteOut_kept]

theorem State.xlateMore_kept (t : Nat) (r : MemReq) (l : List (Word × Nat)) (h : s.Kept p q) : (s.xlateMore t r l).1.Kept p q := by
  induction l generalizing s with
  | nil => exact h
  | cons a l ih =>
    obtain ⟨va, size⟩ := a
    have ht := State.translate_kept t va r.kind.access false h
    unfold State.xlateMore
    extract_lets x acc got go
    generalize (match x.memOp with
      | some m => m.xl.any (fun a => a.va == va)
      | none => false) = seen
    have hgo (u : State) (rank : Nat) (hu : u.Kept p q) : (go u rank).1.Kept p q := by
      dsimp only [go]
      grind
    have hgot (u : State) (pa rank : Nat) (e : Option TlbEntry) (o : Option Nat) (hu : u.Kept p q) : (got u pa rank e o).Kept p q :=
      State.updThr_kept _ _ hu
    clear_value got go
    grind [State.walkIssue_kept, State.walkUpdate_kept, State.updThr_kept]

theorem State.loadPieces_kept (t : Nat) (ps : List Piece) (h : s.Kept p q) : (s.loadPieces t ps).1.Kept p q := by
  induction ps generalizing s with
  | nil => exact h
  | cons a ps ih =>
    unfold State.loadPieces
    grind [State.loadPiece_kept]

theorem State.waits_kept (t : Nat) (h : s.Kept p q) : (s.waits t).Kept p q := State.updThr_kept _ _ h
theorem State.galLockAt_kept (t : Nat) (r : MemReq) (tag : Tag) (pa rank : Nat) (h : s.Kept p q) : (s.galLockAt t r tag pa rank).Kept p q := by
  unfold State.galLockAt
  grind [State.finish_kept, State.galRecall_kept, State.raises_kept, State.sendRead_kept, State.updCore_kept, State.waits_kept]

theorem State.galUnlockAt_kept (t pa : Nat) (h : s.Kept p q) : (s.galUnlockAt t pa).Kept p q := by
  unfold State.galUnlockAt
  grind [State.finish_kept, State.updCore_kept]

theorem State.tlbLockAt_kept (t : Nat) (va : Word) (e : Option TlbEntry) (h : s.Kept p q) : (s.tlbLockAt t va e).Kept p q := by
  unfold State.tlbLockAt
  grind [State.finish_kept, State.updCore_kept]

theorem State.prefAt_kept (t hint : Nat) (tag : Tag) (pa rank : Nat) (h : s.Kept p q) : (s.prefAt t hint tag pa rank).Kept p q := by
  unfold State.prefAt
  grind [State.finish_kept, State.freshTid_kept, State.l2Request_kept, State.pmc_kept, State.send_kept]

theorem State.trainGw_kept (t : Nat) (ps : List Piece) (h : s.Kept p q) : (s.trainGw t ps).Kept p q := by
  unfold State.trainGw
  grind [State.Kept.foldl, State.train_kept]

theorem State.perform_kept (t : Nat) (r : MemReq) (ps : List Piece) (h : s.Kept p q) : (s.perform t r ps).Kept p q := by
  unfold State.perform
  grind [State.amoPiece_kept, State.cmoVa_kept, State.finish_kept, State.galLockAt_kept, State.galUnlockAt_kept, State.loadPieces_kept,
    State.prefAt_kept, State.raises_kept, State.strictStore_kept, State.tlbLockAt_kept, State.trainGw_kept, State.waits_kept]

theorem State.onceGoes_kept (t : Nat) (m : MemOp) (h : s.Kept p q) : (s.onceGoes t m).Kept p q := by
  unfold State.onceGoes
  grind [State.finish_kept, State.raises_kept, State.waits_kept]

theorem State.attempt_kept (t : Nat) (r : MemReq) (h : s.Kept p q) : (s.attempt t r).Kept p q := by
  have ht := s.translate_kept t r.va .load false h
  have hx := s.xlateMore_kept t r r.pieces h
  unfold State.attempt
  extract_lets x acc
  split
  · exact s.raises_kept t _ h
  · split
    · exact h
    · split
      · grind [State.updThr_kept, State.prefAt_kept, State.walkIssue_kept, State.finish_kept]
      · grind [State.raises_kept, State.tagChecks_kept, State.perform_kept]

theorem State.goOn_kept (t : Nat) (m : MemOp) (h : s.Kept p q) : (s.goOn t m).Kept p q := by
  unfold State.goOn
  grind [State.attempt_kept, State.onceGoes_kept]

theorem State.beginMem_kept (t : Nat) (r : MemReq) (h : s.Kept p q) : (s.beginMem t r).Kept p q := by
  unfold State.beginMem
  grind [State.attempt_kept, State.goOn_kept, State.updThr_kept]

theorem State.wake_kept (t : Nat) (h : s.Kept p q) : (s.wake t).Kept p q := by
  unfold State.wake
  grind [State.goOn_kept, State.run_goes]

theorem State.wakeCore_kept (c : Nat) (h : s.Kept p q) : (s.wakeCore c).Kept p q := by
  unfold State.wakeCore
  grind [State.wake_kept]

theorem State.memRow_goes (t : Thr) (r : MemReq) (h : s.Kept p q) : Goes p q (s.memRow t r) := by
  unfold State.memRow
  grind [Goes, State.beginMem_kept, State.run_goes, State.wake_kept]

/-! Branches and their wrong paths. -/

theorem State.trainXfer_kept (t : Nat) (kind : Xfer) (pc target : Word) (taken : Bool) (h : s.Kept p q) : (s.trainXfer t kind pc target taken).Kept p q := by
  unfold State.trainXfer
  grind [State.updCore_kept, State.updThr_kept]

theorem State.wrongLine_kept (t line : Nat) (tag : Tag) (h : s.Kept p q) : (s.wrongLine t line tag).Kept p q :=
  .ite (State.l2Request_kept _ _ _ _ _ _ _ h) h
theorem State.wrongWalk_kept (t : Nat) (va : Word) (acc : Access) (fuel : Nat) (known : List (Nat × Word)) (h : s.Kept p q) :
    (s.wrongWalk t va acc fuel known).1.Kept p q := (s.wrongWalk_coreLocal t va acc fuel known).kept h

theorem State.wrongXlate_kept (t : Nat) (va : Word) (acc : Access) (h : s.Kept p q) : (s.wrongXlate t va acc).1.Kept p q := by
  unfold State.wrongXlate
  grind [State.fetch_kept, State.wrongWalk_kept]

theorem State.wrongAccess_kept (t : Nat) (va : Word) (fetch : Bool) (h : s.Kept p q) : (s.wrongAccess t va fetch).Kept p q := by
  unfold State.wrongAccess
  dsimp only
  repeat' split
  all_goals grind [State.drawn_kept, State.fetch_kept, State.galRecall_kept, State.train_kept, State.updCore_kept, State.wrongLine_kept, State.wrongXlate_kept]

theorem State.wrongStep_kept (t : Nat) (h : s.Kept p q) : (s.wrongStep t).Kept p q := by
  unfold State.wrongStep
  grind [State.drawn_kept, State.pmc_kept, State.trainXfer_kept, State.wrongAccess_kept]

theorem State.wrongPath_kept (t : Nat) (h : s.Kept p q) : (s.wrongPath t).Kept p q := by
  unfold State.wrongPath
  grind [State.Kept.foldl, State.drawn_kept, State.wrongStep_kept]

theorem State.predict_kept (t : Nat) (kind : Xfer) (target : Word) (taken back : Bool) (h : s.Kept p q) : (s.predict t kind target taken back).Kept p q := by
  unfold State.predict
  grind [State.pmc_kept, State.trainXfer_kept, State.wrongPath_kept]

theorem branch_goes_kept (cond : Word → Word → Bool) (t : Thr) (rs1 rs2 : RegNo) (off : BitVec 16) (h : s.Kept p q) :
    Goes p q (branch cond t rs1 rs2 off s) := by
  unfold branch
  grind [State.finish_kept, State.pmc_kept, State.predict_kept, State.run_goes]

theorem execJ_goes (t : Thr) (rd : RegNo) (imm : BitVec 21) (h : s.Kept p q) : Goes p q (execJ t rd imm s) := by
  unfold execJ
  grind [State.finish_kept, State.predict_kept, State.run_goes]

theorem execJr_goes (t : Thr) (rd rs1 : RegNo) (imm : BitVec 16) (h : s.Kept p q) : Goes p q (execJr t rd rs1 imm s) := by
  unfold execJr
  grind [State.finish_kept, State.pmc_kept, State.predict_kept, State.run_goes, State.takeExc_kept]

/-! System registers. -/

theorem State.sendInt_kept (t : Nat) (dst : Agent) (mode : Nat) (target : Thr) (id : Nat) (sec : Bool) (h : s.Kept p q) :
    (s.sendInt t dst mode target id sec).Kept p q := by
  unfold State.sendInt
  grind [State.freshTid_kept, State.send_kept]

theorem State.intSend_kept (t : Nat) (v : Word) (h : s.Kept p q) : (s.intSend t v).Kept p q := by
  unfold State.intSend
  grind [State.Kept.foldl, State.sendInt_kept, State.updThr_kept]

theorem State.rendezvous_kept (t point : Nat) (h : s.Kept p q) : ∀ {u}, s.rendezvous t point = some u → u.Kept p q := by
  unfold State.rendezvous
  grind [State.takeExc_kept, State.updThr_kept]

theorem State.emptyL2_kept (c : Nat) (h : s.Kept p q) : (s.emptyL2 c).Kept p q := by
  unfold State.emptyL2
  grind [State.Kept.foldl, State.l2Evict_kept]

theorem State.emptyGal_kept (c : Nat) (h : s.Kept p q) : (s.emptyGal c).Kept p q := by
  unfold State.emptyGal
  grind [State.Kept.foldl, State.galPush_kept, State.updCore_kept]

theorem State.emptyMore_kept (c : Nat) (new : Word) (h : s.Kept p q) : (s.emptyMore c new).Kept p q := by
  unfold State.emptyMore
  grind [State.emptyGal_kept, State.emptyL2_kept, State.updCore_kept]

theorem State.cacheCtlWrite_kept (t : Nat) (v : Word) (h : s.Kept p q) : (s.cacheCtlWrite t v).Kept p q := by
  unfold State.cacheCtlWrite
  grind [State.emptyMore_kept, State.finish_kept, State.updCore_kept, State.updThr_kept]

theorem State.sysPut_kept (t i : Nat) (v : Word) (h : s.Kept p q) : (s.sysPut t i v).Kept p q := by
  unfold State.sysPut
  grind [State.cacheCtlWrite_kept, State.finish_kept, State.intSend_kept, State.predClear_kept, State.rendezvous_kept, State.updCore_kept, State.updThr_kept]

theorem State.sysrd_kept (t : Nat) (rd : RegNo) (i : Nat) (h : s.Kept p q) : (s.sysrd t rd i).Kept p q := by
  unfold State.sysrd
  grind [State.finish_kept, State.illegal_kept, State.takeExc_kept]

theorem State.syswr_kept (t : Nat) (rs1 : RegNo) (i : Nat) (h : s.Kept p q) : (s.syswr t rs1 i).Kept p q := by
  unfold State.syswr
  grind [State.illegal_kept, State.sysPut_kept, State.takeExc_kept]

theorem execSysrd_goes (t : Thr) (rd : RegNo) (idx : BitVec 10) (h : s.Kept p q) : Goes p q (execSysrd t rd idx s) := by
  unfold execSysrd
  grind [State.run_goes, State.sysrd_kept]

theorem execSyswr_goes (t : Thr) (rs1 : RegNo) (idx : BitVec 10) (h : s.Kept p q) : Goes p q (execSyswr t rs1 idx s) := by
  unfold execSyswr
  grind [State.run_goes, State.syswr_kept]

theorem execIntAckRead_goes (t : Thr) (rd : RegNo) (h : s.Kept p q) : Goes p q (execIntAckRead t rd s) := by
  unfold execIntAckRead
  grind [State.run_goes, State.sysrd_kept]

theorem execIntEoiWrite_goes (t : Thr) (rs1 : RegNo) (h : s.Kept p q) : Goes p q (execIntEoiWrite t rs1 s) := by
  unfold execIntEoiWrite
  grind [State.run_goes, State.syswr_kept]

theorem execIntSendWrite_goes (t : Thr) (rs1 : RegNo) (h : s.Kept p q) : Goes p q (execIntSendWrite t rs1 s) := by
  unfold execIntSendWrite
  grind [State.run_goes, State.syswr_kept]

theorem execMmuRootWrite_goes (t : Thr) (rs1 : RegNo) (second : Bool) (h : s.Kept p q) : Goes p q (execMmuRootWrite t rs1 second s) := by
  unfold execMmuRootWrite
  grind [State.run_goes, State.syswr_kept]

theorem execPredFlushWrite_goes (t : Thr) (rs1 : RegNo) (h : s.Kept p q) : Goes p q (execPredFlushWrite t rs1 s) := by
  unfold execPredFlushWrite
  grind [State.run_goes, State.syswr_kept]

theorem execSmtFixWrite_goes (t : Thr) (rs1 : RegNo) (h : s.Kept p q) : Goes p q (execSmtFixWrite t rs1 s) := by
  unfold execSmtFixWrite
  grind [State.run_goes, State.syswr_kept]

theorem execCacheDisableWrite_goes (t : Thr) (rs1 : RegNo) (h : s.Kept p q) : Goes p q (execCacheDisableWrite t rs1 s) := by
  unfold execCacheDisableWrite
  grind [State.run_goes, State.syswr_kept]

theorem execCacheEmptyDone_goes (t : Thr) (h : s.Kept p q) : Goes p q (execCacheEmptyDone t s) := by
  unfold execCacheEmptyDone
  grind [Goes, State.emptyMore_kept, State.finish_kept, State.updCore_kept]

theorem execUnlockAllWrite_goes (t : Thr) (rs1 : RegNo) (h : s.Kept p q) : Goes p q (execUnlockAllWrite t rs1 s) := by
  unfold execUnlockAllWrite
  grind [State.run_goes, State.syswr_kept]

/-! Traps, waits and fences. -/

theorem execInterruptTake_goes (t : Thr) (h : s.Kept p q) : Goes p q (execInterruptTake t s) := by
  unfold execInterruptTake
  grind [Goes, State.takeInt_kept]

theorem execMachineCheckTake_goes (t : Thr) (h : s.Kept p q) : Goes p q (execMachineCheckTake t s) := by
  unfold execMachineCheckTake
  grind [Goes, State.takeExc_kept, State.updThr_kept]

theorem execTimerDeadline_goes (t : Thr) (secure : Bool) (h : s.Kept p q) : Goes p q (execTimerDeadline t secure s) := by
  unfold execTimerDeadline
  grind [Goes, State.updThr_kept]

theorem execTrap_goes (t : Thr) (code : BitVec 10) (h : s.Kept p q) : Goes p q (execTrap t code s) := by
  unfold execTrap
  grind [State.run_goes, State.takeExc_kept]

theorem State.retxGo_kept (t : Nat) (h : s.Kept p q) : (s.retxGo t).Kept p q := by
  unfold State.retxGo
  grind [State.takeExc_kept, State.updThr_kept]

theorem execRetx_goes (t : Thr) (h : s.Kept p q) : Goes p q (execRetx t s) := by
  unfold execRetx
  grind [State.illegal_kept, State.rendezvous_kept, State.retxGo_kept, State.run_goes, State.takeExc_kept]

theorem execWaite_goes (t : Thr) (h : s.Kept p q) : Goes p q (execWaite t s) := by
  unfold execWaite
  grind [State.finish_kept, State.run_goes, State.takeExc_kept, State.updThr_kept]

theorem execWaiteWake_goes (t : Thr) (h : s.Kept p q) : Goes p q (execWaiteWake t s) := by
  unfold execWaiteWake
  grind [Goes, State.finish_kept, State.run_goes, State.updTile_kept]

theorem execSevt_goes (t : Thr) (h : s.Kept p q) : Goes p q (execSevt t s) := by
  unfold execSevt
  grind [State.Kept.foldl, State.finish_kept, State.run_goes, State.send_kept]

theorem execTime_goes (t : Thr) (rd : RegNo) (h : s.Kept p q) : Goes p q (execTime t rd s) := by
  unfold execTime
  grind [State.finish_kept, State.run_goes, State.takeExc_kept]

theorem execFenceO_goes (t : Thr) (mask : BitVec 5) (h : s.Kept p q) : Goes p q (execFenceO t mask s) := by
  unfold execFenceO
  grind [State.finish_kept, State.rendezvous_kept, State.run_goes]

theorem State.fenceEnd_kept (t : Nat) (h : s.Kept p q) : (s.fenceEnd t).Kept p q := by
  unfold State.fenceEnd
  grind [State.finish_kept, State.rendezvous_kept]

theorem execFenceC_goes (t : Thr) (h : s.Kept p q) : Goes p q (execFenceC t s) := by
  unfold execFenceC
  grind [State.coverPosted_kept, State.fenceEnd_kept, State.run_goes, State.updThr_kept]

theorem execFenceCComplete_goes (t : Thr) (h : s.Kept p q) : Goes p q (execFenceCComplete t s) := by
  unfold execFenceCComplete
  grind [Goes, State.fenceEnd_kept]

theorem execIfence_goes (t : Thr) (h : s.Kept p q) : Goes p q (execIfence t s) := by
  unfold execIfence
  grind [State.finish_kept, State.run_goes]

/-! Maintenance of caches and TLBs. -/

theorem State.wbMem_kept (line : Nat) (d : LineData) (poison : Bool) (tag : Tag) (h : s.Kept p q) : (s.wbMem line d poison tag).Kept p q := by
  unfold State.wbMem
  grind [State.logError_kept, State.mirrorWrite_kept, State.putLine_kept, State.send_kept]

theorem cmoForm_goes (op : Fin 3) (pou : Bool) (t : Thr) (rs1 : RegNo) (h : s.Kept p q) : Goes p q (cmoForm op pou t rs1 s) := State.memRow_goes _ _ h
theorem execTlbLock_goes (t : Thr) (rs1 : RegNo) (h : s.Kept p q) : Goes p q (execTlbLock t rs1 s) := by
  unfold execTlbLock
  grind [State.beginMem_kept, State.finish_kept, State.memRow_goes, State.run_goes, State.takeExc_kept]

theorem execTlbUnlock_goes (t : Thr) (rs1 : RegNo) (h : s.Kept p q) : Goes p q (execTlbUnlock t rs1 s) := by
  unfold execTlbUnlock
  grind [State.finish_kept, State.run_goes, State.takeExc_kept, State.updCore_kept]

theorem State.tlbiCore_kept (c : Nat) (r : TlbiReq) (h : s.Kept p q) : (s.tlbiCore c r).Kept p q := by
  unfold State.tlbiCore
  grind [State.updCore_kept, State.updThr_kept]

theorem State.tlbiAt_kept (c : Nat) (r : TlbiReq) (h : s.Kept p q) : (s.tlbiAt c r).Kept p q := by
  unfold State.tlbiAt
  grind [State.tlbiCore_kept, State.updTile_kept, State.wakeCore_kept]

theorem State.tlbiCast_kept (t : Nat) (r : TlbiReq) (h : s.Kept p q) : (s.tlbiCast t r).Kept p q := by
  unfold State.tlbiCast
  grind [State.Kept.foldl, State.freshTid_kept, State.noteOut_kept, State.send_kept]

theorem tlbiForm_goes (form : TlbiForm) (t : Thr) (va rx : Thread → Word) (domain pinned : Bool) (h : s.Kept p q) :
    Goes p q (tlbiForm form t va rx domain pinned s) := by
  unfold tlbiForm
  grind [State.finish_kept, State.run_goes, State.takeExc_kept, State.tlbiCast_kept, State.tlbiCore_kept]

theorem State.tlbiIommu_kept (f : Flit) (r : TlbiReq) (h : s.Kept p q) : (s.tlbiIommu f r).Kept p q := by
  unfold State.tlbiIommu
  grind [State.Kept, State.send_kept]

/-! Messages of the fabric. -/

theorem State.noteFree_kept (a : Agent) (cls : BitVec 4) (h : s.Kept p q) : (s.noteFree a cls).Kept p q := by
  unfold State.noteFree
  grind [State.Kept, State.note_kept]

theorem State.answerError_kept (from_ : Agent) (f : Flit) (code : BitVec 16) (guard : Bool) (h : s.Kept p q) : (s.answerError from_ f code guard).Kept p q := by
  unfold State.answerError
  grind [State.errorAt_kept, State.send_kept]

theorem State.snpNone_kept (from_ : Agent) (f : Flit) (h : s.Kept p q) : (s.snpNone from_ f).Kept p q := by
  unfold State.snpNone
  grind [State.send_kept]

theorem State.proxied_kept (a : Nat) (f : Flit) (h : s.Kept p q) : ∀ {u}, s.proxied a f = some u → u.Kept p q := by
  unfold State.proxied
  grind [State.answerError_kept, State.ctlCount_kept, State.logError_kept, State.send_kept, State.snpNone_kept]

theorem State.receive_goes (k : Nat) (op : Op) {body : Flit → State → Option State}
    (hb : ∀ (f : Flit) (u v : State), u.Kept p q → body f u = some v → v.Kept p q) (h : s.Kept p q) : Goes p q (s.receive k op body) := by
  have hk := s.taken_kept k h
  unfold State.receive
  split
  · exact .next h
  next f _ =>
    split
    · exact .next h
    · split
      next u hu =>
        obtain ⟨a, _, ha⟩ := Option.bind_eq_some_iff.mp hu
        exact .next (State.proxied_kept a f hk ha)
      next => exact .next (.getD (fun u hu => hb f _ u hk hu) h)

theorem State.regLeave_kept (a : Nat) (h : s.Kept p q) : ∀ {u}, s.regLeave a = some u → u.Kept p q := by
  unfold State.regLeave
  grind [State.ctlField_kept]

theorem State.regulate_kept (a : Nat) (f : Flit) (h : s.Kept p q) : (s.regulate a f).Kept p q := by
  unfold State.regulate
  grind [State.regLeave_kept, State.send_kept]

theorem State.sendDevice_kept (unit n : Nat) (f : Flit) (h : s.Kept p q) : (s.sendDevice unit n f).Kept p q := State.regulate_kept _ _ h
theorem State.sendContain_kept (from_ : Agent) (loc : BitVec 64) (scope : Nat) (t : Thr) (h : s.Kept p q) : (s.sendContain from_ loc scope t).Kept p q := by
  unfold State.sendContain
  grind [State.Kept.foldl, State.send_kept]

theorem State.contained_kept (t : Nat) (m : ContainMsg) (h : s.Kept p q) : (s.contained t m).Kept p q := by
  unfold State.contained
  grind [State.Kept, State.ctlCount_kept, State.updThr_kept]

theorem execContain_goes (k : Nat) (h : s.Kept p q) : Goes p q (execContain k s) := by
  unfold execContain
  grind [State.Kept.foldl, State.contained_kept, State.receive_goes]

theorem execHeart_goes (k : Nat) (h : s.Kept p q) : Goes p q (execHeart k s) := by
  unfold execHeart
  grind [State.receive_goes, State.updDie_kept]

theorem State.trace_kept (n : BitVec 12) (f : Flit) (h : s.Kept p q) : (s.trace n f).Kept p q := by
  unfold State.trace
  grind [State.drawn_kept, State.event_kept]

theorem State.routerError_kept (n : BitVec 12) (code : BitVec 16) (sev : BitVec 3) (f : Flit) (pa : Option Nat) (h : s.Kept p q) :
    (s.routerError n code sev f pa).Kept p q :=
  State.record_kept _ _ h
theorem State.cross_kept (k : Nat) (f : Flit) (h : s.Kept p q) : (s.cross k f).Kept p q := h.of_eq rfl rfl rfl
theorem execFlitForward_goes (k : Nat) (h : s.Kept p q) : Goes p q (execFlitForward k s) := by
  unfold execFlitForward
  grind [State.Kept, Goes, State.cross_kept, State.routerError_kept, State.trace_kept]

theorem State.replay_kept (k : Nat) (f : Flit) (h : s.Kept p q) : (s.replay k f).Kept p q := h.of_eq rfl rfl rfl
theorem execReplayRequest_goes (k : Nat) (flips : BitVec 864) (h : s.Kept p q) : Goes p q (execReplayRequest k flips s) := by
  unfold execReplayRequest
  dsimp only
  repeat' split
  all_goals grind [State.Kept, Goes, State.replay_kept, State.routerError_kept]

/-! Flits and replay. -/

theorem State.putFrame_kept (p₀ : Nat) (fr : FrameIn) (h : s.Kept p q) : (s.putFrame p₀ fr).Kept p q := State.updLink_kept _ _ h
theorem State.inject_kept (p₀ : Nat) (f : Flit) (dst : BitVec 12) (h : s.Kept p q) : (s.inject p₀ f dst).Kept p q := by
  unfold State.inject
  grind [State.putFrame_kept, State.updLink_kept, State.waits_kept]

theorem State.windowGoes_kept (p₀ : Nat) (q₀ : LinkIn) (h : s.Kept p q) : (s.windowGoes p₀ q₀).Kept p q := by
  unfold State.windowGoes
  grind [State.freshTid_kept, State.send_kept, State.sendDevice_kept, State.updLink_kept]

theorem State.windowPump_kept (p₀ : Nat) (h : s.Kept p q) : (s.windowPump p₀).Kept p q := by
  unfold State.windowPump
  grind [State.Kept.foldl, State.updLink_kept, State.windowGoes_kept]

theorem State.serveWindow_kept (p₀ : Nat) (f : Flit) (pa : Nat) (remote : BitVec 12) (src : BitVec 12) (h : s.Kept p q) :
    (s.serveWindow p₀ f pa remote src).Kept p q := by
  unfold State.serveWindow
  grind [State.updLink_kept, State.windowPump_kept]

theorem State.windowOut_kept (f : Flit) (h : s.Kept p q) : (s.windowOut f).Kept p q := by
  unfold State.windowOut
  grind [State.answerError_kept, State.inject_kept, State.serveWindow_kept, State.updLink_kept, State.waits_kept]

theorem State.windowBack_kept (p₀ : Nat) (f : Flit) (e : LinkServe) (h : s.Kept p q) : (s.windowBack p₀ f e).Kept p q := by
  unfold State.windowBack
  grind [State.putFrame_kept, State.send_kept, State.updLink_kept, State.waits_kept, State.windowPump_kept]

theorem State.waitsDone_kept (line : Nat) (h : s.Kept p q) : (s.waitsDone line).Kept p q := by
  unfold State.waitsDone
  grind [State.updLink_kept, State.waits_kept]

theorem State.fwdGone_kept (f : Flit) (h : s.Kept p q) : (s.fwdGone f).Kept p q := by
  unfold State.fwdGone
  grind [State.answerError_kept, State.relay_kept]

theorem State.pairGone_kept (f : Flit) (h : s.Kept p q) : (s.pairGone f).Kept p q := by
  unfold State.pairGone
  grind [State.answerError_kept, State.fwdGone_kept, State.send_kept, State.snpNone_kept]

theorem State.wbGone_kept (f : Flit) (h : s.Kept p q) : ∀ {u}, s.wbGone f = some u → u.Kept p q := by
  unfold State.wbGone
  grind [State.relay_kept, State.send_kept]

theorem State.hubSnoop_kept (p₀ : Nat) (f : Flit) (op : Op) (req : Agent) (d : Nat) (h : s.Kept p q) : (s.hubSnoop p₀ f op req d).Kept p q :=
  State.send_kept _ h
theorem State.pairAnswer_kept (p₀ : Nat) (q₀ : PairSnoop) (h : s.Kept p q) : (s.pairAnswer p₀ q₀).Kept p q := by
  unfold State.pairAnswer
  grind [State.inject_kept, State.send_kept]

theorem State.pairGather_kept (p₀ : Nat) (q₀ : PairSnoop) (f : Flit) (h : s.Kept p q) : (s.pairGather p₀ q₀ f).Kept p q := by
  unfold State.pairGather
  grind [State.hubSnoop_kept, State.pairAnswer_kept, State.updLink_kept]

theorem State.linkTake_kept (p₀ : Nat) (f : Flit) (h : s.Kept p q) : ∀ {u}, s.linkTake p₀ f = some u → u.Kept p q := by
  unfold State.linkTake
  grind [State.answerError_kept, State.inject_kept, State.pairGather_kept, State.pairGone_kept, State.waitsDone_kept, State.wbGone_kept, State.windowBack_kept]

theorem execTlbiB_goes (k : Nat) (h : s.Kept p q) : Goes p q (execTlbiB k s) := by
  unfold execTlbiB
  grind [State.ctlCount_kept, State.linkTake_kept, State.receive_goes, State.send_kept, State.tlbiAt_kept, State.tlbiIommu_kept]

/-! Interrupts and sources. -/

theorem State.hush_kept (d batch : Nat) (h : s.Kept p q) : (s.hush d batch).Kept p q := by
  unfold State.hush
  grind [State.Kept.foldl, State.updTile_kept]

theorem State.refuseInt_kept (t : Nat) (m : IntMsg) (d : Nat) (done : Bool) (h : s.Kept p q) : (s.refuseInt t m d done).Kept p q := by
  unfold State.refuseInt
  grind [State.hush_kept, State.logError_kept, State.send_kept]

theorem State.deliver_kept (t : Nat) (m : IntMsg) (stamp : Word) (done : Bool) (h : s.Kept p q) : (s.deliver t m stamp done).1.Kept p q := by
  unfold State.deliver
  grind [State.refuseInt_kept, State.updThr_kept]

theorem State.reachInt_kept (t : Nat) (m : IntMsg) (stamp : Word) (done : Bool) (h : s.Kept p q) : (s.reachInt t m stamp done).1.Kept p q := by
  unfold State.reachInt
  grind [State.deliver_kept, State.updTile_kept]

theorem execIntDlv_goes (k : Nat) (h : s.Kept p q) : Goes p q (execIntDlv k s) := by
  unfold execIntDlv
  grind [State.Kept.foldlPair, State.linkTake_kept, State.logError_kept, State.reachInt_kept, State.receive_goes]

theorem execSevtB_goes (k : Nat) (h : s.Kept p q) : Goes p q (execSevtB k s) := by
  unfold execSevtB
  grind [State.Kept.foldl, State.linkTake_kept, State.receive_goes, State.updThr_kept, State.updTile_kept]

theorem State.assertSource_kept (n : Nat) (h : s.Kept p q) : (s.assertSource n).Kept p q := .ite (h.of_eq rfl rfl rfl) h
theorem State.worldsMoved_kept (before : State) (h : s.Kept p q) : (before.worldsMoved s).Kept p q := h.of_eq rfl rfl rfl
theorem execRouterSourceAssert_goes (src : Fin 4096) (h : s.Kept p q) : Goes p q (execRouterSourceAssert src s) := .next (State.assertSource_kept _ h)
theorem execRouterSend_goes (src : Fin 4096) (h : s.Kept p q) : Goes p q (execRouterSend src s) := by
  unfold execRouterSend
  grind [State.Kept, Goes, State.logError_kept, State.send_kept]

theorem State.withdrawAt_kept (t id : Nat) (h : s.Kept p q) : (s.withdrawAt t id).Kept p q := by
  unfold State.withdrawAt
  grind [State.Kept, State.updThr_kept, State.updTile_kept]

theorem State.deassert_kept (n : Nat) (h : s.Kept p q) : (s.deassert n).Kept p q := by
  unfold State.deassert
  grind [State.Kept, State.Kept.foldl, State.withdrawAt_kept]

theorem execGpioEdge_goes (pin : Fin 32) (level : Bool) (h : s.Kept p q) : Goes p q (execGpioEdge pin level s) := by
  unfold execGpioEdge
  grind [State.Kept, Goes, State.assertSource_kept]

theorem execGpioLevelDeassert_goes (pin : Fin 32) (h : s.Kept p q) : Goes p q (execGpioLevelDeassert pin s) := by
  unfold execGpioLevelDeassert
  grind [Goes, State.deassert_kept]

theorem State.resend_kept (hit : Nat → Nat → Bool) (h : s.Kept p q) : (s.resend hit).Kept p q := by
  unfold State.resend
  grind [State.Kept.foldl, State.assertSource_kept]

theorem State.setIntWorld_kept (t id : Nat) (sec : Bool) (h : s.Kept p q) : (s.setIntWorld t id sec).Kept p q := by
  unfold State.setIntWorld
  grind [State.resend_kept, State.updThr_kept]

theorem execIntWorldBitWrite_goes (secure : Bool) (t : Thr) (intid : Fin 1024) (toSecure : Bool) (h : s.Kept p q) :
    Goes p q (execIntWorldBitWrite secure t intid toSecure s) := by
  unfold execIntWorldBitWrite
  grind [Goes, State.setIntWorld_kept]

/-! The snoop filters. -/

theorem State.markWb_kept (from_ : Agent) (line : Nat) (took : Bool) (h : s.Kept p q) : (s.markWb from_ line took).Kept p q := h.of_eq rfl rfl rfl
theorem State.l2Take_kept (c line : Nat) (h : s.Kept p q) : (s.l2Take c line).1.Kept p q := by
  unfold State.l2Take
  grind [State.markWb_kept, State.mirrorLine_kept, State.updCore_kept]

theorem State.l2Share_kept (c line : Nat) (h : s.Kept p q) : (s.l2Share c line).1.Kept p q := by
  unfold State.l2Share
  grind [State.markWb_kept, State.updCore_kept]

theorem State.l2Clean_kept (c line : Nat) (h : s.Kept p q) : (s.l2Clean c line).1.Kept p q := by
  unfold State.l2Clean
  grind [State.updCore_kept]

theorem State.setFent_kept (d line : Nat) (e : Option FilterEntry) (h : s.Kept p q) : (s.setFent d line e).Kept p q := State.updDie_kept _ _ h
theorem State.updFent_kept (d line : Nat) (f : FilterEntry → FilterEntry) (h : s.Kept p q) : (s.updFent d line f).Kept p q :=
  State.setFent_kept _ _ _ h
theorem State.setFtxn_kept (d line : Nat) (x : Option Txn) (h : s.Kept p q) : (s.setFtxn d line x).Kept p q := State.updDie_kept _ _ h
theorem State.setL3_kept (d line : Nat) (l : Option L3Line) (h : s.Kept p q) : (s.setL3 d line l).Kept p q := State.updDie_kept _ _ h
theorem State.setL3Buf_kept (d line : Nat) (l : Option L3Line) (h : s.Kept p q) : (s.setL3Buf d line l).Kept p q := State.updDie_kept _ _ h
theorem State.overL2s_kept (cores : List Nat) (line : Nat) {one : State → Nat → Nat → State × Option Copy}
    (hone : ∀ (u : State) (c l : Nat), u.Kept p q → (one u c l).1.Kept p q) (h : s.Kept p q) : (s.overL2s cores line one).1.Kept p q :=
  State.Kept.foldlPair (x := (s, none)) (f := fun p c => ((one p.1 c line).1, Copy.better p.2 (one p.1 c line).2)) (fun _ _ hx => hone _ _ _ hx) h

theorem State.dieTake_kept (d line : Nat) (h : s.Kept p q) : (s.dieTake d line).1.Kept p q := by
  unfold State.dieTake
  split
  · exact h
  next e _ =>
    extract_lets fromS r s₁ inL3 s₂ inBuf s₃ blank keep
    have hr : r.1.Kept p q := State.overL2s_kept _ _ (fun _ _ _ hu => State.l2Take_kept _ _ hu) h
    have h₁ : s₁.Kept p q := .foldl (fun u c hu => by grind [State.send_kept]) hr
    have h₂ : s₂.Kept p q := State.setL3_kept _ _ _ h₁
    have h₃ : s₃.Kept p q := by grind [State.setL3Buf_kept, State.markWb_kept]
    exact State.setFent_kept _ _ _ h₃

theorem State.dieShare_kept (d line : Nat) (home : Bool) (h : s.Kept p q) : (s.dieShare d line home).1.Kept p q := by
  unfold State.dieShare
  split
  · exact h
  next e _ =>
    have hr : (s.overL2s (e.cores d) line State.l2Share).1.Kept p q := State.overL2s_kept _ _ (fun _ _ _ hu => State.l2Share_kept _ _ hu) h
    grind [State.updFent_kept]

theorem State.dieClean_kept (d line : Nat) (h : s.Kept p q) : (s.dieClean d line).1.Kept p q := by
  unfold State.dieClean
  split
  · exact h
  next e _ =>
    have hr : (s.overL2s (e.cores d) line State.l2Clean).1.Kept p q := State.overL2s_kept _ _ (fun _ _ _ hu => State.l2Clean_kept _ _ hu) h
    exact State.updFent_kept _ _ _ (State.setL3Buf_kept _ _ _ (State.setL3_kept _ _ _ hr))

theorem State.giveUp_kept (d line : Nat) (c : Option Copy) (used : Nat) (h : s.Kept p q) : (s.giveUp d line c used).Kept p q := by
  unfold State.giveUp
  grind [State.send_kept, State.setFent_kept, State.setL3Buf_kept]

theorem State.filterRoom_kept (d line : Nat) (h : s.Kept p q) : (s.filterRoom d line).Kept p q := by
  unfold State.filterRoom
  grind [State.dieTake_kept, State.giveUp_kept]

theorem State.l3Drop_kept (d line : Nat) (h : s.Kept p q) : (s.l3Drop d line).Kept p q := by
  unfold State.l3Drop
  grind [State.giveUp_kept, State.send_kept, State.setL3_kept, State.setL3Buf_kept, State.updFent_kept]

theorem State.l3Put_kept (d line : Nat) (l : L3Line) (h : s.Kept p q) : (s.l3Put d line l).Kept p q := by
  unfold State.l3Put
  grind [State.drawn_kept, State.l3Drop_kept, State.setL3_kept]

theorem State.victimLands_kept (d c : Nat) (f : Flit) (h : s.Kept p q) : (s.victimLands d c f).Kept p q := by
  unfold State.victimLands
  grind [State.giveUp_kept, State.l3Drop_kept, State.l3Put_kept, State.send_kept, State.setL3_kept, State.updFent_kept]

theorem State.victim_kept (d c : Nat) (f : Flit) (h : s.Kept p q) : ∀ {u}, s.victim d c f = some u → u.Kept p q := by
  unfold State.victim
  grind [State.setFtxn_kept, State.victimLands_kept]

theorem State.victimsAgain_kept (d line : Nat) (h : s.Kept p q) : (s.victimsAgain d line).Kept p q := by
  unfold State.victimsAgain
  grind [State.Kept.foldl, State.setFtxn_kept, State.victimLands_kept]

theorem State.filterForward_kept (d : Nat) (f : Flit) (h : s.Kept p q) : (s.filterForward d f).Kept p q := by
  unfold State.filterForward
  grind [State.relay_kept, State.setFtxn_kept]

theorem State.mirrorOutAll_kept (d line : Nat) (h : s.Kept p q) : (s.mirrorOutAll d line).Kept p q := by
  unfold State.mirrorOutAll
  grind [State.Kept.foldl, State.mirrorLine_kept]

theorem State.filterServe_kept (d c : Nat) (f : Flit) (h : s.Kept p q) : ∀ {u}, s.filterServe d c f = some u → u.Kept p q := by
  unfold State.filterServe
  extract_lets line stamp data openHere txn waits pendingHere s₁ r own ack
  have hdata (w : State) (op : Op) (k : Copy) (hw : w.Kept p q) : (data w op k).Kept p q := State.send_kept _ hw
  have hopen (w : State) (hw : w.Kept p q) : (openHere w).Kept p q := State.victimsAgain_kept _ _ (State.setFtxn_kept _ _ _ hw)
  have hwaits (w : State) (hw : w.Kept p q) : (waits w).Kept p q := State.setFtxn_kept _ _ _ (State.mirrorOutAll_kept _ _ hw)
  have h₁ : s₁.Kept p q := State.updFent_kept _ _ _ h
  have hr : r.1.Kept p q := State.dieShare_kept _ _ _ h₁
  have hf : (s₁.filterForward d f).Kept p q := State.filterForward_kept _ _ h₁
  clear_value data openHere waits pendingHere s₁ r own
  intro u hu
  split at hu
  · cases hu
  · split at hu
    · split at hu
      · cases hu
        exact State.filterForward_kept _ _ h
      · cases hu
    · split at hu
      · split at hu
        · cases hu
        · cases hu
          exact State.filterRoom_kept _ _ (State.filterForward_kept _ _ (State.setFent_kept _ _ _ h))
      next e _ =>
        extract_lets mine s₀ r' e' s₂ s₃ dirty at hu
        have hr' : r'.1.Kept p q := State.dieTake_kept _ _ (State.setFent_kept _ _ _ h₁)
        have h₂ : s₂.Kept p q := State.setFent_kept _ _ _ hr'
        have h₃ : s₃.Kept p q := .ite (h₂.of_eq rfl rfl rfl) h₂
        have hw := hwaits _ h₁
        have hshare (k : Copy) : (openHere (data r.1 .dataS k)).Kept p q := hopen _ (hdata _ _ _ hr)
        have hgrant (g : Flit) : (openHere (s₃.send g)).Kept p q := hopen _ (State.send_kept _ h₃)
        have hown (o : Op) (k : Copy) : (openHere (data s₃ o k)).Kept p q := hopen _ (hdata _ _ _ h₃)
        clear hopen hwaits hdata
        clear_value s₃ r' dirty
        grind

theorem State.ftxnClose_kept (d line : Nat) (h : s.Kept p q) : (s.ftxnClose d line).Kept p q := by
  unfold State.ftxnClose
  grind [State.Kept.foldl, State.filterRoom_kept, State.setFtxn_kept, State.victimLands_kept]

theorem State.filterComp_kept (d c : Nat) (f : Flit) (h : s.Kept p q) : (s.filterComp d c f).Kept p q := by
  unfold State.filterComp
  grind [State.ftxnClose_kept, State.send_kept, State.setFent_kept]

theorem State.filterAck_kept (d : Nat) (f : Flit) (h : s.Kept p q) : (s.filterAck d f).Kept p q := by
  unfold State.filterAck
  grind [State.filterRoom_kept, State.setFent_kept, State.setL3Buf_kept, State.updFent_kept]

theorem State.dieAnswer_kept (d : Nat) (f : Flit) (h : s.Kept p q) : (s.dieAnswer d f).Kept p q := by
  unfold State.dieAnswer
  grind [State.dieClean_kept, State.dieShare_kept, State.dieTake_kept, State.send_kept, State.victimsAgain_kept]

theorem State.dieSnoop_kept (d : Nat) (f : Flit) (h : s.Kept p q) : ∀ {u}, s.dieSnoop d f = some u → u.Kept p q := by
  unfold State.dieSnoop
  grind [State.dieAnswer_kept, State.mirrorOutAll_kept, State.updDie_kept]

theorem State.filterGo_kept (d line : Nat) (h : s.Kept p q) : (s.filterGo d line).Kept p q := by
  unfold State.filterGo
  extract_lets s₁
  have h₁ : s₁.Kept p q := by
    dsimp only [s₁]
    split
    · split
      · split
        next t ht =>
          have ht := State.filterServe_kept _ _ _ (State.setFtxn_kept _ _ _ h) ht
          split
          · exact State.victimsAgain_kept _ _ (State.setFtxn_kept _ _ _ ht)
          · exact ht
        next => exact h
      · exact h
    · exact h
  clear_value s₁
  refine .foldl (fun u f hu => ?_) h₁
  split
  · exact State.dieAnswer_kept _ _ (State.updDie_kept _ _ hu)
  · exact hu

/-! Homes and their directories. -/

theorem State.setTxn_kept (line : Nat) (x : Option Txn) (h : s.Kept p q) : (s.setTxn line x).Kept p q := h.of_eq rfl rfl rfl
theorem State.qsync_kept (n : Nat) (h : s.Kept p q) : (s.qsync n).Kept p q := by
  unfold State.qsync
  grind [State.ctlField_kept]

theorem State.setDir_kept (line : Nat) (e : Option DirEntry) (h : s.Kept p q) : (s.setDir line e).Kept p q := h.of_eq rfl rfl rfl
theorem State.dirLeave_kept (line o : Nat) (h : s.Kept p q) : (s.dirLeave line o).Kept p q := by
  unfold State.dirLeave
  grind [State.setDir_kept]

theorem State.partnerLeave_kept (line : Nat) (h : s.Kept p q) : (s.partnerLeave line).Kept p q := by
  unfold State.partnerLeave
  grind [State.setDir_kept]

theorem State.homeWrite_kept (n line : Nat) (d : LineData) (poison : Bool) (tag : Tag) (h : s.Kept p q) : (s.homeWrite n line d poison tag).Kept p q := by
  unfold State.homeWrite
  grind [State.freshTid_kept, State.send_kept, State.setTxn_kept]

theorem State.homeReply_kept (line : Nat) (f : Flit) (h : s.Kept p q) : (s.homeReply line f).Kept p q := by
  unfold State.homeReply
  grind [State.send_kept, State.setTxn_kept]

theorem State.homeShut_kept (line : Nat) (h : s.Kept p q) : (s.homeShut line).Kept p q := by
  unfold State.homeShut
  grind [State.setTxn_kept]

theorem State.takeAll_kept (line : Nat) (h : s.Kept p q) : (s.takeAll line).1.Kept p q := by
  unfold State.takeAll
  split
  · exact h
  · refine State.setDir_kept _ _ (.foldlPair (fun x a hx => ?_) h)
    grind [State.send_kept, State.dieTake_kept]

theorem State.dieYield_kept (c line : Nat) (h : s.Kept p q) : (s.dieYield c line).Kept p q := by
  unfold State.dieYield
  grind [State.dieTake_kept, State.setFent_kept]

theorem State.setAtom_kept (line : Nat) (a : Option AtomLine) (h : s.Kept p q) : (s.setAtom line a).Kept p q := h.of_eq rfl rfl rfl
theorem State.atomRoom_kept (n : Nat) (h : s.Kept p q) : ∀ {u}, s.atomRoom n = some u → u.Kept p q := by
  unfold State.atomRoom
  grind [State.homeWrite_kept, State.setAtom_kept]

theorem State.atomOn_kept (n : Nat) (f : Flit) (a : AtomLine) (h : s.Kept p q) : (s.atomOn n f a).Kept p q := by
  unfold State.atomOn
  grind [State.homeReply_kept, State.homeWrite_kept, State.setAtom_kept]

theorem State.atomRead_kept (n : Nat) (f : Flit) (h : s.Kept p q) : (s.atomRead n f).Kept p q := by
  unfold State.atomRead
  grind [State.freshTid_kept, State.send_kept, State.setTxn_kept]

theorem State.homeSnoop_kept (n : Nat) (f : Flit) (op : Op) (h₀ acks : Nat) (h : s.Kept p q) : (s.homeSnoop n f op h₀ acks).Kept p q :=
  State.send_kept _ h
theorem State.homeTakes_kept (n : Nat) (f : Flit) (op : Op) (hs : List Nat) (h : s.Kept p q) : (s.homeTakes n f op hs).Kept p q := by
  unfold State.homeTakes
  grind [State.Kept.foldl, State.send_kept, State.setTxn_kept]

theorem State.cmoEnd_kept (n : Nat) (f : Flit) (h : s.Kept p q) : (s.cmoEnd n f).Kept p q := by
  unfold State.cmoEnd
  grind [State.ctlCount_kept, State.homeReply_kept]

theorem State.cmoHome_kept (n : Nat) (f : Flit) (h : s.Kept p q) : (s.cmoHome n f).Kept p q := by
  unfold State.cmoHome
  grind [State.cmoEnd_kept, State.homeTakes_kept, State.homeWrite_kept, State.setAtom_kept]

theorem State.homeGathered_kept (n line : Nat) (h : s.Kept p q) : (s.homeGathered n line).Kept p q := by
  unfold State.homeGathered
  grind [State.atomOn_kept, State.atomRead_kept, State.cmoEnd_kept, State.homeWrite_kept, State.setDir_kept]

theorem State.dirRoom_kept (n line : Nat) (h : s.Kept p q) : (s.dirRoom n line).Kept p q := by
  unfold State.dirRoom
  grind [State.homeTakes_kept, State.setTxn_kept]

theorem State.homeRead_kept (n : Nat) (f : Flit) (acks : Nat) (h : s.Kept p q) : (s.homeRead n f acks).Kept p q := State.send_kept _ h
theorem State.atomHome_kept (n : Nat) (f : Flit) (h : s.Kept p q) : ∀ {u}, s.atomHome n f = some u → u.Kept p q := by
  unfold State.atomHome
  grind [State.Kept.map, State.answerError_kept, State.atomOn_kept, State.atomRead_kept, State.atomRoom_kept, State.homeShut_kept,
    State.homeTakes_kept, State.setTxn_kept]

theorem State.homeServe_kept (n : Nat) (f : Flit) (h : s.Kept p q) : (s.homeServe n f).Kept p q := by
  unfold State.homeServe
  extract_lets line stamp req own x opens opened sole yield later answer invs s₁ ack
  have hopens (w : State) (op : Op) (n : Option Nat) (k : Nat) (hw : w.Kept p q) : (opens w op n k).Kept p q := State.setTxn_kept _ _ hw
  have hopened (w : State) (op : Op) (n : Option Nat) (hw : w.Kept p q) : (opened w op n).Kept p q := hopens _ _ _ _ hw
  have hsole (w : State) (hw : w.Kept p q) : (sole w).Kept p q := State.dirRoom_kept _ _ (State.setDir_kept _ _ hw)
  have hyield (w : State) (hw : w.Kept p q) : (yield w).Kept p q := by grind [State.dieYield_kept]
  have hlater (w : State) (hw : w.Kept p q) : (later w).Kept p q := State.setTxn_kept _ _ hw
  clear_value opens opened sole yield later
  split
  · exact .getD (fun u hu => State.atomHome_kept _ _ h hu) (hlater _ h)
  · exact State.homeShut_kept _ (State.cmoHome_kept _ _ (State.setTxn_kept _ _ h))
  case' h_6 => exact h
  all_goals
    split
    · exact State.dirRoom_kept _ _ (hlater _ h)
    · split
      · exact State.send_kept _ (State.homeWrite_kept _ _ _ _ _ (hopened _ _ _ (hsole _ h)))
      · split
        · exact State.homeRead_kept _ _ _ (hopened _ _ _ (hsole _ h))
        next e _ =>
          extract_lets e' keeper s₂ listed others rest
          have hinvs (w : State) (hs : List Nat) (hw : w.Kept p q) : (invs w hs).Kept p q := .foldl (fun _ _ hu => State.homeSnoop_kept _ _ _ _ _ hu) hw
          clear_value invs
          by_cases hop : f.op = .rdS
          · have hd : s₂.Kept p q := State.setDir_kept _ _ h
            rw [if_pos hop]
            split
            · split
              · exact State.homeSnoop_kept _ _ _ _ _ (hopened _ _ _ hd)
              · exact State.homeRead_kept _ _ _ (hopened _ _ _ hd)
            · exact State.homeSnoop_kept _ _ _ _ _ (hopened _ _ _ hd)
            · exact State.homeSnoop_kept _ _ _ _ _ (hopened _ _ _ h)
          · rw [if_neg hop]
            split
            · split
              · exact State.send_kept _ (hinvs _ _ (hyield _ (hopened _ _ _ (hsole _ h))))
              · exact State.homeSnoop_kept _ _ _ _ _ (hinvs _ _ (hyield _ (hopens _ _ _ _ (hsole _ h))))
            · split
              · refine State.homeSnoop_kept _ _ _ _ _ (hinvs _ _ ?_)
                split
                · exact hopens _ _ _ _ (hsole _ h)
                · exact hyield _ (hopens _ _ _ _ (hsole _ h))
              · exact State.homeRead_kept _ _ _ (hinvs _ _ (hyield _ (hopened _ _ _ (hsole _ h))))

theorem State.homeDrain_kept (n : Nat) (l : List Flit) (h : s.Kept p q) : (State.homeDrain n l s).Kept p q := by
  induction l generalizing s with
  | nil => exact h
  | cons f l ih =>
    unfold State.homeDrain
    grind [State.homeServe_kept, State.setTxn_kept]

theorem State.roomAgain_kept (n : Nat) (h : s.Kept p q) : (s.roomAgain n).Kept p q := by
  unfold State.roomAgain
  exact .foldl (fun u a hu => by grind [State.homeDrain_kept, State.setTxn_kept, State.dirRoom_kept]) h

theorem State.retryTo_kept (n : Nat) (f : Flit) (moved promoted : Bool) (hint : Nat) (h : s.Kept p q) : (s.retryTo n f moved promoted hint).Kept p q := by
  unfold State.retryTo
  grind [State.ctlCount_kept, State.send_kept]

theorem State.homeAccept_kept (n : Nat) (f : Flit) (h : s.Kept p q) : (s.homeAccept n f).Kept p q := by
  unfold State.homeAccept
  grind [State.homeServe_kept, State.qsync_kept, State.setTxn_kept]

theorem State.offer_kept (n : Nat) (h : s.Kept p q) : (s.offer n).Kept p q := by
  unfold State.offer
  grind [State.Kept.foldl, State.updSlice_kept]

theorem State.homeRequest_kept (n : Nat) (f : Flit) (h : s.Kept p q) : (s.homeRequest n f).Kept p q := by
  unfold State.homeRequest
  grind [State.answerError_kept, State.ctlCount_kept, State.homeAccept_kept, State.retryTo_kept, State.updSlice_kept]

theorem State.homePrefetch_kept (n : Nat) (f : Flit) (h : s.Kept p q) : (s.homePrefetch n f).Kept p q := by
  unfold State.homePrefetch
  dsimp only
  repeat' split
  all_goals grind [State.dirRoom_kept, State.filterRoom_kept, State.l3Put_kept, State.setDir_kept, State.setFent_kept]

theorem State.homeApply_kept (n : Nat) (f : Flit) (sup acts : Bool) (h : s.Kept p q) : (s.homeApply n f sup acts).Kept p q := by
  unfold State.homeApply
  grind [State.dirLeave_kept, State.homeReply_kept, State.homeWrite_kept, State.setDir_kept]

theorem State.homeTakesWb_kept (n : Nat) (f : Flit) (h : s.Kept p q) : (s.homeTakesWb n f).Kept p q := State.homeApply_kept _ _ _ _ h
theorem State.homeSupersedes_kept (n : Nat) (x : Txn) (f : Flit) (h : s.Kept p q) : (s.homeSupersedes n x f).Kept p q :=
  State.homeApply_kept _ _ _ _ h
theorem State.homeWb_kept (n : Nat) (f : Flit) (h : s.Kept p q) : (s.homeWb n f).Kept p q := by
  unfold State.homeWb
  grind [State.homeSupersedes_kept, State.homeTakesWb_kept, State.qsync_kept, State.roomAgain_kept, State.setTxn_kept]

theorem State.heldAgain_kept (n line : Nat) (h : s.Kept p q) : (s.heldAgain n line).Kept p q := by
  unfold State.heldAgain
  grind [State.Kept.foldl, State.homeSupersedes_kept, State.setTxn_kept]

theorem State.homeClose_kept (n line : Nat) (h : s.Kept p q) : (s.homeClose n line).Kept p q := by
  unfold State.homeClose
  split
  · exact h
  · split
    · exact h
    · refine State.offer_kept _ (State.qsync_kept _ (State.roomAgain_kept _ ?_))
      grind [State.Kept.foldl, State.homeTakesWb_kept, State.setTxn_kept, State.homeDrain_kept]

theorem State.homeWritten_kept (n line tid : Nat) (x : Txn) (h : s.Kept p q) : (s.homeWritten n line tid x).Kept p q := by
  unfold State.homeWritten
  grind [State.homeClose_kept, State.roomAgain_kept, State.sendAll_kept, State.setAtom_kept, State.setTxn_kept]

theorem State.homeAck_kept (n : Nat) (f : Flit) (h : s.Kept p q) : (s.homeAck n f).Kept p q := by
  unfold State.homeAck
  dsimp only
  repeat' split
  all_goals grind [State.dirLeave_kept, State.heldAgain_kept, State.homeClose_kept, State.homeGathered_kept, State.homeRead_kept,
    State.homeSnoop_kept, State.homeWritten_kept, State.logError_kept, State.setDir_kept, State.setTxn_kept, State.waitsDone_kept]

theorem State.homeData_kept (n : Nat) (f : Flit) (h : s.Kept p q) : (s.homeData n f).Kept p q := by
  unfold State.homeData
  grind [State.atomOn_kept, State.homeClose_kept, State.logError_kept, State.send_kept, State.setTxn_kept]

/-! Maintenance by set and way. -/

theorem State.setwayL2_kept (t : Nat) (op : Fin 3) (set way : Nat) (h : s.Kept p q) : ∀ {u}, s.setwayL2 t op set way = some u → u.Kept p q := by
  unfold State.setwayL2
  grind [State.l2Evict_kept, State.send_kept, State.updCore_kept, State.wbMem_kept]

theorem State.setwayL3_kept (t : Nat) (op : Fin 3) (set way : Nat) (h : s.Kept p q) : ∀ {u}, s.setwayL3 t op set way = some u → u.Kept p q := by
  unfold State.setwayL3
  grind [State.l3Drop_kept, State.send_kept, State.setL3_kept, State.setL3Buf_kept, State.updFent_kept]

theorem State.setwayGal_kept (t : Nat) (op : Fin 3) (hell : Bool) (way : Nat) (h : s.Kept p q) : ∀ {u}, s.setwayGal t op hell way = some u → u.Kept p q := by
  unfold State.setwayGal
  grind [State.Kept.map, State.galPush_kept, State.updCore_kept]

theorem setwayForm_goes (op : Fin 3) (t : Thr) (rs1 : RegNo) (h : s.Kept p q) : Goes p q (setwayForm op t rs1 s) := by
  unfold setwayForm
  grind [State.finish_kept, State.run_goes, State.setwayGal_kept, State.setwayL2_kept, State.setwayL3_kept, State.takeExc_kept, State.updCore_kept]

/-! Answers and the store buffer. -/

theorem State.fetchFails_kept (t pa : Nat) (b : Bad) (h : s.Kept p q) : (s.fetchFails t pa b).Kept p q := by
  unfold State.fetchFails
  grind [State.fetchFault_kept, State.updThr_kept]

theorem State.walkAbort_kept (t kind : Nat) (st2 : Bool) (lvl pa : Nat) (h : s.Kept p q) : (s.walkAbort t kind st2 lvl pa).Kept p q := by
  unfold State.walkAbort
  grind [State.fetch_kept, State.fetchFault_kept, State.finish_kept, State.raises_kept, State.updCore_kept, State.updThr_kept]

theorem State.lineFails_kept (c line : Nat) (b : Bad) (who : Bool → Tag → Bool) (h : s.Kept p q) : (s.lineFails c line b who).Kept p q := by
  unfold State.lineFails
  refine .foldl (fun u t hu => ?_) h
  extract_lets x s₁ s₂ s₃
  have h₁ : s₁.Kept p q := State.updThr_kept _ _ hu
  have h₂ : s₂.Kept p q := by
    clear_value s₁
    grind [State.updThr_kept, State.wake_kept]
  have h₃ : s₃.Kept p q := by
    clear_value s₂
    grind [State.fetchFails_kept]
  clear_value s₃
  grind [State.walkAbort_kept]

theorem State.sendComp_kept (c line kind : Nat) (fail : Bool) (h : s.Kept p q) : (s.sendComp c line kind fail).Kept p q := State.send_kept _ h
theorem State.l2Settle_kept (c line : Nat) (l : L2Line) (op : Op) (data : Bool) (h : s.Kept p q) : (s.l2Settle c line l op data).Kept p q := by
  unfold State.l2Settle
  grind [State.l2Evict_kept, State.lineFails_kept, State.logError_kept, State.mismatch_kept, State.sendComp_kept, State.updCore_kept, State.wakeCore_kept]

theorem State.l2Data_kept (c : Nat) (f : Flit) (h : s.Kept p q) : (s.l2Data c f).Kept p q := by
  unfold State.l2Data
  grind [State.l2Settle_kept, State.logError_kept]

theorem State.l2Ack_kept (c : Nat) (f : Flit) (h : s.Kept p q) : (s.l2Ack c f).Kept p q := by
  unfold State.l2Ack
  grind [State.l2Settle_kept, State.logError_kept, State.updCore_kept, State.wakeCore_kept]

theorem State.opAnswer_kept (t : Nat) (f : Flit) (h : s.Kept p q) : (s.opAnswer t f).Kept p q := by
  unfold State.opAnswer
  grind [State.refused_kept, State.updThr_kept, State.wake_kept]

theorem State.fetchAnswer_kept (t : Nat) (f : Flit) (h : s.Kept p q) : (s.fetchAnswer t f).Kept p q := by
  unfold State.fetchAnswer
  grind [State.fetchFails_kept, State.updThr_kept]

theorem State.galArrive_kept (c : Nat) (f : Flit) (h : s.Kept p q) : ∀ {u}, s.galArrive c f = some u → u.Kept p q := by
  unfold State.galArrive
  extract_lets clear v read o
  have hclear (w : State) (hw : w.Kept p q) : (clear w).Kept p q :=
    .foldl (fun u t hu => .ite (State.updThr_kept _ _ hu) (.ite (State.updThr_kept _ _ hu) hu)) hw
  have hv : v.Kept p q := State.galRecall_kept _ _ h
  have ho : ∀ u, o = some u → u.Kept p q := by
    clear hclear
    grind [State.updCore_kept, State.galAlloc_kept]
  clear_value clear v o
  intro u hu
  split at hu
  · cases hu
    exact State.wakeCore_kept _ (hclear _ h)
  · exact State.Kept.map (fun w hw => State.wakeCore_kept _ (hclear _ hw)) ho hu

theorem State.walkAnswer_kept (t : Nat) (f : Flit) (h : s.Kept p q) : (s.walkAnswer t f).Kept p q := by
  unfold State.walkAnswer
  grind [State.logError_kept, State.updCore_kept, State.updThr_kept, State.wake_kept, State.walkAbort_kept]

theorem State.coreData_kept (c : Nat) (f : Flit) (h : s.Kept p q) : ∀ {u}, s.coreData c f = some u → u.Kept p q := by
  unfold State.coreData
  grind [State.Kept.getD, State.fetchAnswer_kept, State.galArrive_kept, State.l2Data_kept, State.logError_kept, State.opAnswer_kept,
    State.updThr_kept, State.wakeCore_kept, State.walkAbort_kept, State.walkAnswer_kept]

theorem State.mirrorEnds_kept (c : Nat) (o : MirrorOut) (err : Option PendErr) (h : s.Kept p q) : (s.mirrorEnds c o err).Kept p q := by
  unfold State.mirrorEnds
  grind [State.filterGo_kept, State.updCore_kept, State.updThr_kept, State.wakeCore_kept]

theorem State.coreStray_kept (c : Nat) (f : Flit) (h : s.Kept p q) : (s.coreStray c f).Kept p q := State.logError_kept _ _ _ _ _ _ h
theorem State.coreAck_kept (c : Nat) (f : Flit) (h : s.Kept p q) : ∀ {u}, s.coreAck c f = some u → u.Kept p q := by
  unfold State.coreAck
  grind [State.coreStray_kept, State.l2Ack_kept, State.mirrorEnds_kept, State.updCore_kept, State.updThr_kept, State.wakeCore_kept]

theorem State.afterPosted_kept (t c : Nat) (h : s.Kept p q) : (s.afterPosted t c).Kept p q := by
  unfold State.afterPosted
  grind [State.coverPosted_kept, State.wakeCore_kept]

theorem execDeviceResponse_goes (k : Nat) (h : s.Kept p q) : Goes p q (execDeviceResponse k s) := by
  unfold execDeviceResponse
  grind [Goes, State.afterPosted_kept, State.logError_kept, State.opAnswer_kept, State.taken_kept, State.updThr_kept, State.wake_kept, State.wakeCore_kept]

theorem execErrorResponse_goes (k : Nat) (h : s.Kept p q) : Goes p q (execErrorResponse k s) := by
  unfold execErrorResponse
  dsimp only
  repeat' split
  all_goals grind [State.Kept, Goes, State.coreStray_kept, State.fetchFails_kept, State.lineFails_kept, State.refused_kept, State.sendComp_kept,
    State.taken_kept, State.updCore_kept, State.updThr_kept, State.wake_kept, State.wakeCore_kept, State.walkAbort_kept]

theorem State.pendAt_kept (c : Nat) (f : Flit) (code : BitVec 16) (h : s.Kept p q) : (s.pendAt c f code).Kept p q := by
  unfold State.pendAt
  grind [State.coreStray_kept, State.mirrorEnds_kept, State.updCore_kept, State.updThr_kept]

theorem execPendingErrorArrive_goes (k : Nat) (h : s.Kept p q) : Goes p q (execPendingErrorArrive k s) := by
  unfold execPendingErrorArrive
  grind [Goes, State.pendAt_kept, State.taken_kept, State.wakeCore_kept]

theorem State.walkTake_kept (t pa : Nat) (nested : Bool) (v : Word) (h : s.Kept p q) : (s.walkTake t pa nested v).Kept p q := by
  unfold State.walkTake
  grind [State.translate_kept, State.updThr_kept, State.wake_kept, State.walkIssue_kept, State.walkKeep_kept, State.walkUpdate_kept]

theorem execWalkReadResponse_goes (t : Thr) (h : s.Kept p q) : Goes p q (execWalkReadResponse t s) := by
  unfold execWalkReadResponse
  grind [Goes, State.logError_kept, State.walkAbort_kept, State.walkIssue_kept, State.walkTake_kept]

theorem State.drainTo_kept (t n : Nat) (e : StoreEntry) (acc : AccClass) (kind : OutKind) (h : s.Kept p q) : (s.drainTo t n e acc kind).Kept p q := by
  unfold State.drainTo
  grind [State.freshTid_kept, State.noteOut_kept, State.pmc_kept, State.send_kept, State.updThr_kept, State.wake_kept]

theorem State.drainRefused_kept (t n : Nat) (e : StoreEntry) (h : s.Kept p q) : (s.drainRefused t n e).Kept p q := by
  unfold State.drainRefused
  grind [State.logError_kept, State.updThr_kept, State.wake_kept]

theorem State.drainWb_kept (t n : Nat) (e : StoreEntry) (h : s.Kept p q) : (s.drainWb t n e).Kept p q := by
  unfold State.drainWb
  grind [State.drainRefused_kept, State.l2Request_kept, State.mirrorStore_kept, State.noteOut_kept, State.sendAtomH_kept, State.updCore_kept,
    State.updThr_kept, State.wake_kept, State.wakeCore_kept]

theorem State.drainGw_kept (t n : Nat) (e : StoreEntry) (h : s.Kept p q) : (s.drainGw t n e).Kept p q := by
  unfold State.drainGw
  extract_lets c line v done
  have hv : v.Kept p q := State.galRecall_kept _ _ h
  have hdone (w : State) (hw : w.Kept p q) : (done w).Kept p q := State.wakeCore_kept _ (State.updThr_kept _ _ hw)
  clear_value v done
  split
  · exact .ite h (State.drainTo_kept _ _ _ _ _ h)
  · split
    · exact .ite (State.drainRefused_kept _ _ _ hv) (hdone _ (State.updCore_kept _ _ hv))
    · split
      next u hu => exact hdone u (State.galAlloc_kept _ _ hv hu)
      next => exact hv

theorem execStoreBufferDrain_goes (t : Thr) (n : Nat) (h : s.Kept p q) : Goes p q (execStoreBufferDrain t n s) := by
  unfold execStoreBufferDrain
  grind [Goes, State.Kept.getD, State.bypass_kept, State.coverPosted_kept, State.drainGw_kept, State.drainTo_kept, State.drainWb_kept, State.galFlush_kept]

theorem execPrefetchIssue_goes (c : CoreId) (n : Nat) (h : s.Kept p q) : Goes p q (execPrefetchIssue c n s) := by
  unfold execPrefetchIssue
  grind [Goes, State.freshTid_kept, State.l2Request_kept, State.pmc_kept, State.send_kept]

/-! The memory controllers. -/

theorem State.memErr_kept (ch line code : Nat) (sev : BitVec 3) (world : Tag) (h : s.Kept p q) : (s.memErr ch line code sev world).Kept p q := by
  unfold State.memErr
  grind [State.ctlCount_kept, State.logError_kept]

theorem State.almanacAdd_kept (kind ch line dev : Nat) (h : s.Kept p q) : (s.almanacAdd kind ch line dev).Kept p q := h.of_eq rfl rfl rfl
theorem State.erase_kept (ch line dev : Nat) (h : s.Kept p q) : (s.erase ch line dev).Kept p q := by
  unfold State.erase
  grind [State.almanacAdd_kept, State.ctlField_kept, State.memErr_kept]

theorem State.deliverRead_kept (ch : Nat) (f : Flit) (data : LineData) (poison : Bool) (h : s.Kept p q) : (s.deliverRead ch f data poison).Kept p q := by
  unfold State.deliverRead
  grind [State.afterMirror_kept, State.mirrorWrite_kept, State.putLine_kept, State.send_kept]

theorem State.probeStart_kept (ch line phase : Nat) (data : LineData) (h : s.Kept p q) : (s.probeStart ch line phase data).Kept p q :=
  (State.updChan_kept _ _ h).of_eq rfl rfl rfl
theorem State.poisonRead_kept (ch n : Nat) (f : Flit) (h : s.Kept p q) : (s.poisonRead ch n f).Kept p q := by
  unfold State.poisonRead
  grind [State.deliverRead_kept, State.freshTid_kept, State.send_kept, State.updChan_kept]

theorem State.actRead_kept (ch n : Nat) (r : MemRead) (q₀ : Decoded) (h : s.Kept p q) : (s.actRead ch n r q₀).Kept p q := by
  unfold State.actRead
  grind [State.deliverRead_kept, State.memErr_kept, State.poisonRead_kept, State.probeStart_kept, State.putRaw_kept, State.updChan_kept]

theorem execDramReadReturn_goes (ch : Fin 24) (n : Nat) (flips : List (BitVec 40)) (h : s.Kept p q) : Goes p q (execDramReadReturn ch n flips s) := by
  unfold execDramReadReturn
  grind [Goes, State.actRead_kept]

theorem execDramVerifyReturn_goes (ch : Fin 24) (flips : List (BitVec 40)) (h : s.Kept p q) : Goes p q (execDramVerifyReturn ch flips s) := by
  unfold execDramVerifyReturn
  dsimp only
  repeat' split
  all_goals grind [Goes, State.almanacAdd_kept, State.ctlCount_kept, State.erase_kept, State.memErr_kept, State.updChan_kept]

theorem State.repairRead_kept (ch : Nat) (line : Nat) (again : Bool) (flips : List (BitVec 40)) (h : s.Kept p q) :
    (s.repairRead ch line again flips).1.Kept p q := by
  unfold State.repairRead
  grind [State.memErr_kept, State.putRaw_kept]

theorem State.repairReads_kept (ch : Nat) (r : Repair) (l : List (Nat × List (BitVec 40))) (again : Bool) (h : s.Kept p q) :
    (State.repairReads ch r l again s).Kept p q := by
  induction l generalizing s again with
  | nil => exact h
  | cons a l ih =>
    obtain ⟨a, flips⟩ := a
    have hr := State.repairRead_kept ch (s.chanLine ch a) again flips h
    unfold State.repairReads
    dsimp only
    split
    · exact ih _ h
    · exact .ite (ih _ (State.repairRead_kept _ _ _ _ hr)) (ih _ hr)

theorem execSpprDone_goes (ch : Fin 24) (reads : List (Nat × List (BitVec 40))) (h : s.Kept p q) : Goes p q (execSpprDone ch reads s) := by
  unfold execSpprDone
  grind [Goes, State.repairReads_kept, State.almanacAdd_kept, State.updChan_kept]

theorem execProbeDone_goes (ch : Fin 24) (reads : List (List (BitVec 40))) (h : s.Kept p q) : Goes p q (execProbeDone ch reads s) := by
  unfold execProbeDone
  dsimp only
  repeat' split
  all_goals grind [Goes, State.deliverRead_kept, State.erase_kept, State.memErr_kept, State.poisonRead_kept, State.updChan_kept]

theorem execScrubRead_goes (ch : Fin 24) (offset : Nat) (h : s.Kept p q) : Goes p q (execScrubRead ch offset s) :=
  .ite (.next h) (.next (State.updChan_kept _ _ h))
theorem State.fillEnd_kept (h : s.Kept p q) : (s.fillEnd).Kept p q := .ite (State.zeroDram_kept h) h
theorem execFillDone_goes (ch : Fin 24) (h : s.Kept p q) : Goes p q (execFillDone ch s) := by
  unfold execFillDone
  grind [Goes, State.ctlField_kept, State.fillEnd_kept, State.updChan_kept]

theorem execDdrAlertDuringFill_goes (ch : Fin 24) (h : s.Kept p q) : Goes p q (execDdrAlertDuringFill ch s) := by
  unfold execDdrAlertDuringFill
  extract_lets x s₁ e
  have h₁ : s₁.Kept p q := State.ctlField_kept _ _ _ _ (State.updChan_kept _ _ h)
  clear_value s₁ e
  split
  · exact .next h
  · exact .next (State.fillEnd_kept (h₁.of_eq rfl rfl rfl))

/-! Enclaves. -/

theorem State.setEcdState_kept (ecd v : Nat) (h : s.Kept p q) : (s.setEcdState ecd v).Kept p q := State.putCohWord_kept _ _ h
theorem State.setMeasure_kept (ecd : Nat) (m : List Byte) (h : s.Kept p q) : (s.setMeasure ecd m).Kept p q := State.putCohBytes_kept _ _ h
theorem State.enclStatus_kept (t : Nat) (rd : RegNo) (v : Nat) (h : s.Kept p q) : (s.enclStatus t rd v).Kept p q := State.finish_kept _ _ _ h
theorem State.enclPriv_kept (t fn : Nat) (h : s.Kept p q) : (s.enclPriv t fn).Kept p q := State.takeExc_kept _ _ h
theorem enclM_goes (fn : Nat) (t : Thr) (rs1 : RegNo) {body : Nat → State → State} (hb : ∀ (n : Nat) (u : State), u.Kept p q → (body n u).Kept p q)
    (h : s.Kept p q) : Goes p q (enclM fn t rs1 body s) :=
  State.run_goes t (fun u hu => .ite (State.enclPriv_kept _ _ hu) (hb _ u hu)) h

theorem State.withEcd_kept (t : Nat) (rd : RegNo) (ecd : Nat) {body : State → State} (hb : ∀ u : State, u.Kept p q → (body u).Kept p q) (h : s.Kept p q) :
    (s.withEcd t rd ecd body).Kept p q := by
  unfold State.withEcd
  split
  · exact State.enclStatus_kept _ _ _ h
  · exact State.takeExc_kept _ _ h
  · exact hb s h

theorem execEnclInit_goes (t : Thr) (rd rs1 : RegNo) (h : s.Kept p q) : Goes p q (execEnclInit t rd rs1 s) := by
  unfold execEnclInit
  refine enclM_goes 0 t rs1 (fun n u hu => State.withEcd_kept _ _ _ (fun u hu => ?_) hu) h
  refine .ite (State.enclStatus_kept _ _ _ hu) (.ite (State.enclStatus_kept _ _ _ hu) (.ite (State.enclStatus_kept _ _ _ hu) ?_))
  exact State.enclStatus_kept _ _ _ (State.setEcdState_kept _ _ (State.putCohWord_kept _ _ (State.putCohWord_kept _ _
    (State.setMeasure_kept _ _ (State.putCohWords_kept _ _ hu)))))

theorem State.physFail_kept (t pa n : Nat) (h : s.Kept p q) : (s.physFail t pa n).1.Kept p q := by
  unfold State.physFail
  grind [State.noTarget_kept, State.refused_kept]

theorem State.epmBad_kept (t : Nat) (h : s.Kept p q) : (s.epmBad t).Kept p q := State.takeExc_kept _ _ h
theorem execEnclAdd_goes (t : Thr) (rd rs1 : RegNo) (h : s.Kept p q) : Goes p q (execEnclAdd t rd rs1 s) := by
  unfold execEnclAdd
  refine enclM_goes 1 t rs1 (fun n u hu => ?_) h
  refine .ite (State.enclStatus_kept _ _ _ hu) (.ite (State.takeExc_kept _ _ (State.physFail_kept _ _ _ hu)) (.ite (State.takeExc_kept _ _ hu) ?_))
  refine State.withEcd_kept _ _ _ (fun v hv => ?_) hu
  have hs (k : Nat) : (v.enclStatus t rd k).Kept p q := State.enclStatus_kept _ _ _ hv
  refine .ite (hs 1) (.ite (hs 2) (.ite (hs 3) (.ite (hs 7) (.ite (State.epmBad_kept _ hv) (.ite (hs 7) ?_)))))
  refine .ite (State.takeExc_kept _ _ (State.physFail_kept _ _ _ hv)) (.ite (State.takeExc_kept _ _ hv) ?_)
  exact State.enclStatus_kept _ _ _ (State.setMeasure_kept _ _ (State.putCohWord_kept _ _ (State.putCohWords_kept _ _ hv)))

theorem execEnclSeal_goes (t : Thr) (rd rs1 : RegNo) (h : s.Kept p q) : Goes p q (execEnclSeal t rd rs1 s) := by
  unfold execEnclSeal
  grind [State.enclStatus_kept, State.setEcdState_kept, State.setMeasure_kept, State.withEcd_kept, enclM_goes]

theorem State.dropLine_kept (line : Nat) (h : s.Kept p q) : (s.dropLine line).Kept p q := h.of_eq rfl rfl rfl
theorem State.scrub_kept (ecd : Nat) (h : s.Kept p q) : (s.scrub ecd).Kept p q := by
  unfold State.scrub
  grind [State.Kept.foldl, State.dropLine_kept, State.putCohWord_kept, State.wbMem_kept]

theorem execEnclDestroy_goes (t : Thr) (rd rs1 : RegNo) (h : s.Kept p q) : Goes p q (execEnclDestroy t rd rs1 s) := by
  unfold execEnclDestroy
  grind [State.enclStatus_kept, State.epmBad_kept, State.putCohWords_kept, State.scrub_kept, State.setEcdState_kept, State.tlbiCast_kept,
    State.tlbiCore_kept, State.withEcd_kept, enclM_goes]

theorem State.blockCheck_kept (t : Nat) (tag : Tag) (va : Word) (pa : Nat) (acc : Access) (h : s.Kept p q) : (s.blockCheck t tag va pa acc).1.Kept p q := by
  unfold State.blockCheck
  grind [State.mismatch_kept, State.noTarget_kept, State.refused_kept]

theorem State.readBlock_kept (t : Nat) (va : Word) (h : s.Kept p q) : (s.readBlock t va).1.Kept p q := by
  unfold State.readBlock
  dsimp only
  repeat' split
  all_goals grind [State.blockCheck_kept, State.xlate_kept]

theorem State.restoreSlot_kept (t slotPa : Nat) (h : s.Kept p q) : (s.restoreSlot t slotPa).Kept p q := by
  unfold State.restoreSlot
  grind [State.updThr_kept]

theorem State.enclGo_kept (t : Nat) (rd rs1 : RegNo) (va : Word) (ecd slot slotPa : Nat) (resume : Bool) (h : s.Kept p q) :
    (s.enclGo t rd rs1 va ecd slot slotPa resume).Kept p q := by
  unfold State.enclGo
  grind [State.Kept, State.predClear_kept, State.putCohWord_kept, State.putCohWords_kept, State.restoreSlot_kept, State.retire_kept,
    State.takeExc_kept, State.updThr_kept]

theorem execEnclEnter_goes (t : Thr) (rd rs1 : RegNo) (h : s.Kept p q) : Goes p q (execEnclEnter t rd rs1 s) := by
  unfold execEnclEnter
  refine State.run_goes t (fun u hu => ?_) h
  refine .ite (State.enclPriv_kept _ _ hu) (.ite (State.takeExc_kept _ _ hu) ?_)
  have hr := u.readBlock_kept t ((u.thr t).readG rs1) hu
  generalize u.readBlock t ((u.thr t).readG rs1) = r at hr
  obtain ⟨v, r⟩ := r
  cases r with
  | wait => exact hr
  | exc e => exact State.takeExc_kept _ _ hr
  | ok pa b =>
    refine .ite (State.enclStatus_kept _ _ _ hr) (State.withEcd_kept _ _ _ (fun w hw => ?_) hr)
    have hs (k : Nat) : (w.enclStatus t rd k).Kept p q := State.enclStatus_kept _ _ _ hw
    refine .ite (hs 1) (.ite (hs 2) (.ite (hs 4) (.ite (State.epmBad_kept _ hw) ?_)))
    refine .ite (State.takeExc_kept _ _ hw) (.ite (State.takeExc_kept _ _ hw) (.ite (State.takeExc_kept _ _ hw) ?_))
    exact .ite (hs 4) (.ite (hs 5) (State.enclGo_kept _ _ _ _ _ _ _ _ hw))

theorem execEnclExit_goes (t : Thr) (rd rs1 : RegNo) (h : s.Kept p q) : Goes p q (execEnclExit t rd rs1 s) := by
  unfold execEnclExit
  grind [State.enclPriv_kept, State.finish_kept, State.illegal_kept, State.predClear_kept, State.putCohWord_kept, State.run_goes, State.takeExc_kept]

theorem execEnclReport_goes (t : Thr) (rd rs1 : RegNo) (h : s.Kept p q) : Goes p q (execEnclReport t rd rs1 s) := by
  unfold execEnclReport
  refine State.run_goes t (fun u hu => .ite (State.enclPriv_kept _ _ hu) ?_) h
  split
  · exact State.takeExc_kept _ _ hu
  · refine .ite (State.enclStatus_kept _ _ _ hu) ?_
    grind [State.xlate_kept, State.blockCheck_kept, State.takeExc_kept, State.updThr_kept]

theorem execReportComplete_goes (t : Thr) (h : s.Kept p q) : Goes p q (execReportComplete t s) := by
  unfold execReportComplete
  grind [Goes, State.drawn_kept, State.finish_kept, State.putCohBytes_kept]

/-! System links and the partner. -/

theorem State.linkState_kept (p₀ : Nat) (st : LinkState) (h : s.Kept p q) : (s.linkState p₀ st).Kept p q := by
  unfold State.linkState
  grind [State.assertSource_kept, State.noteFree_kept, State.updLink_kept]

theorem State.tryTrain_kept (p₀ : Nat) (h : s.Kept p q) : (s.tryTrain p₀).Kept p q := .ite (State.linkState_kept _ _ h) h
theorem State.sylStatPut_kept (p₀ : Nat) (w : Word) (h : s.Kept p q) : (s.sylStatPut p₀ w).Kept p q := State.updLink_kept _ _ h
theorem State.sylEn_kept (p₀ : Nat) (en : Bool) (h : s.Kept p q) : (s.sylEn p₀ en).Kept p q := by
  unfold State.sylEn
  grind [State.ctlField_kept, State.linkState_kept, State.tryTrain_kept, State.updLink_kept]

theorem execSylEnWrite_goes (port : Fin 8) (en : Bool) (h : s.Kept p q) : Goes p q (execSylEnWrite port en s) := .next (State.sylEn_kept _ _ h)
theorem execSylPrsntNChange_goes (port : Fin 8) (present : Bool) (h : s.Kept p q) : Goes p q (execSylPrsntNChange port present s) := by
  unfold execSylPrsntNChange
  grind [Goes, State.tryTrain_kept, State.updLink_kept]

theorem execLinkTrained_goes (port : Fin 8) (lanes : BitVec 4) (h : s.Kept p q) : Goes p q (execLinkTrained port lanes s) := by
  unfold execLinkTrained
  grind [Goes, State.linkState_kept, State.updLink_kept]

theorem execHello_goes (port : Fin 8) (h₀ : HelloIn) (h : s.Kept p q) : Goes p q (execHello port h₀ s) := by
  unfold execHello
  grind [Goes, State.updLink_kept]

theorem State.refuseLink_kept (p₀ : Nat) (code : Nat) (h : s.Kept p q) : (s.refuseLink p₀ code).Kept p q := by
  unfold State.refuseLink
  grind [State.linkState_kept, State.logError_kept, State.refused_kept, State.updLink_kept]

theorem execAuth_goes (port : Fin 8) (a : AuthIn) (h : s.Kept p q) : Goes p q (execAuth port a s) := by
  unfold execAuth
  dsimp only
  repeat' split
  all_goals grind [Goes, State.ctlField_kept, State.linkState_kept, State.refuseLink_kept, State.updLink_kept]

theorem execAuthTimeout_goes (port : Fin 8) (h : s.Kept p q) : Goes p q (execAuthTimeout port s) := by
  unfold execAuthTimeout
  grind [Goes, State.refuseLink_kept]

theorem State.forgetPartner_kept (h : s.Kept p q) : (s.forgetPartner).Kept p q := by
  unfold State.forgetPartner
  grind [State.Kept, State.Kept.foldl, State.logError_kept, State.partnerLeave_kept, State.setDir_kept]

theorem State.partnerAnswers_kept (h : s.Kept p q) : (s.partnerAnswers).Kept p q := by
  unfold State.partnerAnswers
  grind [State.Kept.foldl, State.homeAck_kept, State.homeClose_kept, State.setTxn_kept]

theorem State.lostWait_kept (p₀ : Nat) (w : LinkReq) (h : s.Kept p q) : (s.lostWait p₀ w).Kept p q := by
  unfold State.lostWait
  grind [State.Kept.getD, State.answerError_kept, State.pairGone_kept, State.relay_kept, State.snpNone_kept, State.updLink_kept, State.waits_kept,
    State.wbGone_kept]

theorem State.partnerLoss_kept (h : s.Kept p q) : (s.partnerLoss).Kept p q := by
  unfold State.partnerLoss
  extract_lets waits s₁ s₂
  have h₂ : s₂.Kept p q := State.ctlField_kept _ _ _ _ (State.updLink_kept _ _ (State.updLink_kept _ _ h))
  clear_value s₂
  have he := State.errorAt_kept (.link 6) 0x0708 3 0xFFF none none h₂
  generalize s₂.errorAt (.link 6) 0x0708 3 0xFFF none none = r at he
  obtain ⟨u, loc⟩ := r
  dsimp -zeta only at he ⊢
  extract_lets s₃ s₄ s₅ s₆
  have h₃ : s₃.Kept p q := State.sendContain_kept _ _ _ _ he
  have h₄ : s₄.Kept p q := State.partnerAnswers_kept (State.forgetPartner_kept h₃)
  have h₅ : s₅.Kept p q := .foldl (fun v w hv => State.lostWait_kept _ _ hv) h₄
  have h₆ : s₆.Kept p q := .foldl (fun v ch hv => State.sendAll_kept _ (State.updChan_kept _ _ hv)) h₅
  clear_value s₆
  exact h₆.of_eq rfl rfl rfl

theorem State.linkLoss_kept (p₀ : Nat) (h : s.Kept p q) : (s.linkLoss p₀).Kept p q := by
  unfold State.linkLoss
  grind [State.Kept.foldl, State.linkState_kept, State.lostWait_kept, State.partnerLoss_kept, State.updLink_kept, State.waits_kept]

theorem execLinkLost_goes (port : Fin 8) (h : s.Kept p q) : Goes p q (execLinkLost port s) := by
  unfold execLinkLost
  grind [Goes, State.linkLoss_kept]

theorem execNak_goes (port : Fin 8) (seq : BitVec 16) (h : s.Kept p q) : Goes p q (execNak port seq s) := by
  unfold execNak
  grind [Goes, State.linkLoss_kept, State.logError_kept, State.updLink_kept]

theorem execHeartbeatSend_goes (port : Fin 8) (h : s.Kept p q) : Goes p q (execHeartbeatSend port s) := by
  unfold execHeartbeatSend
  grind [Goes, State.updLink_kept]

theorem execRekey_goes (port : Fin 8) (h : s.Kept p q) : Goes p q (execRekey port s) := by
  unfold execRekey
  grind [Goes, State.updLink_kept]

theorem State.frameError_kept (p₀ : Nat) (fr : FrameIn) (code : BitVec 16) (loc : BitVec 32) (h : s.Kept p q) : (s.frameError p₀ fr code loc).Kept p q := by
  unfold State.frameError
  grind [State.putFrame_kept]

theorem State.forwardFrame_kept (p₀ : Nat) (fr : FrameIn) (h : s.Kept p q) : (s.forwardFrame p₀ fr).Kept p q := by
  unfold State.forwardFrame
  grind [State.errorAt_kept, State.frameError_kept, State.logError_kept, State.putFrame_kept]

theorem State.frameAnswer_kept (p₀ : Nat) (fr : FrameIn) (f : Flit) (keep : Bool) (h : s.Kept p q) : (s.frameAnswer p₀ fr f keep).Kept p q := by
  unfold State.frameAnswer
  grind [State.logError_kept, State.send_kept, State.updLink_kept, State.waits_kept]

theorem State.pairSnoop_kept (p₀ : Nat) (fr : FrameIn) (f : Flit) (h : s.Kept p q) : (s.pairSnoop p₀ fr f).Kept p q := by
  unfold State.pairSnoop
  dsimp only
  repeat' split
  all_goals grind [State.Kept.foldl, State.dieYield_kept, State.hubSnoop_kept, State.pairAnswer_kept, State.updLink_kept]

theorem State.linkAsk_kept (p₀ : Nat) (fr : FrameIn) (f : Flit) (h : s.Kept p q) : (s.linkAsk p₀ fr f).Kept p q := State.sendDevice_kept _ _ _ h
theorem State.pairFrame_kept (p₀ : Nat) (fr : FrameIn) (op : Op) (h : s.Kept p q) : (s.pairFrame p₀ fr op).Kept p q := by
  unfold State.pairFrame
  grind [State.Kept.foldl, State.frameAnswer_kept, State.freshTid_kept, State.linkAsk_kept, State.logError_kept, State.pairSnoop_kept,
    State.send_kept, State.tlbiAt_kept]

theorem State.frameHere_kept (p₀ : Nat) (fr : FrameIn) (h : s.Kept p q) : (s.frameHere p₀ fr).Kept p q := by
  unfold State.frameHere
  grind [State.atomHome_kept, State.errorAt_kept, State.frameAnswer_kept, State.frameError_kept, State.linkAsk_kept, State.logError_kept,
    State.pairFrame_kept, State.serveWindow_kept]

theorem execFrameReceive_goes (port : Fin 8) (f : FrameIn) (h : s.Kept p q) : Goes p q (execFrameReceive port f s) := by
  unfold execFrameReceive
  grind [Goes, State.forwardFrame_kept, State.frameHere_kept, State.logError_kept, State.raise_kept, State.updLink_kept]

theorem execLinkTimeExchange_goes (port : Fin 8) (said : TimeSaid) (h : s.Kept p q) : Goes p q (execLinkTimeExchange port said s) := by
  unfold execLinkTimeExchange
  extract_lets stamp a l s₁ diff first s₂ code old
  have h₁ : s₁.Kept p q := State.updLink_kept _ _ h
  have h₂ : s₂.Kept p q := h₁.of_eq rfl rfl rfl
  clear_value s₁ s₂
  split
  · exact .next h
  · split
    · exact .next h₁
    · split
      · exact .next (State.note_kept _ _ _ _ ((State.drawn_kept h₂).of_eq rfl rfl rfl))
      · exact .next (h₂.of_eq rfl rfl rfl)

theorem execMirrorFlush_goes (c : CoreId) (n : Nat) (h : s.Kept p q) : Goes p q (execMirrorFlush c n s) := by
  unfold execMirrorFlush
  grind [Goes, State.mirrorSend_kept]

theorem State.dropWb_kept (d line : Nat) (h : s.Kept p q) : (s.dropWb d line).Kept p q := h.of_eq rfl rfl rfl
theorem State.discardPartner_kept (d : Nat) (h : s.Kept p q) : (s.discardPartner d).Kept p q := by
  unfold State.discardPartner
  refine .foldl (fun u line hu => .ite ?_ hu) h
  exact State.dropWb_kept _ _ (State.updDie_kept _ _ (State.setL3Buf_kept _ _ _ (State.setFtxn_kept _ _ _ (State.setFent_kept _ _ _
    (State.dieTake_kept _ _ hu)))))

theorem State.rehome_kept (d : Nat) (h : s.Kept p q) : (s.rehome d).Kept p q := by
  unfold State.rehome
  grind [State.Kept.foldl, State.ctlField_kept]

theorem State.mirrorEvents_kept (ch : Nat) (h : s.Kept p q) : (s.mirrorEvents ch).Kept p q := by
  unfold State.mirrorEvents
  grind [State.Kept.foldl, State.drawn_kept, State.note_kept, State.updChan_kept]

theorem execPartnerScanDone_goes (h : s.Kept p q) : Goes p q (execPartnerScanDone s) := by
  unfold execPartnerScanDone
  extract_lets s₁ s₂ s₃
  have h₁ : s₁.Kept p q := .foldl (fun u d hu => State.discardPartner_kept d hu) h
  have h₂ : s₂.Kept p q := .ite (.foldl (fun u d hu => State.mirrorEvents_kept d hu) h₁) h₁
  have h₃ : s₃.Kept p q := .foldl (fun u d hu => State.rehome_kept d hu) h₂
  clear_value s₃
  exact .ite (.next h) (.next (h₃.withPair _))

/-! Guards. -/

theorem State.guardEntryPut_kept (ch reg : Nat) (w : Word) (h : s.Kept p q) : (s.guardEntryPut ch reg w).Kept p q := .ite h (State.ctlPut_kept _ _ h)
theorem State.guardCommit_kept (ch v : Nat) (h : s.Kept p q) : (s.guardCommit ch v).Kept p q := by
  unfold State.guardCommit
  grind [State.Kept.foldl, State.ctlField_kept, State.ctlPut_kept]

theorem State.guardKeyPut_kept (ch slot w : Nat) (v : Word) (h : s.Kept p q) : (s.guardKeyPut ch slot w v).Kept p q := by
  unfold State.guardKeyPut
  grind [State.Kept, State.ctlField_kept]

theorem State.guardPut_kept (ch reg : Nat) (w : Word) (h : s.Kept p q) : (s.guardPut ch reg w).Kept p q := by
  unfold State.guardPut
  grind [State.ctlPut_kept, State.guardCommit_kept, State.guardEntryPut_kept, State.guardKeyPut_kept]

theorem execGrdCommitWrite_goes (guard : Fin 24) (version : BitVec 32) (h : s.Kept p q) : Goes p q (execGrdCommitWrite guard version s) :=
  .next (.ite h (State.guardCommit_kept _ _ h))
theorem execGrdKeyWrite_goes (guard : Fin 24) (slot : Fin 64) (w : Fin 8) (val : Word) (h : s.Kept p q) : Goes p q (execGrdKeyWrite guard slot w val s) :=
  .next (.ite h (State.guardKeyPut_kept _ _ _ _ h))
theorem State.gpioWorldPut_kept (sec : BitVec 32) (h : s.Kept p q) : (s.gpioWorldPut sec).Kept p q := by
  unfold State.gpioWorldPut
  grind [State.Kept, State.ctlPut_kept, State.worldsMoved_kept]

theorem execMcGpioWorldWrite_goes (sec : BitVec 32) (h : s.Kept p q) : Goes p q (execMcGpioWorldWrite sec s) := .next (State.gpioWorldPut_kept _ h)

/-! Error records. -/

theorem State.freeRecord_kept (d slot : Nat) (v : Word) (h : s.Kept p q) : (s.freeRecord d slot v).Kept p q := .ite (State.setSlot_kept _ _ _ h) h
theorem execRecordFree_goes (secure : Bool) (die : Fin 17) (slot : Fin 512) (val : Word) (h : s.Kept p q) :
    Goes p q (execRecordFree secure die slot val s) := by
  unfold execRecordFree
  grind [Goes, State.freeRecord_kept]

theorem State.summaryPut_kept (sec : Bool) (v : Word) (h : s.Kept p q) : (s.summaryPut sec v).Kept p q := h.of_eq rfl rfl rfl
theorem State.stickyClear_kept (h : s.Kept p q) : (s.stickyClear).Kept p q := h.of_eq rfl rfl rfl
theorem State.errCtlPut_kept (v : Word) (h : s.Kept p q) : (s.errCtlPut v).Kept p q :=
  State.Kept.of_eq (.ite (State.stickyClear_kept h) h) rfl rfl rfl

theorem execSummaryClr_goes (secure : Bool) (h : s.Kept p q) : Goes p q (execSummaryClr secure s) := by
  unfold execSummaryClr
  grind [Goes, State.stickyClear_kept]

theorem State.notifyPut_kept (sec : Bool) (v : Word) (h : s.Kept p q) : (s.notifyPut sec v).Kept p q := by
  unfold State.notifyPut
  dsimp only
  repeat' split
  all_goals grind [State.Kept]

theorem execErrCeNotifyWrite_goes (secure : Bool) (val : Word) (h : s.Kept p q) : Goes p q (execErrCeNotifyWrite secure val s) :=
  .next (State.notifyPut_kept _ _ h)
theorem State.ephPut_kept (d : Nat) (v : Word) (h : s.Kept p q) : (s.ephPut d v).Kept p q := State.updDie_kept _ _ h
theorem State.errWrite_kept (sec : Bool) (off : Nat) (v : Word) (h : s.Kept p q) : (s.errWrite sec off v).Kept p q := by
  unfold State.errWrite
  grind [State.ephPut_kept, State.errCtlPut_kept, State.freeRecord_kept, State.notifyPut_kept, State.summaryPut_kept, State.updDie_kept]

/-! The I/O MMU. -/

theorem State.ioCheck_kept (line : Nat) (tag : Tag) (rd wr : Bool) (a : Agent) (h : s.Kept p q) : (s.ioCheck line tag rd wr a).1.Kept p q := by
  unfold State.ioCheck
  grind [State.logError_kept, State.refused_kept]

theorem State.ioOwn_kept (line : Nat) (tag : Tag) (h : s.Kept p q) : (s.ioOwn line tag).1.Kept p q := by
  unfold State.ioOwn
  grind [State.setAtom_kept, State.takeAll_kept]

theorem State.ioPut_kept (line : Nat) (tag : Tag) (data : LineData) (mask : BitVec 64) (poison : Bool) (h : s.Kept p q) :
    (s.ioPut line tag data mask poison).Kept p q := by
  unfold State.ioPut
  grind [State.ioOwn_kept, State.wbMem_kept]

theorem State.streamEntry_kept (n : BitVec 16) (h : s.Kept p q) : (s.streamEntry n).1.Kept p q := by
  unfold State.streamEntry
  split
  · exact h
  · refine .ite_fst h ?_
    split
    next u e hu => exact (State.ioCheck_kept _ _ _ _ _ h).of_pair hu
    next u hu =>
      have hu' : u.Kept p q := (State.ioCheck_kept _ _ _ _ _ h).of_pair hu
      exact .ite_fst hu' (.ite_fst (hu'.of_eq rfl rfl rfl) hu')

theorem State.ioWalkBad_kept (tag : Tag) (pa : Nat) (h : s.Kept p q) : (s.ioWalkBad tag pa).Kept p q := by
  unfold State.ioWalkBad
  grind [State.ioCheck_kept]

theorem State.ioWalk_kept (c : TCtx) (tag : Tag) (acc : Access) (va : Word) (n : Nat) (h : s.Kept p q) : (State.ioWalk c tag acc va n s).1.Kept p q := by
  induction n generalizing s with
  | zero => exact h
  | succ n ih =>
    unfold State.ioWalk
    split
    · exact ih (State.putCohWord_kept _ _ h)
    · exact h

theorem State.ioFault_kept (world : Tag) (iova : Word) (h : s.Kept p q) : (s.ioFault world iova).Kept p q := State.logError_kept _ _ _ _ _ _ h
theorem State.ioXlate_kept (n : BitVec 16) (acc : Access) (iova : Word) (h : s.Kept p q) : (s.ioXlate n acc iova).1.Kept p q := by
  have he := State.streamEntry_kept n h
  unfold State.ioXlate
  generalize s.streamEntry n = r at he
  obtain ⟨u, ent⟩ := r
  dsimp -zeta only at he ⊢
  extract_lets world fail
  have hfail (w : State) (hw : w.Kept p q) : (fail w).1.Kept p q := State.ioFault_kept _ _ hw
  clear_value fail
  split
  · exact hfail _ he
  · refine .ite_fst (.ite_fst he (hfail _ he)) ?_
    split
    · exact he
    · split
      next v e hv => exact ((State.ioWalk_kept _ _ _ _ _ he).of_pair hv).of_eq rfl rfl rfl
      next v _ _ _ _ hv => exact hfail _ (State.ioWalkBad_kept _ _ ((State.ioWalk_kept _ _ _ _ _ he).of_pair hv))
      next v _ _ _ hv => exact hfail _ ((State.ioWalk_kept _ _ _ _ _ he).of_pair hv)

theorem State.msi_kept (secureView : Bool) (stream : BitVec 16) (data : Nat) (h : s.Kept p q) : (s.msi secureView stream data).Kept p q := by
  unfold State.msi
  grind [State.assertSource_kept, State.logError_kept]

theorem State.atsDone_kept (stream : BitVec 16) (h : s.Kept p q) : (s.atsDone stream).Kept p q := by
  unfold State.atsDone
  grind [State.Kept, State.send_kept]

theorem execAtsInvalidateCompletion_goes (stream : BitVec 16) (h : s.Kept p q) : Goes p q (execAtsInvalidateCompletion stream s) :=
  .next (State.atsDone_kept _ h)
theorem execAtsTimeout_goes (stream : BitVec 16) (h : s.Kept p q) : Goes p q (execAtsTimeout stream s) := by
  unfold execAtsTimeout
  grind [State.Kept, Goes, State.atsDone_kept]

theorem execPriPageRequest_goes (stream : BitVec 16) (w0 w1 : Word) (h : s.Kept p q) : Goes p q (execPriPageRequest stream w0 w1 s) := by
  have he := State.streamEntry_kept stream h
  unfold execPriPageRequest
  generalize s.streamEntry stream = r at he
  obtain ⟨u, ent⟩ := r
  dsimp -zeta only at he ⊢
  extract_lets pri io full pa
  refine .ite (.next (he.of_eq rfl rfl rfl)) (.ite (.next he) ?_)
  split
  next v _ hv => exact .next ((State.ioCheck_kept _ _ _ _ _ he).of_pair hv)
  next v hv =>
    have hv' : v.Kept p q := (State.ioCheck_kept _ _ _ _ _ he).of_pair hv
    extract_lets s₁ empty s₂
    have h₁ : s₁.Kept p q := State.ioPut_kept _ _ _ _ _ hv'
    clear_value s₁
    have h₂ : s₂.Kept p q := h₁.of_eq rfl rfl rfl
    exact .next (.ite (State.assertSource_kept _ h₂) h₂)

theorem State.prgResp_kept (val : Word) (h : s.Kept p q) : (s.prgResp val).Kept p q := h.of_eq rfl rfl rfl
theorem execPrgRespWrite_goes (val : Word) (h : s.Kept p q) : Goes p q (execPrgRespWrite val s) := .next (State.prgResp_kept _ h)

/-! Root ports. -/

theorem State.updSub_kept (p₀ k : Nat) (f : SubPort → SubPort) (h : s.Kept p q) : (s.updSub p₀ k f).Kept p q := State.updPort_kept _ _ h
theorem State.reqFails_kept (p₀ : Nat) (r : PortReq) (code : BitVec 16) (h : s.Kept p q) : (s.reqFails p₀ r code).Kept p q := by
  unfold State.reqFails
  grind [State.coversFail_kept, State.send_kept]

theorem State.subFails_kept (p₀ k : Nat) (code : BitVec 16) (h : s.Kept p q) : (s.subFails p₀ k code).Kept p q := by
  unfold State.subFails
  grind [State.Kept.foldl, State.coverOwed_kept, State.reqFails_kept, State.updPort_kept]

theorem State.containSub_kept (p₀ k : Nat) (h : s.Kept p q) : (s.containSub p₀ k).Kept p q := by
  unfold State.containSub
  grind [State.assertSource_kept, State.ctlField_kept, State.subFails_kept]

theorem State.portTake_kept (p₀ : Nat) (f : Flit) (h : s.Kept p q) : ∀ {u}, s.portTake p₀ f = some u → u.Kept p q := by
  unfold State.portTake
  grind [State.answerError_kept, State.send_kept, State.updPort_kept]

theorem State.cxlDone_kept (p₀ : Nat) (f : Flit) (bad : Bool) (h : s.Kept p q) : (s.cxlDone p₀ f bad).Kept p q := by
  unfold State.cxlDone
  grind [State.logError_kept, State.putLine_kept, State.send_kept]

theorem execPcieCompletion_goes (port : Fin 10) (n : Nat) (status : CplStatus) (data : Word) (h : s.Kept p q) :
    Goes p q (execPcieCompletion port n status data s) := by
  unfold execPcieCompletion
  dsimp only
  repeat' split
  all_goals grind [State.Kept, Goes, State.coverOwed_kept, State.cxlDone_kept, State.logError_kept, State.reqFails_kept, State.send_kept,
    State.sendAll_kept, State.updPort_kept]

theorem execEndptTimeout_goes (port : Fin 10) (n : Nat) (h : s.Kept p q) : Goes p q (execEndptTimeout port n s) := by
  unfold execEndptTimeout
  grind [Goes, State.containSub_kept, State.coverOwed_kept, State.reqFails_kept, State.updPort_kept]

theorem State.containRelease_kept (p₀ : Nat) (mask : BitVec 4) (h : s.Kept p q) : (s.containRelease p₀ mask).Kept p q := by
  unfold State.containRelease
  grind [State.Kept.foldl, State.updSub_kept]

theorem execContainedWrite_goes (port : Fin 10) (mask : BitVec 4) (h : s.Kept p q) : Goes p q (execContainedWrite port mask s) :=
  .next (State.containRelease_kept _ _ h)
theorem execContainmentReleaseDone_goes (port : Fin 10) (sub : Fin 4) (h : s.Kept p q) : Goes p q (execContainmentReleaseDone port sub s) := by
  unfold execContainmentReleaseDone
  grind [Goes, State.ctlField_kept, State.updSub_kept]

theorem execPcieLinkDown_goes (port : Fin 10) (sub : Fin 4) (dpc : Bool) (h : s.Kept p q) : Goes p q (execPcieLinkDown port sub dpc s) := by
  unfold execPcieLinkDown
  grind [Goes, State.containSub_kept, State.subFails_kept, State.updSub_kept]

theorem execPcieLinkUp_goes (port : Fin 10) (sub : Fin 4) (cxlOffered : Bool) (h : s.Kept p q) : Goes p q (execPcieLinkUp port sub cxlOffered s) := by
  unfold execPcieLinkUp
  grind [Goes, State.updPort_kept, State.updSub_kept]

theorem execPerstNRelease_goes (port : Fin 10) (sub : Fin 4) (h : s.Kept p q) : Goes p q (execPerstNRelease port sub s) :=
  .ite (.next h) (.next (State.updSub_kept _ _ _ h))
theorem State.busReset_kept (p₀ k : Nat) (on : Bool) (h : s.Kept p q) : (s.busReset p₀ k on).Kept p q := by
  unfold State.busReset
  grind [State.subFails_kept, State.updSub_kept]

theorem State.portAnswer_kept (p₀ : Nat) (f : Flit) (h : s.Kept p q) : (s.portAnswer p₀ f).Kept p q := by
  unfold State.portAnswer
  grind [State.logError_kept, State.updPort_kept]

theorem State.inboundAt_kept (a : Agent) (k : Nat) (tag : Tag) (r : InboundReq) (pa : Nat) (h : s.Kept p q) : (s.inboundAt a k tag r pa).Kept p q := by
  unfold State.inboundAt
  grind [State.freshTid_kept, State.ioCheck_kept, State.ioPut_kept, State.send_kept, State.updPort_kept]

theorem State.inbound_goes (port : Fin 10) (sub : Fin 4) (r : InboundReq) (waited : Bool) (h : s.Kept p q) : Goes p q (s.inbound port sub r waited) := by
  unfold State.inbound
  extract_lets a k ag tag regu atomic acc x
  have hx : x.1.Kept p q := by
    dsimp only [x]
    refine .ite_fst ?_ (State.ioXlate_kept _ _ _ h)
    have he := State.streamEntry_kept r.stream h
    generalize s.streamEntry r.stream = e at he
    exact .ite_fst he (State.ioFault_kept _ _ he)
  clear_value x
  refine .ite (.next h) (.ite (.next h) ?_)
  obtain ⟨u, pa⟩ := x
  cases pa with
  | inr e => exact .next hx
  | inl pa =>
    dsimp only at hx ⊢
    split
    · exact .ite (.next (State.msi_kept _ _ _ hx)) (.next (State.ioFault_kept _ _ hx))
    · refine .ite (.next (State.ioFault_kept _ _ hx)) (.ite (.next h) ?_)
      split
      next v hv =>
        have hv' : v.Kept p q := by
          split at hv
          · cases hv
          · exact State.regLeave_kept _ hx hv
        exact .next (State.inboundAt_kept _ _ _ _ _ hv')
      next => exact .next (.ite h (h.of_eq rfl rfl rfl))

theorem execRegulatorRelease_goes (k : Nat) (h : s.Kept p q) : Goes p q (execRegulatorRelease k s) := by
  unfold execRegulatorRelease
  split
  · split
    · exact .next h
    · refine .ite (.next h) ?_
      split
      next u hu => exact .next (State.send_kept _ ((State.regLeave_kept _ h hu).of_eq rfl rfl rfl))
      next => exact .next h
  · extract_lets i
    split
    · exact .next h
    · refine .ite (.next h) ?_
      split
      · exact State.inbound_goes _ _ _ _ (h.of_eq rfl rfl rfl)
      · exact .next h

theorem execMsiWrite_goes (port : Fin 10) (sub : Fin 4) (stream : BitVec 16) (secureView : Bool) (data : BitVec 32) (h : s.Kept p q) :
    Goes p q (execMsiWrite port sub stream secureView data s) :=
  .ite (.next h) (.next (State.msi_kept _ _ _ h))

/-! The Data Movers. -/

theorem State.chWorldPut_kept (e ch : Nat) (world : Tag) (h : s.Kept p q) : ∀ {u}, s.chWorldPut e ch world = some u → u.Kept p q := by
  unfold State.chWorldPut
  grind [State.ctlPut_kept, State.worldsMoved_kept]

theorem execDmvChWorldWrite_goes (engine : Fin 4) (ch : Fin 16) (world : Tag) (h : s.Kept p q) : Goes p q (execDmvChWorldWrite engine ch world s) :=
  .next (.ite h (.getD (fun _ hu => State.chWorldPut_kept _ _ _ h hu) h))

theorem State.slotPut_kept (e slot : Nat) (val : Word) (h : s.Kept p q) : ∀ {u}, s.slotPut e slot val = some u → u.Kept p q := by
  intro u hu
  unfold State.slotPut at hu
  dsimp only at hu
  repeat' split at hu
  all_goals grind [State.ctlPut_kept, State.updInst_kept]

theorem execDmvSlotWrite_goes (engine : Fin 4) (slot : Fin 64) (val : Word) (h : s.Kept p q) : Goes p q (execDmvSlotWrite engine slot val s) :=
  .next (.ite h (.getD (fun _ hu => State.slotPut_kept _ _ _ h hu) h))

theorem State.sendTarget_kept (e : Nat) (reg : Word) (secure : Bool) (h : s.Kept p q) : (s.sendTarget e reg secure).Kept p q := by
  unfold State.sendTarget
  grind [State.logError_kept, State.send_kept]

theorem State.moverSend_kept (i : Nat) (f : Flit) (h : s.Kept p q) : (s.moverSend i f).Kept p q := State.sendDevice_kept _ _ _ h
theorem State.moverAsk_kept (i line : Nat) (window : Bool) (h : s.Kept p q) : (s.moverAsk i line window).Kept p q := by
  unfold State.moverAsk
  grind [State.freshTid_kept, State.moverSend_kept, State.updInst_kept]

theorem State.gatherLine_kept (i line : Nat) (h : s.Kept p q) : (s.gatherLine i line).1.Kept p q := by
  unfold State.gatherLine
  grind [State.ioCheck_kept, State.logError_kept, State.moverAsk_kept]

theorem State.gather_kept (i : Nat) (lines : List Nat) (h : s.Kept p q) : (s.gather i lines).1.Kept p q := by
  unfold State.gather
  grind [State.Kept.foldlPair, State.gatherLine_kept]

theorem State.mayPut_kept (i line : Nat) (h : s.Kept p q) : (s.mayPut i line).1.Kept p q := by
  unfold State.mayPut
  grind [State.ioCheck_kept, State.logError_kept]

theorem State.moverPut_kept (i line : Nat) (data : LineData) (mask : BitVec 64) (poison : Bool) (h : s.Kept p q) :
    (s.moverPut i line data mask poison).Kept p q := by
  unfold State.moverPut
  grind [State.freshTid_kept, State.ioPut_kept, State.moverSend_kept, State.updInst_kept]

theorem State.moverAnswer_kept (e : Nat) (f : Flit) (h : s.Kept p q) : (s.moverAnswer e f).Kept p q := by
  unfold State.moverAnswer
  grind [State.logError_kept, State.updInst_kept]

theorem State.ioBytes_kept (i : Nat) (iova : Word) (n : Nat) (h : s.Kept p q) : (s.ioBytes i iova n).1.Kept p q := by
  unfold State.ioBytes
  dsimp only
  repeat' split
  all_goals grind [State.gatherLine_kept, State.ioXlate_kept]

theorem State.ioList_kept (i len n : Nat) (a : Word) (sum : Nat) (got : List (Nat × Nat)) (h : s.Kept p q) :
    (State.ioList i len n a sum got s).1.Kept p q := by
  induction n generalizing s a sum got with
  | zero => exact h
  | succ n ih =>
    unfold State.ioList
    have hb := State.ioBytes_kept i a 16 h
    split
    next u b bad hu =>
      have hu' : u.Kept p q := hb.of_pair hu
      exact .ite_fst hu' (.ite_fst hu' (.ite_fst hu' (ih _ _ _ hu')))
    next u _ _ _ _ hu => exact hb.of_pair hu

theorem State.descRanges_kept (i : Nat) (d : List Word) (h : s.Kept p q) : (s.descRanges i d).1.Kept p q := by
  unfold State.descRanges
  grind [State.ioList_kept]

theorem State.xlateParts_kept (i : Nat) (wr : Bool) (l : List Part) (h : s.Kept p q) : (State.xlateParts i wr l s).1.Kept p q := by
  induction l generalizing s with
  | nil => exact h
  | cons a l ih =>
    unfold State.xlateParts
    extract_lets one
    have hone (w : State) (v : Option Nat) (acc : Access) (hw : w.Kept p q) : (one w v acc).1.Kept p q := by
      dsimp only [one]
      grind [State.ioXlate_kept]
    clear_value one
    have ha := hone s a.src .load h
    split
    next u x hu =>
      have hb := hone u a.dst (if wr then .store else .load) (ha.of_pair hu)
      split
      next v y hv => exact ih (hb.of_pair hv)
      next v _ _ _ hv => exact hb.of_pair hv
    next u _ _ _ hu => exact ha.of_pair hu

theorem State.segTokens_kept (i flits : Nat) (h : s.Kept p q) : (s.segTokens i flits).1.Kept p q := by
  unfold State.segTokens
  grind [State.ctlField_kept, State.updInst_kept]

theorem State.cplDone_kept (i : Nat) (h : s.Kept p q) : (s.cplDone i).Kept p q := by
  unfold State.cplDone
  grind [State.sendTarget_kept, State.updInst_kept]

theorem State.cplFail_kept (i : Nat) (h : s.Kept p q) : (s.cplFail i).Kept p q := by
  unfold State.cplFail
  grind [State.assertSource_kept, State.logError_kept, State.updInst_kept]

/-- What a step of an `Inst` comes to leaves memory canonical. -/
def Serve.Kept (p : BitVec 8) (q : BitVec 4) : Serve → Prop
  | .stay => True
  | .go u => u.Kept p q
  | .ends u _ => u.Kept p q

theorem Serve.Kept.ite {c : Prop} [Decidable c] {a b : Serve} (ha : a.Kept p q) (hb : b.Kept p q) : (if c then a else b).Kept p q := by
  split <;> assumption

theorem State.mayPutAll_kept (i : Nat) (l : List (Nat × LineData × BitVec 64 × Bool)) (x : State × Gather) (h : x.1.Kept p q) :
    (l.foldl (fun (p : State × Gather) q => let g := p.1.mayPut i q.1; (g.1, p.2.and g.2)) x).1.Kept p q := by
  refine .foldlPair (fun _ _ ha => ?_) h
  exact State.mayPut_kept _ _ ha

theorem State.segment_kept (i : Nat) (h : s.Kept p q) : (s.segment i).Kept p q := by
  unfold State.segment
  extract_lets x d len stop n wr
  have hstop (w : State) (g : Gather) (hw : w.Kept p q) : (stop w g).Kept p q := by
    cases g with
    | wait => exact hw
    | fail n => exact hw
    | ok => trivial
    | busy => trivial
  clear_value stop
  have hd := State.descRanges_kept i d h
  split
  next u a b hu =>
    have hu' : u.Kept p q := hd.of_pair hu
    extract_lets pieces
    have hx := State.xlateParts_kept i wr pieces hu'
    split
    next v ps hv =>
      have hv' : v.Kept p q := hx.of_pair hv
      extract_lets reads
      have hg := State.gather_kept i reads.eraseDups hv'
      split
      next w hw =>
        have hw' : w.Kept p q := hg.of_pair hw
        extract_lets r chk
        have hchk : chk.1.Kept p q := State.mayPutAll_kept i _ _ hw'
        clear_value chk
        split
        next y =>
          have ht := State.segTokens_kept i ((reads.eraseDups ++ r.1.map Prod.fst).filter y.ioLocal).length hchk
          split
          next z hz => exact ht.of_pair hz
          next z hz => exact State.Kept.foldl (fun _ _ ha => State.moverPut_kept _ _ _ _ _ ha) (State.updInst_kept _ _ (ht.of_pair hz))
        next y g _ => exact hstop _ _ hchk
      next w g _ hw => exact hstop _ _ (hg.of_pair hw)
    next v g _ _ hv => exact hstop _ _ (hx.of_pair hv)
  next u g _ _ _ hu => exact hstop _ _ (hd.of_pair hu)

theorem State.beginDesc_kept (i : Nat) (h : s.Kept p q) : (s.beginDesc i).Kept p q := by
  unfold State.beginDesc
  extract_lets x
  have hb := State.ioBytes_kept i (x.descBase + BitVec.ofNat 64 (64 * (x.head.toNat % 2 ^ x.log2))) 64 h
  split
  next u b bad hu =>
    extract_lets d s₁
    have h₁ : s₁.Kept p q := State.updInst_kept _ _ (hb.of_pair hu)
    clear_value s₁
    have hr := State.descRanges_kept i d h₁
    refine .ite h₁ (.ite h₁ ?_)
    split
    next v a c hv =>
      have hv' : v.Kept p q := hr.of_pair hv
      exact .ite hv' (.ite hv' hv')
    next v n _ _ hv => exact hr.of_pair hv
    next v _ _ hv => exact State.updInst_kept _ _ (hr.of_pair hv)
    next => trivial
  next u n _ _ hu => exact hb.of_pair hu
  next u _ _ hu => exact hb.of_pair hu
  next => trivial

theorem State.complete_kept (i status : Nat) (doing : Doing) (h : s.Kept p q) : ∀ {u}, s.complete i status doing = some u → u.Kept p q := by
  unfold State.complete
  extract_lets x op open_ result tag bytes w0 value s₁ s₂ s₃
  have h₂ : s₂.Kept p q := .ite (State.logError_kept _ _ _ _ _ _ (State.drawn_kept h)) (State.drawn_kept h)
  have h₃ : s₃.Kept p q := State.updInst_kept _ _ h₂
  clear_value s₃ value
  have hx := State.ioXlate_kept x.stream .store (x.cplBase + BitVec.ofNat 64 (32 * (x.head.toNat % 2 ^ x.log2))) h₃
  intro u hu
  split at hu
  · cases hu
  · split at hu
    next v _ hv =>
      cases hu
      exact State.cplFail_kept _ (hx.of_pair hv)
    next v pa hv =>
      have hm := State.mayPut_kept i (pa / 64) (hx.of_pair hv)
      split at hu
      next w hw =>
        cases hu
        have hw' := State.moverPut_kept i (pa / 64) (BitVec.ofNat 512 (value * 2 ^ (8 * (pa % 64)))) (byteMask (pa % 64) 32) false (hm.of_pair hw)
        exact .ite hw' (State.cplDone_kept _ hw')
      next w _ hw =>
        cases hu
        exact State.cplFail_kept _ (hm.of_pair hw)
      next => cases hu

theorem State.serveInst_kept (i : Nat) (h : s.Kept p q) : (s.serveInst i).Kept p q := by
  unfold State.serveInst
  extract_lets x run ended s₁ s₂
  have h₁ : s₁.Kept p q := State.updInst_kept _ _ h
  have h₂ : s₂.Kept p q := State.updInst_kept _ _ h
  clear_value s₁ s₂
  refine .ite trivial (.ite (.ite h₁ (State.cplFail_kept _ h₁)) (.ite (State.cplDone_kept _ h) (.ite (.ite h₂ h₂) (.ite trivial ?_))))
  refine .ite (.ite h (State.segment_kept _ h)) (.ite trivial (.ite h ?_))
  have hb := State.beginDesc_kept i h
  split
  next u hu =>
    rw [hu] at hb
    exact .ite (State.segment_kept i hb) hb
  next => exact hb

theorem State.turnOf_kept (i : Nat) (h : s.Kept p q) : ∀ {u}, s.turnOf i = some u → u.Kept p q := by
  have hs := State.serveInst_kept i h
  intro u hu
  unfold State.turnOf at hu
  split at hu
  next => cases hu
  next t ht =>
    rw [ht] at hs
    extract_lets x t' at hu
    have h' : t'.Kept p q := State.updInst_kept _ _ hs
    clear_value t'
    split at hu
    · cases hu
      exact .getD (fun _ hv => State.complete_kept _ _ _ h' hv) hs
    · cases hu
      exact hs
  next t st ht =>
    rw [ht] at hs
    exact State.complete_kept _ _ _ hs hu

theorem execDmvSegment_goes (engine : Fin 4) (ch : Fin 16) (h : s.Kept p q) : Goes p q (execDmvSegment engine ch s) := by
  unfold execDmvSegment
  extract_lets e key first hit
  have hhit (k : Nat) (t : State) (ht : hit = some (k, t)) : t.Kept p q := by
    obtain ⟨a, -, ha⟩ := List.exists_of_findSome?_eq_some ht
    dsimp only at ha
    split at ha
    · split at ha
      · obtain ⟨v, hv, hk⟩ := Option.map_eq_some_iff.mp ha
        cases hk
        exact State.turnOf_kept _ h hv
      · cases ha
    · cases ha
  clear_value hit
  split
  next k t => exact .next ((hhit k t rfl).of_eq rfl rfl rfl)
  next => exact .next h

theorem State.instCommand_kept (secure : Bool) (i cmd : Nat) (h : s.Kept p q) : (s.instCommand secure i cmd).Kept p q :=
  .ite (State.updInst_kept _ _ h) h
theorem execInstFreeze_goes (secure : Bool) (inst : Fin 512) (h : s.Kept p q) : Goes p q (execInstFreeze secure inst s) :=
  .next (State.instCommand_kept _ _ _ h)
theorem execInstThaw_goes (secure : Bool) (inst : Fin 512) (h : s.Kept p q) : Goes p q (execInstThaw secure inst s) :=
  .next (State.instCommand_kept _ _ _ h)
theorem execInstSave_goes (secure : Bool) (inst : Fin 512) (h : s.Kept p q) : Goes p q (execInstSave secure inst s) :=
  .next (State.instCommand_kept _ _ _ h)
theorem execInstRestore_goes (secure : Bool) (inst : Fin 512) (h : s.Kept p q) : Goes p q (execInstRestore secure inst s) :=
  .next (State.instCommand_kept _ _ _ h)
theorem execInstReset_goes (secure : Bool) (inst : Fin 512) (h : s.Kept p q) : Goes p q (execInstReset secure inst s) :=
  .next (State.instCommand_kept _ _ _ h)
theorem execInstFreezeDone_goes (inst : Fin 512) (h : s.Kept p q) : Goes p q (execInstFreezeDone inst s) := by
  unfold execInstFreezeDone
  extract_lets i x t
  have ht : t.Kept p q := State.updInst_kept _ _ h
  clear_value t
  refine .ite (.next h) (.ite (.next (.ite (State.cplFail_kept _ (State.updInst_kept _ _ h)) (State.cplDone_kept _ h))) (.ite (.next h) ?_))
  refine .ite (.next (State.updInst_kept _ _ ht)) (.ite (.next ?_) (.next (State.updInst_kept _ _ ht)))
  exact .getD (fun _ hv => State.complete_kept _ _ _ ht hv) h

theorem State.stateIoFail_kept (i : Nat) (h : s.Kept p q) : (s.stateIoFail i).Kept p q := by
  unfold State.stateIoFail
  grind [State.logError_kept, State.updInst_kept]

theorem execInstSaveDone_goes (inst : Fin 512) (h : s.Kept p q) : Goes p q (execInstSaveDone inst s) := by
  unfold execInstSaveDone
  grind [Goes, State.Kept.foldl, State.Kept.foldlPair, State.mayPut_kept, State.moverPut_kept, State.stateIoFail_kept, State.updInst_kept, State.waits_kept]

theorem execInstRestoreDone_goes (inst : Fin 512) (h : s.Kept p q) : Goes p q (execInstRestoreDone inst s) := by
  unfold execInstRestoreDone
  grind [Goes, State.gather_kept, State.stateIoFail_kept, State.updInst_kept, State.waits_kept]

theorem execDbTailWrite_goes (secure : Bool) (inst : Fin 512) (tail : BitVec 16) (h : s.Kept p q) : Goes p q (execDbTailWrite secure inst tail s) :=
  .next (.ite (State.updInst_kept _ _ h) h)
theorem State.doorbell_kept (i : Nat) (toGuest : Bool) (mask : BitVec 8) (h : s.Kept p q) : (s.doorbell i toGuest mask).Kept p q := by
  unfold State.doorbell
  grind [State.sendTarget_kept, State.updInst_kept]

theorem execH2gDb_goes (secure : Bool) (inst : Fin 512) (mask : BitVec 8) (h : s.Kept p q) : Goes p q (execH2gDb secure inst mask s) :=
  .next (.ite (State.doorbell_kept _ _ _ h) h)
theorem execG2hDb_goes (secure : Bool) (inst : Fin 512) (mask : BitVec 8) (h : s.Kept p q) : Goes p q (execG2hDb secure inst mask s) :=
  .next (.ite (State.doorbell_kept _ _ _ h) h)
theorem State.instWrite_kept (i off : Nat) (w m : Word) (h : s.Kept p q) : (s.instWrite i off w m).Kept p q := by
  unfold State.instWrite
  grind [State.doorbell_kept, State.updInst_kept]

/-! Power and tile states. -/

theorem State.setLast_kept (d i v : Nat) (h : s.Kept p q) : (s.setLast d i v).Kept p q := by
  unfold State.setLast
  grind [State.ctlField_kept]

theorem State.powerEvent_kept (d : Nat) (h : s.Kept p q) : (s.powerEvent d).Kept p q := State.noteFree_kept _ _ h
theorem State.refusePower_kept (d i status : Nat) (h : s.Kept p q) : (s.refusePower d i status).Kept p q := by
  unfold State.refusePower
  grind [State.ctlCount_kept, State.powerEvent_kept, State.setLast_kept]

theorem State.slewAsk_kept (d node : Nat) (kind : SlewKind) (delta : Int) (h : s.Kept p q) : (s.slewAsk d node kind delta).Kept p q :=
  h.of_eq rfl rfl rfl
theorem State.slewDrop_kept (kind : SlewKind) (h : s.Kept p q) : (s.slewDrop kind).Kept p q := h.of_eq rfl rfl rfl
theorem State.retarget_kept (n : Nat) (h : s.Kept p q) : (s.retarget n).Kept p q := by
  unfold State.retarget
  grind [State.slewAsk_kept, State.slewDrop_kept]

theorem State.uncoreAsk_kept (d : Nat) (slow : Bool) (h : s.Kept p q) : (s.uncoreAsk d slow).Kept p q := by
  unfold State.uncoreAsk
  grind [State.slewAsk_kept, State.slewDrop_kept]

theorem State.hubClose_kept (i : Nat) (h : s.Kept p q) : (s.hubClose i).Kept p q := by
  unfold State.hubClose
  grind [State.Kept, State.setLast_kept, State.setPortSt_kept]

theorem State.hubIsland_kept (i : Nat) (off : Bool) (h : s.Kept p q) : (s.hubIsland i off).Kept p q := by
  unfold State.hubIsland
  grind [State.Kept, State.hubClose_kept, State.setLast_kept, State.setPortSt_kept]

theorem State.pwrReqPut_kept (d i : Nat) (w : Word) (h : s.Kept p q) : (s.pwrReqPut d i w).Kept p q := by
  unfold State.pwrReqPut
  grind [State.ctlPut_kept, State.hubIsland_kept, State.refusePower_kept, State.retarget_kept, State.setLast_kept, State.uncoreAsk_kept]

theorem State.slewApply_kept (r : SlewReq) (h : s.Kept p q) : (s.slewApply r).Kept p q := by
  unfold State.slewApply
  grind [State.Kept, State.powerEvent_kept, State.setLast_kept, State.setPortSt_kept, State.updDie_kept, State.updTile_kept, State.wake_kept]

theorem State.slewAnnounce_kept (up : Bool) (h : s.Kept p q) : (s.slewAnnounce up).Kept p q := .ite (h.of_eq rfl rfl rfl) h
theorem State.slewAdmit_kept (cap thresh : Nat) (ann : Bool) (l : List SlewReq) (net : Int) (h : s.Kept p q) :
    (State.slewAdmit cap thresh ann l net s).Kept p q := by
  induction l generalizing s net with
  | nil => exact h
  | cons a l ih => exact .ite (ih _ (State.slewApply_kept _ (h.withPower _))) h

theorem execSlewSlot_goes (h : s.Kept p q) : Goes p q (execSlewSlot s) := by
  unfold execSlewSlot
  extract_lets now c pw s₁ s₂ s₃
  have h₁ : s₁.Kept p q := h.withPower _
  have h₂ : s₂.Kept p q := State.slewAnnounce_kept _ h₁
  have h₃ : s₃.Kept p q := .ite h₂ (State.slewAnnounce_kept _ h₂)
  exact .ite (.next h) (.next (State.slewAdmit_kept _ _ _ _ _ h₃))

theorem State.tileEnter_kept (n c st : Nat) (h : s.Kept p q) : (s.tileEnter n c st).Kept p q := by
  unfold State.tileEnter
  dsimp only
  repeat' split
  all_goals grind [State.Kept, State.Kept.foldl, State.powerEvent_kept, State.predClear_kept, State.setLast_kept, State.setPortSt_kept,
    State.updCore_kept, State.updThr_kept, State.updTile_kept]

theorem State.tileEmpty_kept (n c : Nat) (h : s.Kept p q) : (s.tileEmpty n c).Kept p q := by
  unfold State.tileEmpty
  grind [State.emptyGal_kept, State.emptyL2_kept, State.updCore_kept, State.updTile_kept]

theorem execTileStateEntered_goes (tile : Fin 576) (h : s.Kept p q) : Goes p q (execTileStateEntered tile s) := by
  unfold execTileStateEntered
  extract_lets n d t cur goal normal held refused pw s₁ goal' inEncl kind st
  split
  · exact .next h
  next c _ =>
    refine .ite (.next h) (.ite (.next (State.slewDrop_kept _ h)) ?_)
    have h₁ : s₁.Kept p q := .ite (.withPower _ (State.refusePower_kept _ _ _ h)) h
    clear_value s₁
    refine .ite (.next h₁) (.ite (.next (.foldl (fun u t hu => ?_) h₁)) (.ite (.next ?_) (.ite (.next (State.tileEmpty_kept _ _ h₁)) ?_)))
    · split
      · exact State.updThr_kept _ _ (State.enclExit_kept _ _ _ _ hu)
      · exact hu
    · exact .foldl (fun u t hu => State.coverPosted_kept _ hu) (.foldl (fun u e hu => State.mirrorSend_kept _ _ hu) h₁)
    · refine .ite (.next (State.tileEnter_kept _ _ _ (State.slewDrop_kept _ h₁))) (.ite (.next h₁) (.next ?_))
      exact State.setLast_kept _ _ _ (State.slewAsk_kept _ _ _ _ h₁)

theorem State.pendRelease_kept (n c : Nat) (h : s.Kept p q) : (s.pendRelease n c).Kept p q := by
  unfold State.pendRelease
  grind [State.Kept.foldl, State.Kept.foldlPair, State.deliver_kept, State.updThr_kept, State.updTile_kept]

theorem State.quiesceEnd_kept (e : Nat) (which : Quiesce → Bool) (h : s.Kept p q) : (s.quiesceEnd e which).Kept p q := by
  unfold State.quiesceEnd
  grind [State.Kept, State.Kept.foldl, State.pendRelease_kept]

theorem State.tileResume_kept (n c : Nat) (h : s.Kept p q) : (s.tileResume n c).Kept p q := by
  unfold State.tileResume
  grind [State.Kept.foldl, State.pendRelease_kept, State.tlbiCore_kept, State.updCore_kept]

theorem execTileWakeDone_goes (tile : Fin 576) (h : s.Kept p q) : Goes p q (execTileWakeDone tile s) := by
  unfold execTileWakeDone
  extract_lets n d t kind f
  split
  · exact .next h
  next c _ =>
    extract_lets s₁ s₂ s₃ pw
    have h₂ : s₂.Kept p q := State.updTile_kept _ _ (State.tileResume_kept _ _ (State.slewDrop_kept _ h))
    have h₃ : s₃.Kept p q := .ite (State.ctlField_kept _ _ _ _ (State.setPortSt_kept _ _ h₂)) h₂
    clear_value s₃
    refine .ite (.next h) (.ite (.next (State.setLast_kept _ _ _ (State.powerEvent_kept _ (h₃.withPower _)))) (.ite (.next h) (.next ?_)))
    exact State.setLast_kept _ _ _ (State.slewAsk_kept _ _ _ _ (State.slewDrop_kept _ h))

theorem execPortClosed_goes (port : PortId) (h : s.Kept p q) : Goes p q (execPortClosed port s) := by
  unfold execPortClosed
  grind [Goes, State.hubClose_kept, State.setPortSt_kept]

theorem execPortOpened_goes (port : PortId) (h : s.Kept p q) : Goes p q (execPortOpened port s) := by
  unfold execPortOpened
  grind [Goes, State.ctlField_kept, State.setPortSt_kept]

theorem State.setStretch_kept (d i : Nat) (on : Bool) (h : s.Kept p q) : (s.setStretch d i on).Kept p q := by
  unfold State.setStretch
  grind [State.Kept, State.updDie_kept, State.updTile_kept]

theorem execVernierDroop_goes (die : Fin 17) (island : Fin 47) (h : s.Kept p q) : Goes p q (execVernierDroop die island s) := by
  unfold execVernierDroop
  grind [Goes, State.ctlCount_kept, State.setStretch_kept]

theorem execVernierRelease_goes (die : Fin 17) (island : Fin 47) (h : s.Kept p q) : Goes p q (execVernierRelease die island s) := by
  unfold execVernierRelease
  grind [Goes, State.setStretch_kept]

theorem execPowerLimitTick_goes (limits : List (Fin 576 × Fin 40)) (h : s.Kept p q) : Goes p q (execPowerLimitTick limits s) := by
  unfold execPowerLimitTick
  grind [Goes, State.Kept.foldl, State.retarget_kept, State.updTile_kept]

theorem State.retargetAll_kept (h : s.Kept p q) : (s.retargetAll).Kept p q := by
  unfold State.retargetAll
  grind [State.Kept.foldl, State.retarget_kept]

theorem execProchotAssert_goes (h : s.Kept p q) : Goes p q (execProchotAssert s) := by
  unfold execProchotAssert
  grind [State.Kept, Goes, State.retargetAll_kept]

theorem execProchotDeassert_goes (h : s.Kept p q) : Goes p q (execProchotDeassert s) := by
  unfold execProchotDeassert
  grind [State.Kept, Goes, State.retargetAll_kept]

theorem execThermtrip_goes (h : s.Kept p q) : Goes p q (execThermtrip s) := by
  unfold execThermtrip
  extract_lets r s₁
  have h₁ : s₁.Kept p q := State.event_kept _ _ _ _ _ _ _ _ h
  clear_value s₁
  exact .next (h₁.of_eq rfl rfl rfl)

theorem execP1Enter_goes (h : s.Kept p q) : Goes p q (execP1Enter s) := by
  unfold execP1Enter
  extract_lets s₁ s₂
  have h₁ : s₁.Kept p q := .foldl (fun u d hu => .ite hu (.ite (State.refusePower_kept _ _ _ hu) (State.uncoreAsk_kept _ _ hu))) h
  have h₂ : s₂.Kept p q := .foldl (fun u c hu => .ite (State.refusePower_kept _ _ _ hu) (State.updChan_kept _ _ hu)) h₁
  clear_value s₂
  exact .ite (.next h) (.next (State.powerEvent_kept _ (h₂.withPower _)))

theorem execP1Exit_goes (h : s.Kept p q) : Goes p q (execP1Exit s) := by
  unfold execP1Exit
  extract_lets s₁ s₂
  have h₁ : s₁.Kept p q := .foldl (fun u d hu => State.uncoreAsk_kept _ _ hu) h
  have h₂ : s₂.Kept p q := .foldl (fun u c hu => State.updChan_kept _ _ hu) h₁
  clear_value s₂
  exact .ite (.next h) (.next (State.powerEvent_kept _ (h₂.withPower _)))

theorem execPmbusPoll_goes (vout iout temp : BitVec 16) (h : s.Kept p q) : Goes p q (execPmbusPoll vout iout temp s) := .next (h.of_eq rfl rfl rfl)
theorem execPmbAlert_goes (status : BitVec 16) (h : s.Kept p q) : Goes p q (execPmbAlert status s) := by
  unfold execPmbAlert
  extract_lets r
  have hr : r.1.Kept p q := State.record_kept _ _ (State.powerEvent_kept _ h)
  clear_value r
  exact .next (hr.withMc _)

/-! Resets and boot. -/

theorem State.resetEvent_kept (h : s.Kept p q) : (s.resetEvent).Kept p q := State.noteFree_kept _ _ h
theorem State.setTries_kept (hi lo v : Nat) (h : s.Kept p q) : (s.setTries hi lo v).Kept p q := h.of_eq rfl rfl rfl
theorem State.updEntry_kept (f : BootEntry → BootEntry) (h : s.Kept p q) : (s.updEntry f).Kept p q := h.of_eq rfl rfl rfl
theorem State.enterStage_kept (n : BitVec 4) (h : s.Kept p q) : (s.enterStage n).Kept p q := by
  unfold State.enterStage
  grind [State.Kept, State.updEntry_kept]

theorem State.startAttempt_kept (kind trigger stage : BitVec 4) (upgraded : Bool) (h : s.Kept p q) : (s.startAttempt kind trigger stage upgraded).Kept p q := by
  unfold State.startAttempt
  extract_lets s₁ n e₀ e mc
  have h₁ : s₁.Kept p q := .ite (State.setTries_kept _ _ _ (State.setTries_kept _ _ _ h)) h
  clear_value s₁
  exact h₁.withMc _

theorem State.sessionEvent_kept (h : s.Kept p q) : (s.sessionEvent).Kept p q := by
  unfold State.sessionEvent
  extract_lets e s₁
  have h₁ : s₁.Kept p q := State.putEvent_kept _ _ (h.of_eq rfl rfl rfl)
  clear_value s₁
  exact h₁.withErrs _

theorem State.closeSession_kept (h : s.Kept p q) : (s.closeSession).Kept p q := by
  unfold State.closeSession
  grind [State.Kept, State.sessionEvent_kept]

theorem State.swdBoot_kept (h : s.Kept p q) : (s.swdBoot).Kept p q := h.of_eq rfl rfl rfl
theorem State.swdRun_kept (h : s.Kept p q) : (s.swdRun).Kept p q := h.of_eq rfl rfl rfl
theorem State.clearCtl_kept (named : Nat → Bool) (ks : List Machine.Kept) (h : s.Kept p q) : (s.clearCtl named ks).Kept p q := h.of_eq rfl rfl rfl
theorem State.clearThreads_kept (l : List Nat) (h : s.Kept p q) : (s.clearThreads l).Kept p q := by
  unfold State.clearThreads
  grind [State.Kept.foldl, State.updThr_kept]

theorem State.writeBackAll_kept (h : s.Kept p q) : (s.writeBackAll).Kept p q := by
  unfold State.writeBackAll
  refine .foldl (fun u line hu => ?_) h
  split
  next d b _ =>
    dsimp only
    exact State.dropLine_kept _ ((State.wbMem_kept line d b _ hu).of_eq rfl rfl rfl)
  next => exact hu

theorem State.emptyFabric_kept (h : s.Kept p q) : (s.emptyFabric).Kept p q := h.of_eq rfl rfl rfl
theorem State.linksDown_kept (h : s.Kept p q) : (s.linksDown).Kept p q := by
  unfold State.linksDown
  grind [State.Kept.foldl, State.linkState_kept, State.updLink_kept]

theorem State.gatePorts_kept (h : s.Kept p q) : (s.gatePorts).Kept p q := by
  unfold State.gatePorts
  extract_lets s₁ off pw s₂
  have h₁ : s₁.Kept p q := .foldl (fun u d hu => .ite hu (State.setPortSt_kept _ _ hu)) h
  have h₂ : s₂.Kept p q := h₁.withPower _
  clear_value s₂
  exact .foldl (fun u i hu => .ite (State.setPortSt_kept _ _ hu) hu) h₂

theorem State.wipe_kept (h : s.Kept p q) : (s.wipe).Kept p q := h.of_eq rfl rfl rfl
theorem State.coldReset_kept (kind trigger : BitVec 4) (upgraded : Bool) (h : s.Kept p q) : (s.coldReset kind trigger upgraded).Kept p q := by
  unfold State.coldReset
  grind [State.closeSession_kept, State.startAttempt_kept, State.swdBoot_kept, State.wipe_kept]

theorem State.haltBoot_kept (h : s.Kept p q) : (s.haltBoot).Kept p q := by
  unfold State.haltBoot
  grind [State.closeSession_kept, State.setTries_kept, State.updEntry_kept, State.wipe_kept]

theorem State.failAttempt_kept (fail : BitVec 8) (detail : BitVec 32) (h : s.Kept p q) : (s.failAttempt fail detail).Kept p q := by
  unfold State.failAttempt
  extract_lets s₁ mc s₂
  have h₁ : s₁.Kept p q := State.updEntry_kept _ h
  have h₂ : s₂.Kept p q := State.setTries_kept _ _ _ (h₁.withMc _)
  exact .ite (State.haltBoot_kept h₂) (State.coldReset_kept _ _ _ h₂)

theorem State.releaseThread_kept (t : Nat) (h : s.Kept p q) : (s.releaseThread t).Kept p q := by
  unfold State.releaseThread
  grind [State.updThr_kept, State.updTile_kept]

theorem State.releasePut_kept (n : Nat) (v : Word) (h : s.Kept p q) : (s.releasePut n v).Kept p q := by
  unfold State.releasePut
  grind [State.Kept, State.Kept.foldl, State.releaseThread_kept]

theorem execBootReleaseWrite_goes (n : Fin 16) (val : Word) (h : s.Kept p q) : Goes p q (execBootReleaseWrite n val s) :=
  .next (State.releasePut_kept _ _ h)
theorem State.monitorStage_kept (h : s.Kept p q) : (s.monitorStage).Kept p q := by
  unfold State.monitorStage
  grind [State.enterStage_kept, State.releasePut_kept, State.swdRun_kept]

theorem State.warmEnd_kept (h : s.Kept p q) : (s.warmEnd).Kept p q := by
  unfold State.warmEnd
  extract_lets s₁ s₂ t mc pw s₃ s₄
  have h₂ : s₂.Kept p q := State.emptyFabric_kept (State.clearThreads_kept _ (State.writeBackAll_kept h))
  clear_value s₂
  have h₃ : s₃.Kept p q := h₂.of_eq rfl rfl rfl
  clear_value s₃
  have h₄ : s₄.Kept p q := State.gatePorts_kept (State.linksDown_kept (State.clearCtl_kept _ _ h₃))
  clear_value s₄
  exact State.monitorStage_kept (State.resend_kept _ h₄)

theorem State.warmStart_kept (kind trigger : BitVec 4) (h : s.Kept p q) : (s.warmStart kind trigger).Kept p q := by
  unfold State.warmStart
  extract_lets s₁ mc s₂
  have h₁ : s₁.Kept p q := State.swdBoot_kept (State.startAttempt_kept _ _ _ _ (State.closeSession_kept h))
  clear_value s₁
  have h₂ : s₂.Kept p q := h₁.of_eq rfl rfl rfl
  clear_value s₂
  exact .foldl (fun u c hu => State.emptyGal_kept _ (State.emptyL2_kept _ hu)) h₂

theorem State.warmReset_kept (trigger : BitVec 4) (h : s.Kept p q) : (s.warmReset trigger).Kept p q := by
  unfold State.warmReset
  grind [State.coldReset_kept, State.resetEvent_kept, State.warmStart_kept]

theorem State.askCold_kept (trigger : BitVec 4) (h : s.Kept p q) : (s.askCold trigger).Kept p q := by
  unfold State.askCold
  grind [State.coldReset_kept, State.resetEvent_kept]

theorem execPackageColdReset_goes (trigger : BitVec 4) (h : s.Kept p q) : Goes p q (execPackageColdReset trigger s) := .next (State.askCold_kept _ h)
theorem execPackageWarmReset_goes (h : s.Kept p q) : Goes p q (execPackageWarmReset s) := .next (State.warmReset_kept _ h)
theorem State.powerOn_kept (h : s.Kept p q) : (s.powerOn).Kept p q := by
  unfold State.powerOn
  extract_lets k f₀ f₁ f₂ mc pw
  have hk : k.Kept p q := State.wipe_kept h
  clear_value k f₂ mc pw
  exact hk.of_eq rfl rfl rfl

theorem execStbyPgRise_goes (h : s.Kept p q) : Goes p q (execStbyPgRise s) := .ite (.next h) (.next (State.powerOn_kept h))
theorem execStbyPgFall_goes (h : s.Kept p q) : Goes p q (execStbyPgFall s) := by
  unfold execStbyPgFall
  extract_lets s₁ mc
  have h₁ : s₁.Kept p q := State.powerOn_kept h
  clear_value s₁
  exact .next (h₁.withMc _)

theorem State.wasPowered_kept (before : Bool) (h : s.Kept p q) : (s.wasPowered before).Kept p q := .ite (h.of_eq rfl rfl rfl) h
theorem execPowerGoodRise_goes (hub : Bool) (h : s.Kept p q) : Goes p q (execPowerGoodRise hub s) := by
  unfold execPowerGoodRise
  grind [State.Kept, Goes, State.wasPowered_kept]

theorem execPowerGoodFall_goes (hub : Bool) (h : s.Kept p q) : Goes p q (execPowerGoodFall hub s) := by
  unfold execPowerGoodFall
  grind [State.Kept, Goes, State.coldReset_kept, State.failAttempt_kept]

theorem execResetNAssert_goes (h : s.Kept p q) : Goes p q (execResetNAssert s) := by
  unfold execResetNAssert
  grind [State.Kept, Goes, State.askCold_kept]

theorem execResetNRise_goes (h : s.Kept p q) : Goes p q (execResetNRise s) := by
  unfold execResetNRise
  grind [State.Kept, Goes, State.wasPowered_kept]

theorem State.configure_kept (h : s.Kept p q) : (s.configure).Kept p q := by
  unfold State.configure
  grind [State.Kept, State.ctlPut_kept]

theorem State.mcStage_kept (o : StageIn) (h : s.Kept p q) : (s.mcStage o).Kept p q := by
  unfold State.mcStage
  extract_lets okA okB preferred runB s₁ mc
  have h₁ : s₁.Kept p q := State.updEntry_kept _ h
  clear_value s₁
  exact .ite (State.haltBoot_kept (State.updEntry_kept _ h)) (State.enterStage_kept _ (State.configure_kept (h₁.withMc _)))

theorem State.almanacRanks_kept (h : s.Kept p q) : (s.almanacRanks).Kept p q := by
  unfold State.almanacRanks
  grind [State.Kept.foldl, State.ctlField_kept]

theorem State.hardRepair_kept (r : AlmRec) (h : s.Kept p q) : (s.hardRepair r).1.Kept p q := by
  unfold State.hardRepair
  grind [State.drawn_kept]

theorem State.almanacRepairs_kept (h : s.Kept p q) : (s.almanacRepairs).Kept p q := by
  unfold State.almanacRepairs
  extract_lets x v s₁
  have hx : x.1.Kept p q := by
    refine .foldlPair (fun y r hy => ?_) h
    exact State.hardRepair_kept _ hy
  clear_value x
  have h₁ : s₁.Kept p q := hx.of_eq rfl rfl rfl
  clear_value s₁
  exact .foldl (fun u r hu => .ite (State.updChan_kept _ _ hu) hu) h₁

theorem State.placeCores_kept (d : Nat) (h : s.Kept p q) : (s.placeCores d).Kept p q := by
  unfold State.placeCores
  grind [State.Kept, State.Kept.foldl]

theorem State.proofStage_kept (o : StageIn) (h : s.Kept p q) : (s.proofStage o).Kept p q := by
  unfold State.proofStage
  grind [State.Kept.foldl, State.almanacRanks_kept, State.enterStage_kept, State.failAttempt_kept, State.gatePorts_kept, State.placeCores_kept,
    State.updDie_kept, State.updTile_kept]

theorem State.homeDies_kept (h : s.Kept p q) : (s.homeDies).Kept p q := by
  unfold State.homeDies
  grind [State.Kept.foldl, State.ctlField_kept]

theorem State.dieUpStage_kept (h : s.Kept p q) : (s.dieUpStage).Kept p q := by
  unfold State.dieUpStage
  grind [State.Kept.foldl, State.ctlField_kept, State.enterStage_kept, State.homeDies_kept, State.sylEn_kept]

theorem State.pairSpread_kept (h : s.Kept p q) : (s.pairSpread).Kept p q := by
  unfold State.pairSpread
  grind [State.Kept.foldl, State.ctlField_kept]

theorem State.transitStage_kept (h : s.Kept p q) : (s.transitStage).Kept p q := by
  unfold State.transitStage
  grind [State.Kept.foldl, State.enterStage_kept, State.pairSpread_kept, State.updDie_kept]

theorem State.ddrStage_kept (o : StageIn) (h : s.Kept p q) : (s.ddrStage o).Kept p q := by
  unfold State.ddrStage
  grind [State.Kept.foldl, State.almanacRepairs_kept, State.ctlField_kept, State.enterStage_kept, State.failAttempt_kept, State.updChan_kept]

theorem State.fillStage_kept (h : s.Kept p q) : (s.fillStage).Kept p q := by
  unfold State.fillStage
  grind [State.enterStage_kept, State.failAttempt_kept]

theorem State.imageStage_kept (o : StageIn) (h : s.Kept p q) : (s.imageStage o).Kept p q := by
  unfold State.imageStage
  extract_lets s₁ mc
  have h₁ : s₁.Kept p q := State.putCohBytes_kept _ _ h
  clear_value s₁
  exact .ite (State.failAttempt_kept _ _ h) (State.monitorStage_kept (h₁.withMc _))

theorem State.warmStage_kept (h : s.Kept p q) : (s.warmStage).Kept p q := by
  unfold State.warmStage
  grind [State.Kept.foldl, State.emptyGal_kept, State.emptyL2_kept, State.warmEnd_kept]

theorem execBootStageDone_goes (o : StageIn) (h : s.Kept p q) : Goes p q (execBootStageDone o s) := by
  unfold execBootStageDone
  grind [Goes, State.ddrStage_kept, State.dieUpStage_kept, State.enterStage_kept, State.fillStage_kept, State.imageStage_kept, State.mcStage_kept,
    State.proofStage_kept, State.transitStage_kept, State.warmStage_kept]

theorem execBootStageTimeout_goes (h : s.Kept p q) : Goes p q (execBootStageTimeout s) := .ite (.next h) (.next (State.failAttempt_kept _ _ h))
theorem State.bootOk_kept (h : s.Kept p q) : (s.bootOk).Kept p q := by
  unfold State.bootOk
  extract_lets s₁ n mc
  have h₁ : s₁.Kept p q := State.setTries_kept _ _ _ (State.updEntry_kept _ h)
  clear_value s₁
  exact .ite h (h₁.withMc _)

theorem State.swdStart_kept (h : s.Kept p q) : (s.swdStart).Kept p q := by
  unfold State.swdStart
  grind [State.Kept, State.swdRun_kept]

theorem State.swdKick_kept (h : s.Kept p q) : (s.swdKick).Kept p q := .ite h (State.swdRun_kept h)
theorem State.swdPut_kept (v : Word) (h : s.Kept p q) : (s.swdPut v).Kept p q := by
  unfold State.swdPut
  grind [State.Kept, State.swdStart_kept]

theorem execSwdStart_goes (h : s.Kept p q) : Goes p q (execSwdStart s) := .next (State.swdStart_kept h)
theorem execSwdKick_goes (h : s.Kept p q) : Goes p q (execSwdKick s) := .next (State.swdKick_kept h)
theorem execSwdExpire_goes (h : s.Kept p q) : Goes p q (execSwdExpire s) := by
  unfold execSwdExpire
  extract_lets early wd s₁ s₂ mc s₃
  split
  · have h₁ : s₁.Kept p q := h.of_eq rfl rfl rfl
    have h₂ : s₂.Kept p q := State.updEntry_kept _ h₁
    have h₃ : s₃.Kept p q := State.setTries_kept _ _ _ (h₂.withMc _)
    refine .ite (.next h) (.ite (.next (State.resetEvent_kept h₁)) (.ite ?_ (.next (State.coldReset_kept _ _ _ h₁))))
    exact .ite (.next (State.haltBoot_kept h₃)) (.next (State.coldReset_kept _ _ _ h₃))
  · exact .next h

theorem State.askP5_kept (secure : Bool) (h : s.Kept p q) : (s.askP5 secure).1.Kept p q := by
  unfold State.askP5
  grind [State.Kept, State.Kept.foldl, State.refusePower_kept]

theorem execP5Enter_goes (h : s.Kept p q) : Goes p q (execP5Enter s) := by
  unfold execP5Enter
  extract_lets pw s₁ s₂ left wd pw'
  have h₁ : s₁.Kept p q := h.withPower _
  have h₂ : s₂.Kept p q := State.linksDown_kept (State.emptyFabric_kept (State.writeBackAll_kept h₁))
  clear_value s₁ s₂ left
  exact .ite (.next h) (.ite (.next h₁) (.next (h₂.of_eq rfl rfl rfl)))

theorem execP5Exit_goes (h : s.Kept p q) : Goes p q (execP5Exit s) := by
  unfold execP5Exit
  grind [State.Kept, Goes, State.coldReset_kept, State.warmStart_kept]

theorem State.dieReset_kept (d : Nat) (h : s.Kept p q) : ∀ {u}, s.dieReset d = some u → u.Kept p q := by
  unfold State.dieReset
  extract_lets s₁ s₂ t s₃ e s₄ s₅ v mc s₆
  have h₂ : s₂.Kept p q := .foldl (fun u c hu => State.setCore_kept _ _ hu) (State.clearThreads_kept _ h)
  have h₃ : s₃.Kept p q := .foldl (fun u c hu => State.updSlice_kept _ _ (State.updTile_kept _ _ hu)) h₂
  have h₅ : s₅.Kept p q := State.clearCtl_kept _ _ (State.updDie_kept _ _ h₃)
  have h₆ : s₆.Kept p q := (State.quiesceEnd_kept _ _ h₅).withMc _
  clear_value s₆
  intro u hu
  split at hu
  · cases hu
  · cases hu
    exact State.resend_kept _ h₆

theorem execDieReset_goes (die : Fin 16) (h : s.Kept p q) : Goes p q (execDieReset die s) := by
  unfold execDieReset
  grind [Goes, State.Kept.getD, State.dieReset_kept]

theorem State.coreEnd_kept (c : Nat) (h : s.Kept p q) : (s.coreEnd c).Kept p q := by
  unfold State.coreEnd
  extract_lets s₁ n m mc s₂ s₃
  have h₁ : s₁.Kept p q := State.setCore_kept _ _ (State.clearThreads_kept _ h)
  have h₂ : s₂.Kept p q := h₁.of_eq rfl rfl rfl
  have h₃ : s₃.Kept p q := State.resend_kept _ h₂
  exact .ite h₃ (State.setPortSt_kept _ _ (State.updTile_kept _ _ h₃))

theorem State.coreReset_kept (c : Nat) (h : s.Kept p q) : (s.coreReset c).1.Kept p q := by
  unfold State.coreReset
  grind [State.Kept, State.coreEnd_kept, State.emptyGal_kept, State.emptyL2_kept, State.updCore_kept, State.updThr_kept]

theorem execCoreReset_goes (c : CoreId) (h : s.Kept p q) : Goes p q (execCoreReset c s) := .next (State.coreReset_kept _ h)
theorem State.fatAction_kept (loc : BitVec 32) (h : s.Kept p q) : (s.fatAction loc).Kept p q := by
  unfold State.fatAction
  grind [State.Kept, State.askCold_kept, State.failAttempt_kept, State.warmReset_kept]

/-! Windows of registers. -/

theorem State.rankPut_kept (ch r : Nat) (w : Word) (h : s.Kept p q) : (s.rankPut ch r w).Kept p q := by
  unfold State.rankPut
  extract_lets a old was new st keep new₁ new₂ s₁ st' s₂
  have h₁ : s₁.Kept p q := State.ctlPut_kept _ _ h
  clear_value s₁
  have h₂ : s₂.Kept p q := h₁.of_eq rfl rfl rfl
  exact .ite h₁ (State.logError_kept _ _ _ _ _ _ (State.drawn_kept h₂))

theorem State.pcieCtlPut_kept (p₀ : Nat) (w : Word) (h : s.Kept p q) : (s.pcieCtlPut p₀ w).Kept p q := by
  unfold State.pcieCtlPut
  grind [State.containRelease_kept, State.ctlPut_kept]

theorem State.sylCtlPut_kept (p₀ : Nat) (w : Word) (h : s.Kept p q) : (s.sylCtlPut p₀ w).Kept p q := by
  unfold State.sylCtlPut
  grind [State.ctlPut_kept, State.sylEn_kept, State.worldsMoved_kept]

theorem State.slicePut_kept (d t : Nat) (w : Word) (h : s.Kept p q) : (s.slicePut d t w).Kept p q := by
  unfold State.slicePut
  grind [State.Kept.foldl, State.ctlPut_kept, State.l3Drop_kept]

theorem State.trnRegPut_kept (a : Nat) (w : Word) (h : s.Kept p q) : (s.trnRegPut a w).Kept p q := by
  unfold State.trnRegPut
  extract_lets new cut u
  have hu : u.Kept p q := State.ctlPut_kept _ _ h
  clear_value u
  exact hu.of_eq rfl rfl rfl

theorem State.pwrSecPut_kept (d i : Nat) (w : Word) (h : s.Kept p q) : (s.pwrSecPut d i w).Kept p q := by
  unfold State.pwrSecPut
  grind [State.ctlPut_kept, State.retarget_kept]

theorem State.regPut_kept (a : Nat) (w : Word) (h : s.Kept p q) : ∀ {u}, s.regPut a w = some u → u.Kept p q := by
  suffices hk : KeptOpt p q (s.regPut a w) from fun {u} => hk u
  unfold State.regPut
  extract_lets d u r mc
  split
  · exact .none
  next x _ =>
    have hp := State.ctlPut_kept a (writeFields x.fields (s.ctlGet a) w) h
    refine .ite .none (.ite (.some (.ite (State.ephPut_kept _ _ h) h)) (.ite (.some ?_) (.ite (.some ?_) (.ite (.some ?_) ?_))))
    · exact .ite (h.withMc _) (.ite (h.withMc _) (.ite (State.releasePut_kept _ _ h) (.ite (State.gpioWorldPut_kept _ h) h)))
    · exact .ite hp (.ite (State.pwrReqPut_kept _ _ _ h) (State.pwrSecPut_kept _ _ _ h))
    · exact .ite (State.slicePut_kept _ _ _ h) hp
    refine .ite (.some (.ite (State.rankPut_kept _ _ _ h) hp)) (.ite (.some (State.guardPut_kept _ _ _ h)) (.ite (.some ?_) (.ite (.some ?_) (.ite ?_ ?_))))
    · exact .ite (State.pcieCtlPut_kept _ _ h) (State.trnRegPut_kept _ _ h)
    · exact .ite (State.sylCtlPut_kept _ _ h) (.ite (State.sylStatPut_kept _ _ h) (.ite (State.trnRegPut_kept _ _ h) hp))
    · refine .ite (fun _ hu => State.chWorldPut_kept _ _ _ h hu) (.ite (fun _ hu => State.slotPut_kept _ _ _ h hu) (.some (State.trnRegPut_kept _ _ h)))
    · exact .ite (.some (State.worldsMoved_kept _ hp)) (.some hp)

theorem State.formePut_kept (cls a : Nat) (w : Word) (h : s.Kept p q) : ∀ {u}, s.formePut cls a w = some u → u.Kept p q := by
  unfold State.formePut
  grind [State.regPut_kept]

theorem State.mcPut_kept (a : Nat) (w : Word) (h : s.Kept p q) : ∀ {u}, s.mcPut a w = some u → u.Kept p q := by
  unfold State.mcPut
  grind [State.errCtlPut_kept, State.freeRecord_kept, State.notifyPut_kept, State.regPut_kept, State.summaryPut_kept]

theorem State.mcStatus_kept {o : Option State} (ho : KeptOpt p q o) (h : s.Kept p q) : (s.mcStatus o).Kept p q := by
  have hd : (o.getD s).Kept p q := .getD ho h
  unfold State.mcStatus
  generalize o.getD s = u at hd
  exact hd.withMc _

theorem State.intBitPut_kept (t o n : Nat) (b : Bool) (h : s.Kept p q) : (s.intBitPut t o n b).Kept p q := by
  unfold State.intBitPut
  grind [State.setIntWorld_kept, State.updThr_kept]

theorem State.intBytePut_kept (sec : Bool) (t o : Nat) (b : Byte) (h : s.Kept p q) : (s.intBytePut sec t o b).Kept p q := by
  unfold State.intBytePut
  grind [State.Kept.foldl, State.intBitPut_kept, State.updThr_kept]

theorem State.sourcePut_kept (n : Nat) (w : Word) (h : s.Kept p q) : (s.sourcePut n w).Kept p q := .ite h (h.of_eq rfl rfl rfl)
theorem State.routerWrite_kept (sec : Bool) (o : Nat) (w m : Word) (h : s.Kept p q) : (s.routerWrite sec o w m).Kept p q := by
  unfold State.routerWrite
  grind [State.Kept, State.sourcePut_kept]

theorem State.ecamRead_kept (o : Nat) (h : s.Kept p q) : (s.ecamRead o).1.Kept p q := by
  unfold State.ecamRead
  grind [State.Kept, State.drawn_kept]

theorem State.ecamWrite_kept (o : Nat) (w m : Word) (h : s.Kept p q) : (s.ecamWrite o w m).Kept p q := by
  unfold State.ecamWrite
  grind [State.Kept, State.busReset_kept, State.prgResp_kept, State.updPort_kept]

theorem State.frmSubmit_kept (e pa group : Nat) (fromMc : Bool) (h : s.Kept p q) : (s.frmSubmit e pa group fromMc).Kept p q := State.updDie_kept _ _ h
theorem execFrmSubWrite_goes (engine : Fin 17) (val : Word) (h : s.Kept p q) : Goes p q (execFrmSubWrite engine val s) :=
  .next (State.frmSubmit_kept _ _ _ _ h)
theorem State.mcAnswer_kept (word0 : Word) (status : Nat) (payload : List Word) (h : s.Kept p q) : (s.mcAnswer word0 status payload).Kept p q := by
  unfold State.mcAnswer
  grind [State.Kept, State.send_kept]

theorem State.reqDb_kept (h : s.Kept p q) : (s.reqDb).Kept p q := by
  unfold State.reqDb
  grind [State.Kept, State.mcAnswer_kept]

theorem State.mailWrite_kept (o : Nat) (w m : Word) (h : s.Kept p q) : (s.mailWrite o w m).Kept p q := by
  unfold State.mailWrite
  grind [State.Kept, State.frmSubmit_kept, State.reqDb_kept, State.swdKick_kept, State.swdPut_kept, State.updDie_kept]

theorem State.mmioRead_kept (sec : Bool) (off : Nat) (h : s.Kept p q) : (s.mmioRead sec off).1.Kept p q := by
  unfold State.mmioRead
  grind [State.ecamRead_kept]

theorem State.mmioWrite_kept (sec : Bool) (off : Nat) (w m : Word) (h : s.Kept p q) : ∀ {u}, s.mmioWrite sec off w m = some u → u.Kept p q := by
  suffices hk : KeptOpt p q (s.mmioWrite sec off w m) from fun {u} => hk u
  unfold State.mmioWrite
  extract_lets t view
  refine .ite (.ite (.some (.foldl (fun u i hu => .ite (State.intBytePut_kept _ _ _ _ hu) hu) h)) .none) (.ite (.map fun _ => ?_) ?_)
  · exact State.routerWrite_kept _ _ _ _ h
  refine .ite (.map fun _ => State.instWrite_kept _ _ _ _ h) (.ite .none (.ite (.some (.ite h (State.ecamWrite_kept _ _ _ h))) ?_))
  exact .ite (.map fun _ => State.errWrite_kept _ _ _ h) (.ite (.ite (.map fun _ => State.mailWrite_kept _ _ _ h) .none) .none)

theorem State.mmioTake_kept (f : Flit) (h : s.Kept p q) : ∀ {u}, s.mmioTake f = some u → u.Kept p q := by
  unfold State.mmioTake
  grind [State.answerError_kept, State.ctlCount_kept, State.mmioRead_kept, State.mmioWrite_kept, State.send_kept, State.updPort_kept]

theorem execRegisterWrite_goes (path : WritePath) (addr : BitVec 57) (val : Word) (h : s.Kept p q) : Goes p q (execRegisterWrite path addr val s) := by
  unfold execRegisterWrite
  extract_lets a page
  have hpage (sec : Bool) : (page sec).Kept p q := by
    dsimp only [page]
    split
    · exact .ite h (.getD (fun _ hu => State.mmioWrite_kept _ _ _ _ h hu) h)
    · exact h
  clear_value page
  split
  · exact .next (.getD (fun _ hu => State.formePut_kept _ _ _ h hu) h)
  · exact .next (.getD (fun _ hu => State.formePut_kept _ _ _ h hu) h)
  · exact .next (.getD (fun _ hu => State.formePut_kept _ _ _ h hu) h)
  · exact .next (State.mcStatus_kept (fun _ hu => State.mcPut_kept _ _ h hu) h)
  · exact .next (hpage true)
  · exact .next (hpage false)

/-! Messages served. -/

theorem State.noteMirror_kept (ch : Nat) (f : Flit) (h : s.Kept p q) : (s.noteMirror ch f).Kept p q := (State.updChan_kept _ _ h).of_eq rfl rfl rfl
theorem State.memTake_kept (ch : Nat) (f : Flit) (h : s.Kept p q) : ∀ {u}, s.memTake ch f = some u → u.Kept p q := by
  unfold State.memTake
  grind [State.afterMirror_kept, State.answerError_kept, State.mirrorWrite_kept, State.noteMirror_kept, State.putLine_kept, State.updChan_kept]

theorem State.memData_kept (ch : Nat) (f : Flit) (h : s.Kept p q) : (s.memData ch f).Kept p q := by
  unfold State.memData
  grind [State.deliverRead_kept, State.logError_kept, State.memErr_kept, State.putLine_kept, State.updChan_kept]

theorem State.mirrorAck_kept (ch : Nat) (f : Flit) (h : s.Kept p q) : (s.mirrorAck ch f).Kept p q := by
  unfold State.mirrorAck
  grind [State.send_kept, State.updChan_kept]

theorem State.homeWindow_kept (n : Nat) (f : Flit) (h : s.Kept p q) : ∀ {u}, s.homeWindow n f = some u → u.Kept p q := by
  unfold State.homeWindow
  grind [State.answerError_kept, State.homeReply_kept, State.homeWrite_kept, State.relay_kept, State.send_kept, State.setAtom_kept]

theorem State.homeTake_kept (n : Nat) (f : Flit) (h : s.Kept p q) : ∀ {u}, s.homeTake n f = some u → u.Kept p q := by
  unfold State.homeTake
  grind [State.homePrefetch_kept, State.homeRequest_kept, State.homeWb_kept, State.homeWindow_kept]

theorem State.askTake_kept (f : Flit) (h : s.Kept p q) : ∀ {u}, s.askTake f = some u → u.Kept p q := by
  unfold State.askTake
  grind [State.filterServe_kept, State.homeTake_kept, State.linkTake_kept, State.memTake_kept, State.mmioTake_kept, State.portTake_kept,
    State.victim_kept, State.windowOut_kept]

theorem execRdS_goes (k : Nat) (h : s.Kept p q) : Goes p q (execRdS k s) := by
  unfold execRdS
  grind [State.askTake_kept, State.receive_goes]

theorem execRdU_goes (k : Nat) (h : s.Kept p q) : Goes p q (execRdU k s) := by
  unfold execRdU
  grind [State.askTake_kept, State.receive_goes]

theorem execUpg_goes (k : Nat) (h : s.Kept p q) : Goes p q (execUpg k s) := by
  unfold execUpg
  grind [State.askTake_kept, State.receive_goes]

theorem execRdNc_goes (k : Nat) (h : s.Kept p q) : Goes p q (execRdNc k s) := by
  unfold execRdNc
  grind [State.askTake_kept, State.receive_goes]

theorem execWrNc_goes (k : Nat) (h : s.Kept p q) : Goes p q (execWrNc k s) := by
  unfold execWrNc
  grind [State.askTake_kept, State.receive_goes]

theorem execAtomH_goes (k : Nat) (h : s.Kept p q) : Goes p q (execAtomH k s) := by
  unfold execAtomH
  grind [State.askTake_kept, State.receive_goes]

theorem execAtomM_goes (k : Nat) (h : s.Kept p q) : Goes p q (execAtomM k s) := by
  unfold execAtomM
  grind [State.askTake_kept, State.receive_goes]

theorem execCmoP_goes (k : Nat) (h : s.Kept p q) : Goes p q (execCmoP k s) := by
  unfold execCmoP
  grind [State.askTake_kept, State.receive_goes]

theorem execWbD_goes (k : Nat) (h : s.Kept p q) : Goes p q (execWbD k s) := by
  unfold execWbD
  grind [State.askTake_kept, State.receive_goes]

theorem execEvictC_goes (k : Nat) (h : s.Kept p q) : Goes p q (execEvictC k s) := by
  unfold execEvictC
  grind [State.askTake_kept, State.receive_goes]

theorem State.snoopTake_kept (f : Flit) (h : s.Kept p q) : ∀ {u}, s.snoopTake f = some u → u.Kept p q := by
  unfold State.snoopTake
  grind [State.dieSnoop_kept, State.linkTake_kept]

theorem execSnpS_goes (k : Nat) (h : s.Kept p q) : Goes p q (execSnpS k s) := by
  unfold execSnpS
  grind [State.receive_goes, State.snoopTake_kept]

theorem execSnpU_goes (k : Nat) (h : s.Kept p q) : Goes p q (execSnpU k s) := by
  unfold execSnpU
  grind [State.receive_goes, State.snoopTake_kept]

theorem execSnpI_goes (k : Nat) (h : s.Kept p q) : Goes p q (execSnpI k s) := by
  unfold execSnpI
  grind [State.receive_goes, State.snoopTake_kept]

theorem execSnpNear_goes (k : Nat) (h : s.Kept p q) : Goes p q (execSnpNear k s) := by
  unfold execSnpNear
  grind [State.receive_goes, State.snoopTake_kept]

theorem State.hubTake_kept (f : Flit) (h : s.Kept p q) : (s.hubTake f).Kept p q := by
  unfold State.hubTake
  grind [State.logError_kept, State.windowBack_kept]

theorem State.dataTake_kept (f : Flit) (h : s.Kept p q) : ∀ {u}, s.dataTake f = some u → u.Kept p q := by
  suffices hk : KeptOpt p q (s.dataTake f) from fun {u} => hk u
  unfold State.dataTake
  cases f.dst with
  | core c => exact fun _ hu => State.coreData_kept _ _ h hu
  | home d t => exact .some (State.homeData_kept _ _ h)
  | mem ch => exact .some (State.memData_kept _ _ h)
  | link l => exact fun _ hu => State.linkTake_kept _ _ h hu
  | gwHub => exact .some (State.hubTake_kept _ h)
  | mover e => exact .some (State.moverAnswer_kept _ _ h)
  | port n => exact .some (State.portAnswer_kept _ _ h)
  | _ => exact .some h

theorem State.ackTake_kept (f : Flit) (h : s.Kept p q) : ∀ {u}, s.ackTake f = some u → u.Kept p q := by
  suffices hk : KeptOpt p q (s.ackTake f) from fun {u} => hk u
  unfold State.ackTake
  cases f.dst with
  | core c => exact fun _ hu => State.coreAck_kept _ _ h hu
  | filter d => exact .some (.ite (State.filterComp_kept _ _ _ h) (State.filterAck_kept _ _ h))
  | home d t => exact .some (.ite h (State.homeAck_kept _ _ h))
  | mem ch => exact .some (State.mirrorAck_kept _ _ h)
  | link l => exact fun _ hu => State.linkTake_kept _ _ h hu
  | gwHub => exact .some (State.hubTake_kept _ h)
  | mover e => exact .some (State.moverAnswer_kept _ _ h)
  | port n => exact .some (State.portAnswer_kept _ _ h)
  | _ => exact .some h

theorem execDataS_goes (k : Nat) (h : s.Kept p q) : Goes p q (execDataS k s) := by
  unfold execDataS
  grind [State.dataTake_kept, State.receive_goes]

theorem execDataE_goes (k : Nat) (h : s.Kept p q) : Goes p q (execDataE k s) := by
  unfold execDataE
  grind [State.dataTake_kept, State.receive_goes]

theorem execDataM_goes (k : Nat) (h : s.Kept p q) : Goes p q (execDataM k s) := by
  unfold execDataM
  grind [State.dataTake_kept, State.receive_goes]

theorem execAck_goes (k : Nat) (h : s.Kept p q) : Goes p q (execAck k s) := by
  unfold execAck
  grind [State.ackTake_kept, State.receive_goes]

theorem State.retried_kept (a : Agent) (f : Flit) (h : s.Kept p q) : (s.retried a f).Kept p q := h.of_eq rfl rfl rfl
theorem execRetry_goes (k : Nat) (h : s.Kept p q) : Goes p q (execRetry k s) := by
  unfold execRetry
  grind [State.linkTake_kept, State.receive_goes, State.retried_kept]

theorem execRetryBackoffExpire_goes (n : Nat) (h : s.Kept p q) : Goes p q (execRetryBackoffExpire n s) := by
  unfold execRetryBackoffExpire
  grind [State.Kept, Goes, State.regulate_kept, State.send_kept]

theorem execReservationLapse_goes (slice : Fin 576) (h : s.Kept p q) : Goes p q (execReservationLapse slice s) := by
  unfold execReservationLapse
  grind [Goes, State.erase_kept, State.offer_kept, State.updSlice_kept]

theorem State.timedOut_kept (t pa : Nat) (h : s.Kept p q) : (s.timedOut t pa).1.Kept p q := State.errorAt_kept _ _ _ _ _ _ h
theorem State.lineLate_kept (t line : Nat) (h : s.Kept p q) : (s.lineLate t line).Kept p q := by
  unfold State.lineLate
  grind [State.lineFails_kept, State.sendComp_kept, State.timedOut_kept, State.updCore_kept, State.wakeCore_kept]

theorem State.fetchLate_kept (t : Nat) (h : s.Kept p q) : (s.fetchLate t).Kept p q := by
  unfold State.fetchLate
  grind [State.fetchFails_kept, State.lineLate_kept, State.timedOut_kept]

theorem State.leftLate_kept (t n : Nat) (h : s.Kept p q) : (s.leftLate t n).Kept p q := by
  unfold State.leftLate
  grind [State.timedOut_kept, State.updThr_kept]

theorem State.opLate_kept (t : Nat) (h : s.Kept p q) : (s.opLate t).Kept p q := by
  unfold State.opLate
  grind [State.fetchLate_kept, State.lineLate_kept, State.refused_kept, State.timedOut_kept, State.updThr_kept, State.wake_kept]

theorem State.walkLate_kept (t : Nat) (h : s.Kept p q) : (s.walkLate t).Kept p q := by
  unfold State.walkLate
  grind [State.lineLate_kept, State.timedOut_kept, State.walkAbort_kept]

theorem State.keptLate_kept (t n : Nat) (h : s.Kept p q) : (s.keptLate t n).Kept p q := by
  unfold State.keptLate
  grind [State.refused_kept, State.timedOut_kept, State.updThr_kept]

theorem State.thrLate_kept (t : Thr) (n : Nat) (h : s.Kept p q) : (s.thrLate t n).Kept p q := by
  unfold State.thrLate
  grind [State.keptLate_kept, State.leftLate_kept, State.lineLate_kept, State.opLate_kept, State.pendAt_kept, State.timedOut_kept, State.updThr_kept,
    State.wakeCore_kept, State.walkLate_kept]

theorem State.overdueAt_kept (a : Agent) (world : Tag) (line : Nat) (h : s.Kept p q) : (s.overdueAt a world line).1.Kept p q :=
  State.errorAt_kept _ _ _ _ _ _ h
theorem State.coreLate_kept (c n : Nat) (h : s.Kept p q) : (s.coreLate c n).Kept p q := by
  unfold State.coreLate
  grind [State.mirrorEnds_kept, State.overdueAt_kept, State.updCore_kept, State.updThr_kept, State.wakeCore_kept]

theorem State.chanLate_kept (ch n : Nat) (h : s.Kept p q) : (s.chanLate ch n).Kept p q := by
  unfold State.chanLate
  grind [State.deliverRead_kept, State.overdueAt_kept, State.send_kept, State.updChan_kept]

theorem State.portLate_kept (p₀ n : Nat) (h : s.Kept p q) : (s.portLate p₀ n).Kept p q := by
  unfold State.portLate
  grind [State.overdueAt_kept, State.updPort_kept]

theorem State.instLate_kept (i n : Nat) (h : s.Kept p q) : (s.instLate i n).Kept p q := by
  unfold State.instLate
  grind [State.overdueAt_kept, State.updInst_kept]

theorem State.linkLate_kept (p₀ n : Nat) (h : s.Kept p q) : (s.linkLate p₀ n).Kept p q := by
  unfold State.linkLate
  grind [State.overdueAt_kept, State.windowBack_kept]

theorem State.homeLate_kept (n k : Nat) (h : s.Kept p q) : (s.homeLate n k).Kept p q := by
  unfold State.homeLate
  grind [State.homeData_kept, State.homeWritten_kept, State.overdueAt_kept]

theorem execTransactionTimeout_goes (r : Requester) (n : Nat) (h : s.Kept p q) : Goes p q (execTransactionTimeout r n s) := by
  unfold execTransactionTimeout
  grind [Goes, State.chanLate_kept, State.coreLate_kept, State.homeLate_kept, State.instLate_kept, State.linkLate_kept, State.portLate_kept, State.thrLate_kept]

theorem State.silent_kept (d line : Nat) (node : BitVec 12) (f : Flit) (h : s.Kept p q) : (s.silent d line node f).Kept p q := State.record_kept _ _ h
theorem State.homeSilent_kept (line : Nat) (h : s.Kept p q) : (s.homeSilent line).Kept p q := by
  unfold State.homeSilent
  dsimp only
  repeat' split
  all_goals grind [State.Kept.foldl, State.cmoEnd_kept, State.homeClose_kept, State.homeReply_kept, State.homeWrite_kept, State.send_kept,
    State.setDir_kept, State.setTxn_kept, State.silent_kept]

theorem State.filterSilent_kept (d line : Nat) (h : s.Kept p q) : (s.filterSilent d line).Kept p q := by
  unfold State.filterSilent
  grind [State.Kept.foldl, State.ftxnClose_kept, State.giveUp_kept, State.send_kept, State.setL3_kept, State.silent_kept]

theorem execSnoopTimeout_goes (snoop : SilentSnoop) (h : s.Kept p q) : Goes p q (execSnoopTimeout snoop s) := by
  unfold execSnoopTimeout
  grind [Goes, State.filterSilent_kept, State.homeSilent_kept]

/-! Time. -/

theorem execMerSyncSend_goes (h : s.Kept p q) : Goes p q (execMerSyncSend s) := by
  unfold execMerSyncSend
  grind [State.Kept, Goes, State.Kept.foldl, State.send_kept, State.updDie_kept]

theorem execMerSync_goes (k : Nat) (h : s.Kept p q) : Goes p q (execMerSync k s) := by
  unfold execMerSync
  grind [State.receive_goes, State.updDie_kept]

theorem execPpsEdge_goes (h : s.Kept p q) : Goes p q (execPpsEdge s) := by
  unfold execPpsEdge
  grind [State.Kept, Goes]

theorem execPpsLost_goes (h : s.Kept p q) : Goes p q (execPpsLost s) := by
  unfold execPpsLost
  grind [State.Kept, Goes, State.noteFree_kept]

/-! Errors and containment. -/

theorem State.corePoison_kept (c line : Nat) (h : s.Kept p q) : (s.corePoison c line).1.Kept p q := by
  unfold State.corePoison
  grind [State.updCore_kept]

theorem State.l3Poison_kept (d line : Nat) (h : s.Kept p q) : (s.l3Poison d line).Kept p q := by
  unfold State.l3Poison
  grind [State.setL3_kept]

theorem State.galTagLost_kept (c : Nat) (node : BitVec 12) (loc : BitVec 32) (h : s.Kept p q) : (s.galTagLost c node loc).Kept p q := by
  unfold State.galTagLost
  grind [State.drawn_kept, State.sendContain_kept, State.updCore_kept]

theorem State.dirLost_kept (line : Nat) (h : s.Kept p q) : (s.dirLost line).Kept p q := by
  unfold State.dirLost
  grind [State.setDir_kept, State.takeAll_kept, State.wbMem_kept]

theorem State.tagLost_kept (d : Nat) (mine : Nat → FilterEntry → Bool) (h : s.Kept p q) : (s.tagLost d mine).Kept p q := by
  unfold State.tagLost
  grind [State.Kept.foldl, State.dieTake_kept, State.giveUp_kept]

theorem State.l2TagLost_kept (c : Nat) (h : s.Kept p q) : (s.l2TagLost c).Kept p q := by
  unfold State.l2TagLost
  grind [State.drawn_kept, State.tagLost_kept]

theorem State.l3TagLost_kept (d t : Nat) (h : s.Kept p q) : (s.l3TagLost d t).Kept p q := by
  unfold State.l3TagLost
  grind [State.drawn_kept, State.tagLost_kept]

theorem State.galReread_kept (c line : Nat) (h : s.Kept p q) : (s.galReread c line).Kept p q := by
  unfold State.galReread
  grind [State.freshTid_kept, State.send_kept, State.updCore_kept]

theorem State.coreClean_kept (c line : Nat) (h : s.Kept p q) : (s.coreClean c line).Kept p q := by
  unfold State.coreClean
  grind [State.drawn_kept, State.galReread_kept, State.updCore_kept]

theorem State.l3Clean_kept (d line : Nat) (h : s.Kept p q) : (s.l3Clean d line).Kept p q := by
  unfold State.l3Clean
  grind [State.l3Drop_kept, State.setL3_kept, State.updFent_kept]

theorem State.errorAct_kept (d : Nat) (r : RecordIn) (loc : BitVec 32) (h : s.Kept p q) : (s.errorAct d r loc).Kept p q := by
  unfold State.errorAct
  grind [State.coreClean_kept, State.corePoison_kept, State.dirLost_kept, State.galTagLost_kept, State.l2TagLost_kept, State.l3Clean_kept,
    State.l3Poison_kept, State.l3TagLost_kept, State.sendContain_kept, State.updDie_kept]

theorem execErrorRecordStore_goes (die : Fin 17) (r : RecordIn) (h : s.Kept p q) : Goes p q (execErrorRecordStore die r s) := by
  unfold execErrorRecordStore
  grind [Goes, State.errorAct_kept, State.fatAction_kept, State.record_kept]

/-! Floating point. -/

theorem State.fpDone_kept (t : Nat) (r : Fp.Res) (write : Thread → Word → Thread) (h : s.Kept p q) : (s.fpDone t r write).Kept p q := by
  unfold State.fpDone
  grind [State.finish_kept, State.raise_kept, State.takeExc_kept, State.updThr_kept]

theorem fpPlain_goes (t : Thr) (f : Thread → Fp.Res) (write : Thread → Word → Thread) (h : s.Kept p q) : Goes p q (fpPlain t f write s) := by
  unfold fpPlain
  grind [State.fpDone_kept, State.run_goes]

theorem fpRound_goes (t : Thr) (word : BitVec 32) (rm : BitVec 3) (f : Thread → Nat → Fp.Res) (write : Thread → Word → Thread) (h : s.Kept p q) :
    Goes p q (fpRound t word rm f write s) := by
  unfold fpRound
  grind [State.fpDone_kept, State.illegal_kept, State.run_goes]

theorem fpRoundIf_goes (rounds : Bool) (t : Thr) (word : BitVec 32) (rm : BitVec 3) (f : Thread → Nat → Fp.Res) (write : Thread → Word → Thread)
    (h : s.Kept p q) : Goes p q (fpRoundIf rounds t word rm f write s) := by
  unfold fpRoundIf
  grind [State.illegal_kept, State.run_goes, fpRound_goes]

/-! Formes. -/

theorem State.updFrm_kept (e : Nat) (f : FrmEngine → FrmEngine) (h : s.Kept p q) : (s.updFrm e f).Kept p q := State.updDie_kept _ _ h
theorem State.formeEvent_kept (e result : Nat) (h : s.Kept p q) : (s.formeEvent e result).Kept p q := by
  unfold State.formeEvent
  grind [State.drawn_kept, State.note_kept]

theorem State.formeGo_kept (e pc : Nat) (h : s.Kept p q) : (s.formeGo e pc).Kept p q := State.updFrm_kept _ _ h
theorem State.formeStep_kept (e n : Nat) (h : s.Kept p q) : (s.formeStep e n).Kept p q := State.formeGo_kept _ _ h
theorem State.quiesceAsk_kept (e scope target limit : Nat) (h : s.Kept p q) : (s.quiesceAsk e scope target limit).Kept p q := h.of_eq rfl rfl rfl
theorem State.formeEnd_kept (e result : Nat) (h : s.Kept p q) : (s.formeEnd e result).Kept p q := by
  unfold State.formeEnd
  grind [State.formeEvent_kept, State.quiesceEnd_kept, State.updFrm_kept]

theorem State.stepFail_kept (e : Nat) (h : s.Kept p q) : (s.stepFail e).Kept p q := by
  unfold State.stepFail
  grind [State.formeEnd_kept, State.logError_kept, State.quiesceEnd_kept, State.updFrm_kept]

theorem State.orFail_kept (e : Nat) {o : Option State} (ho : KeptOpt p q o) (h : s.Kept p q) : (s.orFail e o).Kept p q := by
  cases o with
  | none => exact State.stepFail_kept e h
  | some u => exact ho u rfl

theorem execFormeBegin_goes (engine : Fin 17) (sigOk : Bool) (h : s.Kept p q) : Goes p q (execFormeBegin engine sigOk s) := by
  unfold execFormeBegin
  grind [Goes, State.formeEvent_kept, State.logError_kept, State.updFrm_kept]

theorem State.formeWrite_kept (e a : Nat) (v : Word) (h : s.Kept p q) : ∀ {u}, s.formeWrite e a v = some u → u.Kept p q := by
  unfold State.formeWrite
  grind [State.formePut_kept, State.updFrm_kept]

theorem execFormeNop_goes (engine : Fin 17) (h : s.Kept p q) : Goes p q (execFormeNop engine s) := by
  unfold execFormeNop
  grind [Goes, State.formeStep_kept]

theorem execFormeWrite_goes (engine : Fin 17) (h : s.Kept p q) : Goes p q (execFormeWrite engine s) := by
  unfold execFormeWrite
  extract_lets e
  split
  · exact .next h
  next w _ =>
    refine .next (State.orFail_kept e (fun u hu => ?_) h)
    obtain ⟨v, -, hv⟩ := Option.bind_eq_some_iff.mp hu
    exact State.Kept.map (fun t ht => State.formeStep_kept _ _ ht) (fun t ht => State.formeWrite_kept _ _ _ h ht) hv

theorem execFormeRead_goes (engine : Fin 17) (h : s.Kept p q) : Goes p q (execFormeRead engine s) := by
  unfold execFormeRead
  extract_lets e
  split
  · exact .next h
  · exact .next (State.orFail_kept e (.map fun v => State.formeStep_kept _ _ (State.updFrm_kept _ _ h)) h)

theorem execFormeRmw_goes (engine : Fin 17) (h : s.Kept p q) : Goes p q (execFormeRmw engine s) := by
  unfold execFormeRmw
  extract_lets e x
  split
  · exact .next h
  · split
    · refine .next (State.orFail_kept e (fun u hu => ?_) h)
      exact State.Kept.map (fun t ht => State.formeStep_kept _ _ ht) (fun t ht => State.formeWrite_kept _ _ _ h ht) hu
    · exact .next (State.stepFail_kept e h)

theorem execFormePoll_goes (engine : Fin 17) (h : s.Kept p q) : Goes p q (execFormePoll engine s) := by
  unfold execFormePoll
  grind [Goes, State.formeStep_kept, State.stepFail_kept, State.updFrm_kept]

theorem execPollTimeout_goes (engine : Fin 17) (h : s.Kept p q) : Goes p q (execPollTimeout engine s) := by
  unfold execPollTimeout
  grind [Goes, State.stepFail_kept]

theorem execFormeQuiesce_goes (engine : Fin 17) (h : s.Kept p q) : Goes p q (execFormeQuiesce engine s) := by
  unfold execFormeQuiesce
  grind [Goes, State.quiesceAsk_kept, State.stepFail_kept, State.updFrm_kept]

theorem execQuiesceHold_goes (engine : Fin 17) (h : s.Kept p q) : Goes p q (execQuiesceHold engine s) := by
  unfold execQuiesceHold
  grind [State.Kept, Goes, State.formeStep_kept]

theorem execQuiesceCeiling_goes (engine : Fin 17) (h : s.Kept p q) : Goes p q (execQuiesceCeiling engine s) := by
  unfold execQuiesceCeiling
  grind [Goes, State.stepFail_kept]

theorem execFormeResume_goes (engine : Fin 17) (h : s.Kept p q) : Goes p q (execFormeResume engine s) := by
  unfold execFormeResume
  grind [Goes, State.formeStep_kept, State.quiesceEnd_kept]

theorem State.formePuts_kept (cls : Nat) (l : List (Nat × Word)) {o : Option State} (ho : KeptOpt p q o) :
    KeptOpt p q (l.foldl (fun (t : Option State) a => t.bind (fun t => t.formePut cls a.1 a.2)) o) := by
  induction l generalizing o with
  | nil => exact ho
  | cons a l ih =>
    refine ih fun u hu => ?_
    obtain ⟨v, hv, hp⟩ := Option.bind_eq_some_iff.mp hu
    exact State.formePut_kept _ _ _ (ho v hv) hp

theorem State.flushBuffer_kept (e : Nat) (h : s.Kept p q) : (s.flushBuffer e).Kept p q := by
  unfold State.flushBuffer
  extract_lets x r
  have hr : KeptOpt p q r := State.formePuts_kept _ _ (.some (State.updFrm_kept _ _ h))
  clear_value r
  split
  next t => exact State.formeStep_kept _ _ (hr t rfl)
  next => exact State.stepFail_kept _ h

theorem State.passSync_kept (e : Nat) (h : s.Kept p q) : (s.passSync e).Kept p q := by
  unfold State.passSync
  grind [State.flushBuffer_kept, State.formeStep_kept, State.updFrm_kept]

theorem State.syncRelease_kept (e : Nat) (h : s.Kept p q) : (s.syncRelease e).Kept p q := by
  unfold State.syncRelease
  grind [State.Kept.foldl, State.passSync_kept]

theorem execFormeSync_goes (engine : Fin 17) (h : s.Kept p q) : Goes p q (execFormeSync engine s) := by
  unfold execFormeSync
  grind [Goes, State.syncRelease_kept, State.updFrm_kept]

theorem execSyncRelease_goes (engine : Fin 17) (h : s.Kept p q) : Goes p q (execSyncRelease engine s) := by
  unfold execSyncRelease
  grind [Goes, State.syncRelease_kept]

theorem execFormeStamp_goes (engine : Fin 17) (h : s.Kept p q) : Goes p q (execFormeStamp engine s) := by
  unfold execFormeStamp
  grind [Goes, State.drawn_kept, State.formeStep_kept, State.note_kept]

theorem execFormeJump_goes (engine : Fin 17) (h : s.Kept p q) : Goes p q (execFormeJump engine s) := by
  unfold execFormeJump
  extract_lets e
  split
  · exact .next h
  · exact .next (State.orFail_kept e (.map fun v => State.formeGo_kept _ _ h) h)

theorem execFormeBrnz_goes (engine : Fin 17) (h : s.Kept p q) : Goes p q (execFormeBrnz engine s) := by
  unfold execFormeBrnz
  extract_lets e
  split
  · exact .next h
  · exact .ite (.next (State.formeStep_kept _ _ h)) (.next (State.orFail_kept e (.map fun v => State.formeGo_kept _ _ h) h))

theorem State.formeDone_kept (e : Nat) (h : s.Kept p q) : (s.formeDone e).Kept p q := State.formeEnd_kept _ _ h
theorem execFormeReturn_goes (engine : Fin 17) (h : s.Kept p q) : Goes p q (execFormeReturn engine s) := by
  unfold execFormeReturn
  grind [Goes, State.formeDone_kept]

theorem execFormeFail_goes (engine : Fin 17) (h : s.Kept p q) : Goes p q (execFormeFail engine s) := by
  unfold execFormeFail
  grind [Goes, State.stepFail_kept]

theorem execFormeEnd_goes (engine : Fin 17) (h : s.Kept p q) : Goes p q (execFormeEnd engine s) := by
  unfold execFormeEnd
  grind [Goes, State.formeDone_kept]

theorem State.bucketMark_kept (next : Nat) (b : Nat) (h : s.Kept p q) : (s.bucketMark next b).Kept p q := by
  unfold State.bucketMark
  grind [State.Kept.foldl, State.ctlField_kept]

theorem State.bucketTake_kept (b : Nat) (h : s.Kept p q) : (s.bucketTake b).Kept p q := by
  unfold State.bucketTake
  extract_lets next s₁ s₂
  have h₁ : s₁.Kept p q := by
    refine .foldl (fun u line hu => ?_) h
    split
    · exact .ite (State.setAtom_kept _ _ (State.wbMem_kept _ _ _ _ hu)) hu
    · exact hu
  have h₂ : s₂.Kept p q := .foldl (fun u a hu => State.ctlField_kept _ _ _ _ (State.ctlField_kept _ _ _ _ hu)) h₁
  clear_value s₂
  exact .ite h₂ (h₂.of_eq rfl rfl rfl)

theorem State.bucketsBack_kept (bs : List Nat) (h : s.Kept p q) : (s.bucketsBack bs).Kept p q := by
  unfold State.bucketsBack
  grind [State.Kept.foldl, State.ctlField_kept]

theorem State.bucketsSpread_kept (bs to_ : List Nat) (h : s.Kept p q) : (s.bucketsSpread bs to_).Kept p q := by
  unfold State.bucketsSpread
  grind [State.Kept.foldl, State.bucketMark_kept, State.drawn_kept]

theorem State.bucketsMove_kept (bs : List Nat) (h : s.Kept p q) : (s.bucketsMove bs).1.Kept p q := by
  unfold State.bucketsMove
  grind [State.Kept.foldl, State.bucketTake_kept]

theorem State.libBucketMove_kept (first : Bool) (since b next : Nat) (h : s.Kept p q) : (s.libBucketMove first since b next).1.Kept p q := by
  unfold State.libBucketMove
  grind [State.bucketMark_kept, State.bucketsBack_kept, State.bucketsMove_kept]

theorem State.libSliceRetire_kept (first : Bool) (d t : Nat) (h : s.Kept p q) : (s.libSliceRetire first d t).1.Kept p q := by
  unfold State.libSliceRetire
  grind [State.bucketsMove_kept, State.bucketsSpread_kept, State.slicePut_kept]

theorem State.dieD3_kept (d : Nat) (h : s.Kept p q) : (s.dieD3 d).Kept p q := by
  unfold State.dieD3
  extract_lets s₁ s₂ s₃ s₄ mc
  have h₂ : s₂.Kept p q := .foldl (fun u c hu => State.setCore_kept _ _ hu) (State.clearThreads_kept _ h)
  have h₃ : s₃.Kept p q := .foldl (fun u c hu => State.updTile_kept _ _ hu) h₂
  have h₄ : s₄.Kept p q := State.updDie_kept _ _ (State.clearCtl_kept _ _ h₃)
  exact State.setPortSt_kept _ _ (h₄.withMc _)

theorem State.libDiePark_kept (first : Bool) (d : Nat) (h : s.Kept p q) : (s.libDiePark first d).1.Kept p q := by
  unfold State.libDiePark
  grind [State.Kept.foldl, State.bucketsMove_kept, State.bucketsSpread_kept, State.dieD3_kept, State.l3Drop_kept]

theorem State.unparked_kept (d : Nat) (bs : List Nat) (h : s.Kept p q) : (s.unparked d bs).1.Kept p q := by
  unfold State.unparked
  grind [State.bucketsMove_kept, State.setPortSt_kept]

theorem State.libDieUnpark_kept (first : Bool) (d : Nat) (h : s.Kept p q) : (s.libDieUnpark first d).1.Kept p q := by
  unfold State.libDieUnpark
  grind [State.Kept.foldl, State.bucketMark_kept, State.ctlPut_kept, State.setPortSt_kept, State.unparked_kept, State.updDie_kept]

theorem State.coreMove_kept (c t : Nat) (h : s.Kept p q) : (s.coreMove c t).Kept p q := by
  unfold State.coreMove
  grind [State.Kept, State.Kept.foldl, State.setPortSt_kept, State.updCore_kept, State.updThr_kept, State.updTile_kept]

theorem State.libCoreSpare_kept (e : Nat) (first : Bool) (since c : Nat) (h : s.Kept p q) : (s.libCoreSpare e first since c).1.Kept p q := by
  unfold State.libCoreSpare
  grind [State.coreMove_kept, State.emptyL2_kept, State.quiesceAsk_kept, State.quiesceEnd_kept, State.updCore_kept]

theorem State.hopsAgain_kept (h : s.Kept p q) : (s.hopsAgain).Kept p q := by
  unfold State.hopsAgain
  grind [State.Kept.foldl, State.ctlPut_kept]

theorem State.libAvoid_kept (e : Nat) (first : Bool) (since d : Nat) (w : Word) (h : s.Kept p q) : (s.libAvoid e first since d w).1.Kept p q := by
  unfold State.libAvoid
  dsimp only
  repeat' split
  all_goals grind [State.ctlPut_kept, State.hopsAgain_kept, State.quiesceAsk_kept, State.quiesceEnd_kept]

theorem State.libRankMaint_kept (ch r : Nat) (h : s.Kept p q) : (s.libRankMaint ch r).1.Kept p q := by
  unfold State.libRankMaint
  extract_lets x v
  have hx : x.1.Kept p q := by
    refine .foldlPair (fun y r hy => ?_) h
    exact .ite_fst (State.hardRepair_kept _ hy) hy
  clear_value x
  exact .ite_fst h (hx.of_eq rfl rfl rfl)

theorem State.libPairRejoin_kept (first : Bool) (h : s.Kept p q) : (s.libPairRejoin first).1.Kept p q := by
  unfold State.libPairRejoin
  grind [State.Kept.foldl, State.bucketMark_kept, State.bucketsMove_kept, State.ctlField_kept, State.drawn_kept, State.freshTid_kept, State.send_kept]

theorem State.libPut_kept (a : Nat) (v : Word) (h : s.Kept p q) : (s.libPut a v).1.Kept p q := by
  unfold State.libPut
  grind [State.formePut_kept]

theorem State.libCall_kept (e id : Nat) (first : Bool) (since : Nat) (h : s.Kept p q) : (s.libCall e id first since).1.Kept p q := by
  unfold State.libCall
  extract_lets x w a r
  have hr : r.1.Kept p q := State.coreReset_kept _ h
  clear_value r w
  split
  · exact State.libCoreSpare_kept _ _ _ _ h
  · have hd := State.homeDies_kept h
    generalize s.homeDies = u at hd
    exact .ite_fst hd h
  · have hd := State.pairSpread_kept h
    generalize s.pairSpread = u at hd
    exact .ite_fst hd h
  · exact .ite_fst h hr
  · exact h
  · exact State.libBucketMove_kept _ _ _ _ h
  · exact State.libSliceRetire_kept _ _ _ h
  · exact State.libDiePark_kept _ _ h
  · exact State.libDieUnpark_kept _ _ h
  · refine .ite_fst ?_ h
    split
    next t ht => exact State.dieReset_kept _ h ht
    next => exact h
  · exact h
  · exact State.libRankMaint_kept _ _ h
  · exact State.libAvoid_kept _ _ _ _ _ h
  · exact .ite_fst (State.libPut_kept _ _ h) h
  · refine .ite_fst (.foldlPair (fun y i hy => ?_) h) h
    exact .ite_fst (State.libPut_kept _ _ hy) hy
  · exact State.libPairRejoin_kept _ h
  · exact .ite_fst h (.foldl (fun u ch hu => State.guardCommit_kept _ _ hu) h)
  · refine .ite_fst ?_ h
    split
    next t ht => exact State.slotPut_kept _ _ _ h ht
    next => exact h
  · exact .ite_fst h (.ite_fst (.foldl (fun u i hu => State.updFrm_kept _ _ hu) h) h)
  · exact h

theorem execFormeCall_goes (engine : Fin 17) (h : s.Kept p q) : Goes p q (execFormeCall engine s) := by
  unfold execFormeCall
  grind [Goes, State.formeStep_kept, State.libCall_kept, State.stepFail_kept, State.updFrm_kept]

/-! The MC, the BMC and the Frisket. -/

theorem State.mcReply_kept (r : List Word) (status : Nat) (payload : List Word) (h : s.Kept p q) : (s.mcReply r status payload).Kept p q := by
  unfold State.mcReply
  grind [State.Kept, State.mcAnswer_kept]

theorem execMbxBootOk_goes (h : s.Kept p q) : Goes p q (execMbxBootOk s) := by
  unfold execMbxBootOk
  grind [Goes, State.bootOk_kept, State.mcReply_kept]

theorem execMbxGetChain_goes (h : s.Kept p q) : Goes p q (execMbxGetChain s) := by
  unfold execMbxGetChain
  grind [Goes, State.drawn_kept, State.mcReply_kept, State.putCohBytes_kept]

theorem execMbxResetCold_goes (h : s.Kept p q) : Goes p q (execMbxResetCold s) := by
  unfold execMbxResetCold
  grind [Goes, State.askCold_kept, State.mcReply_kept]

theorem execMbxResetWarm_goes (h : s.Kept p q) : Goes p q (execMbxResetWarm s) := by
  unfold execMbxResetWarm
  grind [Goes, State.mcReply_kept, State.warmReset_kept]

theorem execMbxP5Enter_goes (h : s.Kept p q) : Goes p q (execMbxP5Enter s) := by
  unfold execMbxP5Enter
  grind [Goes, State.askP5_kept, State.mcReply_kept]

theorem execMbxClearMinimal_goes (h : s.Kept p q) : Goes p q (execMbxClearMinimal s) := by
  unfold execMbxClearMinimal
  grind [Goes, State.mcReply_kept, State.setTries_kept]

theorem execMbxBootReason_goes (h : s.Kept p q) : Goes p q (execMbxBootReason s) := by
  unfold execMbxBootReason
  grind [Goes, State.mcReply_kept]

theorem execMbxTelemetry_goes (h : s.Kept p q) : Goes p q (execMbxTelemetry s) := by
  unfold execMbxTelemetry
  grind [State.Kept, Goes, State.mcReply_kept]

theorem execMbxFrisketRead_goes (h : s.Kept p q) : Goes p q (execMbxFrisketRead s) := by
  unfold execMbxFrisketRead
  grind [Goes, State.mcReply_kept]

theorem State.toField_kept (h : s.Kept p q) : (s.toField).1.Kept p q := by
  unfold State.toField
  grind [State.Kept]

theorem execMbxFrisketEnterField_goes (h : s.Kept p q) : Goes p q (execMbxFrisketEnterField s) := by
  unfold execMbxFrisketEnterField
  grind [Goes, State.mcReply_kept, State.toField_kept]

theorem execMbxFrisketClose_goes (h : s.Kept p q) : Goes p q (execMbxFrisketClose s) := by
  unfold execMbxFrisketClose
  grind [Goes, State.closeSession_kept, State.mcReply_kept]

theorem execTimePair_goes (h : s.Kept p q) : Goes p q (execTimePair s) := by
  unfold execTimePair
  grind [State.Kept, Goes, State.mcAnswer_kept]

theorem State.tellBmc_kept (l : List Word) (h : s.Kept p q) : (s.tellBmc l).Kept p q := h.of_eq rfl rfl rfl
theorem State.bmc_goes {f : State → State} (hf : ∀ u : State, u.Kept p q → (f u).Kept p q) (h : s.Kept p q) : Goes p q (s.bmc f) :=
  .next (.ite (hf s h) h)

theorem execBmcReadTelemetry_goes (h : s.Kept p q) : Goes p q (execBmcReadTelemetry s) := by
  unfold execBmcReadTelemetry
  grind [State.Kept, State.bmc_goes, State.tellBmc_kept]

theorem execBmcReadBootReason_goes (n : Fin 16) (h : s.Kept p q) : Goes p q (execBmcReadBootReason n s) := by
  unfold execBmcReadBootReason
  grind [State.bmc_goes, State.tellBmc_kept]

theorem execBmcReadErrorRecord_goes (die : Fin 17) (slot : Fin 512) (h : s.Kept p q) : Goes p q (execBmcReadErrorRecord die slot s) := by
  unfold execBmcReadErrorRecord
  grind [State.bmc_goes, State.tellBmc_kept]

theorem execBmcFreeErrorRecord_goes (die : Fin 17) (slot : Fin 512) (gen : BitVec 16) (h : s.Kept p q) : Goes p q (execBmcFreeErrorRecord die slot gen s) := by
  unfold execBmcFreeErrorRecord
  grind [State.bmc_goes, State.freeRecord_kept]

theorem execBmcReadCertificates_goes (h : s.Kept p q) : Goes p q (execBmcReadCertificates s) := by
  unfold execBmcReadCertificates
  grind [State.bmc_goes, State.drawn_kept, State.tellBmc_kept]

theorem execBmcReadFrisket_goes (h : s.Kept p q) : Goes p q (execBmcReadFrisket s) := by
  unfold execBmcReadFrisket
  grind [State.bmc_goes, State.tellBmc_kept]

theorem execBmcDeliverTime_goes (tai ns age : Word) (h : s.Kept p q) : Goes p q (execBmcDeliverTime tai ns age s) := by
  unfold execBmcDeliverTime
  grind [State.Kept, State.bmc_goes]

theorem execBmcColdReset_goes (h : s.Kept p q) : Goes p q (execBmcColdReset s) := by
  unfold execBmcColdReset
  grind [State.askCold_kept, State.bmc_goes]

theorem execBmcWarmReset_goes (h : s.Kept p q) : Goes p q (execBmcWarmReset s) := by
  unfold execBmcWarmReset
  grind [State.bmc_goes, State.warmReset_kept]

theorem execBmcP5Enter_goes (h : s.Kept p q) : Goes p q (execBmcP5Enter s) := by
  unfold execBmcP5Enter
  grind [State.askP5_kept, State.bmc_goes]

theorem execBmcP5Exit_goes (h : s.Kept p q) : Goes p q (execBmcP5Exit s) := by
  unfold execBmcP5Exit
  grind [State.Kept, State.bmc_goes]

theorem execBmcClearHalted_goes (h : s.Kept p q) : Goes p q (execBmcClearHalted s) := by
  unfold execBmcClearHalted
  grind [State.bmc_goes, State.coldReset_kept, State.setTries_kept]

theorem execBmcClearMinimal_goes (h : s.Kept p q) : Goes p q (execBmcClearMinimal s) := by
  unfold execBmcClearMinimal
  grind [State.bmc_goes, State.setTries_kept]

theorem execBmcOwnerEnrol_goes (keyHash : BitVec 384) (sigOk : Bool) (h : s.Kept p q) : Goes p q (execBmcOwnerEnrol keyHash sigOk s) := by
  unfold execBmcOwnerEnrol
  grind [State.Kept, State.bmc_goes]

theorem execBmcOwnerRevoke_goes (sigOk : Bool) (h : s.Kept p q) : Goes p q (execBmcOwnerRevoke sigOk s) := by
  unfold execBmcOwnerRevoke
  grind [State.Kept, State.bmc_goes]

theorem execBmcEnterField_goes (sigOk : Bool) (h : s.Kept p q) : Goes p q (execBmcEnterField sigOk s) := by
  unfold execBmcEnterField
  grind [State.bmc_goes, State.toField_kept]

theorem execBmcCloseSession_goes (h : s.Kept p q) : Goes p q (execBmcCloseSession s) := by
  unfold execBmcCloseSession
  grind [State.bmc_goes, State.closeSession_kept]

theorem execFrisketChallenge_goes (level : BitVec 2) (nonce : BitVec 256) (h : s.Kept p q) : Goes p q (execFrisketChallenge level nonce s) := by
  unfold execFrisketChallenge
  grind [State.Kept, Goes, State.tellBmc_kept]

theorem State.frkFail_kept (h : s.Kept p q) : (s.frkFail).Kept p q := h.of_eq rfl rfl rfl
theorem State.frkProof_kept (level : BitVec 2) (ok : Bool) {opens : State → State} (ho : ∀ u : State, u.Kept p q → (opens u).Kept p q) (h : s.Kept p q) :
    (s.frkProof level ok opens).Kept p q := by
  unfold State.frkProof
  refine .ite h ?_
  split
  · exact h.withFrisket _
  next c rest _ =>
    have hr : ({ s with frisket := { s.frisket with challenges := rest } } : State).Kept p q := h.withFrisket _
    exact .ite (ho _ (hr.withFrisket _)) (State.frkFail_kept hr)

theorem State.openSession_kept (n : BitVec 2) (h : s.Kept p q) : (s.openSession n).Kept p q := by
  unfold State.openSession
  grind [State.Kept, State.sessionEvent_kept]

theorem execFrisketPasswordProof_goes (proofOk : Bool) (h : s.Kept p q) : Goes p q (execFrisketPasswordProof proofOk s) := by
  unfold execFrisketPasswordProof
  grind [Goes, State.frkProof_kept, State.openSession_kept]

theorem execFrisketOwnerProof_goes (proofOk : Bool) (h : s.Kept p q) : Goes p q (execFrisketOwnerProof proofOk s) := by
  unfold execFrisketOwnerProof
  grind [Goes, State.frkProof_kept, State.openSession_kept]

theorem State.eraseSecure_kept (h : s.Kept p q) : (s.eraseSecure).Kept p q := by
  unfold State.eraseSecure
  extract_lets secret s₁ s₂ s₃ s₄ f
  have h₁ : s₁.Kept p q := h.of_eq rfl rfl rfl
  have h₂ : s₂.Kept p q := .foldl (fun u l hu => State.putCoh_kept _ _ hu) h₁
  clear_value s₂
  have h₃ : s₃.Kept p q := ⟨Tbl.wf_filter _ _ _ h₂.mem, h₂.part, h₂.stepping⟩
  have h₄ : s₄.Kept p q := State.linksDown_kept h₃
  exact h₄.withFrisket _

theorem State.returned_kept (h : s.Kept p q) : (s.returned).Kept p q := h.of_eq rfl rfl rfl
theorem execFrisketVendorProof_goes (vendorOk consentOk : Bool) (h : s.Kept p q) : Goes p q (execFrisketVendorProof vendorOk consentOk s) := by
  unfold execFrisketVendorProof
  grind [Goes, State.eraseSecure_kept, State.frkProof_kept, State.openSession_kept, State.returned_kept]

theorem execLockoutExpire_goes (h : s.Kept p q) : Goes p q (execLockoutExpire s) := .ite (.next (h.of_eq rfl rfl rfl)) (.next h)
theorem State.mcRestart_kept (h : s.Kept p q) : (s.mcRestart).Kept p q := h.of_eq rfl rfl rfl
theorem execMcFwFault_goes (h : s.Kept p q) : Goes p q (execMcFwFault s) := by
  unfold execMcFwFault
  grind [Goes, State.logError_kept, State.mcRestart_kept]

theorem execMcRestartDone_goes (h : s.Kept p q) : Goes p q (execMcRestartDone s) := by
  unfold execMcRestartDone
  grind [State.Kept, Goes, State.mcAnswer_kept]

theorem execMcFwUpdate_goes (imageOk : Bool) (h : s.Kept p q) : Goes p q (execMcFwUpdate imageOk s) := by
  unfold execMcFwUpdate
  grind [State.Kept, Goes, State.mcRestart_kept]

theorem State.onReached_kept (t : Nat) (f : Thread → Thread) (h : s.Kept p q) : (s.onReached t f).Kept p q := .ite (State.updThr_kept _ _ h) h
theorem execTestAccessInstruction_goes (op : TestOp) (h : s.Kept p q) : Goes p q (execTestAccessInstruction op s) := by
  unfold execTestAccessInstruction
  grind [Goes, State.bypass_kept, State.onReached_kept, State.sysPut_kept, State.tellBmc_kept]

/-! Memory instructions. -/

theorem loadForm_goes (signed : Bool) (size : Nat) (t : Thr) (rt base : RegNo) (imm : BitVec 16) (h : s.Kept p q) :
    Goes p q (loadForm signed size t rt base imm s) :=
  State.memRow_goes _ _ h
theorem storeForm_goes (size : Nat) (v : Thread → Word) (t : Thr) (base : RegNo) (imm : BitVec 16) (h : s.Kept p q) :
    Goes p q (storeForm size v t base imm s) :=
  State.memRow_goes _ _ h
theorem loadFForm_goes (size : Nat) (t : Thr) (rt base : RegNo) (imm : BitVec 16) (h : s.Kept p q) : Goes p q (loadFForm size t rt base imm s) :=
  State.memRow_goes _ _ h
theorem prefForm_goes (hint : Nat) (t : Thr) (base : RegNo) (imm : BitVec 16) (h : s.Kept p q) : Goes p q (prefForm hint t base imm s) :=
  State.memRow_goes _ _ h
theorem amoForm_goes (op : AmoOp) (t : Thr) (rd rs1 rs2 : RegNo) (d aq rl : Bool) (h : s.Kept p q) : Goes p q (amoForm op t rd rs1 rs2 d aq rl s) :=
  State.memRow_goes _ _ h
theorem execLdAqS_goes (t : Thr) (rd rs1 : RegNo) (width : BitVec 2) (h : s.Kept p q) : Goes p q (execLdAqS t rd rs1 width s) := by
  unfold execLdAqS
  grind [State.illegal_kept, State.memRow_goes, State.run_goes]

theorem execCas_goes (t : Thr) (rd rs1 rs2 rs3 : RegNo) (d aq rl : Bool) (h : s.Kept p q) : Goes p q (execCas t rd rs1 rs2 rs3 d aq rl s) :=
  State.memRow_goes _ _ h

/-! Every command. -/

theorem exec_goes (i : Instr) (h : s.Kept p q) : Goes p q (exec i s) := by
  unfold exec
  cases i with
  | add t rd rs1 rs2 => exact alu2_goes _ _ _ _ _ h
  | sub t rd rs1 rs2 => exact alu2_goes _ _ _ _ _ h
  | and t rd rs1 rs2 => exact alu2_goes _ _ _ _ _ h
  | or t rd rs1 rs2 => exact alu2_goes _ _ _ _ _ h
  | xor t rd rs1 rs2 => exact alu2_goes _ _ _ _ _ h
  | andn t rd rs1 rs2 => exact alu2_goes _ _ _ _ _ h
  | sll t rd rs1 rs2 => exact alu2_goes _ _ _ _ _ h
  | srl t rd rs1 rs2 => exact alu2_goes _ _ _ _ _ h
  | sra t rd rs1 rs2 => exact alu2_goes _ _ _ _ _ h
  | rol t rd rs1 rs2 => exact alu2_goes _ _ _ _ _ h
  | ror t rd rs1 rs2 => exact alu2_goes _ _ _ _ _ h
  | slt t rd rs1 rs2 => exact alu2_goes _ _ _ _ _ h
  | sltu t rd rs1 rs2 => exact alu2_goes _ _ _ _ _ h
  | min t rd rs1 rs2 => exact alu2_goes _ _ _ _ _ h
  | max t rd rs1 rs2 => exact alu2_goes _ _ _ _ _ h
  | minu t rd rs1 rs2 => exact alu2_goes _ _ _ _ _ h
  | maxu t rd rs1 rs2 => exact alu2_goes _ _ _ _ _ h
  | clz t rd rs1 => exact alu1_goes _ _ _ _ h
  | ctz t rd rs1 => exact alu1_goes _ _ _ _ h
  | popc t rd rs1 => exact alu1_goes _ _ _ _ h
  | rev8 t rd rs1 => exact alu1_goes _ _ _ _ h
  | sextB t rd rs1 => exact alu1_goes _ _ _ _ h
  | sextH t rd rs1 => exact alu1_goes _ _ _ _ h
  | sextW t rd rs1 => exact alu1_goes _ _ _ _ h
  | zextW t rd rs1 => exact alu1_goes _ _ _ _ h
  | mul t rd rs1 rs2 => exact alu2_goes _ _ _ _ _ h
  | mulh t rd rs1 rs2 => exact alu2_goes _ _ _ _ _ h
  | mulhu t rd rs1 rs2 => exact alu2_goes _ _ _ _ _ h
  | mulhsu t rd rs1 rs2 => exact alu2_goes _ _ _ _ _ h
  | div t rd rs1 rs2 => exact alu2_goes _ _ _ _ _ h
  | divu t rd rs1 rs2 => exact alu2_goes _ _ _ _ _ h
  | rem t rd rs1 rs2 => exact alu2_goes _ _ _ _ _ h
  | remu t rd rs1 rs2 => exact alu2_goes _ _ _ _ _ h
  | addw t rd rs1 rs2 => exact alu2_goes _ _ _ _ _ h
  | subw t rd rs1 rs2 => exact alu2_goes _ _ _ _ _ h
  | sllw t rd rs1 rs2 => exact alu2_goes _ _ _ _ _ h
  | srlw t rd rs1 rs2 => exact alu2_goes _ _ _ _ _ h
  | sraw t rd rs1 rs2 => exact alu2_goes _ _ _ _ _ h
  | mulw t rd rs1 rs2 => exact alu2_goes _ _ _ _ _ h
  | divw t rd rs1 rs2 => exact alu2_goes _ _ _ _ _ h
  | divuw t rd rs1 rs2 => exact alu2_goes _ _ _ _ _ h
  | remw t rd rs1 rs2 => exact alu2_goes _ _ _ _ _ h
  | remuw t rd rs1 rs2 => exact alu2_goes _ _ _ _ _ h
  | addi t rd rs1 imm => exact alu1_goes _ _ _ _ h
  | andi t rd rs1 imm => exact alu1_goes _ _ _ _ h
  | ori t rd rs1 imm => exact alu1_goes _ _ _ _ h
  | xori t rd rs1 imm => exact alu1_goes _ _ _ _ h
  | slti t rd rs1 imm => exact alu1_goes _ _ _ _ h
  | sltiu t rd rs1 imm => exact alu1_goes _ _ _ _ h
  | addiw t rd rs1 imm => exact alu1_goes _ _ _ _ h
  | slli t rd rs1 amt => exact alu1_goes _ _ _ _ h
  | srli t rd rs1 amt => exact alu1_goes _ _ _ _ h
  | srai t rd rs1 amt => exact alu1_goes _ _ _ _ h
  | rori t rd rs1 amt => exact alu1_goes _ _ _ _ h
  | slliw t rd rs1 amt => exact shiftW_goes _ _ _ _ _ _ h
  | srliw t rd rs1 amt => exact shiftW_goes _ _ _ _ _ _ h
  | sraiw t rd rs1 amt => exact shiftW_goes _ _ _ _ _ _ h
  | lui t rd imm => exact alu0_goes _ _ _ h
  | auipc t rd imm => exact alu0_goes _ _ _ h
  | j t rd imm => exact execJ_goes _ _ _ h
  | jr t rd rs1 imm => exact execJr_goes _ _ _ _ h
  | beq t rs1 rs2 off => exact branch_goes_kept _ _ _ _ _ h
  | bne t rs1 rs2 off => exact branch_goes_kept _ _ _ _ _ h
  | blt t rs1 rs2 off => exact branch_goes_kept _ _ _ _ _ h
  | bge t rs1 rs2 off => exact branch_goes_kept _ _ _ _ _ h
  | bltu t rs1 rs2 off => exact branch_goes_kept _ _ _ _ _ h
  | bgeu t rs1 rs2 off => exact branch_goes_kept _ _ _ _ _ h
  | ldB t rt base imm => exact loadForm_goes _ _ _ _ _ _ h
  | ldBu t rt base imm => exact loadForm_goes _ _ _ _ _ _ h
  | ldH t rt base imm => exact loadForm_goes _ _ _ _ _ _ h
  | ldHu t rt base imm => exact loadForm_goes _ _ _ _ _ _ h
  | ldW t rt base imm => exact loadForm_goes _ _ _ _ _ _ h
  | ldWu t rt base imm => exact loadForm_goes _ _ _ _ _ _ h
  | ldD t rt base imm => exact loadForm_goes _ _ _ _ _ _ h
  | stB t rt base imm => exact storeForm_goes _ _ _ _ _ h
  | stH t rt base imm => exact storeForm_goes _ _ _ _ _ h
  | stW t rt base imm => exact storeForm_goes _ _ _ _ _ h
  | stD t rt base imm => exact storeForm_goes _ _ _ _ _ h
  | fldS t rt base imm => exact loadFForm_goes _ _ _ _ _ h
  | fldD t rt base imm => exact loadFForm_goes _ _ _ _ _ h
  | fstS t rt base imm => exact storeForm_goes _ _ _ _ _ h
  | fstD t rt base imm => exact storeForm_goes _ _ _ _ _ h
  | prefRead t base imm => exact prefForm_goes _ _ _ _ h
  | prefWrite t base imm => exact prefForm_goes _ _ _ _ h
  | prefHomeL3 t base imm => exact prefForm_goes _ _ _ _ h
  | prefGalley t base imm => exact prefForm_goes _ _ _ _ h
  | ldAq t rd rs1 width => exact State.memRow_goes _ _ h
  | ldAqS t rd rs1 width => exact execLdAqS_goes _ _ _ _ h
  | stRl t rs2 rs1 width => exact State.memRow_goes _ _ h
  | amoSwp t rd rs1 rs2 d aq rl => exact amoForm_goes _ _ _ _ _ _ _ _ h
  | amoAdd t rd rs1 rs2 d aq rl => exact amoForm_goes _ _ _ _ _ _ _ _ h
  | amoAnd t rd rs1 rs2 d aq rl => exact amoForm_goes _ _ _ _ _ _ _ _ h
  | amoOr t rd rs1 rs2 d aq rl => exact amoForm_goes _ _ _ _ _ _ _ _ h
  | amoXor t rd rs1 rs2 d aq rl => exact amoForm_goes _ _ _ _ _ _ _ _ h
  | amoSmin t rd rs1 rs2 d aq rl => exact amoForm_goes _ _ _ _ _ _ _ _ h
  | amoSmax t rd rs1 rs2 d aq rl => exact amoForm_goes _ _ _ _ _ _ _ _ h
  | amoUmin t rd rs1 rs2 d aq rl => exact amoForm_goes _ _ _ _ _ _ _ _ h
  | amoUmax t rd rs1 rs2 d aq rl => exact amoForm_goes _ _ _ _ _ _ _ _ h
  | cas t rd rs1 rs2 rs3 d aq rl => exact execCas_goes _ _ _ _ _ _ _ _ h
  | fadd t rd rs1 rs2 p rm => exact fpRound_goes _ _ _ _ _ h
  | fsub t rd rs1 rs2 p rm => exact fpRound_goes _ _ _ _ _ h
  | fmul t rd rs1 rs2 p rm => exact fpRound_goes _ _ _ _ _ h
  | fdiv t rd rs1 rs2 p rm => exact fpRound_goes _ _ _ _ _ h
  | fsqrt t rd rs1 p rm => exact fpRound_goes _ _ _ _ _ h
  | fmin t rd rs1 rs2 p => exact fpPlain_goes _ _ _ h
  | fmax t rd rs1 rs2 p => exact fpPlain_goes _ _ _ h
  | fsign t rd rs1 rs2 p => exact fpPlain_goes _ _ _ h
  | fsignn t rd rs1 rs2 p => exact fpPlain_goes _ _ _ h
  | fsignx t rd rs1 rs2 p => exact fpPlain_goes _ _ _ h
  | feq t rd rs1 rs2 p => exact fpPlain_goes _ _ _ h
  | flt t rd rs1 rs2 p => exact fpPlain_goes _ _ _ h
  | fle t rd rs1 rs2 p => exact fpPlain_goes _ _ _ h
  | fkind t rd rs1 p => exact fpPlain_goes _ _ _ h
  | fcvtFF t rd rs1 p rm => exact fpRoundIf_goes _ _ _ _ _ _ h
  | fcvtWF t rd rs1 p rm => exact fpRound_goes _ _ _ _ _ h
  | fcvtWuF t rd rs1 p rm => exact fpRound_goes _ _ _ _ _ h
  | fcvtLF t rd rs1 p rm => exact fpRound_goes _ _ _ _ _ h
  | fcvtLuF t rd rs1 p rm => exact fpRound_goes _ _ _ _ _ h
  | fcvtFW t rd rs1 p rm => exact fpRoundIf_goes _ _ _ _ _ _ h
  | fcvtFWu t rd rs1 p rm => exact fpRoundIf_goes _ _ _ _ _ _ h
  | fcvtFL t rd rs1 p rm => exact fpRoundIf_goes _ _ _ _ _ _ h
  | fcvtFLu t rd rs1 p rm => exact fpRoundIf_goes _ _ _ _ _ _ h
  | fmvGF t rd rs1 p => exact fpPlain_goes _ _ _ h
  | fmvFG t rd rs1 p => exact fpPlain_goes _ _ _ h
  | fmadd t rd rs1 rs2 rs3 p rm => exact fpRound_goes _ _ _ _ _ h
  | fmsub t rd rs1 rs2 rs3 p rm => exact fpRound_goes _ _ _ _ _ h
  | fnmadd t rd rs1 rs2 rs3 p rm => exact fpRound_goes _ _ _ _ _ h
  | fnmsub t rd rs1 rs2 rs3 p rm => exact fpRound_goes _ _ _ _ _ h
  | sysrd t rd idx => exact execSysrd_goes _ _ _ h
  | syswr t rs1 idx => exact execSyswr_goes _ _ _ h
  | intAckRead t rd => exact execIntAckRead_goes _ _ h
  | intEoiWrite t rs1 => exact execIntEoiWrite_goes _ _ h
  | intSendWrite t rs1 => exact execIntSendWrite_goes _ _ h
  | mmuRootWrite t rs1 second => exact execMmuRootWrite_goes _ _ _ h
  | predFlushWrite t rs1 => exact execPredFlushWrite_goes _ _ h
  | smtFixWrite t rs1 => exact execSmtFixWrite_goes _ _ h
  | cacheDisableWrite t rs1 => exact execCacheDisableWrite_goes _ _ h
  | cacheEmptyDone t => exact execCacheEmptyDone_goes _ h
  | unlockAllWrite t rs1 => exact execUnlockAllWrite_goes _ _ h
  | trap t code => exact execTrap_goes _ _ h
  | retx t => exact execRetx_goes _ h
  | waite t => exact execWaite_goes _ h
  | waiteWake t => exact execWaiteWake_goes _ h
  | sevt t => exact execSevt_goes _ h
  | time t rd => exact execTime_goes _ _ h
  | fenceO t mask => exact execFenceO_goes _ _ h
  | fenceC t => exact execFenceC_goes _ h
  | fenceCComplete t => exact execFenceCComplete_goes _ h
  | ifence t => exact execIfence_goes _ h
  | cmoCleanPoc t rs1 => exact cmoForm_goes _ _ _ _ h
  | cmoInvalPoc t rs1 => exact cmoForm_goes _ _ _ _ h
  | cmoCleanInvalPoc t rs1 => exact cmoForm_goes _ _ _ _ h
  | cmoCleanPou t rs1 => exact cmoForm_goes _ _ _ _ h
  | cmoInvalPou t rs1 => exact cmoForm_goes _ _ _ _ h
  | cmoCleanInvalPou t rs1 => exact cmoForm_goes _ _ _ _ h
  | cmoCleanSetway t rs1 => exact setwayForm_goes _ _ _ h
  | cmoInvalSetway t rs1 => exact setwayForm_goes _ _ _ h
  | cmoCleanInvalSetway t rs1 => exact setwayForm_goes _ _ _ h
  | galLock t rs1 => exact State.memRow_goes _ _ h
  | galUnlock t rs1 => exact State.memRow_goes _ _ h
  | tlbiVa t rs1 rx domain => exact tlbiForm_goes _ _ _ _ _ _ h
  | tlbiAsid t rx domain => exact tlbiForm_goes _ _ _ _ _ _ h
  | tlbiVmid t rx domain => exact tlbiForm_goes _ _ _ _ _ _ h
  | tlbiAll t domain l => exact tlbiForm_goes _ _ _ _ _ _ h
  | tlbLock t rs1 => exact execTlbLock_goes _ _ h
  | tlbUnlock t rs1 => exact execTlbUnlock_goes _ _ h
  | enclInit t rd rs1 => exact execEnclInit_goes _ _ _ h
  | enclAdd t rd rs1 => exact execEnclAdd_goes _ _ _ h
  | enclSeal t rd rs1 => exact execEnclSeal_goes _ _ _ h
  | enclDestroy t rd rs1 => exact execEnclDestroy_goes _ _ _ h
  | enclEnter t rd rs1 => exact execEnclEnter_goes _ _ _ h
  | enclExit t rd rs1 => exact execEnclExit_goes _ _ _ h
  | enclReport t rd rs1 => exact execEnclReport_goes _ _ _ h
  | interruptTake t => exact execInterruptTake_goes _ h
  | machineCheckTake t => exact execMachineCheckTake_goes _ h
  | timerDeadline t secure => exact execTimerDeadline_goes _ _ h
  | intWorldBitWrite secure t intid toSecure => exact execIntWorldBitWrite_goes _ _ _ _ h
  | intDlv k => exact execIntDlv_goes _ h
  | sevtB k => exact execSevtB_goes _ h
  | routerSourceAssert src => exact execRouterSourceAssert_goes _ h
  | routerSend src => exact execRouterSend_goes _ h
  | gpioEdge pin level => exact execGpioEdge_goes _ _ h
  | gpioLevelDeassert pin => exact execGpioLevelDeassert_goes _ h
  | storeBufferDrain t n => exact execStoreBufferDrain_goes _ _ h
  | deviceResponse k => exact execDeviceResponse_goes _ h
  | errorResponse k => exact execErrorResponse_goes _ h
  | pendingErrorArrive k => exact execPendingErrorArrive_goes _ h
  | walkReadResponse t => exact execWalkReadResponse_goes _ h
  | prefetchIssue c n => exact execPrefetchIssue_goes _ _ h
  | rdS k => exact execRdS_goes _ h
  | rdU k => exact execRdU_goes _ h
  | upg k => exact execUpg_goes _ h
  | rdNc k => exact execRdNc_goes _ h
  | wrNc k => exact execWrNc_goes _ h
  | atomH k => exact execAtomH_goes _ h
  | atomM k => exact execAtomM_goes _ h
  | cmoP k => exact execCmoP_goes _ h
  | tlbiB k => exact execTlbiB_goes _ h
  | wbD k => exact execWbD_goes _ h
  | evictC k => exact execEvictC_goes _ h
  | snpS k => exact execSnpS_goes _ h
  | snpU k => exact execSnpU_goes _ h
  | snpI k => exact execSnpI_goes _ h
  | snpNear k => exact execSnpNear_goes _ h
  | dataS k => exact execDataS_goes _ h
  | dataE k => exact execDataE_goes _ h
  | dataM k => exact execDataM_goes _ h
  | ack k => exact execAck_goes _ h
  | retry k => exact execRetry_goes _ h
  | retryBackoffExpire n => exact execRetryBackoffExpire_goes _ h
  | reservationLapse slice => exact execReservationLapse_goes _ h
  | flitForward k => exact execFlitForward_goes _ h
  | replayRequest k payloadOnly => exact execReplayRequest_goes _ _ h
  | merSyncSend => exact execMerSyncSend_goes h
  | merSync k => exact execMerSync_goes _ h
  | contain k => exact execContain_goes _ h
  | heart k => exact execHeart_goes _ h
  | regulatorRelease k => exact execRegulatorRelease_goes _ h
  | transactionTimeout r n => exact execTransactionTimeout_goes _ _ h
  | snoopTimeout snoop => exact execSnoopTimeout_goes _ h
  | portClosed port => exact execPortClosed_goes _ h
  | portOpened port => exact execPortOpened_goes _ h
  | dramReadReturn ch n flips => exact execDramReadReturn_goes _ _ _ h
  | dramVerifyReturn ch flips => exact execDramVerifyReturn_goes _ _ h
  | probeDone ch reads => exact execProbeDone_goes _ _ h
  | spprDone ch reads => exact execSpprDone_goes _ _ h
  | scrubRead ch offset => exact execScrubRead_goes _ _ h
  | fillDone ch => exact execFillDone_goes _ h
  | ddrAlertDuringFill ch => exact execDdrAlertDuringFill_goes _ h
  | grdCommitWrite guard version => exact execGrdCommitWrite_goes _ _ h
  | grdKeyWrite guard slot w val => exact execGrdKeyWrite_goes _ _ _ _ h
  | sylEnWrite port en => exact execSylEnWrite_goes _ _ h
  | linkTrained port lanes => exact execLinkTrained_goes _ _ h
  | hello port claims => exact execHello_goes _ _ h
  | auth port a => exact execAuth_goes _ _ h
  | authTimeout port => exact execAuthTimeout_goes _ h
  | frameReceive port f => exact execFrameReceive_goes _ _ h
  | nak port seq => exact execNak_goes _ _ h
  | heartbeatSend port => exact execHeartbeatSend_goes _ h
  | linkLost port => exact execLinkLost_goes _ h
  | rekey port => exact execRekey_goes _ h
  | linkTimeExchange port said => exact execLinkTimeExchange_goes _ _ h
  | mirrorFlush c n => exact execMirrorFlush_goes _ _ h
  | partnerScanDone => exact execPartnerScanDone_goes h
  | ppsEdge => exact execPpsEdge_goes h
  | ppsLost => exact execPpsLost_goes h
  | mcGpioWorldWrite sec => exact execMcGpioWorldWrite_goes _ h
  | dmvChWorldWrite engine ch world => exact execDmvChWorldWrite_goes _ _ _ h
  | swdStart => exact execSwdStart_goes h
  | swdKick => exact execSwdKick_goes h
  | swdExpire => exact execSwdExpire_goes h
  | dmvSlotWrite engine slot val => exact execDmvSlotWrite_goes _ _ _ h
  | dbTailWrite secure inst tail => exact execDbTailWrite_goes _ _ _ h
  | dmvSegment engine ch => exact execDmvSegment_goes _ _ h
  | instFreeze secure inst => exact execInstFreeze_goes _ _ h
  | instFreezeDone inst => exact execInstFreezeDone_goes _ h
  | instThaw secure inst => exact execInstThaw_goes _ _ h
  | instSave secure inst => exact execInstSave_goes _ _ h
  | instSaveDone inst => exact execInstSaveDone_goes _ h
  | instRestore secure inst => exact execInstRestore_goes _ _ h
  | instRestoreDone inst => exact execInstRestoreDone_goes _ h
  | instReset secure inst => exact execInstReset_goes _ _ h
  | h2gDb secure inst mask => exact execH2gDb_goes _ _ _ h
  | g2hDb secure inst mask => exact execG2hDb_goes _ _ _ h
  | pcieInboundRequest port sub r => exact State.inbound_goes _ _ _ _ h
  | msiWrite port sub stream secureView data => exact execMsiWrite_goes _ _ _ _ _ h
  | pcieCompletion port n status data => exact execPcieCompletion_goes _ _ _ _ h
  | endptTimeout port n => exact execEndptTimeout_goes _ _ h
  | containedWrite port mask => exact execContainedWrite_goes _ _ h
  | containmentReleaseDone port sub => exact execContainmentReleaseDone_goes _ _ h
  | atsInvalidateCompletion stream => exact execAtsInvalidateCompletion_goes _ h
  | atsTimeout stream => exact execAtsTimeout_goes _ h
  | priPageRequest stream w0 w1 => exact execPriPageRequest_goes _ _ _ h
  | prgRespWrite val => exact execPrgRespWrite_goes _ h
  | tileStateEntered tile => exact execTileStateEntered_goes _ h
  | tileWakeDone tile => exact execTileWakeDone_goes _ h
  | vernierDroop die island => exact execVernierDroop_goes _ _ h
  | vernierRelease die island => exact execVernierRelease_goes _ _ h
  | powerLimitTick limits => exact execPowerLimitTick_goes _ h
  | slewSlot => exact execSlewSlot_goes h
  | p1Enter => exact execP1Enter_goes h
  | p1Exit => exact execP1Exit_goes h
  | p5Enter => exact execP5Enter_goes h
  | p5Exit => exact execP5Exit_goes h
  | prochotAssert => exact execProchotAssert_goes h
  | prochotDeassert => exact execProchotDeassert_goes h
  | thermtrip => exact execThermtrip_goes h
  | pmbusPoll vout iout temp => exact execPmbusPoll_goes _ _ _ h
  | pmbAlert status => exact execPmbAlert_goes _ h
  | stbyPgRise => exact execStbyPgRise_goes h
  | stbyPgFall => exact execStbyPgFall_goes h
  | powerGoodRise hub => exact execPowerGoodRise_goes _ h
  | powerGoodFall hub => exact execPowerGoodFall_goes _ h
  | resetNAssert => exact execResetNAssert_goes h
  | packageColdReset trigger => exact execPackageColdReset_goes _ h
  | packageWarmReset => exact execPackageWarmReset_goes h
  | dieReset die => exact execDieReset_goes _ h
  | coreReset c => exact execCoreReset_goes _ h
  | bootStageDone o => exact execBootStageDone_goes _ h
  | bootStageTimeout => exact execBootStageTimeout_goes h
  | bootReleaseWrite n val => exact execBootReleaseWrite_goes _ _ h
  | errorRecordStore die r => exact execErrorRecordStore_goes _ _ h
  | recordFree secure die slot val => exact execRecordFree_goes _ _ _ _ h
  | summaryClr secure => exact execSummaryClr_goes _ h
  | errCeNotifyWrite secure val => exact execErrCeNotifyWrite_goes _ _ h
  | frmSubWrite engine val => exact execFrmSubWrite_goes _ _ h
  | formeBegin engine sigOk => exact execFormeBegin_goes _ _ h
  | formeNop engine => exact execFormeNop_goes _ h
  | formeWrite engine => exact execFormeWrite_goes _ h
  | formeRead engine => exact execFormeRead_goes _ h
  | formeRmw engine => exact execFormeRmw_goes _ h
  | formePoll engine => exact execFormePoll_goes _ h
  | pollTimeout engine => exact execPollTimeout_goes _ h
  | formeQuiesce engine => exact execFormeQuiesce_goes _ h
  | quiesceHold engine => exact execQuiesceHold_goes _ h
  | quiesceCeiling engine => exact execQuiesceCeiling_goes _ h
  | formeResume engine => exact execFormeResume_goes _ h
  | formeSync engine => exact execFormeSync_goes _ h
  | syncRelease engine => exact execSyncRelease_goes _ h
  | formeStamp engine => exact execFormeStamp_goes _ h
  | formeJump engine => exact execFormeJump_goes _ h
  | formeBrnz engine => exact execFormeBrnz_goes _ h
  | formeCall engine => exact execFormeCall_goes _ h
  | formeReturn engine => exact execFormeReturn_goes _ h
  | formeFail engine => exact execFormeFail_goes _ h
  | formeEnd engine => exact execFormeEnd_goes _ h
  | registerWrite path addr val => exact execRegisterWrite_goes _ _ _ h
  | mbxBootOk => exact execMbxBootOk_goes h
  | mbxGetChain => exact execMbxGetChain_goes h
  | mbxResetCold => exact execMbxResetCold_goes h
  | mbxResetWarm => exact execMbxResetWarm_goes h
  | mbxP5Enter => exact execMbxP5Enter_goes h
  | mbxClearMinimal => exact execMbxClearMinimal_goes h
  | mbxBootReason => exact execMbxBootReason_goes h
  | mbxTelemetry => exact execMbxTelemetry_goes h
  | mbxFrisketRead => exact execMbxFrisketRead_goes h
  | mbxFrisketEnterField => exact execMbxFrisketEnterField_goes h
  | mbxFrisketClose => exact execMbxFrisketClose_goes h
  | timePair => exact execTimePair_goes h
  | bmcReadTelemetry => exact execBmcReadTelemetry_goes h
  | bmcReadBootReason n => exact execBmcReadBootReason_goes _ h
  | bmcReadErrorRecord die slot => exact execBmcReadErrorRecord_goes _ _ h
  | bmcFreeErrorRecord die slot gen => exact execBmcFreeErrorRecord_goes _ _ _ h
  | bmcReadCertificates => exact execBmcReadCertificates_goes h
  | bmcReadFrisket => exact execBmcReadFrisket_goes h
  | bmcDeliverTime tai ns age => exact execBmcDeliverTime_goes _ _ _ h
  | bmcColdReset => exact execBmcColdReset_goes h
  | bmcWarmReset => exact execBmcWarmReset_goes h
  | bmcP5Enter => exact execBmcP5Enter_goes h
  | bmcP5Exit => exact execBmcP5Exit_goes h
  | bmcClearHalted => exact execBmcClearHalted_goes h
  | bmcClearMinimal => exact execBmcClearMinimal_goes h
  | bmcOwnerEnrol keyHash sigOk => exact execBmcOwnerEnrol_goes _ _ h
  | bmcOwnerRevoke sigOk => exact execBmcOwnerRevoke_goes _ h
  | bmcEnterField sigOk => exact execBmcEnterField_goes _ h
  | bmcCloseSession => exact execBmcCloseSession_goes h
  | frisketChallenge level nonce => exact execFrisketChallenge_goes _ _ h
  | frisketPasswordProof proofOk => exact execFrisketPasswordProof_goes _ h
  | frisketOwnerProof proofOk => exact execFrisketOwnerProof_goes _ h
  | frisketVendorProof vendorOk consentOk => exact execFrisketVendorProof_goes _ _ h
  | lockoutExpire => exact execLockoutExpire_goes h
  | mcFwFault => exact execMcFwFault_goes h
  | mcRestartDone => exact execMcRestartDone_goes h
  | mcFwUpdate imageOk => exact execMcFwUpdate_goes _ h
  | testAccessInstruction op => exact execTestAccessInstruction_goes _ h
  | sylPrsntNChange port present => exact execSylPrsntNChange_goes _ _ h
  | resetNRise => exact execResetNRise_goes h
  | pcieLinkDown port sub dpc => exact execPcieLinkDown_goes _ _ _ h
  | pcieLinkUp port sub cxlOffered => exact execPcieLinkUp_goes _ _ _ h
  | perstNRelease port sub => exact execPerstNRelease_goes _ _ h
  | reportComplete t => exact execReportComplete_goes _ h

/-! A step. -/

theorem step_goes (h : s.Kept p q) : Goes p q (step s) := by
  unfold step
  grind [State.Kept, Goes, State.tick_kept, exec_goes]

end
end Sys2Proof.Machine

open Sys2Proof Sys2Proof.Machine

/-- Settles O60. -/
theorem stepsKeepMemoryCanonical : Obligations.StepsKeepMemoryCanonical := by
  unfold Obligations.StepsKeepMemoryCanonical
  intro s h
  obtain ⟨u, hu, hk⟩ := step_goes (p := s.part) (q := s.stepping) (s := s) ⟨h, rfl, rfl⟩
  exact ⟨u, hu, hk.mem, hk.part, hk.stepping⟩
end
